-- ==== Sys2Proof/Word.lean ====
section
/-! DEFINITION. The plainest types of the model: a line of data, byte enables, and the sparse map type that holds every
repeated piece of state (registers, tracker entries, hold slots, directory words) as plain data. The operations on the
map stand in Machine/Map.lean. -/

namespace Sys2Proof

/-- A 64-byte line (R1). -/
abbrev Line := BitVec 512

/-- A register-port word (R48). -/
abbrev W32 := BitVec 32

/-- A 64-bit register or steward general register. -/
abbrev W64 := BitVec 64

/-- A sparse map from a number to a value: pairs with strictly rising keys, none of them holding the value that an
unlisted key has. What an unlisted key has is a function of the key, given to every operation (Machine/Map.lean). -/
abbrev SMap (α : Type) := List (Nat × α)

end Sys2Proof
end

