-- ==== Sys2Proof/Syntax.lean ====
section
/-! DEFINITION. The commands of the block, one constructor per row of the opcode table. -/

namespace Sys2Proof

/-- The fields of a fabric header slot (R59) that a command carries; TYPE is the command itself. PA is PA[47:6]. -/
structure Hdr where
  agent : BitVec 16
  pa : BitVec 42
  tag : BitVec 16
  biid : BitVec 12
  mfield : BitVec 2
  mval : BitVec 2
  snpt : BitVec 3
  poison : Bool
  be : BitVec 64
  fwd : BitVec 16
  deriving DecidableEq, Repr

/-- The fields of a steward instruction word below its major opcode (R245): [25:21], [20:16], [15:11] and [10:0], with
the extension word of an Ext instruction. -/
structure Ins where
  gd : BitVec 5
  ga : BitVec 5
  gb : BitVec 5
  fn : BitVec 11
  ext : Option (BitVec 32)
  deriving DecidableEq, Repr

/-- The line of a Hutch maintenance operation (R325): by address, PA[47:6], or the line in an entry. -/
inductive MaintTgt
  | addr (pa : BitVec 42)
  | idx (i : BitVec 6)
  deriving DecidableEq, Repr

/-- The link fields of a received Punty frame (R494): SEQ, NAK, ACK, and whether its CRC is right. -/
structure PtHdr where
  seq : BitVec 6
  nak : Bool
  ack : BitVec 6
  crcOk : Bool
  deriving DecidableEq, Repr

/-- The flooded header (R496): ORIGIN, OSEQ, TTL. -/
structure Flood where
  origin : BitVec 8
  oseq : BitVec 16
  ttl : BitVec 8
  deriving DecidableEq, Repr

/-- What the self-test of step 3 of a cold start finds (R507): failed slice logics (9 a cluster), failed stewards (by
cluster), failed Drawer words (Drawer and word), and whether it passes. -/
structure SelfTest where
  logics : List Nat
  stewards : List Nat
  words : List (Nat × Nat)
  ok : Bool
  deriving DecidableEq, Repr

/-- A write of MODE_REQ: its value, and whether a forced transition falls in the same LCLK (R34), DESIGN CHOICE (log entry 103). -/
structure ModeWrite where
  v : BitVec 32
  same : Bool
  deriving DecidableEq, Repr

/-- The commands of the block, one constructor for each row of the opcode table. Operands: `p` a fabric or Punty port, `h` the
header received, `d` a line or a Drawer, `n` a logical slice, `c` a cluster, `m` a memory port, `t` a steward thread, `ins` the
instruction's fields below its major opcode. -/
inductive Instr
  /-- VAUX comes into range and the instance moves from OFF to LEHR (R30). -/
  | vauxRise (inst : BitVec 8) (src : BitVec 2) (sensors : List (BitVec 12)) (ok : Bool) (lref : Bool)
  /-- VAUX is lost and the instance goes to OFF from any mode (R30). -/
  | vauxLoss
  /-- Assertion of COLD_RST_N resets PORT and CORE together and overrides any warm reset (R26). -/
  | coldResetAssert
  /-- Release of COLD_RST_N begins the ten-step cold start sequence (R507). -/
  | coldStart (inst : BitVec 8) (src : BitVec 2) (test : SelfTest)
  /-- Assertion of WARM_RST_N puts CORE in reset, closes the fan-out records that are not kept, and moves MODE to WARM_START (R46). -/
  | warmResetAssert
  /-- Release of WARM_RST_N begins the warm start sequence with replay (R507). -/
  | warmStart
  /-- An enabled wake source fires and the Lehr begins restoring CORE power (R474). -/
  | wakeSourceFire (srcs : BitVec 5) (pins : BitVec 2)
  /-- After CORE reset is released on a wake with retention, the short start runs and MODE becomes SERVICE (R508). -/
  | wakeStart
  /-- CORE signals sleep-ready; the Lehr commits and power-gates CORE or drops the rails (R472). -/
  | sleepCommit
  /-- A rising edge of FREEZE_IN triggers a freeze with cause PIN (R534). -/
  | freezeIn (level : Bool)
  /-- FPn_LINK_UP falls and the LINK cause is set for every bound agent behind the port (R213). -/
  | fpLinkDown (p : BitVec 6)
  /-- Every 40 LCLK the Lehr reads the chip's current telemetry frame (R43). -/
  | ctelFrame (core : BitVec 16) (sram : BitVec 16)
  /-- Each thermal sensor is sampled and filtered once per µs (R463). -/
  | thermSample (sensors : List (BitVec 12))
  /-- At each slot start the Lehr latches, clips and sends that slot's caps and background bits (R466). -/
  | govSlotStart
  /-- With AUTO set, the governor writes the next slot entry from the peak, average and hot conditions (R467). -/
  | govCompute
  /-- The region's MCLK activity toggle stays unchanged for 10 µs and the monitor reports RG_CLK (R22). -/
  | mclkMonitorTimeout (r : BitVec 2)
  /-- A 1 ms count of one ageing-monitor pair ends and gives its slowdown D (R475). -/
  | ageingMeasurement (nu : BitVec 32) (ns : BitVec 32)
  /-- MGN_HOURS advances; crossing a multiple of 1,024 schedules a PERIODIC plan (R475). -/
  | poweredHourTick
  /-- A MemRd with MVAL S is checked at ingress and decided for a shared copy (R173). -/
  | rdS (p : BitVec 6) (h : Hdr)
  /-- A MemRdData is checked at ingress and decided as a read that may grant E (R173). -/
  | rdAny (p : BitVec 6) (h : Hdr)
  /-- A MemRd with MVAL A is checked at ingress and decided for ownership with data (R173). -/
  | rdE (p : BitVec 6) (h : Hdr)
  /-- A non-allocating read is checked and decided; only an owner is snooped (R195). -/
  | rdNa (p : BitVec 6) (h : Hdr)
  /-- A MemInv with MVAL A requests ownership without data (R173). -/
  | own (p : BitVec 6) (h : Hdr)
  /-- A MemInvNT with MVAL A is decided as OWN with the non-temporal hint (R173). -/
  | ownNt (p : BitVec 6) (h : Hdr)
  /-- A MemInv with MVAL I or S removes the requester's copy from the record (R174). -/
  | drop (p : BitVec 6) (h : Hdr)
  /-- A MemSpecRd is passed to the slice as a hint, or dropped (R63). -/
  | spec (p : BitVec 6) (h : Hdr)
  /-- The Port Complex answers a clean eviction with CMP and changes nothing (R63). -/
  | clnEv (p : BitVec 6) (h : Hdr)
  /-- The Port Complex answers a BIConflict with BI-ConflictAck placed in the agent's NDR order (R202). -/
  | biconf (p : BitVec 6) (h : Hdr)
  /-- A full-line writeback reaches its slice and is sunk, taken as snoop data or written, by the first row that applies (R197). -/
  | wb (p : BitVec 6) (kind : BitVec 2) (h : Hdr) (d : Line)
  /-- A partial writeback is decided as a writeback, with its bytes merged under byte enables (R198). -/
  | wbp (p : BitVec 6) (kind : BitVec 2) (h : Hdr) (d : Line)
  /-- An uncached full-line write takes a tracker entry, invalidates holders and writes the line (R173). -/
  | wrNa (p : BitVec 6) (h : Hdr) (d : Line)
  /-- An uncached partial write takes a tracker entry and merges its bytes over memory (R173). -/
  | wrpNa (p : BitVec 6) (h : Hdr) (d : Line)
  /-- A back-invalidate response is matched to its fan-out record and merged (R81). -/
  | birsp (p : BitVec 6) (st : BitVec 2) (h : Hdr)
  /-- A forwarder's completion is matched by BI-ID, agent and PA, and merged as its answer (R170). -/
  | dfDone (p : BitVec 6) (h : Hdr)
  /-- A profile heartbeat updates LAST_HEARD and makes the agent eligible as forwarder (R87). -/
  | dfHb (p : BitVec 6) (h : Hdr)
  /-- A credit pulse on FPn_TX_CRD returns one transmit credit of its class (R65). -/
  | txCredit (p : BitVec 6) (cls : BitVec 2)
  /-- A class stays without transmit credit for 100 µs while a message waits, so PC_TX_STALL is raised (R65). -/
  | txStallTimeout (p : BitVec 6) (cls : BitVec 2)
  /-- A waiting REQ takes a freed hold slot and is presented to its slice (R74). -/
  | holdSlotPresent
  /-- The slice's conflict check allocates a tracker entry for a REQ or refuses it (R109). -/
  | sliceReqIssue (n : BitVec 7)
  /-- The Port Complex copies the request from its hold slot into the acceptance record and sends the release (R68). -/
  | acceptanceNotice (c : BitVec 4)
  /-- The release for a tracker ID reaches the slice and sets REL (R68). -/
  | retryRelease (c : BitVec 4)
  /-- A slice refusal returns the request to its hold slot with NACKS incremented (R73). -/
  | refusalNotice (c : BitVec 4)
  /-- The Port Complex clears the acceptance record, returns the DAT credit and presents held requests (R72). -/
  | retireNotice (c : BitVec 4)
  /-- A held request reaches RETRY_TMO and is presented again (R75). -/
  | heldRetryTimeout (slot : BitVec 15)
  /-- The reservation guard expires before the head is presented, so the reservation is dropped and SL_CQ_TMO is raised (R116). -/
  | cqGuardTimeout (n : BitVec 7) (line : BitVec 42)
  /-- The cluster replicator expands one SNP message into BISnp or DF_FWD messages to the qualifying agents (R78). -/
  | snoopPhase (c : BitVec 4)
  /-- The merged snoop answer reaches the slice and the entry's action sequence continues (R81). -/
  | snpdone (n : BitVec 7)
  /-- A BISnp target expires; SNPTMO is sent and the agent's SNPTMO cause bit is set (R82). -/
  | snoopTimeout (tid : BitVec 16) (agent : BitVec 16)
  /-- An SNP entry evicts a victim Cabinet word by snooping its sharers and then writing it empty (R155). -/
  | directoryEviction (n : BitVec 7)
  /-- A request or write-data credit pulse arrives from the switch on a memory port (R341). -/
  | memCredit (m : BitVec 5) (req : Bool) (wd : Bool)
  /-- A completion on MPm_RD returns read data or a write completion to its requester (R341). -/
  | memCompletion (m : BitVec 5) (rtag : BitVec 16) (d : Line) (poison : Bool) (err : Bool)
  /-- A memory request stays outstanding beyond MP_CTL.TMO and the port fails (R350). -/
  | mpTimeout (m : BitVec 5)
  /-- A requester waits AGE × 64 MCLK without a grant and takes the next grant ahead of all priorities (R344). -/
  | arbAgeGuard (m : BitVec 5) (r : BitVec 5)
  /-- New arbiter priorities apply from the next MCLK and may preempt the holder (R347). -/
  | arbPrioWrite (m : BitVec 5) (k : BitVec 2) (v : BitVec 32)
  /-- Changes the grant mode and transfer limit at the next arbitration or when the locked sequence closes (R345). -/
  | arbModeWrite (m : BitVec 5) (v : BitVec 32)
  /-- An address map entry write is checked and taken on its high word, or refused with AMAP_ERR.BAD_ENTRY set (R337). -/
  | amapWrite (e : BitVec 14) (v : BitVec 64)
  /-- A system home map window is written, with a handoff in the same FCLK applied second (R358). -/
  | hmapWrite (w : BitVec 12) (v : BitVec 32)
  /-- Command that sets a FAILED port to RESILVER and starts the copy from its partner (R352). -/
  | memResilver
  /-- Queues a bulk-engine descriptor, which the engine then reads through the Hutch (R354). -/
  | bulkGo (t : BitVec 6) (r : BitVec 2) (desc : BitVec 32)
  /-- When background work is permitted, the bulk engine starts and runs one 64-line chunk (R355). -/
  | bulkChunk (r : BitVec 2)
  /-- The age walker increments the ages of one set's unpinned ways (R154). -/
  | ageWalkerVisit (d : BitVec 7)
  /-- A message waits at the slice ingress for SL_WDOG.TMO with no issue, and the slice logic fails (R119). -/
  | slWdogTimeout (n : BitVec 7)
  /-- In TEST, forces the adoption of a serving slice logic (R132). -/
  | clAdoptGo (c : BitVec 4) (pos : BitVec 3)
  /-- Copies one tracker entry into SL_TRK_DATA0–3 (R129). -/
  | slTrkIdxWrite (l : BitVec 8) (e : BitVec 9)
  /-- A requested mode transition is accepted, refused as ILLEGAL or BUSY, or preempted (R33). -/
  | modeReqWrite (w : ModeWrite)
  /-- An MNT SETTLE entry snoops an O owner and rewrites the line out of O (R179). -/
  | settle (n : BitVec 7)
  /-- Command that binds an agent, adds it to its group and tenant lists, and makes it LIVE (R210). -/
  | agtBind
  /-- No first heartbeat arrives in time, so the agent is bound as plain with DF_DOWNGRADE (R210). -/
  | bindHbTimeout
  /-- Command that releases an agent: holds its requests, waits for its records, walks its words, then unbinds it (R211). -/
  | agtRelease
  /-- The release wait expires, the agent becomes LIVE again and the command gives RELEASE_TMO (R211). -/
  | releaseWaitTimeout
  /-- An MNT RELEASE entry invalidates a released agent's copy and removes it from the word (R211). -/
  | release (n : BitVec 7)
  /-- Command that declares an agent dead, or queues its death while another reclaim runs (R215). -/
  | agtKill
  /-- Command that runs one probe round and returns the round-trip time (R214). -/
  | agtProbe
  /-- An MNT PROBE entry sends SNP_CUR to the agent on its probe line (R214). -/
  | probe (n : BitVec 7)
  /-- A probe round gets no answer within PROBE_TMO; the entry retires with its phase open (R214). -/
  | probeTimeout (agent : BitVec 16) (byCmd : Bool)
  /-- The link stays down through LINK_GRACE and the agent's confirmation fails (R214). -/
  | linkGraceTimeout (agent : BitVec 16)
  /-- An HB agent stays silent beyond three heartbeat periods and HBMISS is reported (R84). -/
  | heartbeatMiss (agent : BitVec 16)
  /-- An MNT RECLAIM entry removes the dead agent from a word, or takes the dead-owner path (R220). -/
  | reclaim (n : BitVec 7)
  /-- An MNT CENSUS entry snoops a sector tenant-wide and records the answers (R225). -/
  | census (n : BitVec 7)
  /-- After a phase with several E answers, the phase is repeated once 10 µs have passed (R226). -/
  | censusRepeatTimeout (n : BitVec 7)
  /-- Command that ends the cold-start census step and begins the transition to SERVICE (R510). -/
  | censusDone
  /-- Writes ga + op2 to gd (R247). -/
  | add (t : BitVec 6) (ins : Ins)
  /-- Writes ga − op2 to gd (R247). -/
  | sub (t : BitVec 6) (ins : Ins)
  /-- Writes the bitwise AND of ga and op2 to gd (R247). -/
  | and (t : BitVec 6) (ins : Ins)
  /-- Writes the bitwise OR of ga and op2 to gd (R247). -/
  | or (t : BitVec 6) (ins : Ins)
  /-- Writes the bitwise XOR of ga and op2 to gd (R247). -/
  | xor (t : BitVec 6) (ins : Ins)
  /-- Shifts ga left by op2[5:0] (R247). -/
  | shl (t : BitVec 6) (ins : Ins)
  /-- Shifts ga right by op2[5:0], with zeros in (R247). -/
  | shr (t : BitVec 6) (ins : Ins)
  /-- Shifts ga right by op2[5:0], with the sign in (R247). -/
  | sar (t : BitVec 6) (ins : Ins)
  /-- Writes the low 64 bits of ga × op2 to gd (R247). -/
  | mul (t : BitVec 6) (ins : Ins)
  /-- Counts the 1 bits of ga (R247). -/
  | popc (t : BitVec 6) (ins : Ins)
  /-- Counts the leading zeros of ga (R247). -/
  | clz (t : BitVec 6) (ins : Ins)
  /-- Writes the smaller of ga and op2, signed (R247). -/
  | min (t : BitVec 6) (ins : Ins)
  /-- Writes the larger of ga and op2, signed (R247). -/
  | max (t : BitVec 6) (ins : Ins)
  /-- Writes the smaller of ga and op2, unsigned (R247). -/
  | minu (t : BitVec 6) (ins : Ins)
  /-- Writes the larger of ga and op2, unsigned (R247). -/
  | maxu (t : BitVec 6) (ins : Ins)
  /-- Inserts ga's low bits into field F of gd (R248). -/
  | ins (t : BitVec 6) (ins : Ins)
  /-- Extracts field F of ga, zero-extended (R248). -/
  | ext (t : BitVec 6) (ins : Ins)
  /-- Extracts field F of ga, sign-extended (R248). -/
  | exts (t : BitVec 6) (ins : Ins)
  /-- Writes {op2[31:0], ga[31:0]} to gd (R247). -/
  | hi (t : BitVec 6) (ins : Ins)
  /-- Writes ga plus the sign-extended imm11 to gd (R249). -/
  | addi (t : BitVec 6) (ins : Ins)
  /-- Compares ga with gb and sets or combines predicate pd (R250). -/
  | cmp (t : BitVec 6) (ins : Ins)
  /-- Compares ga with imm32 and sets or combines predicate pd (R250). -/
  | cmpX (t : BitVec 6) (ins : Ins)
  /-- Loads 1 byte, zero-extended (R251). -/
  | ld8u (t : BitVec 6) (ins : Ins)
  /-- Loads 2 bytes, zero-extended (R251). -/
  | ld16u (t : BitVec 6) (ins : Ins)
  /-- Loads 4 bytes, zero-extended (R251). -/
  | ld32u (t : BitVec 6) (ins : Ins)
  /-- Loads 8 bytes (R251). -/
  | ld64 (t : BitVec 6) (ins : Ins)
  /-- Loads 1 byte, sign-extended (R251). -/
  | ld8s (t : BitVec 6) (ins : Ins)
  /-- Loads 2 bytes, sign-extended (R251). -/
  | ld16s (t : BitVec 6) (ins : Ins)
  /-- Loads 4 bytes, sign-extended (R251). -/
  | ld32s (t : BitVec 6) (ins : Ins)
  /-- Stores a whole 64-bit word with fresh check bits (R252). -/
  | st64 (t : BitVec 6) (ins : Ins)
  /-- Branches by a signed 26-bit word offset (R253). -/
  | b (t : BitVec 6) (off : BitVec 26)
  /-- Branches when a predicate equals the sense bit (R253). -/
  | bp (t : BitVec 6) (p : BitVec 3) (sense : Bool) (off : BitVec 22)
  /-- Branches and writes the return address to g31 (R253). -/
  | call (t : BitVec 6) (off : BitVec 26)
  /-- Branches to ga, optionally linking and leaving trap state (R254). -/
  | jmpr (t : BitVec 6) (ins : Ins)
  /-- Reads one Cabinet word by locator or by PA (R256). -/
  | dlook (t : BitVec 6) (ins : Ins)
  /-- Writes one Cabinet word after its checks, or rewrites a blind page with PAGE set (R258). -/
  | dput (t : BitVec 6) (ins : Ins)
  /-- Starts a directory eviction of a way and returns at once (R259). -/
  | devict (t : BitVec 6) (ins : Ins)
  /-- Requests an MNT entry that locks a line or sector and blocks the thread (R257). -/
  | dlock (t : BitVec 6) (ins : Ins)
  /-- The blocked dlock's MNT entry is allocated and the thread continues (R257). -/
  | dlockGrant (n : BitVec 7)
  /-- Retires the thread's lock entry (R257). -/
  | dunlock (t : BitVec 6) (ins : Ins)
  /-- Sends an MNT message to a slice, or a mailbox message to a thread (R261). -/
  | msend (t : BitVec 6) (ins : Ins)
  /-- Takes the oldest inbox message, or waits for one up to a timeout (R262). -/
  | mwait (t : BitVec 6) (ins : Ins)
  /-- mwait's timeout expires with no message and pd becomes 0 (R262). -/
  | mwaitTimeout (t : BitVec 6)
  /-- Reads a memory line into local memory through the arbiter (R263). -/
  | mrd (t : BitVec 6) (ins : Ins)
  /-- Writes a line from local memory to memory, on both mirror targets (R263). -/
  | mwr (t : BitVec 6) (ins : Ins)
  /-- Writes poison to a memory line (R263). -/
  | mpoison (t : BitVec 6) (ins : Ins)
  /-- Opens a locked sequence on a memory port (R264). -/
  | mlock (t : BitVec 6) (ins : Ins)
  /-- Closes the open locked sequence (R264). -/
  | munlock (t : BitVec 6) (ins : Ins)
  /-- A blocking memory or lock operation passes BLK_TMO, and it traps or returns TIMEOUT (R263). -/
  | blkTmoExpiry (t : BitVec 6)
  /-- Appends a record to the thread's packet buffer, and commits the packet on END (R265). -/
  | nqput (t : BitVec 6) (ins : Ins)
  /-- Sets the pending bit of an interrupt source (R266). -/
  | irq (t : BitVec 6) (ins : Ins)
  /-- Reads a register-window or thread control register (R267). -/
  | cr (t : BitVec 6) (ins : Ins)
  /-- Writes a register-window or thread control register (R267). -/
  | cw (t : BitVec 6) (ins : Ins)
  /-- Blocks until the thread's earlier stores and commits have taken effect (R270). -/
  | fence (t : BitVec 6) (ins : Ins)
  /-- Makes the thread WAITING until a message, interrupt, time or background bit arrives (R271). -/
  | yield (t : BitVec 6) (ins : Ins)
  /-- A waiting thread becomes ready again (R271). -/
  | yieldWake (t : BitVec 6)
  /-- Traps with cause SW (R272). -/
  | trap (t : BitVec 6) (ins : Ins)
  /-- Halts the thread, ending its locks and any open locked sequence (R272). -/
  | halt (t : BitVec 6) (ins : Ins)
  /-- Writes one rule or action step into the inactive bank of every slice logic (R278). -/
  | rload (t : BitVec 6) (ins : Ins)
  /-- A blocked rload is applied once DRAINING returns to 0 (R298). -/
  | rloadUnblock (t : BitVec 6)
  /-- Makes the inactive bank active in every slice logic (R299). -/
  | rswap (t : BitVec 6) (ins : Ins)
  /-- A steward core fails on parity; its threads stop and its work moves to the next steward (R280). -/
  | stewardFailure (c : BitVec 4)
  /-- Starts a HALTED or FAULTED thread at its PC (R283). -/
  | stwStart (t : BitVec 6)
  /-- Halts a thread at its next instruction boundary (R283). -/
  | stwStop (t : BitVec 6)
  /-- Sets the PC of a HALTED or FAULTED thread (R285). -/
  | stwPcWrite (t : BitVec 6) (pc : BitVec 64)
  /-- Command that checks a bank image, loads it by rload and optionally swaps (R305). -/
  | rbLoad
  /-- Command that issues rswap and returns the new active profile (R305). -/
  | rbSwap
  /-- A gap of more than 100 ms between mailbox words fails the fetch (R307). -/
  | mboxTmo
  /-- Pushes one word onto the boot mailbox FIFO, or drops it and sets OVF (R313). -/
  | bootMbox (w : BitVec 32)
  /-- Reading pops the mailbox FIFO head (R313). -/
  | bootMboxPop
  /-- A Hutch miss's line arrives and is installed, ending the block (R318). -/
  | hutchFill (c : BitVec 4) (d : Line) (poison : Bool) (err : Bool)
  /-- A next-line prefetch returns and is installed at age 2 (R323). -/
  | hutchPrefetchFill (c : BitVec 4) (d : Line) (poison : Bool) (err : Bool)
  /-- Every TICK × 256 CCLK the ages of the valid Hutch entries advance (R321). -/
  | hutchTick (c : BitVec 4)
  /-- A dirty line's write from the eviction buffer completes and frees its buffer entry (R324). -/
  | hutchEvictWriteDone (c : BitVec 4) (k : BitVec 3)
  /-- Maintenance that allocates a zeroed dirty line without fetching it (R325). -/
  | hutchZero (c : BitVec 4) (t : Option (BitVec 6)) (pa : BitVec 42) (req : BitVec 3)
  /-- Maintenance that writes a dirty line to memory and keeps it (R325). -/
  | hutchClean (c : BitVec 4) (t : Option (BitVec 6)) (tgt : MaintTgt)
  /-- Maintenance that drops a line and discards its dirty data (R325). -/
  | hutchInval (c : BitVec 4) (t : Option (BitVec 6)) (tgt : MaintTgt)
  /-- Maintenance that cleans and then invalidates a line (R325). -/
  | hutchCleanInval (c : BitVec 4) (t : Option (BitVec 6)) (tgt : MaintTgt)
  /-- Enables or disables the Hutch, setting DIRTY_OFF when dirty lines remain (R327). -/
  | hutchEnWrite (c : BitVec 4) (v : BitVec 32)
  /-- A queued corrected word is written back in an idle Drawer cycle (R375). -/
  | correctionWriteback (d : BitVec 7)
  /-- Every LEAK ms a leaky bucket's level falls by 1 (R376). -/
  | bucketLeak (src : BitVec 9)
  /-- A hard word is copied into a free Cullet spare in idle cycles and the remap becomes valid (R378). -/
  | culletCopy (d : BitVec 7)
  /-- Once emptied, a hard word's way is written zero and marked retired (R378). -/
  | wayRetire (d : BitVec 7)
  /-- The scrubber reads one page, corrects it and checks P and Q (R380). -/
  | scrubVisit (d : BitVec 7)
  /-- A lap passes SCRUB_LAP_MAX, setting SI_ERR.SLOW and raising SCRUB_SLOW (R381). -/
  | scrubLapTimeout (d : BitVec 7)
  /-- Stops the scrubber, or resumes the lap in progress at SCRUB_POS (R386). -/
  | scrubEnWrite (d : BitVec 7) (v : BitVec 32)
  /-- Arms the store injector in TEST, or sets REFUSED outside TEST (R383). -/
  | siInjWrite (d : BitVec 7) (v : BitVec 32)
  /-- A report reaches the instance collector, which latches or merges it and applies its reactions (R402). -/
  | faultReport
  /-- A source's promotion window ends short of N and its count returns to 0 (R401). -/
  | faultWindowEnd (code : BitVec 8)
  /-- The 66-LCLK FAULT_N pulse ends (R407). -/
  | faultNPulseEnd
  /-- Writing FC_STATUS.FAULT clears the record when it is not live, and otherwise sets DENIED (R404). -/
  | fcClear
  /-- Writing RELEASE clears HELD on FAULT_N (R418). -/
  | fcPinRelease
  /-- Injects a fault report in TEST, or sets REFUSED (R414). -/
  | fcInjGo (code : BitVec 8) (subject : BitVec 16)
  /-- The queue writes a ready packet into its ring and makes it visible, or drops it (R428). -/
  | packetCommit
  /-- Reading NQ_RD0 pops the next record under ring priority (R432). -/
  | nqPop
  /-- Discards the rest of the packet that the reader is inside (R434). -/
  | nqDropPkt
  /-- Records a ring's read position as its mark (R436). -/
  | nqMark (r : BitVec 3)
  /-- Returns a ring's read pointer to its mark when the mark is still valid (R436). -/
  | nqRewind (r : BitVec 3)
  /-- Checks the ring layout and empties the rings, or disables the queue (R449). -/
  | nqEnWrite (en : Bool)
  /-- A Lehr message goes to the queue, or to the packed fall-back while the sorter is off (R438). -/
  | lehrMessage
  /-- Reading NQ_FB_RD0 pops the oldest fall-back record (R439). -/
  | nqFbPop
  /-- Software sets pending bits (R456). -/
  | icPendWrite (k : BitVec 4) (v : BitVec 32)
  /-- Software clears pending bits (R456). -/
  | icPclrWrite (k : BitVec 4) (v : BitVec 32)
  /-- Reading claims the highest eligible source for a target and clears it (R443). -/
  | icClaim (t : BitVec 5)
  /-- Accepts a command, raising SEQ and setting source 6, or refuses it (R445). -/
  | cmdGo
  /-- The executing thread posts a command result and source 3 pulses (R446). -/
  | cmdPost (t : BitVec 6) (code : BitVec 8) (seq : BitVec 16) (val : BitVec 32)
  /-- Writing SLEEP_CTL.WAKE fires the MGMT wake source (R482). -/
  | sleepCtlWake
  /-- Stages one ledger record (R487). -/
  | ldgPush
  /-- Accepts a staged or fresh ledger and runs a RESTORE plan, or reports why not (R478). -/
  | ldgCommit (fresh : Bool)
  /-- Empties the ledger staging (R487). -/
  | ldgClear
  /-- Starts an ageing pass and a MANUAL plan (R476). -/
  | mgnGo
  /-- Command that pushes and commits a saved ageing ledger (R478). -/
  | ledgerLoad
  /-- Writing PT_CTL.EN starts attempt 1 of Punty bring-up, or disables the port (R490). -/
  | ptEnable (p : BitVec 2) (v : BitVec 32)
  /-- An attempt gets no CAP in 100 µs and backs off, or the port becomes ABSENT (R490). -/
  | ptAttemptTimeout (p : BitVec 2)
  /-- The backoff ends and the next attempt starts (R490). -/
  | ptBackoffEnd (p : BitVec 2)
  /-- The one-second retry of an ABSENT port starts a fresh sequence (R490). -/
  | ptBgRetry (p : BitVec 2)
  /-- The lane 0 detector sees the partner leave idle and ends the wait (R491). -/
  | ptIdleExit (p : BitVec 2)
  /-- A lane loses lock, giving UP_1LANE, DOWN or a failed attempt (R492). -/
  | ptLockLoss (p : BitVec 2) (lanes : BitVec 2)
  /-- A lost lane relocks and the port returns to UP (R492). -/
  | ptLaneRelock (p : BitVec 2)
  /-- An ACK that fails to advance for 2 µs resends the unacknowledged frames (R494). -/
  | ptReplayTimeout (p : BitVec 2)
  /-- A received CAP frame brings the port UP (R495). -/
  | cap (p : BitVec 2) (h : PtHdr) (inst : BitVec 8) (ver : BitVec 8) (lanes : BitVec 2) (types : BitVec 16)
  /-- A received heartbeat refreshes the partner and its DIST (R498). -/
  | hb (p : BitVec 2) (h : PtHdr) (inst : BitVec 8) (dist : BitVec 8)
  /-- Every 10 µs each UP port sends an HB (R498). -/
  | hbSend
  /-- A direct partner is silent for 30 µs, is declared lost, and a LOST frame is flooded (R498). -/
  | peerHbLoss (inst : BitVec 8)
  /-- A flooded FAULT frame raises PEER_FAULT and is forwarded (R497). -/
  | faultFrame (p : BitVec 2) (h : PtHdr) (f : Flood) (code : BitVec 8) (subject : BitVec 16) (sev : BitVec 2) (inj : Bool)
  /-- A flooded FREEZE frame triggers the local freeze with cause PEER (R497). -/
  | freezeFrame (p : BitVec 2) (h : PtHdr) (f : Flood) (cause : BitVec 8)
  /-- Every PERIOD ms the instance sends TSYNC_REQ upstream (R500). -/
  | tsyncPeriod
  /-- The partner stamps the request and answers TSYNC_RSP (R500). -/
  | tsyncReq (p : BitVec 2) (h : PtHdr) (t1 : BitVec 64)
  /-- The offset is computed and the time base is slewed or stepped forward (R500). -/
  | tsyncRsp (p : BitVec 2) (h : PtHdr) (t1 : BitVec 64) (t2 : BitVec 64) (t3 : BitVec 64)
  /-- Every 100 µs a PWR frame is sent to package partners and the share is recomputed (R501). -/
  | pwrSend
  /-- A received PWR frame updates a partner's demand and budget (R501). -/
  | pwr (p : BitVec 2) (h : PtHdr) (inst : BitVec 8) (demand : BitVec 16) (budget : BitVec 16)
  /-- A flooded handoff rewrites HOME, STANDBY and SB_EN if its GEN is newer (R502). -/
  | hmapSet (p : BitVec 2) (h : PtHdr) (f : Flood) (w : BitVec 12) (home : BitVec 8) (standby : BitVec 8) (sbEn : Bool) (gen : BitVec 8)
  /-- A flooded DEAD frame starts a local reclaim with cause PEER (R216). -/
  | deadFrame (p : BitVec 2) (h : PtHdr) (f : Flood) (agent : BitVec 16) (cause : BitVec 8)
  /-- A flooded LOST frame marks the named instance lost (R498). -/
  | lostFrame (p : BitVec 2) (h : PtHdr) (f : Flood) (inst : BitVec 8)
  /-- Command that makes this instance home of a window and floods HMAP_SET (R502). -/
  | hmapMove
  /-- A start step exceeds STEP_TMO and the start fails (R507). -/
  | startStepTimeout
  /-- After RETRY_DLY the Lehr begins the next warm or cold start itself (R511). -/
  | startRetry (test : SelfTest)
  /-- Writing RETRY leaves exhaustion, clears both counters and begins a cold start (R512). -/
  | startCtlRetry (test : SelfTest)
  /-- Signals that both maps are loaded, releasing step 7 of a cold start (R525). -/
  | mapsReadyWrite
  /-- Every PERIOD the telemetry reader writes all counters as packets, or counts a skip (R532). -/
  | telSweep
  /-- Writing FRZ_CTL.TRIG triggers a freeze with cause SW (R534). -/
  | frzTrig
  /-- Clears the freeze state and lowers FREEZE_OUT (R536). -/
  | frzRearm
  /-- A write sets a counter's value and wins over that cycle's increment (R529). -/
  | telCntWrite (id : BitVec 11) (v : BitVec 64)
  /-- FORCE_OFF holds or releases HOME_READY (R53). -/
  | homeCtlWrite (v : BitVec 32)
  /-- Stops new credit grants, or grants the pool entries not already credited (R88). -/
  | fpEnWrite (p : BitVec 6) (v : BitVec 32)
  /-- A diagnostic window read returns the raw stored bits of an array word (R548). -/
  | diagRead (off : BitVec 24)
  /-- Reading the low word of a 64-bit register latches its high word (R7). -/
  | reg64LowRead (off : BitVec 24)
  /-- Writing the low word of a 64-bit register arms its write holding register (R8). -/
  | reg64LowWrite (off : BitVec 24) (v : BitVec 32)
  /-- Writing the high word of an armed 64-bit register takes both words together (R8). -/
  | reg64HighWrite (off : BitVec 24) (v : BitVec 32)
  /-- Reading an RC field returns its value and clears it (R3). -/
  | rcRead (off : BitVec 24)
  /-- A write to any register without a row of its own, under the access codes (R3). -/
  | registerWrite (off : BitVec 24) (v : BitVec 32)
  /-- FPn_LINK_UP rises for an agent's port during link-down confirmation and probe rounds start then (R214). -/
  | fpLinkUp (p : BitVec 6)
  /-- A received header whose opcode R60 does not map is refused as PC_BAD_OPC in the class of its code group and its credit is returned (R63). -/
  | unmappedOpcode (p : BitVec 6) (typ : BitVec 6) (h : Hdr)
  /-- A parity error in a slice logic's pipeline control fails the logic, raises SL_LOGIC and starts adoption (R119). -/
  | logicParError (l : BitVec 8)
  /-- A thread issues a word with an undefined major opcode, such as 0x00 or an extension word branched into, and traps ILLEGAL (R246). -/
  | illegalInstruction (t : BitVec 6) (w : BitVec 32)
  /-- A repeat-tracker entry expires when RPT_WIN has passed since its first counted correction, lowering SI_RPT.OCC (R377). -/
  | repeatEntryExpiry (d : BitVec 7)
  deriving DecidableEq, Repr

end Sys2Proof
end

