-- ==== Sys2Proof/Decode.lean ====
section
/-! DEFINITION. What comes to the block as bits. The opcode table gives no row any bits: the block takes its commands on pins,
buses and its register port, and none of them is spelled by an instruction word. A beat of a fabric port does spell commands: its
header slots (R58 to R60). -/

namespace Sys2Proof

/-- The command that the bits of a table word spell: none, for no row of the table gives bits. -/
def decodeTableWord (_nbits _w : Nat) : Option Instr := none

/-! ### Header slots of a fabric port (R58, R59) -/

/-- TYPE, VALID and BE_NEXT of a header slot. -/
def slotType (w : BitVec 128) : Nat := (w.extractLsb' 0 6).toNat
def slotValid (w : BitVec 128) : Bool := w.getLsbD 100
def slotBeNext (w : BitVec 128) : Bool := w.getLsbD 101

/-- The other fields of a header slot, with the byte enables that the next slot carried. -/
def slotHdr (w : BitVec 128) (be : BitVec 64) : Hdr :=
  ⟨w.extractLsb' 6 16, w.extractLsb' 22 42, w.extractLsb' 64 16, w.extractLsb' 80 12, w.extractLsb' 92 2, w.extractLsb' 94 2,
   w.extractLsb' 96 3, w.getLsbD 99, be, w.extractLsb' 102 16⟩

/-- A message whose TYPE carries line data has a data beat (R60). -/
def typeHasLine (typ : Nat) : Bool := 0x10 ≤ typ && typ ≤ 0x17

/-- The command that a received header of TYPE `typ` on port `p` is, with the line of its data beat (R60). -/
def slotCmd (p : BitVec 6) (typ : Nat) (h : Hdr) (d : Line) : Instr :=
  match typ with
  | 0x01 => .rdS p h
  | 0x02 => .rdE p h
  | 0x03 => .rdNa p h
  | 0x04 => .rdAny p h
  | 0x05 => .own p h
  | 0x06 => .ownNt p h
  | 0x07 => .drop p h
  | 0x08 => .spec p h
  | 0x09 => .biconf p h
  | 0x0A => .clnEv p h
  | 0x10 => .wb p 0 h d
  | 0x11 => .wb p 1 h d
  | 0x12 => .wb p 2 h d
  | 0x13 => .wrNa p h d
  | 0x14 => .wbp p 0 h d
  | 0x15 => .wbp p 1 h d
  | 0x16 => .wbp p 2 h d
  | 0x17 => .wrpNa p h d
  | 0x18 => .birsp p 0 h
  | 0x19 => .birsp p 1 h
  | 0x1A => .birsp p 2 h
  | 0x1C => .dfDone p h
  | 0x1D => .dfHb p h
  | _ => .unmappedOpcode p (BitVec.ofNat 6 typ) h

/-- The headers of a beat in slot order, with their byte enables: a slot with VALID = 0 carries nothing, and one that follows
BE_NEXT is no header. -/
def beatHdrs : List (BitVec 128) → List (Nat × Hdr)
  | [] => []
  | [w] => if slotValid w then [(slotType w, slotHdr w 0)] else []
  | w :: b :: l =>
    if ! slotValid w then beatHdrs (b :: l)
    else if slotBeNext w then (slotType w, slotHdr w (b.extractLsb' 0 64)) :: beatHdrs l
    else (slotType w, slotHdr w 0) :: beatHdrs (b :: l)

/-- The headers of a beat with the data beats that follow it, in slot order; a header whose data beat has not come waits. -/
def beatCmdsOf (p : BitVec 6) : List (Nat × Hdr) → List Line → List Instr
  | [], _ => []
  | (typ, h) :: l, ds =>
    if typeHasLine typ then
      match ds with
      | d :: ds' => slotCmd p typ h d :: beatCmdsOf p l ds'
      | [] => []
    else slotCmd p typ h 0 :: beatCmdsOf p l ds

/-- The commands of a header beat on FPn_RX_DAT and the data beats after it (R58). -/
def beatCmds (p : BitVec 6) (beat : BitVec 512) (data : List Line) : List Instr :=
  beatCmdsOf p (beatHdrs ((List.range 4).map (fun k => beat.extractLsb' (128 * k) 128))) data

/-! ### Instruction words of a steward thread (R245 to R247) -/

/-- The fields of a word in the Reg, Imm and Ext formats; `x` is the extension word of an Ext one. -/
def wordIns (w : BitVec 32) (x : Option (BitVec 32)) : Ins :=
  ⟨w.extractLsb' 21 5, w.extractLsb' 16 5, w.extractLsb' 11 5, w.extractLsb' 0 11, x⟩

/-- An ALU operation by func[5:0] (R247). -/
def aluInstr (t : BitVec 6) (f : Nat) (i : Ins) : Option Instr :=
  match f with
  | 0x00 => some (.add t i)
  | 0x01 => some (.sub t i)
  | 0x02 => some (.and t i)
  | 0x03 => some (.or t i)
  | 0x04 => some (.xor t i)
  | 0x05 => some (.shl t i)
  | 0x06 => some (.shr t i)
  | 0x07 => some (.sar t i)
  | 0x08 => some (.mul t i)
  | 0x09 => some (.popc t i)
  | 0x0A => some (.clz t i)
  | 0x0B => some (.min t i)
  | 0x0C => some (.max t i)
  | 0x0D => some (.minu t i)
  | 0x0E => some (.maxu t i)
  | 0x0F => some (.ins t i)
  | 0x10 => some (.ext t i)
  | 0x11 => some (.exts t i)
  | 0x12 => some (.hi t i)
  | _ => none

/-- The instruction that thread `t` issues from a word, whose next word is `x` (R246): ILLEGAL for a major opcode that the table does
not list, and for a func value that R247 does not. Reserved fields that are not 0 are the instruction's own to refuse. -/
def wordInstr (t : BitVec 6) (w x : BitVec 32) : Instr :=
  let i := wordIns w none
  let e := wordIns w (some x)
  match (w.extractLsb' 26 6).toNat with
  | 0x01 => (aluInstr t (w.extractLsb' 0 6).toNat i).getD (.illegalInstruction t w)
  | 0x02 => (aluInstr t (w.extractLsb' 0 6).toNat e).getD (.illegalInstruction t w)
  | 0x03 => .addi t i
  | 0x04 => .cmp t i
  | 0x05 => .cmpX t e
  | 0x08 => .ld8u t i
  | 0x09 => .ld16u t i
  | 0x0A => .ld32u t i
  | 0x0B => .ld64 t i
  | 0x0C => .ld8s t i
  | 0x0D => .ld16s t i
  | 0x0E => .ld32s t i
  | 0x0F => .st64 t i
  | 0x10 => .b t (w.extractLsb' 0 26)
  | 0x11 => .bp t (w.extractLsb' 23 3) (w.getLsbD 22) (w.extractLsb' 0 22)
  | 0x12 => .call t (w.extractLsb' 0 26)
  | 0x13 => .jmpr t i
  | 0x18 => .dlook t i
  | 0x19 => .dput t i
  | 0x1A => .devict t i
  | 0x1B => .dlock t i
  | 0x1C => .dunlock t i
  | 0x20 => .msend t i
  | 0x21 => .mwait t i
  | 0x24 => .mrd t i
  | 0x25 => .mwr t i
  | 0x26 => .mpoison t i
  | 0x27 => .mlock t i
  | 0x28 => .munlock t i
  | 0x2C => .nqput t i
  | 0x2D => .irq t i
  | 0x30 => .cr t e
  | 0x31 => .cw t e
  | 0x38 => .fence t i
  | 0x39 => .yield t i
  | 0x3A => .trap t i
  | 0x3B => .halt t i
  | 0x3C => .rload t i
  | 0x3D => .rswap t i
  | _ => .illegalInstruction t w

end Sys2Proof
end

