-- ==== Sys2Proof/Machine/Map.lean ====
section
/-! DEFINITION. Reading and writing the sparse maps of State. The default value of a key is a function `d : Nat → α`
given by the caller; a map never lists an entry equal to its default, so equal contents are equal lists. -/

namespace Sys2Proof.SMap

variable {α : Type}

/-- The value at key `k`: the listed one, else the default. -/
def getD (d : Nat → α) : SMap α → Nat → α
  | [], k => d k
  | (j, v) :: m, k => if j = k then v else getD d m k

/-- Puts `(k, v)` at its place in the rising order of keys, replacing the entry of `k`. -/
def ins (k : Nat) (v : α) : SMap α → SMap α
  | [] => [(k, v)]
  | (j, w) :: m => if k < j then (k, v) :: (j, w) :: m else if k = j then (k, v) :: m else (j, w) :: ins k v m

/-- Drops every entry of key `k`. -/
def erase (k : Nat) (m : SMap α) : SMap α := m.filter (fun e => e.1 != k)

/-- Writes `v` at `k`, keeping the canonical form: the default value is not listed. -/
def set [DecidableEq α] (d : Nat → α) (m : SMap α) (k : Nat) (v : α) : SMap α :=
  if v = d k then erase k m else ins k v m

/-- Changes the value at `k` by `f`. -/
def upd [DecidableEq α] (d : Nat → α) (m : SMap α) (k : Nat) (f : α → α) : SMap α :=
  set d m k (f (getD d m k))

/-- Keys strictly rise. -/
def sorted : SMap α → Bool
  | [] => true
  | [_] => true
  | (j, _) :: (k, w) :: m => decide (j < k) && sorted ((k, w) :: m)

/-- The canonical form: keys strictly rise and no entry equals its default. -/
def wf [DecidableEq α] (d : Nat → α) (m : SMap α) : Bool :=
  sorted m && m.all (fun e => decide (e.2 ≠ d e.1))

/-- The listed entries whose key lies in `[lo, lo + n)`, with the key taken relative to `lo`. -/
def slice (m : SMap α) (lo n : Nat) : List (Nat × α) :=
  (m.filter (fun e => lo ≤ e.1 && e.1 < lo + n)).map (fun e => (e.1 - lo, e.2))

end Sys2Proof.SMap
end

