-- ==== Sys2Proof/Machine/RegTable.lean ====
section
/-! DEFINITION. The register window (chapter 20, R542): one name per register of every chapter, its offset, its two
strides and counts (unit and index), its reset domain, its width, and the fields its table gives, each with its access
code (R3) and reset value. A bit that no field covers is reserved and reads 0 (R5). The rule each register comes from
is beside its row. -/

namespace Sys2Proof.Machine

/-- Reset and power domains (R25); `cold` is CORE storage that only a cold reset clears (PT_CTL, R504). -/
inductive Dom | lehr | port | core | cold
  deriving DecidableEq, Repr

/-- Access codes (R3). -/
inductive Acc | ro | rw | w1c | w1s | wo | rc | live
  deriving DecidableEq, Repr

/-- A field's reset value: a constant, or a value its table gives by unit number. -/
inductive Rst | const (n : Nat) | srcSev | srcMode | ringBase | ringLog2 | ringOf (k : Nat) | hutchMask
  deriving DecidableEq, Repr

/-- The registers of the window (R542). -/
inductive RegName
  | ID | CAPS | MODE | MODE_REQ | DIAG_CTL | PIN_STATUS | HOME_CTL | STRAP | SWEEP_STATUS | RB_STATUS
  | RB_CTL | RB_PROF_ACT | RB_PROF_INACT | RB_ERR | RB_ERR_INFO | PARISON_LOC | BOOT_MBOX | BOOT_MBOX_POP
  | BOOT_MBOX_STAT | BOOT_STATUS | LEHR_STATUS | SLEEP_CTL | SLEEP_STATUS | LEHR_IRQ | WAKE_TIME | THERM_CTL
  | THERM_BAD | THERM_RGN | THERM_S | GOV_CTL | GOV_ILIM | GOV_BG | GOV_CEIL | GOV_STATUS | GOV_IMEAS
  | GOV_PKG | GOV_SLOT_CAPL | GOV_SLOT_CAPH | GOV_SLOT_BG | MGN_CTL | MGN_PLAN | MGN_HOURS | MGN_GEN
  | LDG_REC | LDG_CTL | AGE_MON | START_STATUS | START_CTL | START_CNT | FC_STATUS | FC_FIRST | FC_FIRST_TIME
  | FC_CTL | FC_PIN_CTL | FC_RECOV | FC_INJ | FC_PEER | FC_MERGED | FC_SRC | RLC_FIRST | RLC_TIME | IC_SRC
  | IC_PEND | IC_PCLR | IC_THRESH | IC_CLAIMT | IC_CLAIM | NQ_CTL | NQ_STATUS | NQ_LEVEL | NQ_RD0 | NQ_RD
  | NQ_RD_INFO | NQ_DROP_PKT | NQ_MARK | NQ_REWIND | NQ_RING | NQ_RING_STAT | NQ_DROPS | NQ_TMAP | NQ_FB_RD0
  | NQ_FB_RD | NQ_FB_STAT | CMD_DESC | CMD_ARG | CMD_GO | CMD_RES | CMD_VAL | CMD_POST | CMD_POST_VAL
  | PT_CTL | PT_STATUS | PT_ERR | PT_CNT | PT_GCTL | PT_PKG | PT_TSYNC | PT_TSYNC_OFS | PT_LOST | FRZ_CTL
  | FRZ_STATUS | FRZ_TIME | FRZ_CNT_SEL | FRZ_CNT_VAL | TEL_CTL | TEL_STATUS | INST_FRZ | LEHR_FRZ
  | LEHR_FRZ_CAPL | LEHR_FRZ_CAPH | LEHR_FRZ_BG | FP_CTL | FP_STATUS | FP_ERR | FP_ERR_INFO | FP_TEL_SEL
  | FP_TEL_CNT | FP_TEL_SNAP | FP_FRZ | PC_CTL | PC_BIID | SNP_TMO | HOLD_STATUS | RS_STATUS | AGT_IDX
  | AGT_DATA | DFP_LOCAL | LIVE_CTL | AGT_EVT | RECLAIM_STATUS | RECLAIM_LOST | ADOPT_WIN_A | ADOPT_WIN_B
  | REPLAY_STAT0 | REPLAY_STAT1 | REPLAY_STAT2 | MP_CTL | MP_STATE | MP_ERR | MP_ERR_INFO | ARB_MODE
  | ARB_PRIO | ARB_PRIO2 | ARB_PROG | MP_TEL_SEL | MP_TEL_CNT | MP_TEL_SNAP | MP_FRZ | BULK_GO | BULK_STATUS
  | BULK_CUR | HMAP | AMAP_ERR | DIE_BKT_P | DIE_INJ_P | DIE_BKT_NQ | DIE_INJ_NQ | DIE_BKT_L | DIE_INJ_L
  | AMAP | CL_SLMAP | CL_SPARE | CL_ADOPT | STW_CTL | STW_STATUS | STW_PC | STW_TRAP | HUTCH_CTL
  | HUTCH_STATUS | HUTCH_MASK | HUTCH_RLWIN_BASE | HUTCH_RLWIN_LIM | HUTCH_MAINT_PA | HUTCH_MAINT | CL_BKT
  | CL_INJ | CLC_FIRST | CLC_TIME | CL_TEL_SEL | CL_TEL_CNT | CL_TEL_SNAP | CL_FRZ | SL_STATUS | SL_OCC
  | SL_CQ | SL_CTL | SL_ERR | SL_WDOG | SL_TRK_IDX | SL_TRK_DATA | SLC_FIRST | SLC_TIME | SL_TEL_SEL
  | SL_TEL_CNT | SL_TEL_SNAP | SL_FRZ | CAB_CTL | CAB_AGE | CAB_OCC_FINE | CAB_OCC_COARSE | CAB_STATE
  | CAB_ERR | CAB_OCC_O | CAB_OCC_F | CAB_BLIND_A | CAB_BLIND_B | SCRUB_CTL | SCRUB_LAP | SCRUB_LAP_MAX
  | SCRUB_POS | SI_BUCKET | SI_RPT | SI_ERR | CULLET | SI_RETIRED | SI_INJ
  deriving DecidableEq, Repr

/-- A field of a register: bits `hi:lo`, access code, reset value. -/
structure Fld where
  reg : RegName
  hi : Nat
  lo : Nat
  acc : Acc
  rst : Rst
  deriving DecidableEq, Repr

/-- Where a register stands and what it holds. Instance `(i, j)` is at `base + s1 * i + s2 * j`. -/
structure RegDesc where
  base : Nat
  s1 : Nat
  n1 : Nat
  s2 : Nat
  n2 : Nat
  dom : Dom
  words : Nat
  deriving DecidableEq, Repr

abbrev Fld.ID_PART : Fld := ⟨.ID, 15, 0, .ro, .const 19208⟩
abbrev Fld.ID_MAJOR : Fld := ⟨.ID, 19, 16, .ro, .const 1⟩
abbrev Fld.ID_MINOR : Fld := ⟨.ID, 23, 20, .ro, .const 0⟩
abbrev Fld.ID_VENDOR : Fld := ⟨.ID, 31, 24, .ro, .const 213⟩
abbrev Fld.CAPS_CLUSTERS : Fld := ⟨.CAPS, 3, 0, .ro, .const 15⟩
abbrev Fld.CAPS_PT_PORTS : Fld := ⟨.CAPS, 7, 4, .ro, .const 4⟩
abbrev Fld.CAPS_FP_MAX : Fld := ⟨.CAPS, 13, 8, .ro, .const 63⟩
abbrev Fld.CAPS_MP_MAX : Fld := ⟨.CAPS, 18, 14, .ro, .const 31⟩
abbrev Fld.CAPS_COMPAT : Fld := ⟨.CAPS, 19, 19, .ro, .const 1⟩
abbrev Fld.CAPS_DFP_VER : Fld := ⟨.CAPS, 23, 20, .ro, .const 1⟩
abbrev Fld.MODE_CUR : Fld := ⟨.MODE, 2, 0, .ro, .const 1⟩
abbrev Fld.MODE_PREV : Fld := ⟨.MODE, 6, 4, .ro, .const 0⟩
abbrev Fld.MODE_BUSY : Fld := ⟨.MODE, 7, 7, .live, .const 0⟩
abbrev Fld.MODE_FORCED : Fld := ⟨.MODE, 8, 8, .ro, .const 0⟩
abbrev Fld.MODE_RETAINED : Fld := ⟨.MODE, 9, 9, .ro, .const 0⟩
abbrev Fld.MODE_REQ_REQ : Fld := ⟨.MODE_REQ, 2, 0, .rw, .const 4⟩
abbrev Fld.MODE_REQ_RETAIN : Fld := ⟨.MODE_REQ, 3, 3, .rw, .const 1⟩
abbrev Fld.MODE_REQ_STATUS : Fld := ⟨.MODE_REQ, 6, 4, .ro, .const 0⟩
abbrev Fld.DIAG_CTL_ARRAY : Fld := ⟨.DIAG_CTL, 2, 0, .rw, .const 0⟩
abbrev Fld.DIAG_CTL_BANK : Fld := ⟨.DIAG_CTL, 3, 3, .rw, .const 0⟩
abbrev Fld.DIAG_CTL_UNIT : Fld := ⟨.DIAG_CTL, 11, 4, .rw, .const 0⟩
abbrev Fld.DIAG_CTL_EN : Fld := ⟨.DIAG_CTL, 12, 12, .rw, .const 0⟩
abbrev Fld.PIN_STATUS_HOME_READY : Fld := ⟨.PIN_STATUS, 0, 0, .live, .const 0⟩
abbrev Fld.PIN_STATUS_HOME_KEEP : Fld := ⟨.PIN_STATUS, 1, 1, .live, .const 0⟩
abbrev Fld.PIN_STATUS_FAULT_N : Fld := ⟨.PIN_STATUS, 2, 2, .live, .const 1⟩
abbrev Fld.PIN_STATUS_FREEZE_IN : Fld := ⟨.PIN_STATUS, 3, 3, .live, .const 0⟩
abbrev Fld.PIN_STATUS_FREEZE_OUT : Fld := ⟨.PIN_STATUS, 4, 4, .live, .const 0⟩
abbrev Fld.PIN_STATUS_WAKE_IN : Fld := ⟨.PIN_STATUS, 6, 5, .live, .const 0⟩
abbrev Fld.PIN_STATUS_RAIL_REQ : Fld := ⟨.PIN_STATUS, 7, 7, .live, .const 1⟩
abbrev Fld.PIN_STATUS_CTEL_ABSENT : Fld := ⟨.PIN_STATUS, 8, 8, .w1c, .const 0⟩
abbrev Fld.PIN_STATUS_WARM_IGN : Fld := ⟨.PIN_STATUS, 9, 9, .w1c, .const 0⟩
abbrev Fld.PIN_STATUS_LREF_LOCK : Fld := ⟨.PIN_STATUS, 10, 10, .live, .const 0⟩
abbrev Fld.HOME_CTL_FORCE_OFF : Fld := ⟨.HOME_CTL, 0, 0, .rw, .const 0⟩
abbrev Fld.STRAP_INST_ID : Fld := ⟨.STRAP, 7, 0, .ro, .const 0⟩
abbrev Fld.STRAP_PARISON_SRC : Fld := ⟨.STRAP, 9, 8, .ro, .const 0⟩
abbrev Fld.SWEEP_STATUS_KIND : Fld := ⟨.SWEEP_STATUS, 2, 0, .ro, .const 0⟩
abbrev Fld.SWEEP_STATUS_ACTIVE : Fld := ⟨.SWEEP_STATUS, 3, 3, .live, .const 0⟩
abbrev Fld.SWEEP_STATUS_DRAWERS : Fld := ⟨.SWEEP_STATUS, 15, 8, .ro, .const 0⟩
abbrev Fld.SWEEP_STATUS_SETTLED : Fld := ⟨.SWEEP_STATUS, 31, 16, .ro, .const 0⟩
abbrev Fld.RB_STATUS_ACTIVE : Fld := ⟨.RB_STATUS, 0, 0, .ro, .const 1⟩
abbrev Fld.RB_STATUS_DRAINING : Fld := ⟨.RB_STATUS, 1, 1, .live, .const 0⟩
abbrev Fld.RB_STATUS_SWAPPING : Fld := ⟨.RB_STATUS, 2, 2, .live, .const 0⟩
abbrev Fld.RB_STATUS_LOADED : Fld := ⟨.RB_STATUS, 3, 3, .ro, .const 0⟩
abbrev Fld.RB_STATUS_OLD : Fld := ⟨.RB_STATUS, 20, 4, .live, .const 0⟩
abbrev Fld.RB_STATUS_SWAPS : Fld := ⟨.RB_STATUS, 31, 24, .ro, .const 0⟩
abbrev Fld.RB_CTL_UFLAG : Fld := ⟨.RB_CTL, 0, 0, .rw, .const 0⟩
abbrev Fld.RB_PROF_ACT_PROFILE : Fld := ⟨.RB_PROF_ACT, 31, 0, .rw, .const 0⟩
abbrev Fld.RB_PROF_INACT_PROFILE : Fld := ⟨.RB_PROF_INACT, 31, 0, .rw, .const 0⟩
abbrev Fld.RB_ERR_NORULE : Fld := ⟨.RB_ERR, 0, 0, .w1c, .const 0⟩
abbrev Fld.RB_ERR_BAD_STEP : Fld := ⟨.RB_ERR, 1, 1, .w1c, .const 0⟩
abbrev Fld.RB_ERR_INFO_LSLICE : Fld := ⟨.RB_ERR_INFO, 6, 0, .ro, .const 0⟩
abbrev Fld.RB_ERR_INFO_TYPE : Fld := ⟨.RB_ERR_INFO, 12, 7, .ro, .const 0⟩
abbrev Fld.RB_ERR_INFO_STEP : Fld := ⟨.RB_ERR_INFO, 23, 13, .ro, .const 0⟩
abbrev Fld.PARISON_LOC_MP : Fld := ⟨.PARISON_LOC, 4, 0, .rw, .const 0⟩
abbrev Fld.PARISON_LOC_BASE : Fld := ⟨.PARISON_LOC, 51, 30, .rw, .const 0⟩
abbrev Fld.PARISON_LOC_VALID : Fld := ⟨.PARISON_LOC, 63, 63, .rw, .const 0⟩
abbrev Fld.BOOT_MBOX_WORD : Fld := ⟨.BOOT_MBOX, 31, 0, .wo, .const 0⟩
abbrev Fld.BOOT_MBOX_POP_WORD : Fld := ⟨.BOOT_MBOX_POP, 31, 0, .rc, .const 0⟩
abbrev Fld.BOOT_MBOX_STAT_COUNT : Fld := ⟨.BOOT_MBOX_STAT, 4, 0, .live, .const 0⟩
abbrev Fld.BOOT_MBOX_STAT_OVF : Fld := ⟨.BOOT_MBOX_STAT, 5, 5, .w1c, .const 0⟩
abbrev Fld.BOOT_MBOX_STAT_WAIT : Fld := ⟨.BOOT_MBOX_STAT, 6, 6, .live, .const 0⟩
abbrev Fld.BOOT_STATUS_CODE : Fld := ⟨.BOOT_STATUS, 3, 0, .rw, .const 0⟩
abbrev Fld.BOOT_STATUS_SRC : Fld := ⟨.BOOT_STATUS, 5, 4, .rw, .const 0⟩
abbrev Fld.LEHR_STATUS_SELFCHK : Fld := ⟨.LEHR_STATUS, 0, 0, .ro, .const 0⟩
abbrev Fld.LEHR_STATUS_LDG_VALID : Fld := ⟨.LEHR_STATUS, 1, 1, .ro, .const 0⟩
abbrev Fld.LEHR_STATUS_GUARD : Fld := ⟨.LEHR_STATUS, 2, 2, .ro, .const 0⟩
abbrev Fld.LEHR_STATUS_CTEL_USED : Fld := ⟨.LEHR_STATUS, 3, 3, .live, .const 0⟩
abbrev Fld.SLEEP_CTL_EN_LO : Fld := ⟨.SLEEP_CTL, 1, 0, .rw, .const 3⟩
abbrev Fld.SLEEP_CTL_EN_MGMT : Fld := ⟨.SLEEP_CTL, 2, 2, .ro, .const 1⟩
abbrev Fld.SLEEP_CTL_EN_HI : Fld := ⟨.SLEEP_CTL, 6, 3, .rw, .const 14⟩
abbrev Fld.SLEEP_CTL_WAKE : Fld := ⟨.SLEEP_CTL, 8, 8, .wo, .const 0⟩
abbrev Fld.SLEEP_STATUS_STATE : Fld := ⟨.SLEEP_STATUS, 2, 0, .live, .const 0⟩
abbrev Fld.SLEEP_STATUS_RESULT : Fld := ⟨.SLEEP_STATUS, 4, 3, .ro, .const 0⟩
abbrev Fld.SLEEP_STATUS_SRC : Fld := ⟨.SLEEP_STATUS, 11, 5, .ro, .const 0⟩
abbrev Fld.LEHR_IRQ_SRC : Fld := ⟨.LEHR_IRQ, 8, 0, .w1c, .const 0⟩
abbrev Fld.WAKE_TIME_TIME : Fld := ⟨.WAKE_TIME, 63, 0, .rw, .const 0⟩
abbrev Fld.THERM_CTL_T_TARGET : Fld := ⟨.THERM_CTL, 7, 0, .rw, .const 85⟩
abbrev Fld.THERM_CTL_T_HOT : Fld := ⟨.THERM_CTL, 15, 8, .rw, .const 95⟩
abbrev Fld.THERM_CTL_T_TRIP : Fld := ⟨.THERM_CTL, 23, 16, .rw, .const 110⟩
abbrev Fld.THERM_CTL_T_WAKE : Fld := ⟨.THERM_CTL, 31, 24, .rw, .const 105⟩
abbrev Fld.THERM_BAD_EXCL : Fld := ⟨.THERM_BAD, 31, 0, .live, .const 0⟩
abbrev Fld.THERM_RGN_T : Fld := ⟨.THERM_RGN, 31, 0, .live, .const 0⟩
abbrev Fld.THERM_S_TEMP : Fld := ⟨.THERM_S, 11, 0, .live, .const 0⟩
abbrev Fld.GOV_CTL_AUTO : Fld := ⟨.GOV_CTL, 0, 0, .rw, .const 1⟩
abbrev Fld.GOV_CTL_PKG : Fld := ⟨.GOV_CTL, 1, 1, .rw, .const 0⟩
abbrev Fld.GOV_CTL_SLOT : Fld := ⟨.GOV_CTL, 12, 8, .rw, .const 4⟩
abbrev Fld.GOV_ILIM_PK : Fld := ⟨.GOV_ILIM, 15, 0, .rw, .const 0⟩
abbrev Fld.GOV_ILIM_AVG : Fld := ⟨.GOV_ILIM, 31, 16, .rw, .const 0⟩
abbrev Fld.GOV_BG_BG_EN : Fld := ⟨.GOV_BG, 15, 0, .rw, .const 65535⟩
abbrev Fld.GOV_BG_MARGIN : Fld := ⟨.GOV_BG, 31, 16, .rw, .const 0⟩
abbrev Fld.GOV_CEIL_CEIL : Fld := ⟨.GOV_CEIL, 63, 0, .rw, .const 18446744073709551615⟩
abbrev Fld.GOV_STATUS_SLOT : Fld := ⟨.GOV_STATUS, 5, 0, .live, .const 0⟩
abbrev Fld.GOV_STATUS_PK : Fld := ⟨.GOV_STATUS, 6, 6, .live, .const 0⟩
abbrev Fld.GOV_STATUS_AVG : Fld := ⟨.GOV_STATUS, 7, 7, .live, .const 0⟩
abbrev Fld.GOV_STATUS_HOT : Fld := ⟨.GOV_STATUS, 11, 8, .live, .const 0⟩
abbrev Fld.GOV_STATUS_TRIP : Fld := ⟨.GOV_STATUS, 15, 12, .live, .const 0⟩
abbrev Fld.GOV_IMEAS_CORE : Fld := ⟨.GOV_IMEAS, 15, 0, .live, .const 0⟩
abbrev Fld.GOV_IMEAS_SRAM : Fld := ⟨.GOV_IMEAS, 31, 16, .live, .const 0⟩
abbrev Fld.GOV_PKG_SHARE : Fld := ⟨.GOV_PKG, 15, 0, .live, .const 65535⟩
abbrev Fld.GOV_SLOT_CAPL_CAP : Fld := ⟨.GOV_SLOT_CAPL, 31, 0, .rw, .const 4294967295⟩
abbrev Fld.GOV_SLOT_CAPH_CAP : Fld := ⟨.GOV_SLOT_CAPH, 31, 0, .rw, .const 4294967295⟩
abbrev Fld.GOV_SLOT_BG_BG : Fld := ⟨.GOV_SLOT_BG, 15, 0, .rw, .const 65535⟩
abbrev Fld.MGN_CTL_BIAS : Fld := ⟨.MGN_CTL, 4, 0, .rw, .const 0⟩
abbrev Fld.MGN_CTL_K : Fld := ⟨.MGN_CTL, 15, 8, .rw, .const 10⟩
abbrev Fld.MGN_CTL_GUARD : Fld := ⟨.MGN_CTL, 20, 16, .rw, .const 8⟩
abbrev Fld.MGN_CTL_GO : Fld := ⟨.MGN_CTL, 24, 24, .wo, .const 0⟩
abbrev Fld.MGN_PLAN_VOFS : Fld := ⟨.MGN_PLAN, 19, 0, .ro, .const 0⟩
abbrev Fld.MGN_PLAN_CEIL : Fld := ⟨.MGN_PLAN, 26, 20, .ro, .const 64⟩
abbrev Fld.MGN_PLAN_ASSIST : Fld := ⟨.MGN_PLAN, 29, 27, .ro, .const 0⟩
abbrev Fld.MGN_PLAN_REASON : Fld := ⟨.MGN_PLAN, 31, 30, .ro, .const 0⟩
abbrev Fld.MGN_HOURS_HOURS : Fld := ⟨.MGN_HOURS, 31, 0, .ro, .const 0⟩
abbrev Fld.MGN_GEN_GEN : Fld := ⟨.MGN_GEN, 15, 0, .ro, .const 0⟩
abbrev Fld.MGN_GEN_BUSY : Fld := ⟨.MGN_GEN, 16, 16, .live, .const 0⟩
abbrev Fld.LDG_REC_BITS : Fld := ⟨.LDG_REC, 31, 0, .rw, .const 0⟩
abbrev Fld.LDG_CTL_PUSH : Fld := ⟨.LDG_CTL, 0, 0, .wo, .const 0⟩
abbrev Fld.LDG_CTL_COMMIT : Fld := ⟨.LDG_CTL, 1, 1, .wo, .const 0⟩
abbrev Fld.LDG_CTL_CLEAR : Fld := ⟨.LDG_CTL, 2, 2, .wo, .const 0⟩
abbrev Fld.LDG_CTL_FRESH : Fld := ⟨.LDG_CTL, 3, 3, .rw, .const 0⟩
abbrev Fld.LDG_CTL_RESULT : Fld := ⟨.LDG_CTL, 6, 4, .ro, .const 0⟩
abbrev Fld.AGE_MON_BASE : Fld := ⟨.AGE_MON, 15, 0, .ro, .const 0⟩
abbrev Fld.AGE_MON_NOW : Fld := ⟨.AGE_MON, 31, 16, .ro, .const 0⟩
abbrev Fld.START_STATUS_KIND : Fld := ⟨.START_STATUS, 1, 0, .ro, .const 0⟩
abbrev Fld.START_STATUS_STEP : Fld := ⟨.START_STATUS, 5, 2, .ro, .const 0⟩
abbrev Fld.START_STATUS_RUNNING : Fld := ⟨.START_STATUS, 6, 6, .live, .const 0⟩
abbrev Fld.START_STATUS_EXHAUSTED : Fld := ⟨.START_STATUS, 7, 7, .ro, .const 0⟩
abbrev Fld.START_STATUS_CODE : Fld := ⟨.START_STATUS, 11, 8, .ro, .const 0⟩
abbrev Fld.START_CTL_MAPS_READY : Fld := ⟨.START_CTL, 0, 0, .rw, .const 0⟩
abbrev Fld.START_CTL_PT_EN : Fld := ⟨.START_CTL, 4, 1, .rw, .const 0⟩
abbrev Fld.START_CTL_RETRY : Fld := ⟨.START_CTL, 5, 5, .wo, .const 0⟩
abbrev Fld.START_CTL_STEP_TMO : Fld := ⟨.START_CTL, 15, 8, .rw, .const 100⟩
abbrev Fld.START_CTL_RETRY_DLY : Fld := ⟨.START_CTL, 23, 16, .rw, .const 10⟩
abbrev Fld.START_CNT_WARM_FAIL : Fld := ⟨.START_CNT, 1, 0, .ro, .const 0⟩
abbrev Fld.START_CNT_COLD_FAIL : Fld := ⟨.START_CNT, 3, 2, .ro, .const 0⟩
abbrev Fld.START_CNT_STARTS : Fld := ⟨.START_CNT, 31, 16, .ro, .const 0⟩
abbrev Fld.FC_STATUS_FAULT : Fld := ⟨.FC_STATUS, 0, 0, .w1c, .const 0⟩
abbrev Fld.FC_STATUS_OVF : Fld := ⟨.FC_STATUS, 1, 1, .ro, .const 0⟩
abbrev Fld.FC_STATUS_SEV : Fld := ⟨.FC_STATUS, 3, 2, .ro, .const 0⟩
abbrev Fld.FC_STATUS_LIVE : Fld := ⟨.FC_STATUS, 4, 4, .live, .const 0⟩
abbrev Fld.FC_STATUS_DENIED : Fld := ⟨.FC_STATUS, 5, 5, .w1c, .const 0⟩
abbrev Fld.FC_STATUS_FATAL : Fld := ⟨.FC_STATUS, 6, 6, .ro, .const 0⟩
abbrev Fld.FC_STATUS_DUP_COUNT : Fld := ⟨.FC_STATUS, 31, 16, .ro, .const 0⟩
abbrev Fld.FC_FIRST_CODE : Fld := ⟨.FC_FIRST, 7, 0, .ro, .const 0⟩
abbrev Fld.FC_FIRST_SEV : Fld := ⟨.FC_FIRST, 9, 8, .ro, .const 0⟩
abbrev Fld.FC_FIRST_LASTING : Fld := ⟨.FC_FIRST, 10, 10, .ro, .const 0⟩
abbrev Fld.FC_FIRST_INJ : Fld := ⟨.FC_FIRST, 11, 11, .ro, .const 0⟩
abbrev Fld.FC_FIRST_LIVE : Fld := ⟨.FC_FIRST, 12, 12, .live, .const 0⟩
abbrev Fld.FC_FIRST_SUBJECT : Fld := ⟨.FC_FIRST, 31, 16, .ro, .const 0⟩
abbrev Fld.FC_FIRST_TIME_TIME : Fld := ⟨.FC_FIRST_TIME, 63, 0, .ro, .const 0⟩
abbrev Fld.FC_CTL_LATCH_SEV : Fld := ⟨.FC_CTL, 1, 0, .rw, .const 1⟩
abbrev Fld.FC_CTL_FRZ_SEV : Fld := ⟨.FC_CTL, 3, 2, .rw, .const 3⟩
abbrev Fld.FC_CTL_FRZ_EN : Fld := ⟨.FC_CTL, 4, 4, .rw, .const 1⟩
abbrev Fld.FC_CTL_FWD_SEV : Fld := ⟨.FC_CTL, 6, 5, .rw, .const 2⟩
abbrev Fld.FC_CTL_FWD_EN : Fld := ⟨.FC_CTL, 7, 7, .rw, .const 1⟩
abbrev Fld.FC_PIN_CTL_HOLD : Fld := ⟨.FC_PIN_CTL, 0, 0, .rw, .const 1⟩
abbrev Fld.FC_PIN_CTL_RELEASE : Fld := ⟨.FC_PIN_CTL, 1, 1, .wo, .const 0⟩
abbrev Fld.FC_PIN_CTL_FORCE : Fld := ⟨.FC_PIN_CTL, 2, 2, .rw, .const 0⟩
abbrev Fld.FC_PIN_CTL_PULSE : Fld := ⟨.FC_PIN_CTL, 3, 3, .live, .const 0⟩
abbrev Fld.FC_PIN_CTL_HELD : Fld := ⟨.FC_PIN_CTL, 4, 4, .live, .const 0⟩
abbrev Fld.FC_RECOV_CLASS : Fld := ⟨.FC_RECOV, 5, 0, .live, .const 0⟩
abbrev Fld.FC_INJ_CODE : Fld := ⟨.FC_INJ, 7, 0, .rw, .const 0⟩
abbrev Fld.FC_INJ_SUBJECT : Fld := ⟨.FC_INJ, 23, 8, .rw, .const 0⟩
abbrev Fld.FC_INJ_GO : Fld := ⟨.FC_INJ, 24, 24, .wo, .const 0⟩
abbrev Fld.FC_INJ_REFUSED : Fld := ⟨.FC_INJ, 25, 25, .w1c, .const 0⟩
abbrev Fld.FC_PEER_SEV_PT : Fld := ⟨.FC_PEER, 7, 0, .rc, .const 0⟩
abbrev Fld.FC_PEER_SYS_FATAL : Fld := ⟨.FC_PEER, 31, 16, .rc, .const 0⟩
abbrev Fld.FC_MERGED_SRC : Fld := ⟨.FC_MERGED, 31, 0, .ro, .const 0⟩
abbrev Fld.FC_SRC_SEV : Fld := ⟨.FC_SRC, 1, 0, .rw, .srcSev⟩
abbrev Fld.FC_SRC_PIN_EN : Fld := ⟨.FC_SRC, 2, 2, .rw, .const 1⟩
abbrev Fld.FC_SRC_MODE_EN : Fld := ⟨.FC_SRC, 3, 3, .rw, .srcMode⟩
abbrev Fld.FC_SRC_LASTING : Fld := ⟨.FC_SRC, 4, 4, .w1c, .const 0⟩
abbrev Fld.FC_SRC_N : Fld := ⟨.FC_SRC, 11, 8, .rw, .const 8⟩
abbrev Fld.FC_SRC_WIN : Fld := ⟨.FC_SRC, 31, 16, .rw, .const 1000⟩
abbrev Fld.RLC_FIRST_CODE : Fld := ⟨.RLC_FIRST, 7, 0, .ro, .const 0⟩
abbrev Fld.RLC_FIRST_VALID : Fld := ⟨.RLC_FIRST, 8, 8, .w1c, .const 0⟩
abbrev Fld.RLC_FIRST_OVF : Fld := ⟨.RLC_FIRST, 9, 9, .ro, .const 0⟩
abbrev Fld.RLC_FIRST_INJ : Fld := ⟨.RLC_FIRST, 10, 10, .ro, .const 0⟩
abbrev Fld.RLC_FIRST_SUBJECT : Fld := ⟨.RLC_FIRST, 31, 16, .ro, .const 0⟩
abbrev Fld.RLC_TIME_TIME : Fld := ⟨.RLC_TIME, 63, 0, .ro, .const 0⟩
abbrev Fld.IC_SRC_PRIO : Fld := ⟨.IC_SRC, 3, 0, .rw, .const 0⟩
abbrev Fld.IC_SRC_TMASK : Fld := ⟨.IC_SRC, 27, 4, .rw, .const 0⟩
abbrev Fld.IC_PEND_PEND : Fld := ⟨.IC_PEND, 31, 0, .w1s, .const 0⟩
abbrev Fld.IC_PCLR_CLR : Fld := ⟨.IC_PCLR, 31, 0, .wo, .const 0⟩
abbrev Fld.IC_THRESH_THRESH : Fld := ⟨.IC_THRESH, 3, 0, .rw, .const 0⟩
abbrev Fld.IC_CLAIMT_ID : Fld := ⟨.IC_CLAIMT, 9, 0, .rc, .const 1023⟩
abbrev Fld.IC_CLAIMT_PRIO : Fld := ⟨.IC_CLAIMT, 19, 16, .rc, .const 0⟩
abbrev Fld.IC_CLAIM_ID : Fld := ⟨.IC_CLAIM, 31, 0, .rc, .const 1023⟩
abbrev Fld.NQ_CTL_EN : Fld := ⟨.NQ_CTL, 0, 0, .rw, .const 1⟩
abbrev Fld.NQ_STATUS_OCC : Fld := ⟨.NQ_STATUS, 13, 0, .live, .const 0⟩
abbrev Fld.NQ_STATUS_ABOVE : Fld := ⟨.NQ_STATUS, 14, 14, .live, .const 0⟩
abbrev Fld.NQ_STATUS_UNDERRUN : Fld := ⟨.NQ_STATUS, 15, 15, .w1c, .const 0⟩
abbrev Fld.NQ_STATUS_CFG_ERR : Fld := ⟨.NQ_STATUS, 16, 16, .w1c, .const 0⟩
abbrev Fld.NQ_STATUS_LOCK : Fld := ⟨.NQ_STATUS, 17, 17, .live, .const 0⟩
abbrev Fld.NQ_STATUS_LOCK_RING : Fld := ⟨.NQ_STATUS, 20, 18, .live, .const 0⟩
abbrev Fld.NQ_LEVEL_LEVEL : Fld := ⟨.NQ_LEVEL, 13, 0, .rw, .const 4096⟩
abbrev Fld.NQ_RD0_BITS : Fld := ⟨.NQ_RD0, 31, 0, .rc, .const 0⟩
abbrev Fld.NQ_RD_BITS : Fld := ⟨.NQ_RD, 31, 0, .ro, .const 0⟩
abbrev Fld.NQ_RD_INFO_RING : Fld := ⟨.NQ_RD_INFO, 2, 0, .ro, .const 0⟩
abbrev Fld.NQ_RD_INFO_END : Fld := ⟨.NQ_RD_INFO, 3, 3, .ro, .const 0⟩
abbrev Fld.NQ_RD_INFO_BAD : Fld := ⟨.NQ_RD_INFO, 4, 4, .ro, .const 0⟩
abbrev Fld.NQ_DROP_PKT_GO : Fld := ⟨.NQ_DROP_PKT, 0, 0, .wo, .const 0⟩
abbrev Fld.NQ_DROP_PKT_DROPPED : Fld := ⟨.NQ_DROP_PKT, 19, 16, .ro, .const 0⟩
abbrev Fld.NQ_MARK_RING : Fld := ⟨.NQ_MARK, 2, 0, .rw, .const 0⟩
abbrev Fld.NQ_MARK_GO : Fld := ⟨.NQ_MARK, 3, 3, .wo, .const 0⟩
abbrev Fld.NQ_MARK_VALID : Fld := ⟨.NQ_MARK, 15, 8, .live, .const 0⟩
abbrev Fld.NQ_REWIND_RING : Fld := ⟨.NQ_REWIND, 2, 0, .rw, .const 0⟩
abbrev Fld.NQ_REWIND_GO : Fld := ⟨.NQ_REWIND, 3, 3, .wo, .const 0⟩
abbrev Fld.NQ_REWIND_STATUS : Fld := ⟨.NQ_REWIND, 5, 4, .ro, .const 0⟩
abbrev Fld.NQ_RING_BASE : Fld := ⟨.NQ_RING, 12, 0, .rw, .ringBase⟩
abbrev Fld.NQ_RING_LOG2 : Fld := ⟨.NQ_RING, 19, 16, .rw, .ringLog2⟩
abbrev Fld.NQ_RING_STAT_OCC : Fld := ⟨.NQ_RING_STAT, 13, 0, .live, .const 0⟩
abbrev Fld.NQ_RING_STAT_PKTS : Fld := ⟨.NQ_RING_STAT, 27, 14, .live, .const 0⟩
abbrev Fld.NQ_RING_STAT_GAP : Fld := ⟨.NQ_RING_STAT, 28, 28, .live, .const 0⟩
abbrev Fld.NQ_DROPS_DROPS : Fld := ⟨.NQ_DROPS, 31, 0, .rc, .const 0⟩
abbrev Fld.NQ_TMAP_RING0 : Fld := ⟨.NQ_TMAP, 2, 0, .rw, .ringOf 0⟩
abbrev Fld.NQ_TMAP_RING1 : Fld := ⟨.NQ_TMAP, 6, 4, .rw, .ringOf 1⟩
abbrev Fld.NQ_TMAP_RING2 : Fld := ⟨.NQ_TMAP, 10, 8, .rw, .ringOf 2⟩
abbrev Fld.NQ_TMAP_RING3 : Fld := ⟨.NQ_TMAP, 14, 12, .rw, .ringOf 3⟩
abbrev Fld.NQ_TMAP_RING4 : Fld := ⟨.NQ_TMAP, 18, 16, .rw, .ringOf 4⟩
abbrev Fld.NQ_TMAP_RING5 : Fld := ⟨.NQ_TMAP, 22, 20, .rw, .ringOf 5⟩
abbrev Fld.NQ_TMAP_RING6 : Fld := ⟨.NQ_TMAP, 26, 24, .rw, .ringOf 6⟩
abbrev Fld.NQ_TMAP_RING7 : Fld := ⟨.NQ_TMAP, 30, 28, .rw, .ringOf 7⟩
abbrev Fld.NQ_FB_RD0_BITS : Fld := ⟨.NQ_FB_RD0, 31, 0, .rc, .const 0⟩
abbrev Fld.NQ_FB_RD_BITS : Fld := ⟨.NQ_FB_RD, 31, 0, .ro, .const 0⟩
abbrev Fld.NQ_FB_STAT_COUNT : Fld := ⟨.NQ_FB_STAT, 7, 0, .live, .const 0⟩
abbrev Fld.NQ_FB_STAT_BYTES : Fld := ⟨.NQ_FB_STAT, 12, 8, .ro, .const 0⟩
abbrev Fld.NQ_FB_STAT_UNDERRUN : Fld := ⟨.NQ_FB_STAT, 13, 13, .w1c, .const 0⟩
abbrev Fld.NQ_FB_STAT_DROPS : Fld := ⟨.NQ_FB_STAT, 31, 16, .rc, .const 0⟩
abbrev Fld.CMD_DESC_CODE : Fld := ⟨.CMD_DESC, 7, 0, .rw, .const 0⟩
abbrev Fld.CMD_ARG_ARG : Fld := ⟨.CMD_ARG, 31, 0, .rw, .const 0⟩
abbrev Fld.CMD_GO_GO : Fld := ⟨.CMD_GO, 0, 0, .wo, .const 0⟩
abbrev Fld.CMD_GO_BUSY_ERR : Fld := ⟨.CMD_GO, 1, 1, .w1c, .const 0⟩
abbrev Fld.CMD_RES_DONE : Fld := ⟨.CMD_RES, 0, 0, .ro, .const 1⟩
abbrev Fld.CMD_RES_CODE : Fld := ⟨.CMD_RES, 15, 8, .ro, .const 0⟩
abbrev Fld.CMD_RES_SEQ : Fld := ⟨.CMD_RES, 31, 16, .ro, .const 0⟩
abbrev Fld.CMD_VAL_VALUE : Fld := ⟨.CMD_VAL, 31, 0, .ro, .const 0⟩
abbrev Fld.CMD_POST_CODE : Fld := ⟨.CMD_POST, 7, 0, .wo, .const 0⟩
abbrev Fld.CMD_POST_SEQ : Fld := ⟨.CMD_POST, 31, 16, .wo, .const 0⟩
abbrev Fld.CMD_POST_VAL_VALUE : Fld := ⟨.CMD_POST_VAL, 31, 0, .wo, .const 0⟩
abbrev Fld.PT_CTL_EN : Fld := ⟨.PT_CTL, 0, 0, .rw, .const 0⟩
abbrev Fld.PT_CTL_CODING : Fld := ⟨.PT_CTL, 1, 1, .rw, .const 0⟩
abbrev Fld.PT_CTL_BG_RETRY : Fld := ⟨.PT_CTL, 2, 2, .rw, .const 1⟩
abbrev Fld.PT_STATUS_STATE : Fld := ⟨.PT_STATUS, 2, 0, .live, .const 0⟩
abbrev Fld.PT_STATUS_ATTEMPT : Fld := ⟨.PT_STATUS, 6, 3, .live, .const 0⟩
abbrev Fld.PT_STATUS_LOCK : Fld := ⟨.PT_STATUS, 8, 7, .live, .const 0⟩
abbrev Fld.PT_STATUS_PEER_ID : Fld := ⟨.PT_STATUS, 23, 16, .ro, .const 0⟩
abbrev Fld.PT_STATUS_PEER_VER : Fld := ⟨.PT_STATUS, 27, 24, .ro, .const 0⟩
abbrev Fld.PT_ERR_CRC : Fld := ⟨.PT_ERR, 0, 0, .w1c, .const 0⟩
abbrev Fld.PT_ERR_SAME_ID : Fld := ⟨.PT_ERR, 1, 1, .w1c, .const 0⟩
abbrev Fld.PT_ERR_LANE : Fld := ⟨.PT_ERR, 2, 2, .w1c, .const 0⟩
abbrev Fld.PT_ERR_ABSENT : Fld := ⟨.PT_ERR, 3, 3, .w1c, .const 0⟩
abbrev Fld.PT_CNT_CRC_N : Fld := ⟨.PT_CNT, 15, 0, .rc, .const 0⟩
abbrev Fld.PT_CNT_REPLAY_N : Fld := ⟨.PT_CNT, 31, 16, .rc, .const 0⟩
abbrev Fld.PT_GCTL_TTL : Fld := ⟨.PT_GCTL, 3, 0, .rw, .const 8⟩
abbrev Fld.PT_GCTL_TMASTER : Fld := ⟨.PT_GCTL, 4, 4, .rw, .const 0⟩
abbrev Fld.PT_GCTL_TSYNC_EN : Fld := ⟨.PT_GCTL, 5, 5, .rw, .const 1⟩
abbrev Fld.PT_PKG_BUDGET : Fld := ⟨.PT_PKG, 15, 0, .rw, .const 0⟩
abbrev Fld.PT_PKG_N : Fld := ⟨.PT_PKG, 18, 16, .live, .const 0⟩
abbrev Fld.PT_TSYNC_DIST : Fld := ⟨.PT_TSYNC, 7, 0, .live, .const 255⟩
abbrev Fld.PT_TSYNC_UPSTREAM : Fld := ⟨.PT_TSYNC, 10, 8, .live, .const 7⟩
abbrev Fld.PT_TSYNC_LOCKED : Fld := ⟨.PT_TSYNC, 11, 11, .live, .const 0⟩
abbrev Fld.PT_TSYNC_PERIOD : Fld := ⟨.PT_TSYNC, 23, 16, .rw, .const 1⟩
abbrev Fld.PT_TSYNC_OFS_OFS : Fld := ⟨.PT_TSYNC_OFS, 31, 0, .ro, .const 0⟩
abbrev Fld.PT_LOST_LOST : Fld := ⟨.PT_LOST, 31, 0, .w1c, .const 0⟩
abbrev Fld.FRZ_CTL_TRIG : Fld := ⟨.FRZ_CTL, 0, 0, .wo, .const 0⟩
abbrev Fld.FRZ_CTL_REARM : Fld := ⟨.FRZ_CTL, 1, 1, .wo, .const 0⟩
abbrev Fld.FRZ_CTL_PIN_EN : Fld := ⟨.FRZ_CTL, 2, 2, .rw, .const 1⟩
abbrev Fld.FRZ_CTL_PEER_EN : Fld := ⟨.FRZ_CTL, 3, 3, .rw, .const 1⟩
abbrev Fld.FRZ_CTL_CNT_EN : Fld := ⟨.FRZ_CTL, 4, 4, .rw, .const 0⟩
abbrev Fld.FRZ_CTL_DUMP : Fld := ⟨.FRZ_CTL, 5, 5, .rw, .const 0⟩
abbrev Fld.FRZ_CTL_OUT_EN : Fld := ⟨.FRZ_CTL, 6, 6, .rw, .const 1⟩
abbrev Fld.FRZ_STATUS_FROZEN : Fld := ⟨.FRZ_STATUS, 0, 0, .ro, .const 0⟩
abbrev Fld.FRZ_STATUS_CAUSES : Fld := ⟨.FRZ_STATUS, 5, 1, .ro, .const 0⟩
abbrev Fld.FRZ_STATUS_ORIGIN : Fld := ⟨.FRZ_STATUS, 13, 6, .ro, .const 0⟩
abbrev Fld.FRZ_STATUS_CODE : Fld := ⟨.FRZ_STATUS, 21, 14, .ro, .const 0⟩
abbrev Fld.FRZ_STATUS_MISSED : Fld := ⟨.FRZ_STATUS, 31, 22, .ro, .const 0⟩
abbrev Fld.FRZ_TIME_TIME : Fld := ⟨.FRZ_TIME, 63, 0, .ro, .const 0⟩
abbrev Fld.FRZ_CNT_SEL_ID : Fld := ⟨.FRZ_CNT_SEL, 10, 0, .rw, .const 0⟩
abbrev Fld.FRZ_CNT_VAL_VALUE : Fld := ⟨.FRZ_CNT_VAL, 47, 0, .rw, .const 0⟩
abbrev Fld.TEL_CTL_EN : Fld := ⟨.TEL_CTL, 0, 0, .rw, .const 0⟩
abbrev Fld.TEL_CTL_PERIOD : Fld := ⟨.TEL_CTL, 31, 16, .rw, .const 1000⟩
abbrev Fld.TEL_STATUS_SWEEP : Fld := ⟨.TEL_STATUS, 15, 0, .ro, .const 0⟩
abbrev Fld.TEL_STATUS_BUSY : Fld := ⟨.TEL_STATUS, 16, 16, .live, .const 0⟩
abbrev Fld.TEL_STATUS_SKIPS : Fld := ⟨.TEL_STATUS, 31, 17, .rc, .const 0⟩
abbrev Fld.INST_FRZ_CUR : Fld := ⟨.INST_FRZ, 2, 0, .ro, .const 0⟩
abbrev Fld.INST_FRZ_HOLD : Fld := ⟨.INST_FRZ, 17, 3, .ro, .const 0⟩
abbrev Fld.LEHR_FRZ_SLOT : Fld := ⟨.LEHR_FRZ, 5, 0, .ro, .const 0⟩
abbrev Fld.LEHR_FRZ_FROZEN : Fld := ⟨.LEHR_FRZ, 6, 6, .w1c, .const 0⟩
abbrev Fld.LEHR_FRZ_TMAX : Fld := ⟨.LEHR_FRZ, 14, 7, .ro, .const 0⟩
abbrev Fld.LEHR_FRZ_CAPL_CAP : Fld := ⟨.LEHR_FRZ_CAPL, 31, 0, .ro, .const 0⟩
abbrev Fld.LEHR_FRZ_CAPH_CAP : Fld := ⟨.LEHR_FRZ_CAPH, 31, 0, .ro, .const 0⟩
abbrev Fld.LEHR_FRZ_BG_BG : Fld := ⟨.LEHR_FRZ_BG, 15, 0, .ro, .const 0⟩
abbrev Fld.FP_CTL_EN : Fld := ⟨.FP_CTL, 0, 0, .rw, .const 1⟩
abbrev Fld.FP_STATUS_LINK_UP : Fld := ⟨.FP_STATUS, 0, 0, .live, .const 0⟩
abbrev Fld.FP_STATUS_GRANTED : Fld := ⟨.FP_STATUS, 1, 1, .live, .const 0⟩
abbrev Fld.FP_STATUS_TXC_SNP : Fld := ⟨.FP_STATUS, 15, 8, .live, .const 0⟩
abbrev Fld.FP_STATUS_TXC_RSP : Fld := ⟨.FP_STATUS, 23, 16, .live, .const 0⟩
abbrev Fld.FP_STATUS_TXC_DAT : Fld := ⟨.FP_STATUS, 31, 24, .live, .const 0⟩
abbrev Fld.FP_ERR_BAD_OPC : Fld := ⟨.FP_ERR, 0, 0, .w1c, .const 0⟩
abbrev Fld.FP_ERR_MISROUTE : Fld := ⟨.FP_ERR, 1, 1, .w1c, .const 0⟩
abbrev Fld.FP_ERR_TENANT : Fld := ⟨.FP_ERR, 2, 2, .w1c, .const 0⟩
abbrev Fld.FP_ERR_AGENT : Fld := ⟨.FP_ERR, 3, 3, .w1c, .const 0⟩
abbrev Fld.FP_ERR_UNEXP_RSP : Fld := ⟨.FP_ERR, 4, 4, .w1c, .const 0⟩
abbrev Fld.FP_ERR_TX_STALL : Fld := ⟨.FP_ERR, 5, 5, .w1c, .const 0⟩
abbrev Fld.FP_ERR_CRD_OVF : Fld := ⟨.FP_ERR, 6, 6, .w1c, .const 0⟩
abbrev Fld.FP_ERR_INFO_AGENT : Fld := ⟨.FP_ERR_INFO, 15, 0, .ro, .const 0⟩
abbrev Fld.FP_ERR_INFO_TYPE : Fld := ⟨.FP_ERR_INFO, 21, 16, .ro, .const 0⟩
abbrev Fld.FP_TEL_SEL_EVENT : Fld := ⟨.FP_TEL_SEL, 7, 0, .rw, .const 0⟩
abbrev Fld.FP_TEL_SEL_N : Fld := ⟨.FP_TEL_SEL, 31, 16, .rw, .const 0⟩
abbrev Fld.FP_TEL_CNT_VALUE : Fld := ⟨.FP_TEL_CNT, 47, 0, .rw, .const 0⟩
abbrev Fld.FP_TEL_CNT_OVF : Fld := ⟨.FP_TEL_CNT, 48, 48, .w1c, .const 0⟩
abbrev Fld.FP_TEL_SNAP_VALUE : Fld := ⟨.FP_TEL_SNAP, 47, 0, .ro, .const 0⟩
abbrev Fld.FP_TEL_SNAP_OVF : Fld := ⟨.FP_TEL_SNAP, 48, 48, .ro, .const 0⟩
abbrev Fld.FP_TEL_SNAP_VALID : Fld := ⟨.FP_TEL_SNAP, 49, 49, .ro, .const 0⟩
abbrev Fld.FP_FRZ_REQ : Fld := ⟨.FP_FRZ, 5, 0, .ro, .const 0⟩
abbrev Fld.FP_FRZ_DAT : Fld := ⟨.FP_FRZ, 11, 6, .ro, .const 0⟩
abbrev Fld.FP_FRZ_TXSNP : Fld := ⟨.FP_FRZ, 19, 12, .ro, .const 0⟩
abbrev Fld.FP_FRZ_TXDAT : Fld := ⟨.FP_FRZ, 27, 20, .ro, .const 0⟩
abbrev Fld.PC_CTL_RETRY_TMO : Fld := ⟨.PC_CTL, 5, 0, .rw, .const 4⟩
abbrev Fld.PC_CTL_NNACK_LVL : Fld := ⟨.PC_CTL, 15, 8, .rw, .const 0⟩
abbrev Fld.PC_CTL_SPEC_EN : Fld := ⟨.PC_CTL, 16, 16, .rw, .const 1⟩
abbrev Fld.PC_BIID_BASE : Fld := ⟨.PC_BIID, 11, 4, .rw, .const 0⟩
abbrev Fld.SNP_TMO_TMO : Fld := ⟨.SNP_TMO, 23, 0, .rw, .const 2000⟩
abbrev Fld.HOLD_STATUS_OCC : Fld := ⟨.HOLD_STATUS, 15, 0, .live, .const 0⟩
abbrev Fld.HOLD_STATUS_FULL : Fld := ⟨.HOLD_STATUS, 16, 16, .live, .const 0⟩
abbrev Fld.HOLD_STATUS_HWM : Fld := ⟨.HOLD_STATUS, 31, 17, .rc, .const 0⟩
abbrev Fld.RS_STATUS_VALID : Fld := ⟨.RS_STATUS, 16, 0, .live, .const 0⟩
abbrev Fld.RS_STATUS_REPLAY : Fld := ⟨.RS_STATUS, 31, 31, .live, .const 0⟩
abbrev Fld.AGT_IDX_IDX : Fld := ⟨.AGT_IDX, 15, 0, .rw, .const 0⟩
abbrev Fld.AGT_DATA_ENTRY : Fld := ⟨.AGT_DATA, 63, 0, .ro, .const 0⟩
abbrev Fld.DFP_LOCAL_VER : Fld := ⟨.DFP_LOCAL, 7, 0, .ro, .const 1⟩
abbrev Fld.LIVE_CTL_PROBE_TMO : Fld := ⟨.LIVE_CTL, 11, 0, .rw, .const 500⟩
abbrev Fld.LIVE_CTL_PROBE_N : Fld := ⟨.LIVE_CTL, 14, 12, .rw, .const 2⟩
abbrev Fld.LIVE_CTL_LINK_GRACE : Fld := ⟨.LIVE_CTL, 23, 16, .rw, .const 10⟩
abbrev Fld.LIVE_CTL_RELEASE_TMO : Fld := ⟨.LIVE_CTL, 31, 24, .rw, .const 10⟩
abbrev Fld.AGT_EVT_NEXT : Fld := ⟨.AGT_EVT, 15, 0, .live, .const 0⟩
abbrev Fld.AGT_EVT_CAUSES : Fld := ⟨.AGT_EVT, 18, 16, .live, .const 0⟩
abbrev Fld.AGT_EVT_ANY : Fld := ⟨.AGT_EVT, 19, 19, .live, .const 0⟩
abbrev Fld.RECLAIM_STATUS_AGENT : Fld := ⟨.RECLAIM_STATUS, 15, 0, .ro, .const 0⟩
abbrev Fld.RECLAIM_STATUS_BUSY : Fld := ⟨.RECLAIM_STATUS, 16, 16, .live, .const 0⟩
abbrev Fld.RECLAIM_STATUS_CLOSING : Fld := ⟨.RECLAIM_STATUS, 17, 17, .live, .const 0⟩
abbrev Fld.RECLAIM_STATUS_PEND : Fld := ⟨.RECLAIM_STATUS, 27, 18, .live, .const 0⟩
abbrev Fld.RECLAIM_LOST_LOST : Fld := ⟨.RECLAIM_LOST, 31, 0, .ro, .const 0⟩
abbrev Fld.ADOPT_WIN_A_WINDOW : Fld := ⟨.ADOPT_WIN_A, 11, 0, .ro, .const 0⟩
abbrev Fld.ADOPT_WIN_A_STATE : Fld := ⟨.ADOPT_WIN_A, 13, 12, .ro, .const 0⟩
abbrev Fld.ADOPT_WIN_B_CURSOR : Fld := ⟨.ADOPT_WIN_B, 25, 0, .ro, .const 0⟩
abbrev Fld.REPLAY_STAT0_REPLAYED : Fld := ⟨.REPLAY_STAT0, 16, 0, .ro, .const 0⟩
abbrev Fld.REPLAY_STAT1_CLOSED : Fld := ⟨.REPLAY_STAT1, 16, 0, .ro, .const 0⟩
abbrev Fld.REPLAY_STAT2_KEPT : Fld := ⟨.REPLAY_STAT2, 16, 0, .live, .const 0⟩
abbrev Fld.MP_CTL_TMO : Fld := ⟨.MP_CTL, 15, 0, .rw, .const 100⟩
abbrev Fld.MP_STATE_STATE : Fld := ⟨.MP_STATE, 1, 0, .rw, .const 0⟩
abbrev Fld.MP_STATE_OUT : Fld := ⟨.MP_STATE, 7, 2, .live, .const 0⟩
abbrev Fld.MP_ERR_FAIL : Fld := ⟨.MP_ERR, 0, 0, .w1c, .const 0⟩
abbrev Fld.MP_ERR_TMO : Fld := ⟨.MP_ERR, 1, 1, .w1c, .const 0⟩
abbrev Fld.MP_ERR_INFO_RTAG : Fld := ⟨.MP_ERR_INFO, 15, 0, .ro, .const 0⟩
abbrev Fld.ARB_MODE_MODE : Fld := ⟨.ARB_MODE, 0, 0, .rw, .const 1⟩
abbrev Fld.ARB_MODE_LIMIT : Fld := ⟨.ARB_MODE, 13, 8, .rw, .const 15⟩
abbrev Fld.ARB_MODE_AGE : Fld := ⟨.ARB_MODE, 23, 16, .rw, .const 16⟩
abbrev Fld.ARB_PRIO_PRIO : Fld := ⟨.ARB_PRIO, 31, 0, .rw, .const 2290649224⟩
abbrev Fld.ARB_PRIO2_PRIO16 : Fld := ⟨.ARB_PRIO2, 3, 0, .rw, .const 4⟩
abbrev Fld.ARB_PROG_PROG : Fld := ⟨.ARB_PROG, 31, 0, .live, .const 0⟩
abbrev Fld.MP_TEL_SEL_EVENT : Fld := ⟨.MP_TEL_SEL, 7, 0, .rw, .const 0⟩
abbrev Fld.MP_TEL_SEL_N : Fld := ⟨.MP_TEL_SEL, 31, 16, .rw, .const 0⟩
abbrev Fld.MP_TEL_CNT_VALUE : Fld := ⟨.MP_TEL_CNT, 47, 0, .rw, .const 0⟩
abbrev Fld.MP_TEL_CNT_OVF : Fld := ⟨.MP_TEL_CNT, 48, 48, .w1c, .const 0⟩
abbrev Fld.MP_TEL_SNAP_VALUE : Fld := ⟨.MP_TEL_SNAP, 47, 0, .ro, .const 0⟩
abbrev Fld.MP_TEL_SNAP_OVF : Fld := ⟨.MP_TEL_SNAP, 48, 48, .ro, .const 0⟩
abbrev Fld.MP_TEL_SNAP_VALID : Fld := ⟨.MP_TEL_SNAP, 49, 49, .ro, .const 0⟩
abbrev Fld.MP_FRZ_OUT : Fld := ⟨.MP_FRZ, 5, 0, .ro, .const 0⟩
abbrev Fld.MP_FRZ_HOLDER : Fld := ⟨.MP_FRZ, 10, 6, .ro, .const 0⟩
abbrev Fld.MP_FRZ_STATE : Fld := ⟨.MP_FRZ, 12, 11, .ro, .const 0⟩
abbrev Fld.BULK_GO_DESC : Fld := ⟨.BULK_GO, 31, 0, .wo, .const 0⟩
abbrev Fld.BULK_STATUS_QUEUED : Fld := ⟨.BULK_STATUS, 2, 0, .live, .const 0⟩
abbrev Fld.BULK_STATUS_OVF : Fld := ⟨.BULK_STATUS, 3, 3, .w1c, .const 0⟩
abbrev Fld.BULK_STATUS_OP : Fld := ⟨.BULK_STATUS, 5, 4, .live, .const 0⟩
abbrev Fld.BULK_CUR_DONE : Fld := ⟨.BULK_CUR, 31, 0, .live, .const 0⟩
abbrev Fld.HMAP_HOME : Fld := ⟨.HMAP, 7, 0, .rw, .const 0⟩
abbrev Fld.HMAP_STANDBY : Fld := ⟨.HMAP, 15, 8, .rw, .const 0⟩
abbrev Fld.HMAP_SB_EN : Fld := ⟨.HMAP, 16, 16, .rw, .const 0⟩
abbrev Fld.HMAP_DRAIN : Fld := ⟨.HMAP, 17, 17, .rw, .const 0⟩
abbrev Fld.HMAP_VALID : Fld := ⟨.HMAP, 18, 18, .rw, .const 0⟩
abbrev Fld.AMAP_ERR_BAD_ENTRY : Fld := ⟨.AMAP_ERR, 0, 0, .w1c, .const 0⟩
abbrev Fld.AMAP_ERR_INDEX : Fld := ⟨.AMAP_ERR, 14, 1, .ro, .const 0⟩
abbrev Fld.DIE_BKT_P_LEVEL : Fld := ⟨.DIE_BKT_P, 4, 0, .live, .const 0⟩
abbrev Fld.DIE_BKT_P_LEAK : Fld := ⟨.DIE_BKT_P, 15, 8, .rw, .const 10⟩
abbrev Fld.DIE_BKT_P_OVF : Fld := ⟨.DIE_BKT_P, 16, 16, .w1c, .const 0⟩
abbrev Fld.DIE_INJ_P_MASK : Fld := ⟨.DIE_INJ_P, 7, 0, .rw, .const 0⟩
abbrev Fld.DIE_INJ_P_CONT : Fld := ⟨.DIE_INJ_P, 8, 8, .rw, .const 0⟩
abbrev Fld.DIE_INJ_P_ARM : Fld := ⟨.DIE_INJ_P, 9, 9, .rw, .const 0⟩
abbrev Fld.DIE_INJ_P_REFUSED : Fld := ⟨.DIE_INJ_P, 10, 10, .w1c, .const 0⟩
abbrev Fld.DIE_INJ_P_LAST : Fld := ⟨.DIE_INJ_P, 31, 12, .ro, .const 0⟩
abbrev Fld.DIE_BKT_NQ_LEVEL : Fld := ⟨.DIE_BKT_NQ, 4, 0, .live, .const 0⟩
abbrev Fld.DIE_BKT_NQ_LEAK : Fld := ⟨.DIE_BKT_NQ, 15, 8, .rw, .const 10⟩
abbrev Fld.DIE_BKT_NQ_OVF : Fld := ⟨.DIE_BKT_NQ, 16, 16, .w1c, .const 0⟩
abbrev Fld.DIE_INJ_NQ_MASK : Fld := ⟨.DIE_INJ_NQ, 7, 0, .rw, .const 0⟩
abbrev Fld.DIE_INJ_NQ_CONT : Fld := ⟨.DIE_INJ_NQ, 8, 8, .rw, .const 0⟩
abbrev Fld.DIE_INJ_NQ_ARM : Fld := ⟨.DIE_INJ_NQ, 9, 9, .rw, .const 0⟩
abbrev Fld.DIE_INJ_NQ_REFUSED : Fld := ⟨.DIE_INJ_NQ, 10, 10, .w1c, .const 0⟩
abbrev Fld.DIE_INJ_NQ_LAST : Fld := ⟨.DIE_INJ_NQ, 31, 12, .ro, .const 0⟩
abbrev Fld.DIE_BKT_L_LEVEL : Fld := ⟨.DIE_BKT_L, 4, 0, .live, .const 0⟩
abbrev Fld.DIE_BKT_L_LEAK : Fld := ⟨.DIE_BKT_L, 15, 8, .rw, .const 10⟩
abbrev Fld.DIE_BKT_L_OVF : Fld := ⟨.DIE_BKT_L, 16, 16, .w1c, .const 0⟩
abbrev Fld.DIE_INJ_L_MASK : Fld := ⟨.DIE_INJ_L, 7, 0, .rw, .const 0⟩
abbrev Fld.DIE_INJ_L_CONT : Fld := ⟨.DIE_INJ_L, 8, 8, .rw, .const 0⟩
abbrev Fld.DIE_INJ_L_ARM : Fld := ⟨.DIE_INJ_L, 9, 9, .rw, .const 0⟩
abbrev Fld.DIE_INJ_L_REFUSED : Fld := ⟨.DIE_INJ_L, 10, 10, .w1c, .const 0⟩
abbrev Fld.DIE_INJ_L_LAST : Fld := ⟨.DIE_INJ_L, 31, 12, .ro, .const 0⟩
abbrev Fld.AMAP_VALID : Fld := ⟨.AMAP, 0, 0, .rw, .const 0⟩
abbrev Fld.AMAP_DRAIN : Fld := ⟨.AMAP, 1, 1, .rw, .const 0⟩
abbrev Fld.AMAP_TENANT : Fld := ⟨.AMAP, 11, 2, .rw, .const 0⟩
abbrev Fld.AMAP_SCOPE : Fld := ⟨.AMAP, 13, 12, .rw, .const 0⟩
abbrev Fld.AMAP_PRI_MP : Fld := ⟨.AMAP, 18, 14, .rw, .const 0⟩
abbrev Fld.AMAP_MIR_MP : Fld := ⟨.AMAP, 23, 19, .rw, .const 0⟩
abbrev Fld.AMAP_MIR_EN : Fld := ⟨.AMAP, 24, 24, .rw, .const 0⟩
abbrev Fld.AMAP_WAYS : Fld := ⟨.AMAP, 26, 25, .rw, .const 0⟩
abbrev Fld.AMAP_GRAN : Fld := ⟨.AMAP, 28, 27, .rw, .const 0⟩
abbrev Fld.AMAP_BASE : Fld := ⟨.AMAP, 56, 32, .rw, .const 0⟩
abbrev Fld.CL_SLMAP_POS : Fld := ⟨.CL_SLMAP, 31, 0, .ro, .const 1985229328⟩
abbrev Fld.CL_SPARE_SPARE : Fld := ⟨.CL_SPARE, 3, 0, .ro, .const 8⟩
abbrev Fld.CL_SPARE_FAILED : Fld := ⟨.CL_SPARE, 12, 4, .ro, .const 0⟩
abbrev Fld.CL_SPARE_ADOPTING : Fld := ⟨.CL_SPARE, 16, 16, .live, .const 0⟩
abbrev Fld.CL_ADOPT_POS : Fld := ⟨.CL_ADOPT, 2, 0, .wo, .const 0⟩
abbrev Fld.CL_ADOPT_GO : Fld := ⟨.CL_ADOPT, 3, 3, .wo, .const 0⟩
abbrev Fld.CL_ADOPT_STATUS : Fld := ⟨.CL_ADOPT, 5, 4, .ro, .const 0⟩
abbrev Fld.STW_CTL_START : Fld := ⟨.STW_CTL, 3, 0, .wo, .const 0⟩
abbrev Fld.STW_CTL_STOP : Fld := ⟨.STW_CTL, 7, 4, .wo, .const 0⟩
abbrev Fld.STW_CTL_IRQ_THREAD : Fld := ⟨.STW_CTL, 9, 8, .rw, .const 0⟩
abbrev Fld.STW_STATUS_STATE : Fld := ⟨.STW_STATUS, 7, 0, .live, .const 0⟩
abbrev Fld.STW_STATUS_IN_TRAP : Fld := ⟨.STW_STATUS, 11, 8, .live, .const 0⟩
abbrev Fld.STW_STATUS_FAILED : Fld := ⟨.STW_STATUS, 12, 12, .ro, .const 0⟩
abbrev Fld.STW_STATUS_HOSTING : Fld := ⟨.STW_STATUS, 13, 13, .ro, .const 0⟩
abbrev Fld.STW_STATUS_HOSTED : Fld := ⟨.STW_STATUS, 17, 14, .ro, .const 0⟩
abbrev Fld.STW_PC_PC : Fld := ⟨.STW_PC, 63, 0, .rw, .const 0⟩
abbrev Fld.STW_TRAP_CAUSE : Fld := ⟨.STW_TRAP, 7, 0, .ro, .const 0⟩
abbrev Fld.STW_TRAP_NESTED : Fld := ⟨.STW_TRAP, 8, 8, .ro, .const 0⟩
abbrev Fld.HUTCH_CTL_EN : Fld := ⟨.HUTCH_CTL, 0, 0, .rw, .const 1⟩
abbrev Fld.HUTCH_CTL_PF : Fld := ⟨.HUTCH_CTL, 1, 1, .rw, .const 0⟩
abbrev Fld.HUTCH_CTL_TICK : Fld := ⟨.HUTCH_CTL, 15, 8, .rw, .const 16⟩
abbrev Fld.HUTCH_STATUS_VALID : Fld := ⟨.HUTCH_STATUS, 5, 0, .live, .const 0⟩
abbrev Fld.HUTCH_STATUS_DIRTY : Fld := ⟨.HUTCH_STATUS, 11, 6, .live, .const 0⟩
abbrev Fld.HUTCH_STATUS_EVB : Fld := ⟨.HUTCH_STATUS, 14, 12, .live, .const 0⟩
abbrev Fld.HUTCH_STATUS_BLOCKED : Fld := ⟨.HUTCH_STATUS, 15, 15, .live, .const 0⟩
abbrev Fld.HUTCH_STATUS_DIRTY_OFF : Fld := ⟨.HUTCH_STATUS, 16, 16, .w1c, .const 0⟩
abbrev Fld.HUTCH_STATUS_UE : Fld := ⟨.HUTCH_STATUS, 17, 17, .w1c, .const 0⟩
abbrev Fld.HUTCH_STATUS_MAINT_LOST : Fld := ⟨.HUTCH_STATUS, 18, 18, .w1c, .const 0⟩
abbrev Fld.HUTCH_MASK_MASK : Fld := ⟨.HUTCH_MASK, 47, 0, .rw, .hutchMask⟩
abbrev Fld.HUTCH_RLWIN_BASE_EN : Fld := ⟨.HUTCH_RLWIN_BASE, 0, 0, .rw, .const 0⟩
abbrev Fld.HUTCH_RLWIN_BASE_BASE : Fld := ⟨.HUTCH_RLWIN_BASE, 47, 12, .rw, .const 0⟩
abbrev Fld.HUTCH_RLWIN_LIM_LIMIT : Fld := ⟨.HUTCH_RLWIN_LIM, 47, 12, .rw, .const 0⟩
abbrev Fld.HUTCH_MAINT_PA_PA : Fld := ⟨.HUTCH_MAINT_PA, 47, 6, .rw, .const 0⟩
abbrev Fld.HUTCH_MAINT_OP : Fld := ⟨.HUTCH_MAINT, 2, 0, .rw, .const 0⟩
abbrev Fld.HUTCH_MAINT_BYIDX : Fld := ⟨.HUTCH_MAINT, 3, 3, .rw, .const 0⟩
abbrev Fld.HUTCH_MAINT_IDX : Fld := ⟨.HUTCH_MAINT, 9, 4, .rw, .const 0⟩
abbrev Fld.HUTCH_MAINT_REQ : Fld := ⟨.HUTCH_MAINT, 12, 10, .rw, .const 0⟩
abbrev Fld.HUTCH_MAINT_GO : Fld := ⟨.HUTCH_MAINT, 16, 16, .wo, .const 0⟩
abbrev Fld.HUTCH_MAINT_STATUS : Fld := ⟨.HUTCH_MAINT, 19, 17, .ro, .const 0⟩
abbrev Fld.CL_BKT_LEVEL : Fld := ⟨.CL_BKT, 4, 0, .live, .const 0⟩
abbrev Fld.CL_BKT_LEAK : Fld := ⟨.CL_BKT, 15, 8, .rw, .const 10⟩
abbrev Fld.CL_BKT_OVF : Fld := ⟨.CL_BKT, 16, 16, .w1c, .const 0⟩
abbrev Fld.CL_INJ_MASK : Fld := ⟨.CL_INJ, 7, 0, .rw, .const 0⟩
abbrev Fld.CL_INJ_CONT : Fld := ⟨.CL_INJ, 8, 8, .rw, .const 0⟩
abbrev Fld.CL_INJ_ARM : Fld := ⟨.CL_INJ, 9, 9, .rw, .const 0⟩
abbrev Fld.CL_INJ_REFUSED : Fld := ⟨.CL_INJ, 10, 10, .w1c, .const 0⟩
abbrev Fld.CL_INJ_LAST : Fld := ⟨.CL_INJ, 31, 12, .ro, .const 0⟩
abbrev Fld.CLC_FIRST_CODE : Fld := ⟨.CLC_FIRST, 7, 0, .ro, .const 0⟩
abbrev Fld.CLC_FIRST_VALID : Fld := ⟨.CLC_FIRST, 8, 8, .w1c, .const 0⟩
abbrev Fld.CLC_FIRST_OVF : Fld := ⟨.CLC_FIRST, 9, 9, .ro, .const 0⟩
abbrev Fld.CLC_FIRST_INJ : Fld := ⟨.CLC_FIRST, 10, 10, .ro, .const 0⟩
abbrev Fld.CLC_FIRST_SUBJECT : Fld := ⟨.CLC_FIRST, 31, 16, .ro, .const 0⟩
abbrev Fld.CLC_TIME_TIME : Fld := ⟨.CLC_TIME, 63, 0, .ro, .const 0⟩
abbrev Fld.CL_TEL_SEL_EVENT : Fld := ⟨.CL_TEL_SEL, 7, 0, .rw, .const 0⟩
abbrev Fld.CL_TEL_SEL_N : Fld := ⟨.CL_TEL_SEL, 31, 16, .rw, .const 0⟩
abbrev Fld.CL_TEL_CNT_VALUE : Fld := ⟨.CL_TEL_CNT, 47, 0, .rw, .const 0⟩
abbrev Fld.CL_TEL_CNT_OVF : Fld := ⟨.CL_TEL_CNT, 48, 48, .w1c, .const 0⟩
abbrev Fld.CL_TEL_SNAP_VALUE : Fld := ⟨.CL_TEL_SNAP, 47, 0, .ro, .const 0⟩
abbrev Fld.CL_TEL_SNAP_OVF : Fld := ⟨.CL_TEL_SNAP, 48, 48, .ro, .const 0⟩
abbrev Fld.CL_TEL_SNAP_VALID : Fld := ⟨.CL_TEL_SNAP, 49, 49, .ro, .const 0⟩
abbrev Fld.CL_FRZ_STATES : Fld := ⟨.CL_FRZ, 7, 0, .ro, .const 0⟩
abbrev Fld.CL_FRZ_CAP : Fld := ⟨.CL_FRZ, 11, 8, .ro, .const 0⟩
abbrev Fld.CL_FRZ_BG : Fld := ⟨.CL_FRZ, 12, 12, .ro, .const 0⟩
abbrev Fld.CL_FRZ_DBUF : Fld := ⟨.CL_FRZ, 24, 13, .ro, .const 0⟩
abbrev Fld.SL_STATUS_LSLICE : Fld := ⟨.SL_STATUS, 6, 0, .live, .const 0⟩
abbrev Fld.SL_STATUS_ROLE : Fld := ⟨.SL_STATUS, 9, 8, .live, .const 0⟩
abbrev Fld.SL_STATUS_CQ_RSVD : Fld := ⟨.SL_STATUS, 10, 10, .live, .const 0⟩
abbrev Fld.SL_OCC_TOTAL : Fld := ⟨.SL_OCC, 9, 0, .live, .const 0⟩
abbrev Fld.SL_OCC_SNP : Fld := ⟨.SL_OCC, 19, 10, .live, .const 0⟩
abbrev Fld.SL_OCC_MNT : Fld := ⟨.SL_OCC, 29, 20, .live, .const 0⟩
abbrev Fld.SL_CQ_OCC : Fld := ⟨.SL_CQ, 5, 0, .live, .const 0⟩
abbrev Fld.SL_CQ_FULL : Fld := ⟨.SL_CQ, 6, 6, .live, .const 0⟩
abbrev Fld.SL_CQ_OVF : Fld := ⟨.SL_CQ, 31, 16, .rc, .const 0⟩
abbrev Fld.SL_CTL_BORROW_LVL : Fld := ⟨.SL_CTL, 7, 0, .rw, .const 64⟩
abbrev Fld.SL_CTL_CQ_GUARD : Fld := ⟨.SL_CTL, 15, 8, .rw, .const 20⟩
abbrev Fld.SL_ERR_LOGIC_PAR : Fld := ⟨.SL_ERR, 0, 0, .w1c, .const 0⟩
abbrev Fld.SL_ERR_TRK_UE : Fld := ⟨.SL_ERR, 1, 1, .w1c, .const 0⟩
abbrev Fld.SL_ERR_WDOG : Fld := ⟨.SL_ERR, 2, 2, .w1c, .const 0⟩
abbrev Fld.SL_ERR_CQ_TMO : Fld := ⟨.SL_ERR, 3, 3, .w1c, .const 0⟩
abbrev Fld.SL_WDOG_TMO : Fld := ⟨.SL_WDOG, 15, 0, .rw, .const 100⟩
abbrev Fld.SL_TRK_IDX_ENTRY : Fld := ⟨.SL_TRK_IDX, 8, 0, .rw, .const 0⟩
abbrev Fld.SL_TRK_DATA_BITS : Fld := ⟨.SL_TRK_DATA, 31, 0, .ro, .const 0⟩
abbrev Fld.SLC_FIRST_CODE : Fld := ⟨.SLC_FIRST, 7, 0, .ro, .const 0⟩
abbrev Fld.SLC_FIRST_VALID : Fld := ⟨.SLC_FIRST, 8, 8, .w1c, .const 0⟩
abbrev Fld.SLC_FIRST_OVF : Fld := ⟨.SLC_FIRST, 9, 9, .ro, .const 0⟩
abbrev Fld.SLC_FIRST_INJ : Fld := ⟨.SLC_FIRST, 10, 10, .ro, .const 0⟩
abbrev Fld.SLC_FIRST_SUBJECT : Fld := ⟨.SLC_FIRST, 31, 16, .ro, .const 0⟩
abbrev Fld.SLC_TIME_TIME : Fld := ⟨.SLC_TIME, 63, 0, .ro, .const 0⟩
abbrev Fld.SL_TEL_SEL_EVENT : Fld := ⟨.SL_TEL_SEL, 7, 0, .rw, .const 0⟩
abbrev Fld.SL_TEL_SEL_N : Fld := ⟨.SL_TEL_SEL, 31, 16, .rw, .const 0⟩
abbrev Fld.SL_TEL_CNT_VALUE : Fld := ⟨.SL_TEL_CNT, 47, 0, .rw, .const 0⟩
abbrev Fld.SL_TEL_CNT_OVF : Fld := ⟨.SL_TEL_CNT, 48, 48, .w1c, .const 0⟩
abbrev Fld.SL_TEL_SNAP_VALUE : Fld := ⟨.SL_TEL_SNAP, 47, 0, .ro, .const 0⟩
abbrev Fld.SL_TEL_SNAP_OVF : Fld := ⟨.SL_TEL_SNAP, 48, 48, .ro, .const 0⟩
abbrev Fld.SL_TEL_SNAP_VALID : Fld := ⟨.SL_TEL_SNAP, 49, 49, .ro, .const 0⟩
abbrev Fld.SL_FRZ_USED : Fld := ⟨.SL_FRZ, 9, 0, .ro, .const 0⟩
abbrev Fld.SL_FRZ_CQ : Fld := ⟨.SL_FRZ, 15, 10, .ro, .const 0⟩
abbrev Fld.SL_FRZ_LEDGER : Fld := ⟨.SL_FRZ, 18, 16, .ro, .const 0⟩
abbrev Fld.CAB_CTL_STREAM_N : Fld := ⟨.CAB_CTL, 4, 0, .rw, .const 3⟩
abbrev Fld.CAB_CTL_FINE_LVL : Fld := ⟨.CAB_CTL, 13, 8, .rw, .const 48⟩
abbrev Fld.CAB_CTL_COARSE_VICT : Fld := ⟨.CAB_CTL, 20, 16, .rw, .const 4⟩
abbrev Fld.CAB_CTL_TW_GROUPS : Fld := ⟨.CAB_CTL, 30, 24, .rw, .const 0⟩
abbrev Fld.CAB_AGE_SET_INTVL : Fld := ⟨.CAB_AGE, 15, 0, .rw, .const 128⟩
abbrev Fld.CAB_AGE_EN : Fld := ⟨.CAB_AGE, 16, 16, .rw, .const 1⟩
abbrev Fld.CAB_OCC_FINE_COUNT : Fld := ⟨.CAB_OCC_FINE, 16, 0, .live, .const 0⟩
abbrev Fld.CAB_OCC_COARSE_COUNT : Fld := ⟨.CAB_OCC_COARSE, 16, 0, .live, .const 0⟩
abbrev Fld.CAB_STATE_BLIND_ALL : Fld := ⟨.CAB_STATE, 0, 0, .live, .const 0⟩
abbrev Fld.CAB_STATE_BLIND_N : Fld := ⟨.CAB_STATE, 4, 1, .live, .const 0⟩
abbrev Fld.CAB_STATE_REBUILDING : Fld := ⟨.CAB_STATE, 5, 5, .live, .const 0⟩
abbrev Fld.CAB_ERR_LOST_PAGE : Fld := ⟨.CAB_ERR, 0, 0, .w1c, .const 0⟩
abbrev Fld.CAB_ERR_FORMAT : Fld := ⟨.CAB_ERR, 1, 1, .w1c, .const 0⟩
abbrev Fld.CAB_ERR_WR_FMT : Fld := ⟨.CAB_ERR, 2, 2, .w1c, .const 0⟩
abbrev Fld.CAB_ERR_BLIND_OVF : Fld := ⟨.CAB_ERR, 3, 3, .w1c, .const 0⟩
abbrev Fld.CAB_OCC_O_COUNT : Fld := ⟨.CAB_OCC_O, 16, 0, .live, .const 0⟩
abbrev Fld.CAB_OCC_F_COUNT : Fld := ⟨.CAB_OCC_F, 16, 0, .live, .const 0⟩
abbrev Fld.CAB_BLIND_A_SET : Fld := ⟨.CAB_BLIND_A, 11, 0, .ro, .const 0⟩
abbrev Fld.CAB_BLIND_A_STATE : Fld := ⟨.CAB_BLIND_A, 13, 12, .ro, .const 0⟩
abbrev Fld.CAB_BLIND_A_CAUSE : Fld := ⟨.CAB_BLIND_A, 14, 14, .ro, .const 0⟩
abbrev Fld.CAB_BLIND_B_CURSOR : Fld := ⟨.CAB_BLIND_B, 25, 0, .ro, .const 0⟩
abbrev Fld.SCRUB_CTL_INTVL : Fld := ⟨.SCRUB_CTL, 15, 0, .rw, .const 2048⟩
abbrev Fld.SCRUB_CTL_EN : Fld := ⟨.SCRUB_CTL, 16, 16, .rw, .const 1⟩
abbrev Fld.SCRUB_LAP_LAP : Fld := ⟨.SCRUB_LAP, 31, 0, .ro, .const 0⟩
abbrev Fld.SCRUB_LAP_MAX_MAX : Fld := ⟨.SCRUB_LAP_MAX, 31, 0, .rw, .const 10000000⟩
abbrev Fld.SCRUB_POS_PAGE : Fld := ⟨.SCRUB_POS, 10, 0, .live, .const 0⟩
abbrev Fld.SI_BUCKET_LEVEL : Fld := ⟨.SI_BUCKET, 4, 0, .live, .const 0⟩
abbrev Fld.SI_BUCKET_LEAK : Fld := ⟨.SI_BUCKET, 15, 8, .rw, .const 10⟩
abbrev Fld.SI_BUCKET_OVF : Fld := ⟨.SI_BUCKET, 16, 16, .w1c, .const 0⟩
abbrev Fld.SI_RPT_OCC : Fld := ⟨.SI_RPT, 4, 0, .live, .const 0⟩
abbrev Fld.SI_RPT_WIN : Fld := ⟨.SI_RPT, 15, 8, .rw, .const 10⟩
abbrev Fld.SI_RPT_OVF : Fld := ⟨.SI_RPT, 31, 16, .rc, .const 0⟩
abbrev Fld.SI_ERR_HARD : Fld := ⟨.SI_ERR, 0, 0, .w1c, .const 0⟩
abbrev Fld.SI_ERR_RETIRE : Fld := ⟨.SI_ERR, 1, 1, .w1c, .const 0⟩
abbrev Fld.SI_ERR_SLOW : Fld := ⟨.SI_ERR, 2, 2, .w1c, .const 0⟩
abbrev Fld.CULLET_WORD : Fld := ⟨.CULLET, 15, 0, .ro, .const 0⟩
abbrev Fld.CULLET_VALID : Fld := ⟨.CULLET, 16, 16, .ro, .const 0⟩
abbrev Fld.SI_RETIRED_COUNT : Fld := ⟨.SI_RETIRED, 16, 0, .live, .const 0⟩
abbrev Fld.SI_INJ_MASK : Fld := ⟨.SI_INJ, 7, 0, .rw, .const 0⟩
abbrev Fld.SI_INJ_CONT : Fld := ⟨.SI_INJ, 8, 8, .rw, .const 0⟩
abbrev Fld.SI_INJ_ARM : Fld := ⟨.SI_INJ, 9, 9, .rw, .const 0⟩
abbrev Fld.SI_INJ_REFUSED : Fld := ⟨.SI_INJ, 10, 10, .w1c, .const 0⟩
abbrev Fld.SI_INJ_LAST : Fld := ⟨.SI_INJ, 31, 12, .ro, .const 0⟩

/-- The place, domain and width of each register; the comment is the rule of its table. -/
def RegName.desc : RegName → RegDesc
  | .ID => ⟨0x000000, 0, 1, 0, 1, .lehr, 1⟩ -- R543
  | .CAPS => ⟨0x000004, 0, 1, 0, 1, .lehr, 1⟩ -- R544
  | .MODE => ⟨0x000008, 0, 1, 0, 1, .lehr, 1⟩ -- R31
  | .MODE_REQ => ⟨0x00000C, 0, 1, 0, 1, .lehr, 1⟩ -- R32
  | .DIAG_CTL => ⟨0x000010, 0, 1, 0, 1, .core, 1⟩ -- R546
  | .PIN_STATUS => ⟨0x000020, 0, 1, 0, 1, .lehr, 1⟩ -- R54
  | .HOME_CTL => ⟨0x000024, 0, 1, 0, 1, .lehr, 1⟩ -- R53
  | .STRAP => ⟨0x000028, 0, 1, 0, 1, .lehr, 1⟩ -- R55
  | .SWEEP_STATUS => ⟨0x000030, 0, 1, 0, 1, .core, 1⟩ -- R185
  | .RB_STATUS => ⟨0x000040, 0, 1, 0, 1, .core, 1⟩ -- R308
  | .RB_CTL => ⟨0x000044, 0, 1, 0, 1, .core, 1⟩ -- R309
  | .RB_PROF_ACT => ⟨0x000048, 0, 1, 0, 1, .core, 1⟩ -- R310
  | .RB_PROF_INACT => ⟨0x00004C, 0, 1, 0, 1, .core, 1⟩ -- R310
  | .RB_ERR => ⟨0x000050, 0, 1, 0, 1, .core, 1⟩ -- R311
  | .RB_ERR_INFO => ⟨0x000054, 0, 1, 0, 1, .core, 1⟩ -- R311
  | .PARISON_LOC => ⟨0x000060, 0, 1, 0, 1, .lehr, 2⟩ -- R312
  | .BOOT_MBOX => ⟨0x000068, 0, 1, 0, 1, .core, 1⟩ -- R313
  | .BOOT_MBOX_POP => ⟨0x00006C, 0, 1, 0, 1, .core, 1⟩ -- R313
  | .BOOT_MBOX_STAT => ⟨0x000070, 0, 1, 0, 1, .core, 1⟩ -- R313
  | .BOOT_STATUS => ⟨0x000074, 0, 1, 0, 1, .lehr, 1⟩ -- R313
  | .LEHR_STATUS => ⟨0x010000, 0, 1, 0, 1, .lehr, 1⟩ -- R481
  | .SLEEP_CTL => ⟨0x010004, 0, 1, 0, 1, .lehr, 1⟩ -- R482
  | .SLEEP_STATUS => ⟨0x010008, 0, 1, 0, 1, .lehr, 1⟩ -- R482
  | .LEHR_IRQ => ⟨0x01000C, 0, 1, 0, 1, .lehr, 1⟩ -- R481
  | .WAKE_TIME => ⟨0x010010, 0, 1, 0, 1, .lehr, 2⟩ -- R482
  | .THERM_CTL => ⟨0x010020, 0, 1, 0, 1, .lehr, 1⟩ -- R483
  | .THERM_BAD => ⟨0x010024, 0, 1, 0, 1, .lehr, 1⟩ -- R483
  | .THERM_RGN => ⟨0x010028, 0, 1, 0, 1, .lehr, 1⟩ -- R483
  | .THERM_S => ⟨0x010040, 4, 32, 0, 1, .lehr, 1⟩ -- R483
  | .GOV_CTL => ⟨0x010100, 0, 1, 0, 1, .lehr, 1⟩ -- R484
  | .GOV_ILIM => ⟨0x010104, 0, 1, 0, 1, .lehr, 1⟩ -- R484
  | .GOV_BG => ⟨0x010108, 0, 1, 0, 1, .lehr, 1⟩ -- R484
  | .GOV_CEIL => ⟨0x010110, 0, 1, 0, 1, .lehr, 2⟩ -- R484
  | .GOV_STATUS => ⟨0x010118, 0, 1, 0, 1, .lehr, 1⟩ -- R484
  | .GOV_IMEAS => ⟨0x01011C, 0, 1, 0, 1, .lehr, 1⟩ -- R484
  | .GOV_PKG => ⟨0x010120, 0, 1, 0, 1, .lehr, 1⟩ -- R484
  | .GOV_SLOT_CAPL => ⟨0x010200, 16, 64, 0, 1, .lehr, 1⟩ -- R485
  | .GOV_SLOT_CAPH => ⟨0x010204, 16, 64, 0, 1, .lehr, 1⟩ -- R485
  | .GOV_SLOT_BG => ⟨0x010208, 16, 64, 0, 1, .lehr, 1⟩ -- R485
  | .MGN_CTL => ⟨0x010800, 0, 1, 0, 1, .lehr, 1⟩ -- R486
  | .MGN_PLAN => ⟨0x010804, 0, 1, 0, 1, .lehr, 1⟩ -- R486
  | .MGN_HOURS => ⟨0x010808, 0, 1, 0, 1, .lehr, 1⟩ -- R486
  | .MGN_GEN => ⟨0x01080C, 0, 1, 0, 1, .lehr, 1⟩ -- R486
  | .LDG_REC => ⟨0x010820, 4, 4, 0, 1, .lehr, 1⟩ -- R487
  | .LDG_CTL => ⟨0x010830, 0, 1, 0, 1, .lehr, 1⟩ -- R487
  | .AGE_MON => ⟨0x010840, 4, 32, 0, 1, .lehr, 1⟩ -- R486
  | .START_STATUS => ⟨0x010C00, 0, 1, 0, 1, .lehr, 1⟩ -- R524
  | .START_CTL => ⟨0x010C04, 0, 1, 0, 1, .lehr, 1⟩ -- R525
  | .START_CNT => ⟨0x010C08, 0, 1, 0, 1, .lehr, 1⟩ -- R526
  | .FC_STATUS => ⟨0x020000, 0, 1, 0, 1, .lehr, 1⟩ -- R415
  | .FC_FIRST => ⟨0x020004, 0, 1, 0, 1, .lehr, 1⟩ -- R416
  | .FC_FIRST_TIME => ⟨0x020008, 0, 1, 0, 1, .lehr, 2⟩ -- R416
  | .FC_CTL => ⟨0x020010, 0, 1, 0, 1, .lehr, 1⟩ -- R417
  | .FC_PIN_CTL => ⟨0x020014, 0, 1, 0, 1, .lehr, 1⟩ -- R418
  | .FC_RECOV => ⟨0x020018, 0, 1, 0, 1, .lehr, 1⟩ -- R419
  | .FC_INJ => ⟨0x02001C, 0, 1, 0, 1, .lehr, 1⟩ -- R420
  | .FC_PEER => ⟨0x020020, 0, 1, 0, 1, .lehr, 1⟩ -- R421
  | .FC_MERGED => ⟨0x020040, 4, 8, 0, 1, .lehr, 1⟩ -- R422
  | .FC_SRC => ⟨0x020400, 4, 256, 0, 1, .lehr, 1⟩ -- R423
  | .RLC_FIRST => ⟨0x020800, 16, 4, 0, 1, .core, 1⟩ -- R424
  | .RLC_TIME => ⟨0x020804, 16, 4, 0, 1, .core, 2⟩ -- R424
  | .IC_SRC => ⟨0x030000, 4, 512, 0, 1, .core, 1⟩ -- R455
  | .IC_PEND => ⟨0x030800, 4, 16, 0, 1, .core, 1⟩ -- R456
  | .IC_PCLR => ⟨0x030840, 4, 16, 0, 1, .core, 1⟩ -- R456
  | .IC_THRESH => ⟨0x031000, 8, 24, 0, 1, .core, 1⟩ -- R457
  | .IC_CLAIMT => ⟨0x031004, 8, 24, 0, 1, .core, 1⟩ -- R457
  | .IC_CLAIM => ⟨0x031800, 0, 1, 0, 1, .core, 1⟩ -- R457
  | .NQ_CTL => ⟨0x040000, 0, 1, 0, 1, .core, 1⟩ -- R449
  | .NQ_STATUS => ⟨0x040004, 0, 1, 0, 1, .core, 1⟩ -- R449
  | .NQ_LEVEL => ⟨0x040008, 0, 1, 0, 1, .core, 1⟩ -- R450
  | .NQ_RD0 => ⟨0x040010, 0, 1, 0, 1, .core, 1⟩ -- R450
  | .NQ_RD => ⟨0x040014, 4, 3, 0, 1, .core, 1⟩ -- R450
  | .NQ_RD_INFO => ⟨0x040020, 0, 1, 0, 1, .core, 1⟩ -- R450
  | .NQ_DROP_PKT => ⟨0x040024, 0, 1, 0, 1, .core, 1⟩ -- R451
  | .NQ_MARK => ⟨0x040028, 0, 1, 0, 1, .core, 1⟩ -- R451
  | .NQ_REWIND => ⟨0x04002C, 0, 1, 0, 1, .core, 1⟩ -- R451
  | .NQ_RING => ⟨0x040040, 8, 8, 0, 1, .core, 1⟩ -- R452
  | .NQ_RING_STAT => ⟨0x040044, 8, 8, 0, 1, .core, 1⟩ -- R452
  | .NQ_DROPS => ⟨0x040080, 4, 8, 0, 1, .core, 1⟩ -- R452
  | .NQ_TMAP => ⟨0x040100, 4, 32, 0, 1, .core, 1⟩ -- R453
  | .NQ_FB_RD0 => ⟨0x040800, 0, 1, 0, 1, .lehr, 1⟩ -- R454
  | .NQ_FB_RD => ⟨0x040804, 4, 3, 0, 1, .lehr, 1⟩ -- R454
  | .NQ_FB_STAT => ⟨0x040810, 0, 1, 0, 1, .lehr, 1⟩ -- R454
  | .CMD_DESC => ⟨0x050000, 0, 1, 0, 1, .lehr, 1⟩ -- R458
  | .CMD_ARG => ⟨0x050004, 4, 4, 0, 1, .lehr, 1⟩ -- R458
  | .CMD_GO => ⟨0x050014, 0, 1, 0, 1, .lehr, 1⟩ -- R458
  | .CMD_RES => ⟨0x050018, 0, 1, 0, 1, .lehr, 1⟩ -- R459
  | .CMD_VAL => ⟨0x05001C, 0, 1, 0, 1, .lehr, 1⟩ -- R459
  | .CMD_POST => ⟨0x050020, 0, 1, 0, 1, .lehr, 1⟩ -- R459
  | .CMD_POST_VAL => ⟨0x050024, 0, 1, 0, 1, .lehr, 1⟩ -- R459
  | .PT_CTL => ⟨0x060000, 256, 4, 0, 1, .cold, 1⟩ -- R504
  | .PT_STATUS => ⟨0x060004, 256, 4, 0, 1, .core, 1⟩ -- R504
  | .PT_ERR => ⟨0x060008, 256, 4, 0, 1, .core, 1⟩ -- R504
  | .PT_CNT => ⟨0x06000C, 256, 4, 0, 1, .core, 1⟩ -- R504
  | .PT_GCTL => ⟨0x060800, 0, 1, 0, 1, .core, 1⟩ -- R505
  | .PT_PKG => ⟨0x060804, 0, 1, 0, 1, .core, 1⟩ -- R505
  | .PT_TSYNC => ⟨0x060808, 0, 1, 0, 1, .core, 1⟩ -- R505
  | .PT_TSYNC_OFS => ⟨0x06080C, 0, 1, 0, 1, .core, 1⟩ -- R505
  | .PT_LOST => ⟨0x060840, 4, 8, 0, 1, .core, 1⟩ -- R505
  | .FRZ_CTL => ⟨0x070000, 0, 1, 0, 1, .core, 1⟩ -- R541
  | .FRZ_STATUS => ⟨0x070004, 0, 1, 0, 1, .core, 1⟩ -- R541
  | .FRZ_TIME => ⟨0x070008, 0, 1, 0, 1, .core, 2⟩ -- R541
  | .FRZ_CNT_SEL => ⟨0x070010, 0, 1, 0, 1, .core, 1⟩ -- R541
  | .FRZ_CNT_VAL => ⟨0x070018, 0, 1, 0, 1, .core, 2⟩ -- R541
  | .TEL_CTL => ⟨0x070020, 0, 1, 0, 1, .core, 1⟩ -- R541
  | .TEL_STATUS => ⟨0x070024, 0, 1, 0, 1, .core, 1⟩ -- R541
  | .INST_FRZ => ⟨0x070028, 0, 1, 0, 1, .core, 1⟩ -- R538
  | .LEHR_FRZ => ⟨0x070100, 0, 1, 0, 1, .lehr, 1⟩ -- R538
  | .LEHR_FRZ_CAPL => ⟨0x070104, 0, 1, 0, 1, .lehr, 1⟩ -- R538
  | .LEHR_FRZ_CAPH => ⟨0x070108, 0, 1, 0, 1, .lehr, 1⟩ -- R538
  | .LEHR_FRZ_BG => ⟨0x07010C, 0, 1, 0, 1, .lehr, 1⟩ -- R538
  | .FP_CTL => ⟨0x080000, 1024, 64, 0, 1, .port, 1⟩ -- R88
  | .FP_STATUS => ⟨0x080004, 1024, 64, 0, 1, .port, 1⟩ -- R89
  | .FP_ERR => ⟨0x080008, 1024, 64, 0, 1, .port, 1⟩ -- R90
  | .FP_ERR_INFO => ⟨0x08000C, 1024, 64, 0, 1, .port, 1⟩ -- R91
  | .FP_TEL_SEL => ⟨0x080100, 1024, 64, 4, 4, .port, 1⟩ -- R540
  | .FP_TEL_CNT => ⟨0x080120, 1024, 64, 8, 4, .port, 2⟩ -- R540
  | .FP_TEL_SNAP => ⟨0x080140, 1024, 64, 8, 4, .port, 2⟩ -- R540
  | .FP_FRZ => ⟨0x080160, 1024, 64, 0, 1, .port, 1⟩ -- R538
  | .PC_CTL => ⟨0x090000, 0, 1, 0, 1, .port, 1⟩ -- R92
  | .PC_BIID => ⟨0x090004, 0, 1, 0, 1, .port, 1⟩ -- R93
  | .SNP_TMO => ⟨0x090008, 0, 1, 0, 1, .port, 1⟩ -- R94
  | .HOLD_STATUS => ⟨0x09000C, 0, 1, 0, 1, .port, 1⟩ -- R95
  | .RS_STATUS => ⟨0x090010, 0, 1, 0, 1, .port, 1⟩ -- R96
  | .AGT_IDX => ⟨0x090014, 0, 1, 0, 1, .port, 1⟩ -- R97
  | .AGT_DATA => ⟨0x090018, 0, 1, 0, 1, .port, 2⟩ -- R97
  | .DFP_LOCAL => ⟨0x090020, 0, 1, 0, 1, .port, 1⟩ -- R98
  | .LIVE_CTL => ⟨0x090040, 0, 1, 0, 1, .port, 1⟩ -- R232
  | .AGT_EVT => ⟨0x090044, 0, 1, 0, 1, .port, 1⟩ -- R233
  | .RECLAIM_STATUS => ⟨0x090048, 0, 1, 0, 1, .port, 1⟩ -- R234
  | .RECLAIM_LOST => ⟨0x09004C, 0, 1, 0, 1, .port, 1⟩ -- R235
  | .ADOPT_WIN_A => ⟨0x090060, 8, 4, 0, 1, .port, 1⟩ -- R236
  | .ADOPT_WIN_B => ⟨0x090064, 8, 4, 0, 1, .port, 1⟩ -- R236
  | .REPLAY_STAT0 => ⟨0x090080, 0, 1, 0, 1, .port, 1⟩ -- R527
  | .REPLAY_STAT1 => ⟨0x090084, 0, 1, 0, 1, .port, 1⟩ -- R527
  | .REPLAY_STAT2 => ⟨0x090088, 0, 1, 0, 1, .port, 1⟩ -- R527
  | .MP_CTL => ⟨0x0A0000, 1024, 32, 0, 1, .core, 1⟩ -- R361
  | .MP_STATE => ⟨0x0A0004, 1024, 32, 0, 1, .core, 1⟩ -- R362
  | .MP_ERR => ⟨0x0A0008, 1024, 32, 0, 1, .core, 1⟩ -- R363
  | .MP_ERR_INFO => ⟨0x0A000C, 1024, 32, 0, 1, .core, 1⟩ -- R363
  | .ARB_MODE => ⟨0x0A0010, 1024, 32, 0, 1, .core, 1⟩ -- R364
  | .ARB_PRIO => ⟨0x0A0014, 1024, 32, 4, 2, .core, 1⟩ -- R365
  | .ARB_PRIO2 => ⟨0x0A001C, 1024, 32, 0, 1, .core, 1⟩ -- R365
  | .ARB_PROG => ⟨0x0A0020, 1024, 32, 4, 5, .core, 1⟩ -- R366
  | .MP_TEL_SEL => ⟨0x0A0100, 1024, 32, 4, 4, .core, 1⟩ -- R540
  | .MP_TEL_CNT => ⟨0x0A0120, 1024, 32, 8, 4, .core, 2⟩ -- R540
  | .MP_TEL_SNAP => ⟨0x0A0140, 1024, 32, 8, 4, .core, 2⟩ -- R540
  | .MP_FRZ => ⟨0x0A0160, 1024, 32, 0, 1, .core, 1⟩ -- R538
  | .BULK_GO => ⟨0x0B0000, 256, 4, 0, 1, .core, 1⟩ -- R367
  | .BULK_STATUS => ⟨0x0B0004, 256, 4, 0, 1, .core, 1⟩ -- R367
  | .BULK_CUR => ⟨0x0B0008, 256, 4, 0, 1, .core, 1⟩ -- R367
  | .HMAP => ⟨0x0C0000, 4, 4096, 0, 1, .port, 1⟩ -- R358
  | .AMAP_ERR => ⟨0x0C4000, 0, 1, 0, 1, .port, 1⟩ -- R360
  | .DIE_BKT_P => ⟨0x0D0000, 8, 4, 0, 1, .port, 1⟩ -- R393
  | .DIE_INJ_P => ⟨0x0D0004, 8, 4, 0, 1, .port, 1⟩ -- R393
  | .DIE_BKT_NQ => ⟨0x0D0020, 0, 1, 0, 1, .core, 1⟩ -- R393
  | .DIE_INJ_NQ => ⟨0x0D0024, 0, 1, 0, 1, .core, 1⟩ -- R393
  | .DIE_BKT_L => ⟨0x0D0028, 0, 1, 0, 1, .lehr, 1⟩ -- R393
  | .DIE_INJ_L => ⟨0x0D002C, 0, 1, 0, 1, .lehr, 1⟩ -- R393
  | .AMAP => ⟨0x0E0000, 8, 16384, 0, 1, .port, 2⟩ -- R359
  | .CL_SLMAP => ⟨0x100100, 65536, 16, 0, 1, .core, 1⟩ -- R130
  | .CL_SPARE => ⟨0x100104, 65536, 16, 0, 1, .core, 1⟩ -- R131
  | .CL_ADOPT => ⟨0x100108, 65536, 16, 0, 1, .core, 1⟩ -- R132
  | .STW_CTL => ⟨0x100200, 65536, 16, 0, 1, .core, 1⟩ -- R283
  | .STW_STATUS => ⟨0x100204, 65536, 16, 0, 1, .core, 1⟩ -- R284
  | .STW_PC => ⟨0x100210, 65536, 16, 16, 4, .core, 2⟩ -- R285
  | .STW_TRAP => ⟨0x100218, 65536, 16, 16, 4, .core, 1⟩ -- R286
  | .HUTCH_CTL => ⟨0x100300, 65536, 16, 0, 1, .core, 1⟩ -- R330
  | .HUTCH_STATUS => ⟨0x100304, 65536, 16, 0, 1, .core, 1⟩ -- R331
  | .HUTCH_MASK => ⟨0x100310, 65536, 16, 8, 6, .core, 2⟩ -- R332
  | .HUTCH_RLWIN_BASE => ⟨0x100340, 65536, 16, 0, 1, .core, 2⟩ -- R333
  | .HUTCH_RLWIN_LIM => ⟨0x100348, 65536, 16, 0, 1, .core, 2⟩ -- R333
  | .HUTCH_MAINT_PA => ⟨0x100350, 65536, 16, 0, 1, .core, 2⟩ -- R334
  | .HUTCH_MAINT => ⟨0x100358, 65536, 16, 0, 1, .core, 1⟩ -- R334
  | .CL_BKT => ⟨0x100400, 65536, 16, 8, 5, .core, 1⟩ -- R393
  | .CL_INJ => ⟨0x100404, 65536, 16, 8, 5, .core, 1⟩ -- R393
  | .CLC_FIRST => ⟨0x100500, 65536, 16, 0, 1, .core, 1⟩ -- R424
  | .CLC_TIME => ⟨0x100504, 65536, 16, 0, 1, .core, 2⟩ -- R424
  | .CL_TEL_SEL => ⟨0x100600, 65536, 16, 4, 8, .core, 1⟩ -- R540
  | .CL_TEL_CNT => ⟨0x100620, 65536, 16, 8, 8, .core, 2⟩ -- R540
  | .CL_TEL_SNAP => ⟨0x100660, 65536, 16, 8, 8, .core, 2⟩ -- R540
  | .CL_FRZ => ⟨0x1006A0, 65536, 16, 0, 1, .core, 1⟩ -- R538
  | .SL_STATUS => ⟨0x400000, 16384, 144, 0, 1, .core, 1⟩ -- R123
  | .SL_OCC => ⟨0x400004, 16384, 144, 0, 1, .core, 1⟩ -- R124
  | .SL_CQ => ⟨0x400008, 16384, 144, 0, 1, .core, 1⟩ -- R125
  | .SL_CTL => ⟨0x40000C, 16384, 144, 0, 1, .core, 1⟩ -- R126
  | .SL_ERR => ⟨0x400010, 16384, 144, 0, 1, .core, 1⟩ -- R127
  | .SL_WDOG => ⟨0x400014, 16384, 144, 0, 1, .core, 1⟩ -- R128
  | .SL_TRK_IDX => ⟨0x400020, 16384, 144, 0, 1, .core, 1⟩ -- R129
  | .SL_TRK_DATA => ⟨0x400024, 16384, 144, 4, 4, .core, 1⟩ -- R129
  | .SLC_FIRST => ⟨0x400040, 16384, 144, 0, 1, .core, 1⟩ -- R424
  | .SLC_TIME => ⟨0x400044, 16384, 144, 0, 1, .core, 2⟩ -- R424
  | .SL_TEL_SEL => ⟨0x400080, 16384, 144, 4, 4, .core, 1⟩ -- R540
  | .SL_TEL_CNT => ⟨0x4000A0, 16384, 144, 8, 8, .core, 2⟩ -- R540
  | .SL_TEL_SNAP => ⟨0x4000E0, 16384, 144, 8, 8, .core, 2⟩ -- R540
  | .SL_FRZ => ⟨0x400120, 16384, 144, 0, 1, .core, 1⟩ -- R538
  | .CAB_CTL => ⟨0x700000, 4096, 128, 0, 1, .core, 1⟩ -- R161
  | .CAB_AGE => ⟨0x700004, 4096, 128, 0, 1, .core, 1⟩ -- R162
  | .CAB_OCC_FINE => ⟨0x700008, 4096, 128, 0, 1, .core, 1⟩ -- R163
  | .CAB_OCC_COARSE => ⟨0x70000C, 4096, 128, 0, 1, .core, 1⟩ -- R163
  | .CAB_STATE => ⟨0x700010, 4096, 128, 0, 1, .core, 1⟩ -- R164
  | .CAB_ERR => ⟨0x700014, 4096, 128, 0, 1, .core, 1⟩ -- R165
  | .CAB_OCC_O => ⟨0x700018, 4096, 128, 0, 1, .core, 1⟩ -- R186
  | .CAB_OCC_F => ⟨0x70001C, 4096, 128, 0, 1, .core, 1⟩ -- R186
  | .CAB_BLIND_A => ⟨0x700040, 4096, 128, 8, 8, .core, 1⟩ -- R166
  | .CAB_BLIND_B => ⟨0x700044, 4096, 128, 8, 8, .core, 1⟩ -- R166
  | .SCRUB_CTL => ⟨0x700080, 4096, 128, 0, 1, .core, 1⟩ -- R386
  | .SCRUB_LAP => ⟨0x700084, 4096, 128, 0, 1, .core, 1⟩ -- R387
  | .SCRUB_LAP_MAX => ⟨0x700088, 4096, 128, 0, 1, .core, 1⟩ -- R387
  | .SCRUB_POS => ⟨0x70008C, 4096, 128, 0, 1, .core, 1⟩ -- R387
  | .SI_BUCKET => ⟨0x700090, 4096, 128, 0, 1, .core, 1⟩ -- R388
  | .SI_RPT => ⟨0x700094, 4096, 128, 0, 1, .core, 1⟩ -- R389
  | .SI_ERR => ⟨0x700098, 4096, 128, 0, 1, .core, 1⟩ -- R390
  | .CULLET => ⟨0x7000A0, 4096, 128, 4, 8, .core, 1⟩ -- R391
  | .SI_RETIRED => ⟨0x7000C0, 4096, 128, 0, 1, .core, 1⟩ -- R391
  | .SI_INJ => ⟨0x7000D0, 4096, 128, 0, 1, .core, 1⟩ -- R392

/-- The fields of each register. -/
def RegName.fields : RegName → List Fld
  | .ID => [Fld.ID_PART, Fld.ID_MAJOR, Fld.ID_MINOR, Fld.ID_VENDOR]
  | .CAPS => [Fld.CAPS_CLUSTERS, Fld.CAPS_PT_PORTS, Fld.CAPS_FP_MAX, Fld.CAPS_MP_MAX, Fld.CAPS_COMPAT, Fld.CAPS_DFP_VER]
  | .MODE => [Fld.MODE_CUR, Fld.MODE_PREV, Fld.MODE_BUSY, Fld.MODE_FORCED, Fld.MODE_RETAINED]
  | .MODE_REQ => [Fld.MODE_REQ_REQ, Fld.MODE_REQ_RETAIN, Fld.MODE_REQ_STATUS]
  | .DIAG_CTL => [Fld.DIAG_CTL_ARRAY, Fld.DIAG_CTL_BANK, Fld.DIAG_CTL_UNIT, Fld.DIAG_CTL_EN]
  | .PIN_STATUS => [Fld.PIN_STATUS_HOME_READY, Fld.PIN_STATUS_HOME_KEEP, Fld.PIN_STATUS_FAULT_N, Fld.PIN_STATUS_FREEZE_IN, Fld.PIN_STATUS_FREEZE_OUT, Fld.PIN_STATUS_WAKE_IN, Fld.PIN_STATUS_RAIL_REQ, Fld.PIN_STATUS_CTEL_ABSENT, Fld.PIN_STATUS_WARM_IGN, Fld.PIN_STATUS_LREF_LOCK]
  | .HOME_CTL => [Fld.HOME_CTL_FORCE_OFF]
  | .STRAP => [Fld.STRAP_INST_ID, Fld.STRAP_PARISON_SRC]
  | .SWEEP_STATUS => [Fld.SWEEP_STATUS_KIND, Fld.SWEEP_STATUS_ACTIVE, Fld.SWEEP_STATUS_DRAWERS, Fld.SWEEP_STATUS_SETTLED]
  | .RB_STATUS => [Fld.RB_STATUS_ACTIVE, Fld.RB_STATUS_DRAINING, Fld.RB_STATUS_SWAPPING, Fld.RB_STATUS_LOADED, Fld.RB_STATUS_OLD, Fld.RB_STATUS_SWAPS]
  | .RB_CTL => [Fld.RB_CTL_UFLAG]
  | .RB_PROF_ACT => [Fld.RB_PROF_ACT_PROFILE]
  | .RB_PROF_INACT => [Fld.RB_PROF_INACT_PROFILE]
  | .RB_ERR => [Fld.RB_ERR_NORULE, Fld.RB_ERR_BAD_STEP]
  | .RB_ERR_INFO => [Fld.RB_ERR_INFO_LSLICE, Fld.RB_ERR_INFO_TYPE, Fld.RB_ERR_INFO_STEP]
  | .PARISON_LOC => [Fld.PARISON_LOC_MP, Fld.PARISON_LOC_BASE, Fld.PARISON_LOC_VALID]
  | .BOOT_MBOX => [Fld.BOOT_MBOX_WORD]
  | .BOOT_MBOX_POP => [Fld.BOOT_MBOX_POP_WORD]
  | .BOOT_MBOX_STAT => [Fld.BOOT_MBOX_STAT_COUNT, Fld.BOOT_MBOX_STAT_OVF, Fld.BOOT_MBOX_STAT_WAIT]
  | .BOOT_STATUS => [Fld.BOOT_STATUS_CODE, Fld.BOOT_STATUS_SRC]
  | .LEHR_STATUS => [Fld.LEHR_STATUS_SELFCHK, Fld.LEHR_STATUS_LDG_VALID, Fld.LEHR_STATUS_GUARD, Fld.LEHR_STATUS_CTEL_USED]
  | .SLEEP_CTL => [Fld.SLEEP_CTL_EN_LO, Fld.SLEEP_CTL_EN_MGMT, Fld.SLEEP_CTL_EN_HI, Fld.SLEEP_CTL_WAKE]
  | .SLEEP_STATUS => [Fld.SLEEP_STATUS_STATE, Fld.SLEEP_STATUS_RESULT, Fld.SLEEP_STATUS_SRC]
  | .LEHR_IRQ => [Fld.LEHR_IRQ_SRC]
  | .WAKE_TIME => [Fld.WAKE_TIME_TIME]
  | .THERM_CTL => [Fld.THERM_CTL_T_TARGET, Fld.THERM_CTL_T_HOT, Fld.THERM_CTL_T_TRIP, Fld.THERM_CTL_T_WAKE]
  | .THERM_BAD => [Fld.THERM_BAD_EXCL]
  | .THERM_RGN => [Fld.THERM_RGN_T]
  | .THERM_S => [Fld.THERM_S_TEMP]
  | .GOV_CTL => [Fld.GOV_CTL_AUTO, Fld.GOV_CTL_PKG, Fld.GOV_CTL_SLOT]
  | .GOV_ILIM => [Fld.GOV_ILIM_PK, Fld.GOV_ILIM_AVG]
  | .GOV_BG => [Fld.GOV_BG_BG_EN, Fld.GOV_BG_MARGIN]
  | .GOV_CEIL => [Fld.GOV_CEIL_CEIL]
  | .GOV_STATUS => [Fld.GOV_STATUS_SLOT, Fld.GOV_STATUS_PK, Fld.GOV_STATUS_AVG, Fld.GOV_STATUS_HOT, Fld.GOV_STATUS_TRIP]
  | .GOV_IMEAS => [Fld.GOV_IMEAS_CORE, Fld.GOV_IMEAS_SRAM]
  | .GOV_PKG => [Fld.GOV_PKG_SHARE]
  | .GOV_SLOT_CAPL => [Fld.GOV_SLOT_CAPL_CAP]
  | .GOV_SLOT_CAPH => [Fld.GOV_SLOT_CAPH_CAP]
  | .GOV_SLOT_BG => [Fld.GOV_SLOT_BG_BG]
  | .MGN_CTL => [Fld.MGN_CTL_BIAS, Fld.MGN_CTL_K, Fld.MGN_CTL_GUARD, Fld.MGN_CTL_GO]
  | .MGN_PLAN => [Fld.MGN_PLAN_VOFS, Fld.MGN_PLAN_CEIL, Fld.MGN_PLAN_ASSIST, Fld.MGN_PLAN_REASON]
  | .MGN_HOURS => [Fld.MGN_HOURS_HOURS]
  | .MGN_GEN => [Fld.MGN_GEN_GEN, Fld.MGN_GEN_BUSY]
  | .LDG_REC => [Fld.LDG_REC_BITS]
  | .LDG_CTL => [Fld.LDG_CTL_PUSH, Fld.LDG_CTL_COMMIT, Fld.LDG_CTL_CLEAR, Fld.LDG_CTL_FRESH, Fld.LDG_CTL_RESULT]
  | .AGE_MON => [Fld.AGE_MON_BASE, Fld.AGE_MON_NOW]
  | .START_STATUS => [Fld.START_STATUS_KIND, Fld.START_STATUS_STEP, Fld.START_STATUS_RUNNING, Fld.START_STATUS_EXHAUSTED, Fld.START_STATUS_CODE]
  | .START_CTL => [Fld.START_CTL_MAPS_READY, Fld.START_CTL_PT_EN, Fld.START_CTL_RETRY, Fld.START_CTL_STEP_TMO, Fld.START_CTL_RETRY_DLY]
  | .START_CNT => [Fld.START_CNT_WARM_FAIL, Fld.START_CNT_COLD_FAIL, Fld.START_CNT_STARTS]
  | .FC_STATUS => [Fld.FC_STATUS_FAULT, Fld.FC_STATUS_OVF, Fld.FC_STATUS_SEV, Fld.FC_STATUS_LIVE, Fld.FC_STATUS_DENIED, Fld.FC_STATUS_FATAL, Fld.FC_STATUS_DUP_COUNT]
  | .FC_FIRST => [Fld.FC_FIRST_CODE, Fld.FC_FIRST_SEV, Fld.FC_FIRST_LASTING, Fld.FC_FIRST_INJ, Fld.FC_FIRST_LIVE, Fld.FC_FIRST_SUBJECT]
  | .FC_FIRST_TIME => [Fld.FC_FIRST_TIME_TIME]
  | .FC_CTL => [Fld.FC_CTL_LATCH_SEV, Fld.FC_CTL_FRZ_SEV, Fld.FC_CTL_FRZ_EN, Fld.FC_CTL_FWD_SEV, Fld.FC_CTL_FWD_EN]
  | .FC_PIN_CTL => [Fld.FC_PIN_CTL_HOLD, Fld.FC_PIN_CTL_RELEASE, Fld.FC_PIN_CTL_FORCE, Fld.FC_PIN_CTL_PULSE, Fld.FC_PIN_CTL_HELD]
  | .FC_RECOV => [Fld.FC_RECOV_CLASS]
  | .FC_INJ => [Fld.FC_INJ_CODE, Fld.FC_INJ_SUBJECT, Fld.FC_INJ_GO, Fld.FC_INJ_REFUSED]
  | .FC_PEER => [Fld.FC_PEER_SEV_PT, Fld.FC_PEER_SYS_FATAL]
  | .FC_MERGED => [Fld.FC_MERGED_SRC]
  | .FC_SRC => [Fld.FC_SRC_SEV, Fld.FC_SRC_PIN_EN, Fld.FC_SRC_MODE_EN, Fld.FC_SRC_LASTING, Fld.FC_SRC_N, Fld.FC_SRC_WIN]
  | .RLC_FIRST => [Fld.RLC_FIRST_CODE, Fld.RLC_FIRST_VALID, Fld.RLC_FIRST_OVF, Fld.RLC_FIRST_INJ, Fld.RLC_FIRST_SUBJECT]
  | .RLC_TIME => [Fld.RLC_TIME_TIME]
  | .IC_SRC => [Fld.IC_SRC_PRIO, Fld.IC_SRC_TMASK]
  | .IC_PEND => [Fld.IC_PEND_PEND]
  | .IC_PCLR => [Fld.IC_PCLR_CLR]
  | .IC_THRESH => [Fld.IC_THRESH_THRESH]
  | .IC_CLAIMT => [Fld.IC_CLAIMT_ID, Fld.IC_CLAIMT_PRIO]
  | .IC_CLAIM => [Fld.IC_CLAIM_ID]
  | .NQ_CTL => [Fld.NQ_CTL_EN]
  | .NQ_STATUS => [Fld.NQ_STATUS_OCC, Fld.NQ_STATUS_ABOVE, Fld.NQ_STATUS_UNDERRUN, Fld.NQ_STATUS_CFG_ERR, Fld.NQ_STATUS_LOCK, Fld.NQ_STATUS_LOCK_RING]
  | .NQ_LEVEL => [Fld.NQ_LEVEL_LEVEL]
  | .NQ_RD0 => [Fld.NQ_RD0_BITS]
  | .NQ_RD => [Fld.NQ_RD_BITS]
  | .NQ_RD_INFO => [Fld.NQ_RD_INFO_RING, Fld.NQ_RD_INFO_END, Fld.NQ_RD_INFO_BAD]
  | .NQ_DROP_PKT => [Fld.NQ_DROP_PKT_GO, Fld.NQ_DROP_PKT_DROPPED]
  | .NQ_MARK => [Fld.NQ_MARK_RING, Fld.NQ_MARK_GO, Fld.NQ_MARK_VALID]
  | .NQ_REWIND => [Fld.NQ_REWIND_RING, Fld.NQ_REWIND_GO, Fld.NQ_REWIND_STATUS]
  | .NQ_RING => [Fld.NQ_RING_BASE, Fld.NQ_RING_LOG2]
  | .NQ_RING_STAT => [Fld.NQ_RING_STAT_OCC, Fld.NQ_RING_STAT_PKTS, Fld.NQ_RING_STAT_GAP]
  | .NQ_DROPS => [Fld.NQ_DROPS_DROPS]
  | .NQ_TMAP => [Fld.NQ_TMAP_RING0, Fld.NQ_TMAP_RING1, Fld.NQ_TMAP_RING2, Fld.NQ_TMAP_RING3, Fld.NQ_TMAP_RING4, Fld.NQ_TMAP_RING5, Fld.NQ_TMAP_RING6, Fld.NQ_TMAP_RING7]
  | .NQ_FB_RD0 => [Fld.NQ_FB_RD0_BITS]
  | .NQ_FB_RD => [Fld.NQ_FB_RD_BITS]
  | .NQ_FB_STAT => [Fld.NQ_FB_STAT_COUNT, Fld.NQ_FB_STAT_BYTES, Fld.NQ_FB_STAT_UNDERRUN, Fld.NQ_FB_STAT_DROPS]
  | .CMD_DESC => [Fld.CMD_DESC_CODE]
  | .CMD_ARG => [Fld.CMD_ARG_ARG]
  | .CMD_GO => [Fld.CMD_GO_GO, Fld.CMD_GO_BUSY_ERR]
  | .CMD_RES => [Fld.CMD_RES_DONE, Fld.CMD_RES_CODE, Fld.CMD_RES_SEQ]
  | .CMD_VAL => [Fld.CMD_VAL_VALUE]
  | .CMD_POST => [Fld.CMD_POST_CODE, Fld.CMD_POST_SEQ]
  | .CMD_POST_VAL => [Fld.CMD_POST_VAL_VALUE]
  | .PT_CTL => [Fld.PT_CTL_EN, Fld.PT_CTL_CODING, Fld.PT_CTL_BG_RETRY]
  | .PT_STATUS => [Fld.PT_STATUS_STATE, Fld.PT_STATUS_ATTEMPT, Fld.PT_STATUS_LOCK, Fld.PT_STATUS_PEER_ID, Fld.PT_STATUS_PEER_VER]
  | .PT_ERR => [Fld.PT_ERR_CRC, Fld.PT_ERR_SAME_ID, Fld.PT_ERR_LANE, Fld.PT_ERR_ABSENT]
  | .PT_CNT => [Fld.PT_CNT_CRC_N, Fld.PT_CNT_REPLAY_N]
  | .PT_GCTL => [Fld.PT_GCTL_TTL, Fld.PT_GCTL_TMASTER, Fld.PT_GCTL_TSYNC_EN]
  | .PT_PKG => [Fld.PT_PKG_BUDGET, Fld.PT_PKG_N]
  | .PT_TSYNC => [Fld.PT_TSYNC_DIST, Fld.PT_TSYNC_UPSTREAM, Fld.PT_TSYNC_LOCKED, Fld.PT_TSYNC_PERIOD]
  | .PT_TSYNC_OFS => [Fld.PT_TSYNC_OFS_OFS]
  | .PT_LOST => [Fld.PT_LOST_LOST]
  | .FRZ_CTL => [Fld.FRZ_CTL_TRIG, Fld.FRZ_CTL_REARM, Fld.FRZ_CTL_PIN_EN, Fld.FRZ_CTL_PEER_EN, Fld.FRZ_CTL_CNT_EN, Fld.FRZ_CTL_DUMP, Fld.FRZ_CTL_OUT_EN]
  | .FRZ_STATUS => [Fld.FRZ_STATUS_FROZEN, Fld.FRZ_STATUS_CAUSES, Fld.FRZ_STATUS_ORIGIN, Fld.FRZ_STATUS_CODE, Fld.FRZ_STATUS_MISSED]
  | .FRZ_TIME => [Fld.FRZ_TIME_TIME]
  | .FRZ_CNT_SEL => [Fld.FRZ_CNT_SEL_ID]
  | .FRZ_CNT_VAL => [Fld.FRZ_CNT_VAL_VALUE]
  | .TEL_CTL => [Fld.TEL_CTL_EN, Fld.TEL_CTL_PERIOD]
  | .TEL_STATUS => [Fld.TEL_STATUS_SWEEP, Fld.TEL_STATUS_BUSY, Fld.TEL_STATUS_SKIPS]
  | .INST_FRZ => [Fld.INST_FRZ_CUR, Fld.INST_FRZ_HOLD]
  | .LEHR_FRZ => [Fld.LEHR_FRZ_SLOT, Fld.LEHR_FRZ_FROZEN, Fld.LEHR_FRZ_TMAX]
  | .LEHR_FRZ_CAPL => [Fld.LEHR_FRZ_CAPL_CAP]
  | .LEHR_FRZ_CAPH => [Fld.LEHR_FRZ_CAPH_CAP]
  | .LEHR_FRZ_BG => [Fld.LEHR_FRZ_BG_BG]
  | .FP_CTL => [Fld.FP_CTL_EN]
  | .FP_STATUS => [Fld.FP_STATUS_LINK_UP, Fld.FP_STATUS_GRANTED, Fld.FP_STATUS_TXC_SNP, Fld.FP_STATUS_TXC_RSP, Fld.FP_STATUS_TXC_DAT]
  | .FP_ERR => [Fld.FP_ERR_BAD_OPC, Fld.FP_ERR_MISROUTE, Fld.FP_ERR_TENANT, Fld.FP_ERR_AGENT, Fld.FP_ERR_UNEXP_RSP, Fld.FP_ERR_TX_STALL, Fld.FP_ERR_CRD_OVF]
  | .FP_ERR_INFO => [Fld.FP_ERR_INFO_AGENT, Fld.FP_ERR_INFO_TYPE]
  | .FP_TEL_SEL => [Fld.FP_TEL_SEL_EVENT, Fld.FP_TEL_SEL_N]
  | .FP_TEL_CNT => [Fld.FP_TEL_CNT_VALUE, Fld.FP_TEL_CNT_OVF]
  | .FP_TEL_SNAP => [Fld.FP_TEL_SNAP_VALUE, Fld.FP_TEL_SNAP_OVF, Fld.FP_TEL_SNAP_VALID]
  | .FP_FRZ => [Fld.FP_FRZ_REQ, Fld.FP_FRZ_DAT, Fld.FP_FRZ_TXSNP, Fld.FP_FRZ_TXDAT]
  | .PC_CTL => [Fld.PC_CTL_RETRY_TMO, Fld.PC_CTL_NNACK_LVL, Fld.PC_CTL_SPEC_EN]
  | .PC_BIID => [Fld.PC_BIID_BASE]
  | .SNP_TMO => [Fld.SNP_TMO_TMO]
  | .HOLD_STATUS => [Fld.HOLD_STATUS_OCC, Fld.HOLD_STATUS_FULL, Fld.HOLD_STATUS_HWM]
  | .RS_STATUS => [Fld.RS_STATUS_VALID, Fld.RS_STATUS_REPLAY]
  | .AGT_IDX => [Fld.AGT_IDX_IDX]
  | .AGT_DATA => [Fld.AGT_DATA_ENTRY]
  | .DFP_LOCAL => [Fld.DFP_LOCAL_VER]
  | .LIVE_CTL => [Fld.LIVE_CTL_PROBE_TMO, Fld.LIVE_CTL_PROBE_N, Fld.LIVE_CTL_LINK_GRACE, Fld.LIVE_CTL_RELEASE_TMO]
  | .AGT_EVT => [Fld.AGT_EVT_NEXT, Fld.AGT_EVT_CAUSES, Fld.AGT_EVT_ANY]
  | .RECLAIM_STATUS => [Fld.RECLAIM_STATUS_AGENT, Fld.RECLAIM_STATUS_BUSY, Fld.RECLAIM_STATUS_CLOSING, Fld.RECLAIM_STATUS_PEND]
  | .RECLAIM_LOST => [Fld.RECLAIM_LOST_LOST]
  | .ADOPT_WIN_A => [Fld.ADOPT_WIN_A_WINDOW, Fld.ADOPT_WIN_A_STATE]
  | .ADOPT_WIN_B => [Fld.ADOPT_WIN_B_CURSOR]
  | .REPLAY_STAT0 => [Fld.REPLAY_STAT0_REPLAYED]
  | .REPLAY_STAT1 => [Fld.REPLAY_STAT1_CLOSED]
  | .REPLAY_STAT2 => [Fld.REPLAY_STAT2_KEPT]
  | .MP_CTL => [Fld.MP_CTL_TMO]
  | .MP_STATE => [Fld.MP_STATE_STATE, Fld.MP_STATE_OUT]
  | .MP_ERR => [Fld.MP_ERR_FAIL, Fld.MP_ERR_TMO]
  | .MP_ERR_INFO => [Fld.MP_ERR_INFO_RTAG]
  | .ARB_MODE => [Fld.ARB_MODE_MODE, Fld.ARB_MODE_LIMIT, Fld.ARB_MODE_AGE]
  | .ARB_PRIO => [Fld.ARB_PRIO_PRIO]
  | .ARB_PRIO2 => [Fld.ARB_PRIO2_PRIO16]
  | .ARB_PROG => [Fld.ARB_PROG_PROG]
  | .MP_TEL_SEL => [Fld.MP_TEL_SEL_EVENT, Fld.MP_TEL_SEL_N]
  | .MP_TEL_CNT => [Fld.MP_TEL_CNT_VALUE, Fld.MP_TEL_CNT_OVF]
  | .MP_TEL_SNAP => [Fld.MP_TEL_SNAP_VALUE, Fld.MP_TEL_SNAP_OVF, Fld.MP_TEL_SNAP_VALID]
  | .MP_FRZ => [Fld.MP_FRZ_OUT, Fld.MP_FRZ_HOLDER, Fld.MP_FRZ_STATE]
  | .BULK_GO => [Fld.BULK_GO_DESC]
  | .BULK_STATUS => [Fld.BULK_STATUS_QUEUED, Fld.BULK_STATUS_OVF, Fld.BULK_STATUS_OP]
  | .BULK_CUR => [Fld.BULK_CUR_DONE]
  | .HMAP => [Fld.HMAP_HOME, Fld.HMAP_STANDBY, Fld.HMAP_SB_EN, Fld.HMAP_DRAIN, Fld.HMAP_VALID]
  | .AMAP_ERR => [Fld.AMAP_ERR_BAD_ENTRY, Fld.AMAP_ERR_INDEX]
  | .DIE_BKT_P => [Fld.DIE_BKT_P_LEVEL, Fld.DIE_BKT_P_LEAK, Fld.DIE_BKT_P_OVF]
  | .DIE_INJ_P => [Fld.DIE_INJ_P_MASK, Fld.DIE_INJ_P_CONT, Fld.DIE_INJ_P_ARM, Fld.DIE_INJ_P_REFUSED, Fld.DIE_INJ_P_LAST]
  | .DIE_BKT_NQ => [Fld.DIE_BKT_NQ_LEVEL, Fld.DIE_BKT_NQ_LEAK, Fld.DIE_BKT_NQ_OVF]
  | .DIE_INJ_NQ => [Fld.DIE_INJ_NQ_MASK, Fld.DIE_INJ_NQ_CONT, Fld.DIE_INJ_NQ_ARM, Fld.DIE_INJ_NQ_REFUSED, Fld.DIE_INJ_NQ_LAST]
  | .DIE_BKT_L => [Fld.DIE_BKT_L_LEVEL, Fld.DIE_BKT_L_LEAK, Fld.DIE_BKT_L_OVF]
  | .DIE_INJ_L => [Fld.DIE_INJ_L_MASK, Fld.DIE_INJ_L_CONT, Fld.DIE_INJ_L_ARM, Fld.DIE_INJ_L_REFUSED, Fld.DIE_INJ_L_LAST]
  | .AMAP => [Fld.AMAP_VALID, Fld.AMAP_DRAIN, Fld.AMAP_TENANT, Fld.AMAP_SCOPE, Fld.AMAP_PRI_MP, Fld.AMAP_MIR_MP, Fld.AMAP_MIR_EN, Fld.AMAP_WAYS, Fld.AMAP_GRAN, Fld.AMAP_BASE]
  | .CL_SLMAP => [Fld.CL_SLMAP_POS]
  | .CL_SPARE => [Fld.CL_SPARE_SPARE, Fld.CL_SPARE_FAILED, Fld.CL_SPARE_ADOPTING]
  | .CL_ADOPT => [Fld.CL_ADOPT_POS, Fld.CL_ADOPT_GO, Fld.CL_ADOPT_STATUS]
  | .STW_CTL => [Fld.STW_CTL_START, Fld.STW_CTL_STOP, Fld.STW_CTL_IRQ_THREAD]
  | .STW_STATUS => [Fld.STW_STATUS_STATE, Fld.STW_STATUS_IN_TRAP, Fld.STW_STATUS_FAILED, Fld.STW_STATUS_HOSTING, Fld.STW_STATUS_HOSTED]
  | .STW_PC => [Fld.STW_PC_PC]
  | .STW_TRAP => [Fld.STW_TRAP_CAUSE, Fld.STW_TRAP_NESTED]
  | .HUTCH_CTL => [Fld.HUTCH_CTL_EN, Fld.HUTCH_CTL_PF, Fld.HUTCH_CTL_TICK]
  | .HUTCH_STATUS => [Fld.HUTCH_STATUS_VALID, Fld.HUTCH_STATUS_DIRTY, Fld.HUTCH_STATUS_EVB, Fld.HUTCH_STATUS_BLOCKED, Fld.HUTCH_STATUS_DIRTY_OFF, Fld.HUTCH_STATUS_UE, Fld.HUTCH_STATUS_MAINT_LOST]
  | .HUTCH_MASK => [Fld.HUTCH_MASK_MASK]
  | .HUTCH_RLWIN_BASE => [Fld.HUTCH_RLWIN_BASE_EN, Fld.HUTCH_RLWIN_BASE_BASE]
  | .HUTCH_RLWIN_LIM => [Fld.HUTCH_RLWIN_LIM_LIMIT]
  | .HUTCH_MAINT_PA => [Fld.HUTCH_MAINT_PA_PA]
  | .HUTCH_MAINT => [Fld.HUTCH_MAINT_OP, Fld.HUTCH_MAINT_BYIDX, Fld.HUTCH_MAINT_IDX, Fld.HUTCH_MAINT_REQ, Fld.HUTCH_MAINT_GO, Fld.HUTCH_MAINT_STATUS]
  | .CL_BKT => [Fld.CL_BKT_LEVEL, Fld.CL_BKT_LEAK, Fld.CL_BKT_OVF]
  | .CL_INJ => [Fld.CL_INJ_MASK, Fld.CL_INJ_CONT, Fld.CL_INJ_ARM, Fld.CL_INJ_REFUSED, Fld.CL_INJ_LAST]
  | .CLC_FIRST => [Fld.CLC_FIRST_CODE, Fld.CLC_FIRST_VALID, Fld.CLC_FIRST_OVF, Fld.CLC_FIRST_INJ, Fld.CLC_FIRST_SUBJECT]
  | .CLC_TIME => [Fld.CLC_TIME_TIME]
  | .CL_TEL_SEL => [Fld.CL_TEL_SEL_EVENT, Fld.CL_TEL_SEL_N]
  | .CL_TEL_CNT => [Fld.CL_TEL_CNT_VALUE, Fld.CL_TEL_CNT_OVF]
  | .CL_TEL_SNAP => [Fld.CL_TEL_SNAP_VALUE, Fld.CL_TEL_SNAP_OVF, Fld.CL_TEL_SNAP_VALID]
  | .CL_FRZ => [Fld.CL_FRZ_STATES, Fld.CL_FRZ_CAP, Fld.CL_FRZ_BG, Fld.CL_FRZ_DBUF]
  | .SL_STATUS => [Fld.SL_STATUS_LSLICE, Fld.SL_STATUS_ROLE, Fld.SL_STATUS_CQ_RSVD]
  | .SL_OCC => [Fld.SL_OCC_TOTAL, Fld.SL_OCC_SNP, Fld.SL_OCC_MNT]
  | .SL_CQ => [Fld.SL_CQ_OCC, Fld.SL_CQ_FULL, Fld.SL_CQ_OVF]
  | .SL_CTL => [Fld.SL_CTL_BORROW_LVL, Fld.SL_CTL_CQ_GUARD]
  | .SL_ERR => [Fld.SL_ERR_LOGIC_PAR, Fld.SL_ERR_TRK_UE, Fld.SL_ERR_WDOG, Fld.SL_ERR_CQ_TMO]
  | .SL_WDOG => [Fld.SL_WDOG_TMO]
  | .SL_TRK_IDX => [Fld.SL_TRK_IDX_ENTRY]
  | .SL_TRK_DATA => [Fld.SL_TRK_DATA_BITS]
  | .SLC_FIRST => [Fld.SLC_FIRST_CODE, Fld.SLC_FIRST_VALID, Fld.SLC_FIRST_OVF, Fld.SLC_FIRST_INJ, Fld.SLC_FIRST_SUBJECT]
  | .SLC_TIME => [Fld.SLC_TIME_TIME]
  | .SL_TEL_SEL => [Fld.SL_TEL_SEL_EVENT, Fld.SL_TEL_SEL_N]
  | .SL_TEL_CNT => [Fld.SL_TEL_CNT_VALUE, Fld.SL_TEL_CNT_OVF]
  | .SL_TEL_SNAP => [Fld.SL_TEL_SNAP_VALUE, Fld.SL_TEL_SNAP_OVF, Fld.SL_TEL_SNAP_VALID]
  | .SL_FRZ => [Fld.SL_FRZ_USED, Fld.SL_FRZ_CQ, Fld.SL_FRZ_LEDGER]
  | .CAB_CTL => [Fld.CAB_CTL_STREAM_N, Fld.CAB_CTL_FINE_LVL, Fld.CAB_CTL_COARSE_VICT, Fld.CAB_CTL_TW_GROUPS]
  | .CAB_AGE => [Fld.CAB_AGE_SET_INTVL, Fld.CAB_AGE_EN]
  | .CAB_OCC_FINE => [Fld.CAB_OCC_FINE_COUNT]
  | .CAB_OCC_COARSE => [Fld.CAB_OCC_COARSE_COUNT]
  | .CAB_STATE => [Fld.CAB_STATE_BLIND_ALL, Fld.CAB_STATE_BLIND_N, Fld.CAB_STATE_REBUILDING]
  | .CAB_ERR => [Fld.CAB_ERR_LOST_PAGE, Fld.CAB_ERR_FORMAT, Fld.CAB_ERR_WR_FMT, Fld.CAB_ERR_BLIND_OVF]
  | .CAB_OCC_O => [Fld.CAB_OCC_O_COUNT]
  | .CAB_OCC_F => [Fld.CAB_OCC_F_COUNT]
  | .CAB_BLIND_A => [Fld.CAB_BLIND_A_SET, Fld.CAB_BLIND_A_STATE, Fld.CAB_BLIND_A_CAUSE]
  | .CAB_BLIND_B => [Fld.CAB_BLIND_B_CURSOR]
  | .SCRUB_CTL => [Fld.SCRUB_CTL_INTVL, Fld.SCRUB_CTL_EN]
  | .SCRUB_LAP => [Fld.SCRUB_LAP_LAP]
  | .SCRUB_LAP_MAX => [Fld.SCRUB_LAP_MAX_MAX]
  | .SCRUB_POS => [Fld.SCRUB_POS_PAGE]
  | .SI_BUCKET => [Fld.SI_BUCKET_LEVEL, Fld.SI_BUCKET_LEAK, Fld.SI_BUCKET_OVF]
  | .SI_RPT => [Fld.SI_RPT_OCC, Fld.SI_RPT_WIN, Fld.SI_RPT_OVF]
  | .SI_ERR => [Fld.SI_ERR_HARD, Fld.SI_ERR_RETIRE, Fld.SI_ERR_SLOW]
  | .CULLET => [Fld.CULLET_WORD, Fld.CULLET_VALID]
  | .SI_RETIRED => [Fld.SI_RETIRED_COUNT]
  | .SI_INJ => [Fld.SI_INJ_MASK, Fld.SI_INJ_CONT, Fld.SI_INJ_ARM, Fld.SI_INJ_REFUSED, Fld.SI_INJ_LAST]

def regNames0 : List RegName := [.ID, .CAPS, .MODE, .MODE_REQ, .DIAG_CTL, .PIN_STATUS, .HOME_CTL, .STRAP, .SWEEP_STATUS, .RB_STATUS, .RB_CTL, .RB_PROF_ACT, .RB_PROF_INACT, .RB_ERR, .RB_ERR_INFO, .PARISON_LOC, .BOOT_MBOX, .BOOT_MBOX_POP, .BOOT_MBOX_STAT, .BOOT_STATUS, .LEHR_STATUS, .SLEEP_CTL, .SLEEP_STATUS, .LEHR_IRQ]
def regNames1 : List RegName := [.WAKE_TIME, .THERM_CTL, .THERM_BAD, .THERM_RGN, .THERM_S, .GOV_CTL, .GOV_ILIM, .GOV_BG, .GOV_CEIL, .GOV_STATUS, .GOV_IMEAS, .GOV_PKG, .GOV_SLOT_CAPL, .GOV_SLOT_CAPH, .GOV_SLOT_BG, .MGN_CTL, .MGN_PLAN, .MGN_HOURS, .MGN_GEN, .LDG_REC, .LDG_CTL, .AGE_MON, .START_STATUS, .START_CTL]
def regNames2 : List RegName := [.START_CNT, .FC_STATUS, .FC_FIRST, .FC_FIRST_TIME, .FC_CTL, .FC_PIN_CTL, .FC_RECOV, .FC_INJ, .FC_PEER, .FC_MERGED, .FC_SRC, .RLC_FIRST, .RLC_TIME, .IC_SRC, .IC_PEND, .IC_PCLR, .IC_THRESH, .IC_CLAIMT, .IC_CLAIM, .NQ_CTL, .NQ_STATUS, .NQ_LEVEL, .NQ_RD0, .NQ_RD]
def regNames3 : List RegName := [.NQ_RD_INFO, .NQ_DROP_PKT, .NQ_MARK, .NQ_REWIND, .NQ_RING, .NQ_RING_STAT, .NQ_DROPS, .NQ_TMAP, .NQ_FB_RD0, .NQ_FB_RD, .NQ_FB_STAT, .CMD_DESC, .CMD_ARG, .CMD_GO, .CMD_RES, .CMD_VAL, .CMD_POST, .CMD_POST_VAL, .PT_CTL, .PT_STATUS, .PT_ERR, .PT_CNT, .PT_GCTL, .PT_PKG]
def regNames4 : List RegName := [.PT_TSYNC, .PT_TSYNC_OFS, .PT_LOST, .FRZ_CTL, .FRZ_STATUS, .FRZ_TIME, .FRZ_CNT_SEL, .FRZ_CNT_VAL, .TEL_CTL, .TEL_STATUS, .INST_FRZ, .LEHR_FRZ, .LEHR_FRZ_CAPL, .LEHR_FRZ_CAPH, .LEHR_FRZ_BG, .FP_CTL, .FP_STATUS, .FP_ERR, .FP_ERR_INFO, .FP_TEL_SEL, .FP_TEL_CNT, .FP_TEL_SNAP, .FP_FRZ, .PC_CTL]
def regNames5 : List RegName := [.PC_BIID, .SNP_TMO, .HOLD_STATUS, .RS_STATUS, .AGT_IDX, .AGT_DATA, .DFP_LOCAL, .LIVE_CTL, .AGT_EVT, .RECLAIM_STATUS, .RECLAIM_LOST, .ADOPT_WIN_A, .ADOPT_WIN_B, .REPLAY_STAT0, .REPLAY_STAT1, .REPLAY_STAT2, .MP_CTL, .MP_STATE, .MP_ERR, .MP_ERR_INFO, .ARB_MODE, .ARB_PRIO, .ARB_PRIO2, .ARB_PROG]
def regNames6 : List RegName := [.MP_TEL_SEL, .MP_TEL_CNT, .MP_TEL_SNAP, .MP_FRZ, .BULK_GO, .BULK_STATUS, .BULK_CUR, .HMAP, .AMAP_ERR, .DIE_BKT_P, .DIE_INJ_P, .DIE_BKT_NQ, .DIE_INJ_NQ, .DIE_BKT_L, .DIE_INJ_L, .AMAP, .CL_SLMAP, .CL_SPARE, .CL_ADOPT, .STW_CTL, .STW_STATUS, .STW_PC, .STW_TRAP, .HUTCH_CTL]
def regNames7 : List RegName := [.HUTCH_STATUS, .HUTCH_MASK, .HUTCH_RLWIN_BASE, .HUTCH_RLWIN_LIM, .HUTCH_MAINT_PA, .HUTCH_MAINT, .CL_BKT, .CL_INJ, .CLC_FIRST, .CLC_TIME, .CL_TEL_SEL, .CL_TEL_CNT, .CL_TEL_SNAP, .CL_FRZ, .SL_STATUS, .SL_OCC, .SL_CQ, .SL_CTL, .SL_ERR, .SL_WDOG, .SL_TRK_IDX, .SL_TRK_DATA, .SLC_FIRST, .SLC_TIME]
def regNames8 : List RegName := [.SL_TEL_SEL, .SL_TEL_CNT, .SL_TEL_SNAP, .SL_FRZ, .CAB_CTL, .CAB_AGE, .CAB_OCC_FINE, .CAB_OCC_COARSE, .CAB_STATE, .CAB_ERR, .CAB_OCC_O, .CAB_OCC_F, .CAB_BLIND_A, .CAB_BLIND_B, .SCRUB_CTL, .SCRUB_LAP, .SCRUB_LAP_MAX, .SCRUB_POS, .SI_BUCKET, .SI_RPT, .SI_ERR, .CULLET, .SI_RETIRED, .SI_INJ]

/-- Every register of the window. -/
def allRegs : List RegName := regNames0 ++ regNames1 ++ regNames2 ++ regNames3 ++ regNames4 ++ regNames5 ++ regNames6 ++ regNames7 ++ regNames8

/-- The offset of instance `(i, j)`. -/
def RegName.addr (r : RegName) (i j : Nat) : Nat := r.desc.base + r.desc.s1 * i + r.desc.s2 * j

/-- The instance of `r` whose words cover offset `off`, with the number of the word (0 low, 1 high). -/
def RegName.hit (r : RegName) (off : Nat) : Option (Nat × Nat × Nat) :=
  let d := r.desc
  if off < d.base then none else
  let x := off - d.base
  let i := if d.n1 ≤ 1 then 0 else x / d.s1
  let y := x - d.s1 * i
  let j := if d.n2 ≤ 1 then 0 else y / d.s2
  let z := y - d.s2 * j
  if i < d.n1 ∧ j < d.n2 ∧ z < 4 * d.words ∧ z % 4 = 0 then some (i, j, z / 4) else none

/-- The register a word offset names: its name, unit, index and word; none where no chapter assigns the offset (R6). -/
def locateIn (off : Nat) : List RegName → Option (RegName × Nat × Nat × Nat)
  | [] => none
  | r :: rs => match r.hit off with
    | some (i, j, w) => some (r, i, j, w)
    | none => locateIn off rs

def locate (off : Nat) : Option (RegName × Nat × Nat × Nat) := locateIn off allRegs

end Sys2Proof.Machine
end

