-- ==== Sys2Proof/Machine/State.lean ====
section
/-! DEFINITION. The state of one KH8 instance as plain data: every register, array, queue, counter, mode and pin of the
spec, and the queue of waiting commands. Repeated things are sparse maps whose unlisted keys hold their reset value. -/

namespace Sys2Proof.Machine

/-! ### Ports, hold slots and acceptance records (chapter 03) -/

/-- Who uses a DAT pool entry (R64, R112): nobody; a writeback not yet taken by its slice; a held WR_NA or WRP_NA; a
writeback sink slot `slice * 16 + slot`; a tracker entry. -/
inductive DatUser
  | free
  | waiting
  | req
  | sink (key : Nat)
  | trk (tid : Nat)
  deriving DecidableEq, Repr

/-- One line of a port's DAT pool with the header it came with (R64), and whether its writeback has been completed to the
agent, so that a writeback presented again completes no second time (R520). -/
structure DatEntry where
  user : DatUser
  typ : Nat
  hdr : Hdr
  data : Line
  seq : Nat
  cmp : Bool
  deriving DecidableEq, Repr

/-- What a held request waits for (R75): the first presentation or a retry by timer, the retirement of a tracker entry
or sink slot, the end of a reservation of its line, a shared entry of its slice, the acceptance of an earlier request
of the same agent and line (R76), its agent's LIVE state (R63), CORE (R27). -/
inductive HoldWait
  | presented
  | trk (tid : Nat)
  | sink (key : Nat)
  | rsv (line : Nat)
  | pool (slice : Nat)
  | mode
  | behind
  | binding
  | parked
  deriving DecidableEq, Repr

/-- A hold slot (R69, R73, R74): the request with its port, DAT entry and refusal count, the order in which it was
first held, and the time its retry timer ends. -/
structure HoldSlot where
  used : Bool
  typ : Nat
  hdr : Hdr
  port : Nat
  dat : Option Nat
  nacks : Nat
  seq : Nat
  wait : HoldWait
  tmo : Nat
  deriving DecidableEq, Repr

/-- An acceptance record of the retention store (R69). `port` and `dat` are DHANDLE. -/
structure AccRec where
  valid : Bool
  epoch : Nat
  typ : Nat
  hdr : Hdr
  dat : Option (Nat × Nat)
  dataOut : Bool
  cmpOut : Bool
  nacks : Nat
  accTime : Nat
  deriving DecidableEq, Repr

/-- A fabric-bound message in internal form (R59, R61): `own` says what leaving egress means to the KH8: nothing; a refused
read's DATA, whose CMP follows it (R63); a snoop, DATA or the final NDR of a tracker entry. -/
inductive EgOwn
  | plain
  | refused
  | snoop (tid : Nat)
  | data (tid : Nat)
  | final (tid : Nat)
  deriving DecidableEq, Repr

structure FabMsg where
  typ : Nat
  agent : Nat
  pa : Nat
  tag : Nat
  biid : Nat
  mval : Nat
  snpt : Nat
  poison : Bool
  fwd : Nat
  data : Option Line
  own : EgOwn
  deriving DecidableEq, Repr

/-- A REQ header waiting in its port's pool for a hold slot (R74). -/
structure ReqWait where
  typ : Nat
  hdr : Hdr
  dat : Option Nat
  nacks : Nat
  deriving DecidableEq, Repr

/-- A fabric port: link, receive credits the switch holds, waiting REQ headers, transmit credits, the egress order of
each class, and for each class whether a stall was reported (R64, R65). -/
structure FPort where
  link : Bool
  reqQ : List ReqWait
  reqCred : Nat
  datCred : Nat
  rspCred : Nat
  txSnp : Nat
  txRsp : Nat
  txDat : Nat
  snpQ : List FabMsg
  rspQ : List FabMsg
  datQ : List FabMsg
  stalled : List Nat
  deriving DecidableEq, Repr

/-- A snoop target descriptor (R78). -/
inductive SnpDesc
  | ptrs (as : List Nat)
  | groups (v : BitVec 64)
  | tenant
  deriving DecidableEq, Repr

/-- Snoop kinds (R61, R170). -/
inductive SnpKind | cur | data | inv | fwdKeep | fwdClean
  deriving DecidableEq, Repr

/-- One target of a snoop phase still to answer: the time it expires once its message has left, and whether it has
expired (R82). -/
structure SnpTarget where
  agent : Nat
  left : Bool
  deadline : Nat
  expired : Bool
  df : Bool
  deriving DecidableEq, Repr

/-- A fan-out record (R81): the phase's kind and line, whether the replicator has expanded it, the open targets, the
count of targets sent, the merged answer (0 I, 1 S, 2 E), the DEAD flag (R218; 0 none, 1 named at expansion, 2 closed by a
reclaim), the agents that answered S or E with their answers (the first four, and a fifth to say that there were more)
and their groups (R225), the answers that wait for an earlier writeback (R196), whether the entry that asked is gone
(R214), and whether the record is kept over a warm reset (R516). -/
structure FanRec where
  active : Bool
  kind : SnpKind
  pa : Nat
  expanded : Bool
  open_ : List SnpTarget
  sent : Nat
  merged : Nat
  dead : Nat
  holders : List (Nat × Nat)
  groups : BitVec 64
  deferred : List (Nat × Nat)
  orphan : Bool
  kept : Bool
  deriving DecidableEq, Repr

/-- An SNP message of a slice waiting for its cluster's replicator (R78). -/
structure SnpMsg where
  tid : Nat
  kind : SnpKind
  pa : Nat
  desc : SnpDesc
  excl : Option Nat
  fwd : Nat
  tag : Nat
  deriving DecidableEq, Repr

/-- Notices on a cluster's CCLK → FCLK queue (R21, R68, R72, R110), in the order the slices decided them. -/
inductive Notice
  | accept (tid hold epoch : Nat)
  | retire (tid : Nat)
  | retireSink (key : Nat) (port dat : Nat) (line : Nat)
  | refuse (hold : Nat) (on : HoldWait)
  | poolFree (slice : Nat)
  | rsvFree (slice line : Nat)
  deriving DecidableEq, Repr

/-- An answer on its way to a slice (R62): SNPDONE for a tracker entry. -/
structure SnpDone where
  tid : Nat
  merged : Nat
  count : Nat
  dead : Nat
  holders : List (Nat × Nat)
  groups : BitVec 64
  deriving DecidableEq, Repr

/-- The Port Complex, the retention store and the fabric ports (PORT domain). Keys: `dat` port * 32 + entry, `hold` the
slot, `recs` the tracker ID, `fan` the tracker ID, `notices`, `rel` and `snpQ` the cluster, `snpDone` the slice. -/
structure PortC where
  fp : SMap FPort
  dat : SMap DatEntry
  hold : SMap HoldSlot
  holdRot : Nat
  holdSeq : Nat
  recs : SMap AccRec
  staged : List (Nat × FabMsg)
  fan : SMap FanRec
  snpQ : SMap (List SnpMsg)
  notices : SMap (List Notice)
  rel : SMap (List Nat)
  snpDone : SMap (List SnpDone)
  evt : SMap Nat
  deaths : List (Nat × Nat)
  dying : Option (Nat × Nat)
  closing : Bool
  hbNext : SMap Nat
  dfHeard : SMap Bool
  biidSet : Bool
  replay : List Nat
  replaying : Bool
  gens : SMap Nat
  genOrg : SMap Nat
  deriving DecidableEq, Repr

/-- A confirmation of the liveness program (R214): the cause that began it, failed rounds so far, the tracker IDs of its
probes, whether one was answered within this round, the time the running round or the link grace ends, whether the link
grace runs, and whether it is a round of AGT_PROBE. -/
structure Conf where
  cause : Nat
  failed : Nat
  tids : List Nat
  answered : Bool
  deadline : Nat
  grace : Bool
  cmd : Bool
  started : Nat
  deriving DecidableEq, Repr

/-! ### Slices, tracker, sinks, conflict queue (chapters 04, 10) -/

/-- A step of an action sequence (R292), with its branch target as a step number of the running program; `bad` is a
step with a reserved operation or argument (R295). The rest are steps of fixed hardware work: the line of a sector a phase
is for (R155, R225), noting a census phase's answers and writing its words (R226), poisoned data and the LOST record of the
dead-owner path (R219), the SETTLED count (R185). Targets `agent` and `rest` are those of RELEASE and PROBE entries and of
the second phase of R219. -/
inductive SnpTgt | holders | others | owner | fwdr | tenant | agent | rest
  deriving DecidableEq, Repr

inductive WList | r | hPlusR | hMinusR | h
  deriving DecidableEq, Repr

inductive AStep
  | nop
  | snoop (k : SnpKind) (t : SnpTgt)
  | memrd
  | memwr (src : Nat)
  | poison
  | wait (snp mem : Bool)
  | branch (cond : Nat) (neg : Bool) (target : Nat)
  | data (src : Nat)
  | final
  | write (l : WList) (st : Nat)
  | split
  | alloc
  | proto
  | reread
  | bad (idx : Nat)
  | atLine (i : Nat)
  | note
  | census
  | dataPoison
  | lost (by_ : Nat)
  deriving DecidableEq, Repr

/-- A writeback taken by an entry (R197): `given` is false for row 2, whose data goes to memory only. -/
structure Taken where
  port : Nat
  dat : Nat
  agent : Nat
  part : Bool
  poison : Bool
  given : Bool
  deriving DecidableEq, Repr

/-- A memory write an entry has decided, waiting for the release (R70): kind 1 WR, 2 WRP, 3 POISON; its line, which for a
writeback is the writeback's own; the port and DAT entry of the writeback whose data it is, which is owed CMP (R188). -/
structure WrReq where
  kind : Nat
  line : Nat
  data : Line
  be : BitVec 64
  wb : Option (Nat × Nat)
  deriving DecidableEq, Repr

/-- A tracker entry: the fields of R106, then what its run holds beside them (the request, the program and mode of its
match, the word found, the merged answer, its data and its outstanding memory requests). -/
structure Trk where
  valid : Bool
  epoch : Nat
  cls : Nat
  typ : Nat
  agent : Nat
  pa : Nat
  sector : Bool
  tstate : Nat
  cur : Nat
  grain : Nat
  snpOut : Bool
  wbTaken : Bool
  rel : Bool
  memOut : Bool
  dbuf : Nat
  dbufV : Bool
  hold : Nat
  aseq : Nat
  step : Nat
  nacks : Nat
  hdr : Hdr
  reqDat : Option (Nat × Nat)
  prog : List AStep
  lasts : List Nat
  fetch : Option Nat
  wrote : Bool
  next : Nat
  rclass : Nat
  mode : Nat
  uword : BitVec 120
  way : Option Nat
  newWay : Option Nat
  coarsePlan : Bool
  unknown : Bool
  rebuild : Bool
  dead : Option Nat
  lostBy : Nat
  phKind : SnpKind
  phDesc : SnpDesc
  phExcl : Option Nat
  ans : Nat
  ansDead : Nat
  ansCount : Nat
  holders : List (Nat × Nat)
  groups : BitVec 64
  answered : List Nat
  gone : List Nat
  taken : List Taken
  mdata : Option (Line × Bool)
  rdOp : Option Nat
  rdDrop : List Nat
  wrWait : List WrReq
  wrOps : List Nat
  ownWr : List Nat
  wbOps : List (Nat × Nat × Nat)
  dataSent : Bool
  dataLeft : Bool
  finalSent : Bool
  finalLeft : Bool
  ended : Bool
  pre : Bool
  waiter : Option Nat
  sub : Nat
  kept : Option (Nat × Option Nat)
  replayed : Bool
  rounds : Nat
  wi : Nat
  found : List (Nat × List (Nat × Nat) × BitVec 64)
  deadline : Nat
  operand : Nat
  outcome : Nat
  start : Nat
  msg : Option (Nat × Nat)
  deriving DecidableEq, Repr

/-- A writeback sink slot (R112): the writeback's port, DAT entry and header, the epoch (R297), the memory write. -/
structure Sink where
  used : Bool
  port : Nat
  dat : Nat
  typ : Nat
  hdr : Hdr
  epoch : Nat
  op : Option Nat
  deriving DecidableEq, Repr

/-- A conflict-queue reservation (R114). -/
structure Rsv where
  line : Nat
  hold : Nat
  agent : Nat
  time : Nat
  deriving DecidableEq, Repr

/-- A message waiting at a slice in its MNT class (R101, R261): TYPE (0 for a dlock, R257), line, the agent and the operand
it carries, its scope, and the steward thread that sent it with its cookie (none for the walks and sweeps that the model
runs for the parison image's programs). -/
structure MntMsg where
  typ : Nat
  pa : Nat
  agent : Nat
  operand : Nat
  sector : Bool
  msg : Option (Nat × Nat)
  deriving DecidableEq, Repr

/-- A directory eviction waiting in the SNP class: the way, and the tracker entry or the steward thread with its cookie
that asked for it (R155, R259). -/
structure EvMsg where
  set : Nat
  way : Nat
  waiter : Option Nat
  msg : Option (Nat × Nat)
  deriving DecidableEq, Repr

/-- A stream detector entry (R143), oldest use first. -/
structure Stream where
  sector : Nat
  agent : Nat
  mask : BitVec 16
  deriving DecidableEq, Repr

/-- One logical slice's queues: presented REQ (hold slot), the port last served (R102), waiting evictions and MNT
messages, reservations (R114) with the reserved lines and the time each guard ends (R115), the settle queue (R181), the
stream detector, the pins of ways chosen and not yet written (R150), how often a waiting REQ and a waiting MNT message have been
passed over (R101), and when the watchdog's time began (R119). -/
structure SliceQ where
  reqQ : List Nat
  rot : Nat
  evQ : List EvMsg
  mntQ : List MntMsg
  cq : List Rsv
  reserved : List (Nat × Nat)
  settleQ : List Nat
  streams : List Stream
  pins : List (Nat × Nat)
  reqPass : Nat
  mntPass : Nat
  wdog : Nat
  deriving DecidableEq, Repr

/-- The rule banks (R292, R302): where bank `b` comes from (0 cleared, 1 the default bank of the parison image, 2
loaded by rload), its words, keyed bank * 4096 + index, the threads whose rload waits, in the order of issue (R278), and the rswap in
progress (R299): the thread and register it answers to, none for the command library's, and the time it ends. -/
structure Banks where
  src0 : Nat
  src1 : Nat
  words : SMap (BitVec 64)
  blocked : List Nat
  swap : Option (Option (Nat × Nat) × Nat)
  deriving DecidableEq, Repr

/-- Slice logics: which logic serves each logical slice (by CL_SLMAP), the adoptions in progress, forced or not, and the
tracker store of logics that have failed, which stays readable (R548), keyed logic * 512 + entry. -/
structure SliceC where
  dead : SMap (BitVec 128)
  trk : SMap Trk
  sinks : SMap Sink
  sl : SMap SliceQ
  dbufUsed : SMap (List Nat)
  adopting : List (Nat × Bool)
  banks : Banks
  deriving DecidableEq, Repr

/-! ### The Cabinet (chapters 05, 06, 13) -/

/-- A blind-table entry (R157): STATE 0 FREE, 1 BLIND, 2 REBUILD; CAUSE 0 PAGE, 1 FORMAT; `seq` the order in which it
became BLIND (R224). -/
structure Blind where
  set : Nat
  state : Nat
  cause : Nat
  cursor : Nat
  seq : Nat
  deriving DecidableEq, Repr

/-- A repeat-tracker entry (R377): word address, count, time of the first counted correction, whether the word has been
written since its last counted correction. -/
structure Rpt where
  word : Nat
  count : Nat
  time : Nat
  fresh : Bool
  win : Nat
  deriving DecidableEq, Repr

/-- A Drawer's own state beside its words (chapters 05 and 13). `blindSeq` is the order in which it became BLIND_ALL; `walk`
the set its census has reached then, with that set's CURSOR once its REBUILD has begun (R159, R224). -/
structure DrawerQ where
  blindAll : Bool
  blind : SMap Blind
  blindSeq : Nat
  ageSet : Nat
  scrubPage : Nat
  scrubStart : Nat
  scrubSlow : Bool
  scrubRun : Bool
  wbq : List Nat
  rpt : List Rpt
  hard : List Nat
  retiring : List Nat
  retired : List Nat
  walk : Option (Nat × Option Nat)
  deriving DecidableEq, Repr

/-- The Drawers. `words` is keyed drawer * 65536 + set * 16 + way; `spare` holds Cullet spare words, keyed
drawer * 8 + k. -/
structure CabC where
  words : SMap (BitVec 120)
  spare : SMap (BitVec 120)
  dr : SMap DrawerQ
  blindSeq : Nat
  deriving DecidableEq, Repr

/-- Background programs of thread 0 and thread 1 (R178, R220, R211): kinds 1 O-settle, 2 reclaim, 3 release, 4 flush;
the agent, and per cluster the Drawer words still to visit; `left` counts entries not yet retired. -/
structure Walk where
  kind : Nat
  agent : Nat
  cluster : Nat
  deriving DecidableEq, Repr

/-! ### The memory side (chapter 12) -/

/-- Who asked for a memory operation. -/
inductive MemOrg
  | trkRd (tid id : Nat)
  | trkWr (tid id : Nat)
  | sink (key id : Nat)
  | thread (tid id : Nat)
  | lock (tid id : Nat)
  | hutchFill (cluster : Nat)
  | hutchPf (cluster : Nat)
  | hutchEv (cluster slot : Nat)
  | bulkRd (region : Nat) (line : Nat)
  | bulkWr (region : Nat) (line : Nat)
  | disc (port : Nat)
  | job (n : Nat)
  | drop
  deriving DecidableEq, Repr

/-- A memory operation (R340): `kind` is OP; `pend` the ports whose completion it still awaits; `live` says that some
port completed it without failing. -/
structure MemOp where
  kind : Nat
  org : MemOrg
  pa : Nat
  taddr : Nat
  data : Line
  be : BitVec 64
  nt : Bool
  reqr : Nat
  pend : List Nat
  deriving DecidableEq, Repr

/-- A request outstanding on a port (R341, R350). -/
structure OutReq where
  rtag : Nat
  op : Nat
  deadline : Nat
  deriving DecidableEq, Repr

/-- A memory port's arbiter (R343 to R348): operations waiting in issue order, requests outstanding, credits of the
switch, the owner of the grant with its transfers so far, the requester last granted, the kept counts (ARB_PROG), the
open locked sequence (requester, thread), the mode a write of ARB_MODE.MODE leaves pending (R345), requesters past the
age guard, and the reads that a failed partner's port has left to this one (R351). -/
structure MPort where
  wait : List Nat
  out : List OutReq
  reqCred : Nat
  wdCred : Nat
  holder : Option Nat
  burst : Nat
  last : Nat
  prog : SMap Nat
  lock : Option (Nat × Nat)
  modeNow : Nat
  aged : List Nat
  re : List Nat
  deriving DecidableEq, Repr

/-- A bulk descriptor as queued (R354), or the resilver of a port that MEM_RESILVER queued; and the operation in progress: OP, PORT, COOKIE, START, COUNT, lines or chunks
done, the chunk's base line with its lines not yet read, read and waiting to be written, the written mask (R356). -/
structure BulkDesc where
  pa : Nat
  cluster : Nat
  cmdPort : Option Nat
  deriving DecidableEq, Repr

structure BulkRun where
  pa : Nat
  cluster : Nat
  op : Nat
  port : Nat
  start : Nat
  count : Nat
  done : Nat
  chunk : Option Nat
  chunkEnd : Nat
  outst : Nat
  mask : BitVec 64
  failed : Bool
  fromCmd : Bool
  cursor : Nat
  deriving DecidableEq, Repr

structure Bulk where
  queue : List BulkDesc
  run : Option BulkRun
  fetching : Bool
  deriving DecidableEq, Repr

/-- A message on a memory port (R340), as the switch sees it. -/
structure MemMsg where
  port : Nat
  op : Nat
  locked : Bool
  nt : Bool
  taddr : Nat
  rtag : Nat
  reqr : Nat
  data : Line
  be : BitVec 64
  deriving DecidableEq, Repr

/-- An operation all of whose ports have answered: its origin, what it was, its data and poison, whether it failed. -/
structure MemDone where
  org : MemOrg
  kind : Nat
  pa : Nat
  data : Line
  poison : Bool
  deriving DecidableEq, Repr

structure MemC where
  ops : SMap (Option MemOp)
  nextId : Nat
  mp : SMap MPort
  bulk : SMap Bulk
  deriving DecidableEq, Repr

/-! ### Storage integrity (chapter 13) -/

/-- The protected stores (R368). -/
inductive Store | drawer | spare | trk | dbuf | stw | hutch | rb | rs | agt | amap | hmap | nq | lehr
  deriving DecidableEq, Repr

/-- Deviations of stored bits from the encoding of the word written (R369, R383): `mask` keyed by store, unit and word,
bit j of it inverts stored bit j (data bits first, then CHECK). `pq` holds the deviations of stored P and Q (R370),
`last` the words an injector marked (R383). -/
structure IntegC where
  mask : SMap (BitVec 144)
  pq : SMap (BitVec 144)
  inj : SMap Bool
  deriving DecidableEq, Repr

/-- The repair record the Lehr keeps (R379, R121): Cullet entries (drawer * 8 + k: word address plus 1), retired ways of
each Drawer, and per cluster the positions that serve its slices and the positions that failed. -/
structure RepairC where
  cullet : SMap Nat
  retired : SMap (List Nat)
  pos : SMap Nat
  failed : SMap Nat
  deriving DecidableEq, Repr

/-! ### Faults (chapter 14) -/

/-- A report on its way to the instance collector (R395): the domain of its source (R413), the time it was raised, and
whether its class and subject were present before (R411). -/
structure Report where
  code : Nat
  subject : Nat
  count : Nat
  inj : Bool
  dom : Dom
  time : Nat
  already : Bool
  deriving DecidableEq, Repr

/-- The window and repeat history of one source (R400, R401). -/
structure SrcHist where
  count : Nat
  winEnd : Nat
  winN : Nat
  seen : Bool
  lastSubject : Nat
  lastInj : Bool
  lastTime : Nat
  deriving DecidableEq, Repr

structure FaultC where
  held : List Report
  hist : SMap SrcHist
  pulse : Bool
  heldPin : Bool
  sticky : SMap Bool
  deriving DecidableEq, Repr

/-! ### Notification Queue, interrupts, command window (chapter 15) -/

/-- A ring's mark (R436): never set since the start, lost, or the read position it names with the END records popped
since. -/
inductive NqMark
  | never
  | lost
  | valid (rp : Nat) (ends : Nat)
  deriving DecidableEq, Repr

/-- A ring (R426): pointers of LOG2 + 1 bits, whole packets waiting, whether the newest record is a GAP that the reader
has not begun to read (R429), the start of the packet the reader is inside. -/
structure NqRing where
  wp : Nat
  rp : Nat
  pkts : Nat
  gapOpen : Bool
  pktStart : Nat
  mark : NqMark
  deriving DecidableEq, Repr

/-- The queue: slots, END flags in three copies, rings, the ring whose packet the reader is inside (R431), and the
packets each writer holds ready (R428): the fault collector, the Lehr, telemetry and freeze, the parison image's programs
that the model runs itself, each thread. -/
structure NqC where
  slots : SMap (BitVec 128)
  ends : SMap (BitVec 3)
  rings : SMap NqRing
  lock : Option Nat
  readyFc : List (List (BitVec 128))
  readyLehr : List (List (BitVec 128))
  readyTel : List (List (BitVec 128))
  readyPar : List (List (BitVec 128))
  readyThr : SMap (List (BitVec 128))
  rot : Nat
  telDrops : Nat
  deriving DecidableEq, Repr

/-- The Lehr's messages not yet delivered (R438) and the packed fall-back (R439): records of up to four words, closed
or still open for words; the place of the oldest among the 128. -/
structure LehrFb where
  msgs : List (List (BitVec 32))
  recs : List (Bool × List (BitVec 32))
  head : Nat
  deriving DecidableEq, Repr

/-- The interrupt controller: pending sources and the detectors' previous values (R441). -/
structure IrqC where
  pend : List Nat
  prev : List Nat
  deriving DecidableEq, Repr

/-- The command the window runs (R445): code, arguments, the thread that executes it, and the phase a long command has
reached (0 none, else as its meaning says), with its working number. -/
structure CmdRun where
  code : Nat
  args : List (BitVec 32)
  phase : Nat
  val : Nat
  deadline : Nat
  lines : List Line
  deriving DecidableEq, Repr

/-! ### Stewards (chapter 09) -/

/-- A message in a steward thread's inbox (R260): word 0 (COOKIE, TYPE, KIND, STATUS, FROM) and word 1 (RESULT). -/
structure InMsg where
  lo : BitVec 64
  hi : BitVec 64
  deriving DecidableEq, Repr

/-- A dlock a thread holds (R257): its tracker entry, line, scope, the mode in which it was allocated, and whether it has
ended without dunlock. -/
structure Lock where
  tid : Nat
  pa : Nat
  sector : Bool
  mode : Nat
  lost : Bool
  deriving DecidableEq, Repr

/-- What a thread is blocked in (R238): nothing; a Hutch access; dlock; mrd, mwr or mpoison (0, 1, 2) with its memory
operation; mlock with the ports still to lock and those locked; a blocked rload (R298); mwait; yield; fence. `dl` is the time BLK_TMO or the timeout ends, 0 for none. -/
inductive Blk
  | none_
  | hutch
  | dlock (gd pa : Nat) (sector : Bool) (dl : Nat)
  | mem (kind gd pa loc : Nat) (ue : Bool) (op dl : Nat)
  | mlock (gd : Nat) (left held : List Nat) (pa op dl : Nat)
  | rload (gd idx : Nat) (v : BitVec 64)
  | rswap
  | mwait (gd pd : Nat) (forever : Bool) (dl : Nat)
  | yield (till : Nat) (bg msg : Bool)
  | fence
  deriving DecidableEq, Repr

/-- A steward thread (R237): g1 to g31, the predicates, PC, the last instruction issued (R285), its state (0 HALTED,
1 RUNNING, 2 WAITING, 3 FAULTED), what it is blocked in, its control registers (R269), its inbox (R260), its completion
credits in use (R261), its locks, the open locked sequence with its ports and operations so far (R264), its packet buffer
(R265), the lines fetched for the instruction at PC, memory operations that passed BLK_TMO and still run, with their kinds (R263), a STOP
that waits for the blocking instruction (R283). -/
structure Thread where
  g : SMap (BitVec 64)
  p : BitVec 8
  pc : BitVec 64
  last : BitVec 64
  run : Nat
  blk : Blk
  tvec : BitVec 64
  epc : BitVec 64
  tcause : Nat
  tinfo : BitVec 64
  blkTmo : BitVec 64
  inTrap : Bool
  inbox : List InMsg
  credits : Nat
  locks : List Lock
  lockSeq : Option (List Nat × Nat)
  pkt : List (BitVec 128)
  fetched : List Nat
  late : List (Nat × Nat)
  stopReq : Bool
  deriving DecidableEq, Repr

/-- The stewards: threads by tid, local memory words keyed tid * 8192 + word (R237, R242). -/
structure StwC where
  thr : SMap Thread
  lmem : SMap (BitVec 64)
  deriving DecidableEq, Repr

/-! ### The Hutch (chapter 11) -/

/-- What a Hutch access does: a fetch of the word at an offset; a line of the parison image for the boot ROM (R307); a load of `n` bytes at an offset of the line into `gd`; a store of a word; the bulk
engine's descriptor read and its write of DONE and RESULT (R354). -/
inductive HKind
  | fetch (off : Nat)
  | boot
  | load (gd n : Nat) (signed : Bool) (off : Nat)
  | store (off : Nat) (v : BitVec 64)
  | desc
  | prog (done result : Nat) (last : Bool)
  deriving DecidableEq, Repr

/-- A Hutch access: its thread, or the region of the bulk engine; its requester number (R315); its line; ST. -/
structure HAcc where
  thr : Option Nat
  region : Nat
  req : Nat
  kind : HKind
  line : Nat
  st : Bool
  deriving DecidableEq, Repr

/-- A Hutch entry (R314). -/
structure HEnt where
  valid : Bool
  dirty : Bool
  age : Nat
  line : Nat
  data : Line
  deriving DecidableEq, Repr

/-- An eviction-buffer entry (R324): its line, data, the write in flight, and whether a store changed it after the write
was sent. -/
structure HEvb where
  line : Nat
  data : Line
  op : Nat
  again : Bool
  poison : Bool
  deriving DecidableEq, Repr

/-- A miss in progress (R318, R322): the access, the entry chosen (none where it is served without allocating), whether it
still waits for a free buffer entry, and whether its data has been merged and is being written. -/
structure HMiss where
  acc : HAcc
  victim : Option Nat
  waitEvb : Bool
  writing : Bool
  deriving DecidableEq, Repr

/-- A maintenance operation in progress (R325): OP, line, whether its write is in flight, requester for ZERO, the thread
whose cw began it. -/
structure HMaint where
  op : Nat
  line : Nat
  writing : Bool
  req : Nat
  thr : Option Nat
  deriving DecidableEq, Repr

/-- A cluster's Hutch: entries, eviction buffer, the miss that blocks it, the prefetch in flight with its requester and its line once
it has come, accesses waiting in order, how often the bulk engine has been passed over (R316), and the maintenance operation. -/
structure Hutch where
  ent : SMap HEnt
  evb : SMap (Option HEvb)
  miss : Option HMiss
  pf : Option (Nat × Nat)
  pfData : Option Line
  q : List HAcc
  passed : Nat
  maint : Option HMaint
  deriving DecidableEq, Repr

/-! ### The Lehr (chapter 16) -/

/-- An ageing pass (R475, R476): the next pair, the reason of the plan that follows (0 COLD, 1 PERIODIC, 2 RESTORE,
3 MANUAL), and whether BASE takes the values of this pass. -/
structure Pass where
  pair : Nat
  reason : Nat
  fresh : Bool
  deriving DecidableEq, Repr

/-- The Lehr beside its registers: filtered temperatures in 0.25 °C by sensor (R463), excluded sensors, I_now and per slot
the sum and count of its frames for the last 64 slots (R464), the pass in progress, a PERIODIC plan that waits, the staged ledger records (R487), MGN_UPD's toggle (R42), RAIL_REQ (R41), whether the trim of LCLK
found LREF_32K (R461), the wake
sources that have fired since the sleep began (R473), the slew in force in ns per ms with the part of a ns it has gathered, in
units of a millionth (R17, R500), and the Lehr's own latched copy of the slot entry (R466). -/
structure LehrC where
  temp : SMap Rat
  excl : List Nat
  iNow : Nat
  iHist : List (Nat × Nat)
  pass : Option Pass
  planDue : Bool
  staged : List (BitVec 128)
  mgnUpd : Bool
  railReq : Bool
  lref : Bool
  fired : Nat
  slew : Int
  slewAcc : Int
  cap : BitVec 64
  bg : BitVec 16
  deriving DecidableEq, Repr

/-! ### Punty (chapter 17) -/

/-- A Punty frame (R494): TYPE, SEQ, NAK, ACK and payload bytes 4 to 35 as bits 8(b - 4) up. -/
structure PtFrame where
  typ : Nat
  seq : Nat
  nak : Bool
  ack : Nat
  pay : BitVec 256
  deriving DecidableEq, Repr

/-- A Punty port: its state (R504), ATTEMPT, lane locks, what it waits for, SEQ to send next, last SEQ received in order,
whether the next frame carries NAK, unacknowledged frames, frames waiting to be sent, whether its CAP awaits
the partner's, the partner's TYPES and DIST, its last PWR (time,
DEMAND, BUDGET), whether SAME_ID keeps it down (R499), and t1 of the open exchange (R500). -/
structure PtPort where
  state : Nat
  attempt : Nat
  lock : Nat
  dl : Nat
  seq : Nat
  rx : Nat
  nak : Bool
  replay : List PtFrame
  waitq : List PtFrame
  capOut : Bool
  types : Nat
  dist : Nat
  pwr : Option (Nat × Nat × Nat)
  same : Bool
  t1 : Option Nat
  deriving DecidableEq, Repr

/-- The Punty links: ports, the OSEQ counter, per origin the highest OSEQ accepted and the mask of the 32 below it (R496),
the time of the last HB of each direct partner (R498), the exchanges with a large offset in a row, and whether an exchange
has been made since the start (R500), N of the last share (R505), and the instances declared lost and not heard since, and
the agents named by DEAD messages that came while no program could handle them (R216). -/
structure PuntyC where
  port : SMap PtPort
  oseq : Nat
  seen : SMap (Nat × BitVec 32)
  heard : SMap Nat
  badRun : Nat
  first : Bool
  n : Nat
  lost : List Nat
  deadMsgs : List Nat
  deriving DecidableEq, Repr

/-! ### Starts (chapter 18) -/

/-- A start in progress: kind (0 COLD, 1 WARM, 2 WAKE), the time it began, the time its step's limit ends, where step 7
stands (0 before discovery, 1 its reads run, 2 it is done), the ports whose discovery read is outstanding and those whose
read failed, and what the self-test of step 3 will find (R507). -/
structure StartRun where
  kind : Nat
  began : Nat
  limit : Nat
  phase : Nat
  disc : List Nat
  discBad : List Nat
  test : SelfTest
  deriving DecidableEq, Repr

/-- The boot fetch (R307): whether it runs, its source (0 mailbox, 1 memory), the words received so far, the boot mailbox
FIFO (R313), whether it waits for a word or a line, whether a line came with poison, and when the last mailbox word came. -/
structure BootC where
  active : Bool
  src : Nat
  words : List (BitVec 32)
  fifo : List (BitVec 32)
  wait : Bool
  bad : Bool
  gap : Nat
  deriving DecidableEq, Repr

/-- Starts: the one in progress, the kind of the start the Lehr begins after RETRY_DLY (R511) and when, the boot fetch, and the ports
that were in RESILVER when CORE entered reset (R514). -/
structure StartC where
  run : Option StartRun
  retry : Option Nat
  retryAt : Nat
  boot : BootC
  resil : List Nat
  deriving DecidableEq, Repr

/-! ### The CORE shadow copies (R24) -/

/-- The read-only copies that the slices read: DRAIN, TENANT and SCOPE of each address map entry (bits [13:1] of its word), DRAIN
of each home map window, STATE and DC of each agent-table entry (bits [3:0] of its word). -/
structure Shadow where
  amap : SMap (BitVec 13)
  hmap : SMap Bool
  agt : SMap (BitVec 4)
  deriving DecidableEq, Repr

/-! ### Work in hand -/

/-- What one command has still to do inside the block: resume a tracker entry, take a finished memory operation, run a
memory port's arbiter, send a fabric port's egress. Every command runs this list until it is empty (`settle`). -/
inductive Work
  | trk (tid : Nat)
  | done (d : MemDone)
  | arb (port : Nat)
  | eg (port : Nat)
  | daten
  | fail (slice : Nat)
  deriving DecidableEq, Repr

/-- The faults of a step: none. Every command the spec describes answers a next state or the refusal below. -/
inductive Fault
  /-- Raised by nothing. It stands only because the host's interface asks for a type of faults. -/
  | none_
  deriving DecidableEq, Repr

/-- The refusals of a step. -/
inductive Refusal
  /-- Raised by a row of the table whose meaning is not written. Safe: the model stops. -/
  | notModelled (mnemonic : String)
  /-- Raised by every command while DFT_MODE = 1 (R38): no statement of the manual applies then. Safe: the model stops. -/
  | dftMode
  deriving DecidableEq, Repr

/-- The state of one KH8 instance. -/
structure State where
  /-- DFT_MODE (R38). -/
  dft : Bool
  /-- VAUX in range (R30). -/
  vaux : Bool
  /-- PORT powered and out of reset (R25). -/
  portUp : Bool
  /-- CORE powered and out of reset (R25). -/
  coreUp : Bool
  /-- COLD_RST_N asserted, WARM_RST_N asserted (R46). -/
  coldRst : Bool
  warmRst : Bool
  /-- FREEZE_IN and WAKE_IN after synchronisation (R54). -/
  freezeIn : Bool
  wakeIn : BitVec 2
  /-- Registers of the window, keyed by offset (R542): every instance not listed holds its reset value. -/
  regs : SMap (BitVec 64)
  /-- Holding registers of 64-bit registers: the high word latched by a low read (R7), the low word held by a low write
  (R8). -/
  hiLatch : SMap (Option (BitVec 32))
  wrHold : SMap (Option (BitVec 32))
  /-- REG_RDATA of the last access (R48). -/
  rdata : BitVec 32
  /-- The time base (R17) and the Lehr's copy (R18), in ns. -/
  now : Nat
  lehrNow : Nat
  port : PortC
  /-- The agent table (R83): one 64-bit word per agent ID. -/
  agt : SMap (BitVec 64)
  /-- The CORE shadow copies of the maps and the agent table (R24). -/
  shadow : Shadow
  sl : SliceC
  cab : CabC
  mem : MemC
  integ : IntegC
  repair : RepairC
  /-- The governor slot in CORE (R21, R466): its number, duty caps (4 bits a cluster) and background bits. -/
  govSlot : Nat
  govCap : BitVec 64
  govBg : BitVec 16
  stw : StwC
  hutch : SMap Hutch
  lehr : LehrC
  pt : PuntyC
  start : StartC
  fault : FaultC
  nq : NqC
  fb : LehrFb
  irq : IrqC
  cmd : Option CmdRun
  /-- CORE has signalled sleep-ready and no start or abandoned sleep has followed (R439, R472). -/
  sleepReady : Bool
  /-- Causes of a freeze that the command at hand has fired (R534), taken when it ends, with the fault code, and the
  origin and ID of a COUNTER or PEER trigger. -/
  frzReq : Nat
  frzCode : Nat
  frzOrigin : Nat
  walks : List Walk
  /-- Confirmations under way (R214), by agent. -/
  conf : SMap (Option Conf)
  /-- Messages sent while the last command ran, oldest first: fabric, memory ports, Punty ports. -/
  tx : List (Nat × FabMsg)
  memTx : List MemMsg
  ptTx : List (Nat × PtFrame)
  work : List Work
  /-- The model's own: how many free values have been taken (Config.free). -/
  free : Nat
  /-- The commands waiting, first in first out. -/
  pending : List Instr
  deriving DecidableEq, Repr

/-! ### Reset -/

/-- The PORT domain after a reset of it. -/
def port0 : PortC :=
  { fp := [], dat := [], hold := [], holdRot := 63, holdSeq := 0, recs := [], staged := [], fan := [], snpQ := [],
    notices := [], rel := [], snpDone := [], evt := [], deaths := [], dying := none, closing := false, hbNext := [],
    dfHeard := [], biidSet := false, replay := [], replaying := false, gens := [], genOrg := [] }

def slice0 : SliceC :=
  { dead := [], trk := [], sinks := [], sl := [], dbufUsed := [], adopting := [], banks := ⟨0, 0, [], [], none⟩ }

def mem0 : MemC := { ops := [], nextId := 0, mp := [], bulk := [] }

def nq0 : NqC :=
  { slots := [], ends := [], rings := [], lock := none, readyFc := [], readyLehr := [], readyTel := [], readyPar := [],
    readyThr := [], rot := 63, telDrops := 0 }

def lehr0 : LehrC :=
  { temp := [], excl := [], iNow := 0, iHist := [], pass := none, planDue := false, staged := [],
    mgnUpd := false, railReq := false, lref := false, fired := 0, slew := 0, slewAcc := 0, cap := 0, bg := 0 }

def punty0 : PuntyC :=
  { port := [], oseq := 0, seen := [], heard := [], badRun := 0, first := false, n := 0, lost := [], deadMsgs := [] }

def boot0 : BootC :=
  { active := false, src := 0, words := [], fifo := [], wait := false, bad := false, gap := 0 }

/-- The instance with no supply (R30): mode OFF, every register at the reset value of its table, every array empty. The
first command that does anything is VAUX_RISE. -/
def State.reset : State :=
  { dft := false, vaux := false, portUp := false, coreUp := false, coldRst := false, warmRst := false
    freezeIn := false, wakeIn := 0, regs := [], hiLatch := [], wrHold := [], rdata := 0, now := 0, lehrNow := 0
    port := port0, agt := [], shadow := ⟨[], [], []⟩, sl := slice0, cab := { words := [], spare := [], dr := [], blindSeq := 0 }, mem := mem0
    integ := { mask := [], pq := [], inj := [] }, repair := { cullet := [], retired := [], pos := [], failed := [] }
    govSlot := 64, govCap := 0, govBg := 0, stw := { thr := [], lmem := [] }, hutch := [], lehr := lehr0, pt := punty0
    start := { run := none, retry := none, retryAt := 0, boot := boot0, resil := [] }
    fault := { held := [], hist := [], pulse := false, heldPin := false, sticky := [] }
    nq := nq0, fb := { msgs := [], recs := [], head := 0 }, irq := { pend := [], prev := [] }, cmd := none, sleepReady := false
    frzReq := 0, frzCode := 0, frzOrigin := 0, walks := [], conf := [], tx := [], memTx := [], ptTx := [], work := []
    free := 0, pending := [] }

end Sys2Proof.Machine
end

