-- ==== Sys2Proof/Machine/Regs.lean ====
section
/-! DEFINITION. Reading and writing register words and fields: reset values, the access codes (R3), reserved bits (R5),
and the reset of a domain's registers (R25). What a read or write of a particular register does beside its stored bits
stands in the files of the subsystems and is joined in Machine/RegPort.lean. -/

namespace Sys2Proof.Machine

/-- The fault sources of R397: base severity and MODE_EN after reset; none for a reserved code (R398). -/
def faultSrc (code : Nat) : Option (Nat × Nat) :=
  match code with
  | 0x01 => some (0, 0) | 0x02 => some (1, 0) | 0x03 => some (0, 0) | 0x04 => some (1, 0) | 0x05 => some (0, 0)
  | 0x06 => some (1, 0) | 0x07 => some (2, 0) | 0x08 => some (1, 0) | 0x09 => some (1, 0) | 0x0A => some (2, 0)
  | 0x0B => some (2, 0) | 0x0C => some (2, 0) | 0x20 => some (2, 0) | 0x21 => some (1, 0) | 0x22 => some (1, 0)
  | 0x23 => some (2, 0) | 0x24 => some (2, 0) | 0x25 => some (2, 0) | 0x26 => some (2, 0) | 0x27 => some (2, 1)
  | 0x28 => some (2, 1) | 0x29 => some (1, 0) | 0x2A => some (0, 0) | 0x2B => some (1, 0) | 0x2C => some (1, 0)
  | 0x2D => some (1, 0) | 0x2E => some (1, 0) | 0x2F => some (1, 0) | 0x40 => some (1, 0) | 0x41 => some (2, 0)
  | 0x50 => some (2, 1) | 0x51 => some (3, 0) | 0x60 => some (2, 0) | 0x61 => some (3, 0) | 0x70 => some (1, 0)
  | 0x71 => some (0, 0) | 0x72 => some (1, 0) | 0x80 => some (3, 0) | 0x81 => some (3, 0) | 0x82 => some (3, 0)
  | _ => none

/-- The sources whose severity is fixed at 3 (R398). -/
def faultFixed (code : Nat) : Bool := [0x51, 0x61, 0x80, 0x81, 0x82].contains code

/-- BASE of each ring at reset (R427). -/
def ringBaseReset : Nat → Nat
  | 0 => 0 | 1 => 512 | 2 => 1024 | 3 => 2048 | 4 => 4096 | 5 => 3072 | 6 => 6144 | _ => 3584

/-- LOG2 of each ring's size at reset (R427). -/
def ringLog2Reset : Nat → Nat
  | 0 => 9 | 1 => 9 | 2 => 10 | 3 => 10 | 4 => 11 | 5 => 9 | 6 => 11 | _ => 9

/-- The ring of a record TYPE at reset (R427). -/
def ringOfTypeReset (t : Nat) : Nat :=
  if t = 0x40 ∨ t = 0x41 ∨ t = 0x48 then 0
  else if t < 0x40 then 3
  else if t < 0x50 then 1
  else if t < 0x60 then 2
  else if t < 0x68 then 5
  else if t < 0x70 then 6
  else if t < 0x78 then 4
  else 7

/-- The reset value of a field in instance `(i, j)` of its register. -/
def Rst.val (r : Rst) (i j : Nat) : Nat :=
  match r with
  | .const n => n
  | .srcSev => match faultSrc i with | some (sev, _) => sev | none => 0
  | .srcMode => match faultSrc i with | some (_, m) => m | none => 0
  | .ringBase => ringBaseReset i
  | .ringLog2 => ringLog2Reset i
  | .ringOf k => ringOfTypeReset (8 * i + k)
  | .hutchMask => if j < 4 then 0xFFFFFFFFFFFF else if j = 4 then 0xFF0000000000 else 0xF00000000000

/-- The bits a field covers. -/
def Fld.mask (f : Fld) : BitVec 64 := BitVec.ofNat 64 ((2 ^ (f.hi + 1 - f.lo) - 1) * 2 ^ f.lo)

/-- A field's value placed at its bits. -/
def Fld.put (f : Fld) (v : Nat) : BitVec 64 := BitVec.ofNat 64 (v % 2 ^ (f.hi + 1 - f.lo) * 2 ^ f.lo)

/-- A field's value taken from a register word. -/
def Fld.get (f : Fld) (w : BitVec 64) : Nat := w.toNat / 2 ^ f.lo % 2 ^ (f.hi + 1 - f.lo)

/-- The word of instance `(i, j)` after a reset of its domain (R397 and R398 for the reserved fault codes). -/
def RegName.resetWord (r : RegName) (i j : Nat) : BitVec 64 :=
  if r = .FC_SRC ∧ faultSrc i = none then 0
  else r.fields.foldl (fun a f => a ||| f.put (f.rst.val i j)) 0

/-- The reset word of the register at an offset. -/
def resetAt (off : Nat) : BitVec 64 :=
  match locate off with
  | some (r, i, j, _) => r.resetWord i j
  | none => 0

namespace State

/-- The stored word of a register. -/
def reg (s : State) (r : RegName) (i : Nat := 0) (j : Nat := 0) : BitVec 64 :=
  SMap.getD (fun _ => r.resetWord i j) s.regs (r.addr i j)

/-- Stores a register's word. -/
def setReg (s : State) (r : RegName) (v : BitVec 64) (i : Nat := 0) (j : Nat := 0) : State :=
  { s with regs := SMap.set (fun _ => r.resetWord i j) s.regs (r.addr i j) v }

/-- The stored value of a field. -/
def fld (s : State) (f : Fld) (i : Nat := 0) (j : Nat := 0) : Nat := f.get (s.reg f.reg i j)

/-- Stores a field's value, leaving the register's other bits. -/
def setFld (s : State) (f : Fld) (v : Nat) (i : Nat := 0) (j : Nat := 0) : State :=
  s.setReg f.reg ((s.reg f.reg i j &&& ~~~ f.mask) ||| f.put v) i j

/-- The largest value a field holds. -/
def fldMax (f : Fld) : Nat := 2 ^ (f.hi + 1 - f.lo) - 1

/-- Adds to a counting field, which saturates (R9). -/
def addFld (s : State) (f : Fld) (n : Nat) (i : Nat := 0) (j : Nat := 0) : State :=
  s.setFld f (min (s.fld f i j + n) (fldMax f)) i j

end State

/-- The bits of a register under an access code. -/
def RegName.accMask (r : RegName) (p : Acc → Bool) : BitVec 64 :=
  r.fields.foldl (fun a f => if p f.acc then a ||| f.mask else a) 0

/-- What a write of `v` under the bits `lane` leaves stored (R3): RW bits take the value, W1C bits clear where 1, W1S
bits set where 1, the others stay. -/
def RegName.written (r : RegName) (old v lane : BitVec 64) : BitVec 64 :=
  let rw := r.accMask (· = .rw) &&& lane
  let c := r.accMask (· = .w1c) &&& lane
  let t := r.accMask (· = .w1s) &&& lane
  ((old &&& ~~~ rw &&& ~~~ (v &&& c)) ||| (v &&& rw)) ||| (v &&& t)

/-- What a read shows of the stored bits: write-only bits and reserved bits read 0 (R3, R5). -/
def RegName.shown (r : RegName) (w : BitVec 64) : BitVec 64 := w &&& r.accMask (· ≠ .wo)

/-- What a read leaves stored: RC bits of the lane read become 0 (R3). -/
def RegName.afterRead (r : RegName) (w lane : BitVec 64) : BitVec 64 := w &&& ~~~ (r.accMask (· = .rc) &&& lane)

/-- Whether a reset of the domains `p` reaches the register at an offset. -/
def regInDom (p : Dom → Bool) (off : Nat) : Bool :=
  match locate off with
  | some (r, _, _, _) => p r.desc.dom
  | none => false

/-- Resets the registers of the domains `p`, with their holding registers (R7, R8, R25). -/
def State.resetRegs (s : State) (p : Dom → Bool) : State :=
  { s with
    regs := s.regs.filter (fun e => ! regInDom p e.1)
    hiLatch := s.hiLatch.filter (fun e => ! regInDom p e.1)
    wrHold := s.wrHold.filter (fun e => ! regInDom p e.1) }

/-- Bits `[lo + n - 1 : lo]` of a number. -/
def bits (v lo n : Nat) : Nat := v / 2 ^ lo % 2 ^ n

/-- A bit of a number. -/
def bit1 (v i : Nat) : Bool := v / 2 ^ i % 2 = 1

/-- A Bool as a number. -/
def b2n (b : Bool) : Nat := if b then 1 else 0

end Sys2Proof.Machine
end

