-- ==== Sys2Proof/Machine/Ops.lean ====
section
/-! DEFINITION. The shared operations under every subsystem: numbering (R11), the time base as each domain reads it,
raising a fault report through the collectors (R394 to R396), the classes of tolerated faults (R410), setting an
interrupt source, and the work list of a command. -/

namespace Sys2Proof.Machine

/-- The cluster, region of a logical slice, and of a memory port (R11). -/
def clusterOf (slice : Nat) : Nat := slice / 8
def regionOfCluster (c : Nat) : Nat := c / 4
def regionOfPort (m : Nat) : Nat := m / 8

/-- The slice logic that serves a logical slice: CL_SLMAP's POS (R11, R130). -/
def logicOf (s : State) (slice : Nat) : Nat :=
  9 * (slice / 8) + bits (s.fld Fld.CL_SLMAP_POS (slice / 8)) (4 * (slice % 8)) 4

/-- The time a collector or a Lehr block reads: the CORE time base while CORE runs, else the Lehr's copy (R18, R413). -/
def State.time (s : State) : Nat := if s.coreUp then s.now else s.lehrNow

namespace State

/-- The present mode (R28): OFF without VAUX, else MODE.CUR. -/
def mode (s : State) : Nat := if s.vaux then s.fld Fld.MODE_CUR else 0

/-- The mode decisions go by: SERVICE while the quiesce or flush sweep of a transition to LEHR runs (R30). -/
def decMode (s : State) : Nat := if s.mode = 1 then 4 else s.mode

/-- Adds work for this command. -/
def addWork (s : State) (w : Work) : State := { s with work := s.work ++ [w] }

/-- Takes a free value: its number, and the state in which the next one is another (Config.free). -/
def takeFree (s : State) : Nat × State := (s.free, { s with free := s.free + 1 })

end State

/-! ### Reading keyed parts -/

def HdrZero : Hdr := ⟨0, 0, 0, 0, 0, 0, 0, false, 0, 0⟩

def fp0 : FPort := ⟨false, [], 0, 0, 0, 0, 0, 0, [], [], [], []⟩
def dat0 : DatEntry := ⟨.free, 0, HdrZero, 0, 0, false⟩
def hold0 : HoldSlot := ⟨false, 0, HdrZero, 0, none, 0, 0, .presented, 0⟩
def rec0 : AccRec := ⟨false, 0, 0, HdrZero, none, false, false, 0, 0⟩
def fan0 : FanRec := ⟨false, .cur, 0, false, [], 0, 0, 0, [], 0, [], false, false⟩
def trk0 : Trk :=
  { valid := false, epoch := 0, cls := 0, typ := 0, agent := 0, pa := 0, sector := false, tstate := 0, cur := 0,
    grain := 0, snpOut := false, wbTaken := false, rel := false, memOut := false, dbuf := 0, dbufV := false, hold := 0,
    aseq := 0, step := 0, nacks := 0, hdr := HdrZero, reqDat := none, prog := [], lasts := [], fetch := none, wrote := false, next := 0, rclass := 0, mode := 0,
    uword := 0, way := none, newWay := none, coarsePlan := false, unknown := false, rebuild := false, dead := none,
    lostBy := 0, phKind := .cur, phDesc := .ptrs [], phExcl := none, ans := 0, ansDead := 0,
    ansCount := 0, holders := [], groups := 0, answered := [], gone := [], taken := [], mdata := none, rdOp := none,
    rdDrop := [], wrWait := [], wrOps := [], ownWr := [], wbOps := [], dataSent := false, dataLeft := false, finalSent := false,
    finalLeft := false, ended := false, pre := false, waiter := none, sub := 0, kept := none, replayed := false,
    rounds := 0, wi := 0, found := [], deadline := 0, operand := 0, outcome := 0, start := 0, msg := none }
def sink0 : Sink := ⟨false, 0, 0, 0, HdrZero, 0, none⟩
def sliceQ0 : SliceQ := ⟨[], 63, [], [], [], [], [], [], [], 0, 0, 0⟩
def blind0 : Blind := ⟨0, 0, 0, 0, 0⟩
def drawer0 : DrawerQ := ⟨false, [], 0, 0, 0, 0, false, false, [], [], [], [], [], none⟩
def mport0 : MPort := ⟨[], [], 0, 0, none, 0, 16, [], none, 1, [], []⟩
def bulk0 : Bulk := ⟨[], none, false⟩
def ring0 : NqRing := ⟨0, 0, 0, false, 0, .never⟩
def hist0 : SrcHist := ⟨0, 0, 0, false, 0, false, 0⟩

namespace State

def fport (s : State) (p : Nat) : FPort := SMap.getD (fun _ => fp0) s.port.fp p
def setFport (s : State) (p : Nat) (f : FPort) : State :=
  { s with port := { s.port with fp := SMap.set (fun _ => fp0) s.port.fp p f } }

def datE (s : State) (p e : Nat) : DatEntry := SMap.getD (fun _ => dat0) s.port.dat (p * 32 + e)
def setDatE (s : State) (p e : Nat) (d : DatEntry) : State :=
  { s with port := { s.port with dat := SMap.set (fun _ => dat0) s.port.dat (p * 32 + e) d } }

def holdE (s : State) (h : Nat) : HoldSlot := SMap.getD (fun _ => hold0) s.port.hold h
def setHoldE (s : State) (h : Nat) (v : HoldSlot) : State :=
  { s with port := { s.port with hold := SMap.set (fun _ => hold0) s.port.hold h v } }

def recE (s : State) (t : Nat) : AccRec := SMap.getD (fun _ => rec0) s.port.recs t
def setRecE (s : State) (t : Nat) (v : AccRec) : State :=
  { s with port := { s.port with recs := SMap.set (fun _ => rec0) s.port.recs t v } }

def fanE (s : State) (t : Nat) : FanRec := SMap.getD (fun _ => fan0) s.port.fan t
def setFanE (s : State) (t : Nat) (v : FanRec) : State :=
  { s with port := { s.port with fan := SMap.set (fun _ => fan0) s.port.fan t v } }

def trkE (s : State) (t : Nat) : Trk := SMap.getD (fun _ => trk0) s.sl.trk t
def setTrkE (s : State) (t : Nat) (v : Trk) : State :=
  { s with sl := { s.sl with trk := SMap.set (fun _ => trk0) s.sl.trk t v } }

def sinkE (s : State) (k : Nat) : Sink := SMap.getD (fun _ => sink0) s.sl.sinks k
def setSinkE (s : State) (k : Nat) (v : Sink) : State :=
  { s with sl := { s.sl with sinks := SMap.set (fun _ => sink0) s.sl.sinks k v } }

def slq (s : State) (n : Nat) : SliceQ := SMap.getD (fun _ => sliceQ0) s.sl.sl n
def setSlq (s : State) (n : Nat) (v : SliceQ) : State :=
  { s with sl := { s.sl with sl := SMap.set (fun _ => sliceQ0) s.sl.sl n v } }

/-- A message comes to a slice's ingress: with nothing else waiting there, the watchdog's time begins (R119). -/
def wdogArm (s : State) (n : Nat) : State :=
  let q := s.slq n
  if q.reqQ.isEmpty && q.evQ.isEmpty && q.mntQ.isEmpty && (SMap.getD (fun _ => []) s.port.snpDone n).isEmpty then
    s.setSlq n { q with wdog := s.now } else s

def drq (s : State) (n : Nat) : DrawerQ := SMap.getD (fun _ => drawer0) s.cab.dr n
def setDrq (s : State) (n : Nat) (v : DrawerQ) : State :=
  { s with cab := { s.cab with dr := SMap.set (fun _ => drawer0) s.cab.dr n v } }

def mport (s : State) (m : Nat) : MPort := SMap.getD (fun _ => mport0) s.mem.mp m
def setMport (s : State) (m : Nat) (v : MPort) : State :=
  { s with mem := { s.mem with mp := SMap.set (fun _ => mport0) s.mem.mp m v } }

def bulkE (s : State) (r : Nat) : Bulk := SMap.getD (fun _ => bulk0) s.mem.bulk r
def setBulkE (s : State) (r : Nat) (v : Bulk) : State :=
  { s with mem := { s.mem with bulk := SMap.set (fun _ => bulk0) s.mem.bulk r v } }

def ringE (s : State) (r : Nat) : NqRing := SMap.getD (fun _ => ring0) s.nq.rings r
def setRingE (s : State) (r : Nat) (v : NqRing) : State :=
  { s with nq := { s.nq with rings := SMap.set (fun _ => ring0) s.nq.rings r v } }

/-- The notices waiting on a cluster's queue to the Port Complex (R21). -/
def notices (s : State) (c : Nat) : List Notice := SMap.getD (fun _ => []) s.port.notices c
def setNotices (s : State) (c : Nat) (l : List Notice) : State :=
  { s with port := { s.port with notices := SMap.set (fun _ => []) s.port.notices c l } }
def notify (s : State) (c : Nat) (n : Notice) : State := s.setNotices c (s.notices c ++ [n])

/-- The entry of an agent in the agent table (R83), as the word the register shows; none written reads 0. -/
def agtW (s : State) (a : Nat) : Nat := (SMap.getD (fun _ => (0 : BitVec 64)) s.agt a).toNat

end State

/-! ### The agent table (R83) -/

namespace State

def agtState (s : State) (a : Nat) : Nat := bits (s.agtW a) 0 3
def agtDc (s : State) (a : Nat) : Bool := bit1 (s.agtW a) 3
def agtNnack (s : State) (a : Nat) : Bool := bit1 (s.agtW a) 4
def agtHb (s : State) (a : Nat) : Bool := bit1 (s.agtW a) 5
def agtHbp (s : State) (a : Nat) : Nat := bits (s.agtW a) 6 2
def agtTenant (s : State) (a : Nat) : Nat := bits (s.agtW a) 8 10
def agtFp (s : State) (a : Nat) : Nat := bits (s.agtW a) 18 6
def agtHeard (s : State) (a : Nat) : Nat := bits (s.agtW a) 32 32

/-- Writes an agent-table word whole (R84). -/
def setAgt (s : State) (a : Nat) (w : Nat) : State :=
  { s with agt := SMap.set (fun _ => (0 : BitVec 64)) s.agt a (BitVec.ofNat 64 w) }

/-- Writes STATE of an agent, its other fields as they are. -/
def setAgtState (s : State) (a st : Nat) : State := s.setAgt a (s.agtW a / 8 * 8 + st)

/-- Writes LAST_HEARD = now[41:10] (R83, R84). -/
def setHeard (s : State) (a : Nat) : State :=
  s.setAgt a (s.agtW a % 2 ^ 32 + s.now / 1024 % 2 ^ 32 * 2 ^ 32)

/-- Agents that fan-out may snoop: BINDING, LIVE or SUSPECT (R79). -/
def agtBound (s : State) (a : Nat) : Bool := s.agtState a = 1 ∨ s.agtState a = 2 ∨ s.agtState a = 3

/-- Eligible as forwarder (R169): DC = 1, LIVE, and for an agent that sends heartbeats, heard once since binding (R87). -/
def eligible (s : State) (a : Nat) : Bool :=
  s.agtDc a && s.agtState a == 2 && (! s.agtHb a || SMap.getD (fun _ => false) s.port.dfHeard a)

/-- STATE and DC of an agent as the slices see them: the shadow copy (R24). -/
def shAgt (s : State) (a : Nat) : Nat := (SMap.getD (fun _ => (0 : BitVec 4)) s.shadow.agt a).toNat
def shState (s : State) (a : Nat) : Nat := bits (s.shAgt a) 0 3

/-- Eligibility as a decision of a slice sees it: STATE and DC from the shadow copy (R24, R169). -/
def shEligible (s : State) (a : Nat) : Bool :=
  bit1 (s.shAgt a) 3 && s.shState a == 2 && (! s.agtHb a || SMap.getD (fun _ => false) s.port.dfHeard a)

/-- The period of an agent's heartbeat in ns (R83). -/
def hbPeriod (s : State) (a : Nat) : Nat :=
  match s.agtHbp a with | 0 => 10000 | 1 => 100000 | 2 => 1000000 | _ => 10000000

/-- Every agent whose table word is not 0, in rising order. -/
def agents (s : State) : List Nat := s.agt.map (fun e => e.1)

end State

/-! ### Faults (R394 to R396, R410, R411) -/

/-- Where a report enters the chain of collectors (R394). -/
inductive FPath
  | slice (logic : Nat)
  | cluster (c : Nat)
  | region (r : Nat)
  | inst
  deriving DecidableEq, Repr

/-- A report as a local collector sees it (R424): the first one while VALID is 0 latches with its time, another
signature sets OVF. -/
def lcLatch (s : State) (valid ovf injF codeF subjF timeF : Fld) (i : Nat) (code subject : Nat) (inj : Bool) : State :=
  if s.fld valid i = 0 then
    (((((s.setFld valid 1 i).setFld codeF code i).setFld injF (b2n inj) i).setFld subjF subject i).setFld ovf 0 i).setFld
      timeF s.now i
  else if s.fld codeF i = code ∧ s.fld subjF i = subject ∧ s.fld injF i = b2n inj then s
  else s.setFld ovf 1 i

def lcSlice (s : State) (l code subject : Nat) (inj : Bool) : State :=
  lcLatch s Fld.SLC_FIRST_VALID Fld.SLC_FIRST_OVF Fld.SLC_FIRST_INJ Fld.SLC_FIRST_CODE Fld.SLC_FIRST_SUBJECT
    Fld.SLC_TIME_TIME l code subject inj
def lcCluster (s : State) (c code subject : Nat) (inj : Bool) : State :=
  lcLatch s Fld.CLC_FIRST_VALID Fld.CLC_FIRST_OVF Fld.CLC_FIRST_INJ Fld.CLC_FIRST_CODE Fld.CLC_FIRST_SUBJECT
    Fld.CLC_TIME_TIME c code subject inj
def lcRegion (s : State) (r code subject : Nat) (inj : Bool) : State :=
  lcLatch s Fld.RLC_FIRST_VALID Fld.RLC_FIRST_OVF Fld.RLC_FIRST_INJ Fld.RLC_FIRST_CODE Fld.RLC_FIRST_SUBJECT
    Fld.RLC_TIME_TIME r code subject inj

/-- The local collectors a report passes on its way up. -/
def lcPass (s : State) (path : FPath) (code subject : Nat) (inj : Bool) : State :=
  match path with
  | .slice l => lcRegion (lcCluster (lcSlice s l code subject inj) (l / 9) code subject inj) (l / 36) code subject inj
  | .cluster c => lcRegion (lcCluster s c code subject inj) (c / 4) code subject inj
  | .region r => lcRegion s r code subject inj
  | .inst => s

/-- Ports of the memory side that are FAILED or RESILVER. -/
def portDown (s : State) (m : Nat) : Bool := s.fld Fld.MP_STATE_STATE m = 2 || s.fld Fld.MP_STATE_STATE m = 3

/-- The address map entries with VALID = 1, as their index. -/
def amapValid (s : State) : List Nat :=
  ((SMap.slice s.regs 0x0E0000 (8 * 16384)).filter (fun e => bit1 e.2.toNat 0)).map (fun e => e.1 / 8)

/-- The port of the same way on the other side of the pair of entry `e`, for a port the entry names (R351). -/
def partnerIn (s : State) (e m : Nat) : Option Nat :=
  let n := 2 ^ s.fld Fld.AMAP_WAYS e
  let p := s.fld Fld.AMAP_PRI_MP e
  let q := s.fld Fld.AMAP_MIR_MP e
  if s.fld Fld.AMAP_MIR_EN e = 0 then none
  else if p ≤ m ∧ m < p + n then some (q + (m - p))
  else if q ≤ m ∧ m < q + n then some (p + (m - q))
  else none

/-- Whether an entry names port `m` on either side. -/
def entryNames (s : State) (e m : Nat) : Bool :=
  let n := 2 ^ s.fld Fld.AMAP_WAYS e
  let p := s.fld Fld.AMAP_PRI_MP e
  let q := s.fld Fld.AMAP_MIR_MP e
  (p ≤ m && m < p + n) || (s.fld Fld.AMAP_MIR_EN e == 1 && q ≤ m && m < q + n)

/-- The partners of a port over every entry that names it. -/
def partners (s : State) (m : Nat) : List Nat :=
  ((amapValid s).filterMap (fun e => partnerIn s e m)).dedup

/-- The classes of tolerated faults, by their bit of FC_RECOV (R410). -/
def faultClass (code : Nat) : Option Nat :=
  match code with
  | 0x20 => some 0
  | 0x27 | 0x25 | 0x28 | 0x23 | 0x24 => some 1
  | 0x41 => some 2
  | 0x50 => some 3
  | 0x70 => some 4
  | 0x09 => some 5
  | _ => none

/-- The subjects for which a class is present by its own condition (R410). Lanes are those of a port in UP_1LANE. -/
def classSubjects (s : State) (cls : Nat) : List Nat :=
  match cls with
  | 0 => s.sl.adopting.map (fun e => e.1)
  | 1 => (s.cab.dr.filter (fun e => e.2.blindAll || e.2.blind.any (fun b => b.2.state != 0))).map (fun e => e.1)
  | 2 => (List.range 16).filter (fun c => s.fld Fld.STW_STATUS_FAILED c = 1 ∧
          ¬ (List.range 16).any (fun h => s.fld Fld.STW_STATUS_HOSTING h = 1 ∧ s.fld Fld.STW_STATUS_HOSTED h = c))
  | 3 => (List.range 32).filter (portDown s)
  | 4 => (List.range 4).filter (fun p => s.pt.port.any (fun e => e.1 == p && e.2.state == 4))
  | 5 => s.agents.filter (fun a => s.agtState a == 4)
  | _ => []

/-- Whether two subjects of a class are the same one: for TARGET, ports of one mirror pair. -/
def sameSubject (s : State) (cls a b : Nat) : Bool :=
  a == b || (cls == 3 && (partners s a).contains b)

/-- The subject of a report as its class counts it. -/
def classSubject (code subject : Nat) : Nat := if code = 0x20 then subject % 256 else subject

/-- Whether the class and subject of a report are present already (R411). -/
def classHas (s : State) (code subject : Nat) : Bool :=
  match faultClass code with
  | some cls => (classSubjects s cls).any (sameSubject s cls (classSubject code subject))
  | none => false

/-- Raises a report (R395): it is held for the instance collector, merged with a held report of its signature. The
local collectors of its path latch it (R396). -/
def raiseN (s : State) (path : FPath) (code subject count : Nat) (inj : Bool) (dom : Dom) : State :=
  let s := lcPass s path code subject inj
  let same := fun (r : Report) => r.code == code && r.subject == subject && r.inj == inj
  let held := if s.fault.held.any same then
      s.fault.held.map (fun r => if same r then { r with count := r.count + count } else r)
    else s.fault.held ++ [⟨code, subject, count, inj, dom, s.time, classHas s code subject⟩]
  { s with fault := { s.fault with held := held } }

/-- A report of a slice logic or Drawer, of a cluster, of a region, of CORE at the instance collector, and of PORT or
LEHR (R394, R413). -/
def raiseSlice (s : State) (slice code subject : Nat) : State :=
  raiseN s (.slice (logicOf s slice)) code subject 1 false .core
def raiseCluster (s : State) (c code subject : Nat) : State := raiseN s (.cluster c) code subject 1 false .core
def raiseRegion (s : State) (r code subject : Nat) : State := raiseN s (.region r) code subject 1 false .core
def raiseCore (s : State) (code subject : Nat) : State := raiseN s .inst code subject 1 false .core
def raisePort (s : State) (code subject : Nat) : State := raiseN s .inst code subject 1 false .port
def raiseLehr (s : State) (code subject : Nat) : State := raiseN s .inst code subject 1 false .lehr

/-! ### Interrupt sources (R441) -/

/-- Puts a number into a rising list without repeats. -/
def insertSorted (n : Nat) : List Nat → List Nat
  | [] => [n]
  | m :: l => if n < m then n :: m :: l else if n = m then m :: l else m :: insertSorted n l

/-- Sets the pending bit of a source: a pulse's edge, or a software set (R441). CORE must be out of reset. -/
def irqSet (s : State) (n : Nat) : State :=
  if s.coreUp then { s with irq := { s.irq with pend := insertSorted n s.irq.pend } } else s

/-- Clears pending bits. -/
def irqClear (s : State) (n : Nat) : State :=
  { s with irq := { s.irq with pend := s.irq.pend.filter (· != n) } }

end Sys2Proof.Machine
end

