-- ==== Sys2Proof/Machine/Counters.lean ====
section
/-! DEFINITION. Event counters (R528 to R530): an event of a block raises the programmable counters that select it and
its fixed counter. Cycle counts and threshold events are timing, which the model leaves out. -/

namespace Sys2Proof.Machine

/-- Adds one event to a counter (R529), setting OVF at the wrap; a crossing of FRZ_CNT_VAL by the watched counter fires
the COUNTER cause (R534). -/
def bumpCnt (s : State) (v o : Fld) (i j id : Nat) : State :=
  let old := s.fld v i j
  let new := (old + 1) % 2 ^ 48
  let s := s.setFld v new i j
  let s := if new = 0 then s.setFld o 1 i j else s
  let lim := s.fld Fld.FRZ_CNT_VAL_VALUE
  if s.fld Fld.FRZ_CTL_CNT_EN = 1 ∧ s.fld Fld.FRZ_CNT_SEL_ID = id ∧ old < lim ∧ lim ≤ new then
    { s with frzReq := s.frzReq ||| 8 }
  else s

/-- An event of a slice logic; `fixed` is the fixed counter it also raises (4 DECIDED, 5 TURNED). -/
def slEvent (s : State) (logic ev : Nat) : State :=
  (List.range 4).foldl (fun t k =>
    if t.fld Fld.SL_TEL_SEL_EVENT logic k = ev then
      bumpCnt t Fld.SL_TEL_CNT_VALUE Fld.SL_TEL_CNT_OVF logic k (8 * logic + k) else t) s
def slFixed (s : State) (logic k : Nat) : State :=
  bumpCnt s Fld.SL_TEL_CNT_VALUE Fld.SL_TEL_CNT_OVF logic k (8 * logic + k)

/-- An event of a cluster, of a fabric port, of a memory port. -/
def clEvent (s : State) (c ev : Nat) : State :=
  (List.range 8).foldl (fun t k =>
    if t.fld Fld.CL_TEL_SEL_EVENT c k = ev then
      bumpCnt t Fld.CL_TEL_CNT_VALUE Fld.CL_TEL_CNT_OVF c k (1152 + 8 * c + k) else t) s
def fpEvent (s : State) (p ev : Nat) : State :=
  (List.range 4).foldl (fun t k =>
    if t.fld Fld.FP_TEL_SEL_EVENT p k = ev then
      bumpCnt t Fld.FP_TEL_CNT_VALUE Fld.FP_TEL_CNT_OVF p k (1280 + 4 * p + k) else t) s
def mpEvent (s : State) (m ev : Nat) : State :=
  (List.range 4).foldl (fun t k =>
    if t.fld Fld.MP_TEL_SEL_EVENT m k = ev then
      bumpCnt t Fld.MP_TEL_CNT_VALUE Fld.MP_TEL_CNT_OVF m k (1536 + 4 * m + k) else t) s

/-- The block, unit and number of a counter ID (R528): the fields of its count and of its snapshot. -/
def cntOf (id : Nat) : Fld × Fld × RegName × RegName × Nat × Nat :=
  if id < 1152 then (Fld.SL_TEL_CNT_VALUE, Fld.SL_TEL_CNT_OVF, .SL_TEL_CNT, .SL_TEL_SNAP, id / 8, id % 8)
  else if id < 1280 then (Fld.CL_TEL_CNT_VALUE, Fld.CL_TEL_CNT_OVF, .CL_TEL_CNT, .CL_TEL_SNAP, (id - 1152) / 8, (id - 1152) % 8)
  else if id < 1536 then (Fld.FP_TEL_CNT_VALUE, Fld.FP_TEL_CNT_OVF, .FP_TEL_CNT, .FP_TEL_SNAP, (id - 1280) / 4, (id - 1280) % 4)
  else (Fld.MP_TEL_CNT_VALUE, Fld.MP_TEL_CNT_OVF, .MP_TEL_CNT, .MP_TEL_SNAP, (id - 1536) / 4, (id - 1536) % 4)

/-- VALUE and OVF of a counter, and of its snapshot. -/
def cntNow (s : State) (id : Nat) : Nat × Nat :=
  let (v, o, _, _, i, j) := cntOf id
  (s.fld v i j, s.fld o i j)
def cntSnap (s : State) (id : Nat) : Nat × Nat :=
  let (_, _, _, r, i, j) := cntOf id
  let w := (s.reg r i j).toNat
  (bits w 0 48, bits w 48 1)

/-- An offset of a TEL_CNT register (R540). -/
def isCntOff (off : Nat) : Bool :=
  (0x400000 ≤ off && off < 0x640000 && 0xA0 ≤ off % 16384 && off % 16384 < 0xE0) ||
  (0x100000 ≤ off && off < 0x200000 && 0x620 ≤ off % 65536 && off % 65536 < 0x660) ||
  (((0x080000 ≤ off && off < 0x090000) || (0x0A0000 ≤ off && off < 0x0A8000)) && 0x120 ≤ off % 1024 && off % 1024 < 0x140)

/-- Any counter's OVF bit is 1 (R539). -/
def anyOvf (s : State) : Bool := s.regs.any (fun e => bit1 e.2.toNat 48 && isCntOff e.1)

end Sys2Proof.Machine
end

