-- ==== Sys2Proof/Machine/Storage.lean ====
section
/-! DEFINITION. Stored-data protection (chapter 13): the word code (R369), the page code (R370, R371), reads and writes
of a protected word (R373 to R375), leaky buckets (R376) and injection (R383). A word's logical contents stand in the
state of its subsystem; `integ.mask` says which stored bits differ from the encoding of those contents. Both codes are
linear, so the outcome of a read depends on that mask alone: it gives the deviation of the value read. -/

namespace Sys2Proof.Machine

/-! ### The word code (R369) -/

/-- Hamming check bits for n data bits. -/
def codeR (n : Nat) : Nat := if n = 128 then 8 else if n = 32 then 6 else 7

def isPow2 (p : Nat) : Bool := [1, 2, 4, 8, 16, 32, 64, 128].contains p

/-- The positions of the data bits in rising order: those that are not powers of two. -/
def dataPositions (n : Nat) : List Nat := (List.range (n + codeR n + 1)).filter (fun p => p ≠ 0 ∧ ¬ isPow2 p)

/-- XOR of the positions of the data bits that hold 1. -/
def dataSyn (n : Nat) (d : Nat) : Nat :=
  ((dataPositions n).zip (List.range n)).foldl (fun a (p, j) => if bit1 d j then a ^^^ p else a) 0

/-- Parity of a number's low bits. -/
def parity (bits_ v : Nat) : Nat := ((List.range bits_).filter (fun i => bit1 v i)).length % 2

/-- The CHECK bits of a data word: Hamming bit k is the parity of the positions whose index has bit k set; the top bit
is the parity of everything. -/
def checkBits (n d : Nat) : Nat :=
  let h := dataSyn n d
  h + 2 ^ codeR n * ((parity n d + parity (codeR n) h) % 2)

/-- A stored word: data bits, then CHECK above them. -/
def encWord (n d : Nat) : Nat := d % 2 ^ n + 2 ^ n * checkBits n (d % 2 ^ n)

/-- What the word code makes of a word whose stored bits differ by a mask from an encoding: read as it stands or
corrected, with the deviation of the data given, or flagged. -/
inductive Verdict
  | clean (dev : Nat)
  | corrected (dev : Nat)
  | flagged
  deriving DecidableEq, Repr

def verdict (n mask : Nat) : Verdict :=
  let r := codeR n
  let d := mask % 2 ^ n
  let s := dataSyn n d ^^^ (mask / 2 ^ n % 2 ^ r)
  let odd := parity (n + r + 1) mask = 1
  if s = 0 then (if odd then .corrected d else .clean d)
  else if odd ∧ s ≤ n + r then
    match (dataPositions n).findIdx? (· = s) with
    | some j => .corrected (d ^^^ 2 ^ j)
    | none => .corrected d
  else .flagged

/-! ### The page code (R370, R371) -/

/-- Multiplication by g = 0x02 in GF(2^8) with x^8 + x^4 + x^3 + x^2 + 1. -/
def gfDouble (b : Nat) : Nat := if 128 ≤ b then (2 * b) % 256 ^^^ 0x1D else 2 * b

/-- Every byte of a word of `n` bytes times g^i. -/
def gfScale : Nat → Nat → Nat → Nat
  | 0, _, v => v
  | i + 1, n, v => gfScale i n ((List.range n).foldl (fun a k => a + gfDouble (bits v (8 * k) 8) * 256 ^ k) 0)

/-- P and Q of a page's words in their places. -/
def pageP (ws : List Nat) : Nat := ws.foldl (· ^^^ ·) 0
def pageQ (n : Nat) (ws : List Nat) : Nat :=
  (ws.zip (List.range ws.length)).foldl (fun a (w, i) => a ^^^ gfScale i n w) 0

/-- Bytes of a stored word, padded up (R370). -/
def storedBytes (n : Nat) : Nat := (n + codeR n + 1 + 7) / 8

/-- The rebuild of word `k` of a page, from the masks of its words and the deviations of P and Q: the deviation of the
rebuilt data, or none where the page cannot rebuild it (R371). -/
def rebuild (n : Nat) (masks : List Nat) (k pDev qDev : Nat) : Option Nat :=
  let devs := masks.map (fun m => match verdict n m with | .clean d => some d | .corrected d => some d | .flagged => none)
  let others := (devs.zip (List.range devs.length)).filter (fun e => e.2 ≠ k)
  if others.any (fun e => e.1 = none) then none else
  let enc := others.map (fun e => (encWord n (e.1.getD 0), e.2))
  let x := enc.foldl (fun a e => a ^^^ e.1) pDev
  let q := enc.foldl (fun a e => a ^^^ gfScale e.2 (storedBytes n) e.1) (qDev ^^^ gfScale k (storedBytes n) x)
  if verdict n x = .clean (x % 2 ^ n) ∧ q = 0 then some (x % 2 ^ n) else none

/-! ### The stores (R368) -/

/-- Data bits of a store's word, words of its page. -/
def Store.bits : Store → Nat
  | .drawer | .spare => 120
  | .trk | .nq => 128
  | .hmap => 32
  | _ => 64
def Store.page : Store → Nat
  | .hutch => 8
  | _ => 32
def Store.num : Store → Nat
  | .drawer => 0 | .spare => 1 | .trk => 2 | .dbuf => 3 | .stw => 4 | .hutch => 5 | .rb => 6 | .rs => 7 | .agt => 8
  | .amap => 9 | .hmap => 10 | .nq => 11 | .lehr => 12

/-- The key of a word: store, unit, word. -/
def wordKey (st : Store) (unit w : Nat) : Nat := (st.num * 2 ^ 16 + unit) * 2 ^ 24 + w

def maskOf (s : State) (st : Store) (unit w : Nat) : Nat :=
  (SMap.getD (fun _ => (0 : BitVec 144)) s.integ.mask (wordKey st unit w)).toNat

def setMask (s : State) (st : Store) (unit w m : Nat) : State :=
  { s with integ := { s.integ with
    mask := SMap.set (fun _ => (0 : BitVec 144)) s.integ.mask (wordKey st unit w) (BitVec.ofNat 144 m) } }

/-- Deviation of P (q = 0) or Q (q = 1) of a page. -/
def pqOf (s : State) (st : Store) (unit page q : Nat) : Nat :=
  (SMap.getD (fun _ => (0 : BitVec 144)) s.integ.pq (wordKey st unit (2 * page + q))).toNat

def setPq (s : State) (st : Store) (unit page q v : Nat) : State :=
  { s with integ := { s.integ with
    pq := SMap.set (fun _ => (0 : BitVec 144)) s.integ.pq (wordKey st unit (2 * page + q)) (BitVec.ofNat 144 v) } }

def injOf (s : State) (st : Store) (unit w : Nat) : Bool :=
  SMap.getD (fun _ => false) s.integ.inj (wordKey st unit w)

def setInj (s : State) (st : Store) (unit w : Nat) (b : Bool) : State :=
  { s with integ := { s.integ with inj := SMap.set (fun _ => false) s.integ.inj (wordKey st unit w) b } }

/-- The class of a store's bucket and injector (R393): a Drawer's own, a cluster class, a die class. -/
inductive IClass
  | drawer (n : Nat)
  | cluster (c x : Nat)
  | dieP (x : Nat)
  | dieNq
  | dieL
  deriving DecidableEq, Repr

/-- The class a store's unit belongs to. Units: Drawer, slice logic (tracker store, rule banks), cluster (data buffers,
Hutch), thread (local memory). -/
def Store.cls (st : Store) (unit : Nat) : IClass :=
  match st with
  | .drawer | .spare => .drawer unit
  | .trk => .cluster (unit / 9) 0
  | .dbuf => .cluster unit 1
  | .stw => .cluster (unit / 4) 2
  | .hutch => .cluster unit 3
  | .rb => .cluster (unit / 9) 4
  | .rs => .dieP 0
  | .agt => .dieP 1
  | .amap => .dieP 2
  | .hmap => .dieP 3
  | .nq => .dieNq
  | .lehr => .dieL

/-! ### Leaky buckets (R376, R388, R393) -/

/-- Adds to a bucket's level and says in the second part whether OVF went from 0 to 1. -/
def bucketAdd (s : State) (level ovf : Fld) (i j n : Nat) : State × Bool :=
  let l := s.fld level i j + n
  if l ≤ 16 then (s.setFld level l i j, false)
  else ((s.setFld level 16 i j).setFld ovf 1 i j, s.fld ovf i j = 0)

/-- Adds a counted correction to the bucket of a class; an overflow raises its interrupt source and SI_CORR_OVF. -/
def bucket (s : State) (c : IClass) (n : Nat) : State :=
  match c with
  | .drawer d =>
    let (t, o) := bucketAdd s Fld.SI_BUCKET_LEVEL Fld.SI_BUCKET_OVF d 0 n
    if o then irqSet (raiseSlice t d 0x29 d) (64 + d) else t
  | .cluster k x =>
    let (t, o) := bucketAdd s Fld.CL_BKT_LEVEL Fld.CL_BKT_OVF k x n
    if o then irqSet (raiseCluster t k 0x29 (0x100 + 8 * k + x)) (192 + 8 * k + x) else t
  | .dieP x =>
    let (t, o) := bucketAdd s Fld.DIE_BKT_P_LEVEL Fld.DIE_BKT_P_OVF x 0 n
    if o then irqSet (raisePort t 0x29 (0x200 + x)) (320 + x) else t
  | .dieNq =>
    let (t, o) := bucketAdd s Fld.DIE_BKT_NQ_LEVEL Fld.DIE_BKT_NQ_OVF 0 0 n
    if o then irqSet (raiseCore t 0x29 0x204) 324 else t
  | .dieL =>
    let (t, o) := bucketAdd s Fld.DIE_BKT_L_LEVEL Fld.DIE_BKT_L_OVF 0 0 n
    if o then irqSet (raiseLehr t 0x29 0x205) 325 else t

/-- One leak of a bucket: the level falls by 1 if it is above 0; LEAK = 0 stops the leak (R376, R388). -/
def bucketLeak (s : State) (level leak : Fld) (i j : Nat) : State :=
  if s.fld leak i j = 0 then s else s.setFld level (s.fld level i j - 1) i j

/-! ### Injection (R383, R392) -/

/-- The injector's fields and unit for a class. -/
def injFlds (c : IClass) : Fld × Fld × Fld × Fld × Nat × Nat :=
  match c with
  | .drawer d => (Fld.SI_INJ_MASK, Fld.SI_INJ_CONT, Fld.SI_INJ_ARM, Fld.SI_INJ_LAST, d, 0)
  | .cluster k x => (Fld.CL_INJ_MASK, Fld.CL_INJ_CONT, Fld.CL_INJ_ARM, Fld.CL_INJ_LAST, k, x)
  | .dieP x => (Fld.DIE_INJ_P_MASK, Fld.DIE_INJ_P_CONT, Fld.DIE_INJ_P_ARM, Fld.DIE_INJ_P_LAST, x, 0)
  | .dieNq => (Fld.DIE_INJ_NQ_MASK, Fld.DIE_INJ_NQ_CONT, Fld.DIE_INJ_NQ_ARM, Fld.DIE_INJ_NQ_LAST, 0, 0)
  | .dieL => (Fld.DIE_INJ_L_MASK, Fld.DIE_INJ_L_CONT, Fld.DIE_INJ_L_ARM, Fld.DIE_INJ_L_LAST, 0, 0)

/-- INJ of an error found at a word: the word in LAST, not written since (R383). -/
def errInj (s : State) (st : Store) (unit w : Nat) : Bool :=
  let (_, _, _, fl, i, j) := injFlds (st.cls unit)
  injOf s st unit w && s.fld fl i j == w

/-- The place of a word in its page's store: a Drawer word that a Cullet spare holds is read from the spare (R370). -/
def pagePlace (s : State) (st : Store) (unit w : Nat) : Store × Nat :=
  if st = .drawer then
    match (List.range 8).find? (fun k => s.fld Fld.CULLET_VALID unit k = 1 ∧ s.fld Fld.CULLET_WORD unit k = w) with
    | some k => (.spare, k)
    | none => (st, w)
  else (st, w)

/-- The masks of the words of the page that holds word `w`. -/
def pageMasks (s : State) (st : Store) (unit w : Nat) : List Nat :=
  (List.range st.page).map (fun k =>
    let p := pagePlace s st unit (w / st.page * st.page + k)
    maskOf s p.1 unit p.2)

/-- How a word reads: its deviation after correction or rebuild, with the kind of repair (0 none, 1 corrected,
2 rebuilt), or none where it is uncorrectable (R371, R372). A spare stands in its word's place of the page (R370). -/
def wordLook (s : State) (st : Store) (unit w : Nat) : Option (Nat × Nat) :=
  if maskOf s st unit w = 0 then some (0, 0) else
  match verdict st.bits (maskOf s st unit w) with
  | .clean d => some (d, 0)
  | .corrected d => some (d, 1)
  | .flagged =>
    let (st', w') := if st = .spare then (Store.drawer, s.fld Fld.CULLET_WORD unit w) else (st, w)
    match rebuild st.bits (pageMasks s st' unit w') (w' % st'.page) (pqOf s st' unit (w' / st'.page) 0)
        (pqOf s st' unit (w' / st'.page) 1) with
    | some d => some (d, 2)
    | none => none

/-- P and Q of an OVERWRITE store's page whose old word could not be rebuilt are computed afresh when it is written
(R374): while other flagged words remain, they read as uncorrectable until they are written, which the deviation of P
stands for. -/
def pageFresh (s : State) (st : Store) (unit w : Nat) : State :=
  let page := w / st.page
  let others := (List.range st.page).any (fun k =>
    page * st.page + k ≠ w && verdict st.bits (maskOf s st unit (page * st.page + k)) == .flagged)
  setPq (setPq s st unit page 0 (b2n others)) st unit page 1 0

/-- A word is written: fresh check bits, or with an armed injector check bits inverted by MASK (R374, R383). -/
def wordWritten (s : State) (st : Store) (unit w : Nat) : State :=
  let s := if maskOf s st unit w ≠ 0 ∧ st ≠ .drawer ∧ st ≠ .spare ∧ wordLook s st unit w = none then pageFresh s st unit w else s
  let (fm, fc, fa, fl, i, j) := injFlds (st.cls unit)
  if s.fld fa i j = 1 then
    let chk := s.fld fm i j % 2 ^ (codeR st.bits + 1)
    let t := setInj (setMask s st unit w (chk * 2 ^ st.bits)) st unit w true
    let t := t.setFld fl w i j
    if s.fld fc i j = 0 then t.setFld fa 0 i j else t
  else setInj (setMask s st unit w 0) st unit w false

/-- Reads a word of a store other than a Drawer: a repair is counted in the class's bucket and written back in the next
idle cycle (R375, R376). The answer is the deviation of the data, or none where the word is uncorrectable. -/
def wordRead (s : State) (st : Store) (unit w : Nat) : State × Option Nat :=
  if maskOf s st unit w = 0 then (s, some 0) else
  match wordLook s st unit w with
  | some (d, k) =>
    if k = 0 then (s, some d)
    else (setMask (bucket s (st.cls unit) (if k = 2 then 4 else 1)) st unit w (if d = 0 then 0 else encWord st.bits d), some d)
  | none => (s, none)

/-! ### The Lehr SRAM (R462)

Its regions keep the places of R462 in 64-bit words; where a record stands within its region is a DESIGN CHOICE (log entry 107). -/

/-- Words `h` of fall-back record slot `k`; of ledger record `k` (0 AGE_HDR, 1 to 32 AGE_MON, 33 AGE_PLAN). -/
def fbWordAt (k h : Nat) : Nat := 2 * k + h
def ldgWords (k : Nat) : List Nat := [256 + 2 * k, 257 + 2 * k]

/-- The repair record: a word for each Cullet entry, for a Drawer's retired ways, for a cluster's slice map. -/
def repCullet (d k : Nat) : Nat := 384 + 8 * d + k
def repRetired (d : Nat) : Nat := 1408 + d
def repMap (c : Nat) : Nat := 1536 + c

/-- The start-attempt counters. -/
def cntWord : Nat := 1664

/-- Words of the Lehr SRAM are written. -/
def lehrWrote (s : State) (ws : List Nat) : State := ws.foldl (fun t w => wordWritten t .lehr 0 w) s

/-- Reads `n` words of the Lehr SRAM from word `lo`; LEHR_UE with subject 0 is raised where one is uncorrectable, and the second part
is false then. -/
def lehrGood (s : State) (lo n : Nat) : State × Bool :=
  let ws := (SMap.slice s.integ.mask (wordKey .lehr 0 lo) n).map (fun e => lo + e.1)
  let (s, bad) := ws.foldl (fun (a : State × Option Nat) w =>
    let (t, r) := wordRead a.1 .lehr 0 w
    (t, if r.isNone && a.2.isNone then some w else a.2)) (s, none)
  match bad with
  | some w => (raiseN s .inst 0x60 0 1 (errInj s .lehr 0 w) .lehr, false)
  | none => (s, true)

end Sys2Proof.Machine
end

