-- ==== Sys2Proof/Machine/Queue.lean ====
section
/-! DEFINITION. The Notification Queue, the packed fall-back, the interrupt controller and the command window's
registers (chapter 15): the operations and the meanings of their commands. -/

namespace Sys2Proof.Machine

/-! ### Rings (R426) -/

def ringSize (s : State) (r : Nat) : Nat := 2 ^ s.fld Fld.NQ_RING_LOG2 r
def ringOcc (s : State) (r : Nat) : Nat :=
  let q := s.ringE r
  (q.wp + 2 * ringSize s r - q.rp) % (2 * ringSize s r)
def ringSlot (s : State) (r ptr : Nat) : Nat := (s.fld Fld.NQ_RING_BASE r + ptr % ringSize s r) % 8192
def nqOcc (s : State) : Nat := ((List.range 8).map (ringOcc s)).sum
def nqAbove (s : State) : Bool := s.fld Fld.NQ_LEVEL_LEVEL < nqOcc s

def slotW (s : State) (k : Nat) : BitVec 128 := SMap.getD (fun _ => 0) s.nq.slots k
def slotEnd (s : State) (k : Nat) : Bool :=
  let e := SMap.getD (fun _ => (0 : BitVec 3)) s.nq.ends k
  2 ≤ ((List.range 3).filter (fun i => e.getLsbD i)).length

/-- The TYPE of a record, the ring NQ_TMAP gives for it (R427). -/
def recType (w : BitVec 128) : Nat := w.toNat % 256
def ringOfType (s : State) (t : Nat) : Nat := bits (s.reg .NQ_TMAP (t / 8)).toNat (4 * (t % 8)) 3

/-- The ring holds a GAP not yet popped (R440, R452): a packet that begins with TYPE 0x7F, which the queue alone writes (R427). -/
def ringGap (s : State) (r : Nat) : Bool :=
  let at_ := fun (k : Nat) => ringSlot s r ((s.ringE r).rp + k)
  (List.range (ringOcc s r)).any (fun k => recType (slotW s (at_ k)) == 0x7F &&
    (match k with | 0 => s.nq.lock != some r | j + 1 => slotEnd s (at_ j)))

/-- Writes a slot: the record with fresh check bits, the END flag in its three copies; a mark that names the slot is
lost (R436). -/
def slotWrite (s : State) (r : Nat) (w : BitVec 128) : State :=
  let q := s.ringE r
  let k := ringSlot s r q.wp
  let s := wordWritten s .nq 0 k
  let s := { s with nq := { s.nq with
    slots := SMap.set (fun _ => 0) s.nq.slots k w
    ends := SMap.set (fun _ => 0) s.nq.ends k (if w.getLsbD 127 then 7 else 0) } }
  let mark := match q.mark with
    | .valid rp n => if ringSlot s r rp = k then NqMark.lost else .valid rp n
    | m => m
  s.setRingE r { q with wp := (q.wp + 1) % (2 * ringSize s r), mark := mark }

/-- A record of fields at given places: the sum of values times powers of two. -/
def recOf (fs : List (Nat × Nat × Nat)) : BitVec 128 :=
  BitVec.ofNat 128 (fs.foldl (fun a (v, lo, n) => a + v % 2 ^ n * 2 ^ lo) 0)

/-- now[46:0] and END = 1, as every one-record packet of hardware carries them (R425). -/
def recTail (t : Nat) : List (Nat × Nat × Nat) := [(t, 80, 47), (1, 127, 1)]

/-- Notes a dropped packet of n records in a ring's GAP record (R429). -/
def gapNote (s : State) (r n typ : Nat) : State :=
  let q := s.ringE r
  if q.gapOpen then
    let k := ringSlot s r (q.wp + 2 * ringSize s r - 1)
    let w := (slotW s k).toNat
    let w' := recOf ([(w, 0, 16), (min (bits w 16 32 + n) (2 ^ 32 - 1), 16, 32),
      (min (bits w 48 16 + 1) 65535, 48, 16), (bits w 64 63, 64, 63), (1, 127, 1)])
    let s := wordWritten s .nq 0 k
    { s with nq := { s.nq with slots := SMap.set (fun _ => 0) s.nq.slots k w' } }
  else if ringOcc s r < ringSize s r then
    let s := slotWrite s r (recOf ([(0x7F, 0, 8), (r, 8, 3), (n, 16, 32), (1, 48, 16), (typ, 64, 8)] ++ recTail s.time))
    let q := s.ringE r
    s.setRingE r { q with pkts := q.pkts + 1, gapOpen := true }
  else s

/-- Drops a packet: it is counted in its ring's DROPS, and noted in a GAP unless EN = 0 (R429, R430). -/
def pktDrop (s : State) (pkt : List (BitVec 128)) : State :=
  let typ := recType (pkt.headD 0)
  let r := ringOfType s typ
  let s := s.addFld Fld.NQ_DROPS_DROPS pkt.length r
  if s.fld Fld.NQ_CTL_EN = 0 then s else gapNote s r pkt.length typ

/-- Commits a packet whole (R428, R429): its records into the ring of its first TYPE, or dropped. -/
def pktCommit (s : State) (pkt : List (BitVec 128)) : State :=
  let r := ringOfType s (recType (pkt.headD 0))
  if s.fld Fld.NQ_CTL_EN = 0 then pktDrop s pkt
  else if ringOcc s r + pkt.length ≤ ringSize s r - 1 then
    let s := pkt.foldl (fun t w => slotWrite t r w) s
    let q := s.ringE r
    s.setRingE r { q with pkts := q.pkts + 1, gapOpen := false }
  else pktDrop s pkt

/-- A steward packet whose first TYPE only the queue itself produces is dropped (R427). -/
def thrCommit (s : State) (pkt : List (BitVec 128)) : State :=
  let t := recType (pkt.headD 0)
  if t = 0x7E ∨ t = 0x7F then pktDrop s pkt else pktCommit s pkt

/-- The threads that hold a packet ready, first the ones after the last served (R428). -/
def readyThread (s : State) : Option Nat :=
  let ts := s.nq.readyThr.map (fun e => e.1)
  match ts.find? (fun t => s.nq.rot < t) with
  | some t => some t
  | none => ts.head?

/-- A TEL_CNT record as it is written: its counter's value now, and the time (R532). -/
def telFresh (s : State) (w : BitVec 128) : BitVec 128 :=
  let n := w.toNat
  let (v, o) := cntNow s (bits n 8 12)
  recOf [(bits n 0 20, 0, 20), (o, 20, 1), (v, 24, 48), (bits n 72 8, 72, 8), (s.time, 80, 47), (bits n 127 1, 127, 1)]

/-- A packet of the telemetry reader (R532): a sweep's dropped packets are counted from its TEL_BEGIN on, and TEL_END
carries the count; writing TEL_END pulses source 41 (R539). -/
def telCommit (s : State) (p : List (BitVec 128)) : State :=
  let typ := recType (p.headD 0)
  let s := if typ = 0x68 then { s with nq := { s.nq with telDrops := 0 } } else s
  let p := if typ = 0x69 then p.map (telFresh s) else p
  let p := if typ = 0x6A then p.map (fun w => w ||| BitVec.ofNat 128 (s.nq.telDrops % 65536 * 2 ^ 24)) else p
  let r := ringOfType s typ
  let fits := s.fld Fld.NQ_CTL_EN = 1 ∧ ringOcc s r + p.length ≤ ringSize s r - 1
  let s := pktCommit s p
  let s := if fits ∨ 0x70 ≤ typ then s else { s with nq := { s.nq with telDrops := s.nq.telDrops + 1 } }
  if typ = 0x6A ∧ fits ∧ s.coreUp then { s with irq := { s.irq with pend := insertSorted 41 s.irq.pend } } else s

/-- The next ready packet by the writers' order is written or dropped (R428). -/
def nqServe (s : State) : State :=
  match s.nq.readyFc with
  | p :: l => pktCommit { s with nq := { s.nq with readyFc := l } } p
  | [] => match s.nq.readyLehr with
    | p :: l => pktCommit { s with nq := { s.nq with readyLehr := l } } p
    | [] => match s.nq.readyTel with
      | p :: l => telCommit { s with nq := { s.nq with readyTel := l } } p
      | [] => match s.nq.readyPar with
       | p :: l => pktCommit { s with nq := { s.nq with readyPar := l } } p
       | [] => match readyThread s with
        | some t =>
          let p := SMap.getD (fun _ => []) s.nq.readyThr t
          thrCommit { s with nq := { s.nq with
            readyThr := SMap.set (fun _ => []) s.nq.readyThr t [], rot := t } } p
        | none => s

/-- A program of the parison image that the model runs itself has a one-record packet ready. -/
def parReady (s : State) (w : BitVec 128) : State :=
  { s with nq := { s.nq with readyPar := s.nq.readyPar ++ [[w]] } }

/-- A thread's packet enters its commit buffer, or is dropped where the previous one is still unwritten (R428). -/
def thrReady (s : State) (t : Nat) (p : List (BitVec 128)) : State :=
  if SMap.getD (fun _ => []) s.nq.readyThr t = [] then
    { s with nq := { s.nq with readyThr := SMap.set (fun _ => []) s.nq.readyThr t p } }
  else pktDrop s p

/-! ### Reading (R431 to R436) -/

/-- The ring the reader takes: the one it is inside, else the lowest with a whole packet (R431). -/
def nqRing (s : State) : Option Nat :=
  match s.nq.lock with
  | some r => some r
  | none => (List.range 8).find? (fun r => 1 ≤ (s.ringE r).pkts)

/-- Moves the reader over the record at a ring's read pointer; `e` is its END flag. -/
def ringPop (s : State) (r : Nat) (e : Bool) : State :=
  let q := s.ringE r
  let start := if s.nq.lock = some r then q.pktStart else q.rp
  let mark := match q.mark with
    | .valid rp n => NqMark.valid rp (n + b2n e)
    | m => m
  let rp' := (q.rp + 1) % (2 * ringSize s r)
  let s := s.setRingE r { q with rp := rp', pktStart := start, mark := mark, pkts := q.pkts - b2n e,
                                 gapOpen := q.gapOpen && rp' != q.wp }
  { s with nq := { s.nq with lock := if e then none else some r } }

/-- Pops the next record into NQ_RD0 to NQ_RD3 and NQ_RD_INFO (R432, R433). -/
def nqPop (s : State) : State :=
  match nqRing s with
  | none => s.setFld Fld.NQ_STATUS_UNDERRUN 1
  | some r =>
    let k := ringSlot s r (s.ringE r).rp
    let e := slotEnd s k
    let inj := errInj s .nq 0 k
    let (s, dev) := wordRead s .nq 0 k
    let (s, w, bad) := match dev with
      | some d => (s, (slotW s k).toNat ^^^ d, false)
      | none => (raiseN s .inst 0x2F 0 1 inj .core,
          (recOf [(0x7E, 0, 8), (r, 8, 3), (k, 16, 13), (b2n e, 127, 1)]).toNat, true)
    let s := ((((s.setFld Fld.NQ_RD0_BITS (bits w 0 32)).setFld Fld.NQ_RD_BITS (bits w 32 32) 0).setFld
      Fld.NQ_RD_BITS (bits w 64 32) 1).setFld Fld.NQ_RD_BITS (bits w 96 32) 2)
    let s := ((s.setFld Fld.NQ_RD_INFO_RING r).setFld Fld.NQ_RD_INFO_END (b2n e)).setFld Fld.NQ_RD_INFO_BAD (b2n bad)
    ringPop s r e

/-- Discards records up to END of the packet the reader is inside; counts them (R434). -/
def dropRest : Nat → Nat → Nat → State → State × Nat
  | 0, _, n, s => (s, n)
  | fuel + 1, r, n, s =>
    let e := slotEnd s (ringSlot s r (s.ringE r).rp)
    let s := ringPop s r e
    if e then (s, n + 1) else dropRest fuel r (n + 1) s

def nqDropPkt (s : State) : State :=
  match s.nq.lock with
  | none => s.setFld Fld.NQ_DROP_PKT_DROPPED 0
  | some r => let (t, n) := dropRest 8 r 0 s; t.setFld Fld.NQ_DROP_PKT_DROPPED n

/-- NQ_MARK.GO for a ring (R436). -/
def nqMark (s : State) (r : Nat) : State :=
  let q := s.ringE r
  s.setRingE r { q with mark := .valid (if s.nq.lock = some r then q.pktStart else q.rp) 0 }

/-- NQ_REWIND.GO for a ring (R436): STATUS 1 OK, 2 MARK_LOST, 3 NO_MARK. -/
def nqRewind (s : State) (r : Nat) : State :=
  let q := s.ringE r
  match q.mark with
  | .valid rp n =>
    let s := s.setRingE r { q with rp := rp, pkts := q.pkts + n, mark := .valid rp 0 }
    ({ s with nq := { s.nq with lock := if s.nq.lock = some r then none else s.nq.lock } }).setFld Fld.NQ_REWIND_STATUS 1
  | .lost => s.setFld Fld.NQ_REWIND_STATUS 2
  | .never => s.setFld Fld.NQ_REWIND_STATUS 3

/-- The ring layout is usable: sizes 16 to 8,192, BASE a multiple of the size, no overlap (R426, R449). -/
def layoutOk (s : State) : Bool :=
  let b := fun r => s.fld Fld.NQ_RING_BASE r
  let z := fun r => ringSize s r
  (List.range 8).all (fun r =>
    4 ≤ s.fld Fld.NQ_RING_LOG2 r && s.fld Fld.NQ_RING_LOG2 r ≤ 13 && b r % z r == 0 && b r + z r ≤ 8192 &&
    (List.range 8).all (fun t => t ≤ r || b r + z r ≤ b t || b t + z t ≤ b r))

def markLost (q : NqRing) : NqRing :=
  match q.mark with
  | .valid _ _ => { q with mark := .lost }
  | _ => q

/-- A write of NQ_CTL.EN (R449): every mark is lost; 1 checks the layout and empties the rings, 0 drops from now on. -/
def nqEnWrite (s : State) (v : Nat) : State :=
  let s := { s with nq := { s.nq with rings := s.nq.rings.map (fun e => (e.1, markLost e.2)) } }
  if v % 2 = 0 then s.setFld Fld.NQ_CTL_EN 0
  else if layoutOk s then
    { s with nq := { s.nq with
      lock := none
      rings := s.nq.rings.filterMap (fun (e : Nat × NqRing) =>
        let q : NqRing := { ring0 with mark := e.2.mark }
        if q = ring0 then none else some (e.1, q)) } }.setFld Fld.NQ_CTL_EN 1
  else (s.setFld Fld.NQ_CTL_EN 0).setFld Fld.NQ_STATUS_CFG_ERR 1

/-! ### Lehr messages and the packed fall-back (R438, R439) -/

/-- The sorter is off: CORE in reset or unpowered, or sleep-ready (R439). -/
def sorterOff (s : State) : Bool := !s.coreUp || s.sleepReady

/-- The SRAM words of fall-back record `k`, counted from the oldest. -/
def fbSlot (s : State) (k h : Nat) : Nat := fbWordAt ((s.fb.head + k) % 128) h

/-- Appends one word to the fall-back, or drops and counts it (R439). -/
def fbWord (s : State) (w : BitVec 32) : State :=
  match s.fb.recs.getLast? with
  | some (false, ws) =>
    let k := s.fb.recs.length - 1
    let s := lehrWrote s [fbSlot s k (ws.length / 2)]
    let ws := ws ++ [w]
    { s with fb := { s.fb with recs := s.fb.recs.dropLast ++ [(ws.length == 4, ws)] } }
  | _ =>
    if s.fb.recs.length < 128 then
      let s := lehrWrote s [fbSlot s s.fb.recs.length 0, fbSlot s s.fb.recs.length 1]
      { s with fb := { s.fb with recs := s.fb.recs ++ [(false, [w])] } }
    else s.addFld Fld.NQ_FB_STAT_DROPS 1

/-- A message's words as one record with missing words 0 and END = 1 (R438). -/
def msgRec (ws : List (BitVec 32)) : BitVec 128 :=
  let n := (ws.take 4).zip (List.range 4) |>.foldl (fun a (w, k) => a + w.toNat * 2 ^ (32 * k)) 0
  BitVec.ofNat 128 n ||| BitVec.ofNat 128 (2 ^ 127)

/-- The Lehr has a message to deliver (LEHR_MESSAGE takes it). -/
def lehrMsg (s : State) (ws : List (BitVec 32)) : State := { s with fb := { s.fb with msgs := s.fb.msgs ++ [ws] } }

/-- The oldest Lehr message goes to the queue, or to the fall-back while the sorter is off. -/
def lehrDeliver (s : State) : State :=
  match s.fb.msgs with
  | [] => s
  | m :: l =>
    let s := { s with fb := { s.fb with msgs := l } }
    if sorterOff s then m.foldl fbWord s
    else { s with nq := { s.nq with readyLehr := s.nq.readyLehr ++ [[msgRec m]] } }

/-- Closes a partial fall-back record, as a start of CORE does (R439). -/
def fbClose (s : State) : State :=
  { s with fb := { s.fb with recs := s.fb.recs.map (fun e => (true, e.2)) } }

/-- Pops the oldest fall-back record (R439, R454); one that is uncorrectable pops as zeros with BYTES = 0 (R462). -/
def fbPop (s : State) : State :=
  match s.fb.recs with
  | [] => s.setFld Fld.NQ_FB_STAT_UNDERRUN 1
  | (_, ws) :: l =>
    let (s, ok) := lehrGood s (fbSlot s 0 0) 2
    let ws := if ok then ws else []
    let w := fun k => (ws.getD k 0).toNat
    let s := { s with fb := { s.fb with recs := l, head := (s.fb.head + 1) % 128 } }
    ((((s.setFld Fld.NQ_FB_RD0_BITS (w 0)).setFld Fld.NQ_FB_RD_BITS (w 1) 0).setFld Fld.NQ_FB_RD_BITS (w 2) 1).setFld
      Fld.NQ_FB_RD_BITS (w 3) 2).setFld Fld.NQ_FB_STAT_BYTES (4 * ws.length)

/-! ### Interrupt controller (R441 to R443) -/

def srcPrio (s : State) (n : Nat) : Nat := s.fld Fld.IC_SRC_PRIO n
def srcFor (s : State) (n t : Nat) : Bool := bit1 (s.fld Fld.IC_SRC_TMASK n) t

/-- The sources eligible for a target (R442). -/
def eligibleSrcs (s : State) (t : Nat) : List Nat :=
  s.irq.pend.filter (fun n => srcPrio s n ≠ 0 ∧ srcFor s n t ∧ s.fld Fld.IC_THRESH_THRESH t < srcPrio s n)

/-- The eligible source of highest PRIO, the lowest number among equals (R443). -/
def bestSrc (s : State) (t : Nat) : Option Nat :=
  (eligibleSrcs s t).foldl (fun b n =>
    match b with
    | none => some n
    | some m => if srcPrio s m < srcPrio s n then some n else some m) none

/-- A claim by a target (R443, R457): the source and its PRIO in IC_CLAIMt's layout, or 0x3FF. -/
def icClaim (s : State) (t : Nat) : State × Nat :=
  match bestSrc s t with
  | some n => (irqClear s n, n + 2 ^ 16 * srcPrio s n)
  | none => (s, 0x3FF)

/-- IRQ_N[k] is driven low (R442). -/
def irqLow (s : State) (k : Nat) : Bool := s.coreUp && !(eligibleSrcs s (16 + k)).isEmpty

/-- The sources that follow a level, and whether it is 1 (R440): ABOVE, unread GAP, MODE_REQ DONE, fall-back not empty,
and the Lehr's sources 16 to 24; FROZEN and any OVF (R539). -/
def levelSrcs (s : State) : List Nat :=
  (if nqAbove s then [1] else []) ++ (if (List.range 8).any (ringGap s) then [2] else []) ++
  (if s.fld Fld.MODE_REQ_STATUS = 5 then [4] else []) ++ (if s.fb.recs.isEmpty then [] else [5]) ++
  ((List.range 9).filter (fun k => bit1 (s.fld Fld.LEHR_IRQ_SRC) k)).map (16 + ·) ++
  (if s.fld Fld.FRZ_STATUS_FROZEN = 1 then [40] else []) ++ (if anyOvf s then [42] else [])

/-- Edge detection of the level sources while CORE runs (R441). -/
def sampleIrq (s : State) : State :=
  if s.coreUp then
    let now := levelSrcs s
    let rise := now.filter (fun n => ! s.irq.prev.contains n)
    { s with irq := { pend := rise.foldl (fun l n => insertSorted n l) s.irq.pend, prev := now } }
  else s

/-! ### Command window (R444 to R448) -/

/-- A result posted (R446): DONE, CODE, VALUE; source 3 pulses. -/
def cmdDone (s : State) (code val : Nat) : State :=
  irqSet ((((s.setFld Fld.CMD_RES_DONE 1).setFld Fld.CMD_RES_CODE code).setFld Fld.CMD_VAL_VALUE val)) 3

/-- A post by a thread: ignored unless its SEQ is the current one and the command is not done (R446). -/
def cmdPost (s : State) (v : Nat) : State :=
  if bits v 16 16 = s.fld Fld.CMD_RES_SEQ ∧ s.fld Fld.CMD_RES_DONE = 0 then
    { cmdDone s (bits v 0 8) (s.fld Fld.CMD_POST_VAL_VALUE) with cmd := none }
  else s

/-- The end of a command that runs in the block itself. -/
def cmdEnd (s : State) (code val : Nat) : State := { cmdDone s code val with cmd := none }

/-- The argument bits each command leaves reserved are 0 (R447). -/
def cmdArgsOk (code a0 a1 a2 a3 : Nat) : Bool :=
  let z := fun v n => v / 2 ^ n == 0
  match code with
  | 0x10 => z a0 16 && z a1 21 && a2 == 0 && a3 == 0
  | 0x11 | 0x12 | 0x13 => z a0 16 && a1 == 0 && a2 == 0 && a3 == 0
  | 0x30 | 0x60 => z a1 16 && z a2 1 && a3 == 0
  | 0x31 | 0x40 => a0 == 0 && a1 == 0 && a2 == 0 && a3 == 0
  | 0x50 => z a0 5 && a1 == 0 && a2 == 0 && a3 == 0
  | 0x70 => z a0 12 && z a1 9 && a2 == 0 && a3 == 0
  | _ => true

/-- The commands of the command library (R447). -/
def cmdCodes : List Nat := [0x10, 0x11, 0x12, 0x13, 0x30, 0x31, 0x40, 0x50, 0x60, 0x70]

/-- CMD_GO.GO = 1 (R445): accepted with the descriptor latched, or refused with BUSY_ERR. A command not ready, not
listed or with reserved argument bits completes at once. -/
def cmdGo (s : State) : State :=
  if s.fld Fld.CMD_RES_DONE = 0 then s.setFld Fld.CMD_GO_BUSY_ERR 1 else
  let code := s.fld Fld.CMD_DESC_CODE
  let a := fun k => s.fld Fld.CMD_ARG_ARG k
  let s := ((((s.setFld Fld.CMD_RES_SEQ ((s.fld Fld.CMD_RES_SEQ + 1) % 65536)).setFld Fld.CMD_RES_DONE 0).setFld
    Fld.CMD_RES_CODE 0).setFld Fld.CMD_VAL_VALUE 0)
  let s := irqSet s 6
  if s.fld Fld.BOOT_STATUS_CODE ≠ 2 then cmdEnd s 2 0
  else if ! cmdCodes.contains code then cmdEnd s 1 0
  else if ! cmdArgsOk code (a 0) (a 1) (a 2) (a 3) then cmdEnd s 4 0
  else { s with cmd := some ⟨code, [0, 1, 2, 3].map (fun k => BitVec.ofNat 32 (a k)), 0, 0, 0, []⟩ }

/-- An unfinished command is cut short: DONE = 1, CODE ABORTED, SEQ as it was (R448). -/
def cmdAbort (s : State) : State := if s.fld Fld.CMD_RES_DONE = 0 then cmdEnd s 3 0 else s

end Sys2Proof.Machine
end

