-- ==== Sys2Proof/Config.lean ====
section
/-! DEFINITION. What the spec leaves open and the model does not choose: free values, as constants without a body.
Nothing can be proved of a value of any of them. -/

namespace Sys2Proof.Config

/-- A free value: the n-th one taken in a run (State.free counts them). -/
opaque free : Nat → BitVec 64

/-- Whether the trim loop of LCLK tracks LREF_32K at a time: the reference may stop at any time, and no row of the table says
that it does (R44, R54). Asked only where the trim found LREF_32K at all (R461). -/
opaque lrefLock : Nat → Bool

/-- MFIELD of a header slot sent, by TYPE: the spec gives its meaning on received messages only (R59). -/
opaque txMfield : Nat → BitVec 2

/-- The words of the boot ROM, which the spec does not list (R241, R307). -/
opaque bootRom : Nat → BitVec 64

end Sys2Proof.Config
end

