-- ==== Sys2Proof/Machine/Placement.lean ====
section
/-! DEFINITION. Where an address belongs: slice, set, tag (R13, R135), the two maps (R14, R335, R339), ports and target
address (R336). A line is named by PA[47:6], a sector by PA[47:10]. -/

namespace Sys2Proof.Machine

def sectorOf (line : Nat) : Nat := line / 16
def lineIn (line : Nat) : Nat := line % 16
def setOf (line : Nat) : Nat := line / 16 % 4096
def tagOf (line : Nat) : Nat := line / 65536 % 2 ^ 26

/-- The logical slice: the 7-bit XOR fold of PA[47:10] (R135). -/
def sliceOf (line : Nat) : Nat :=
  let x := line / 16
  x % 128 ^^^ bits x 7 7 ^^^ bits x 14 7 ^^^ bits x 21 7 ^^^ bits x 28 7 ^^^ bits x 35 3

def windowOf (line : Nat) : Nat := line / 2 ^ 30 % 4096
def entryOf (line : Nat) : Nat := line / 2 ^ 24 % 16384

/-- A map word as it reads: the stored word, what the codes make of it, or VALID = 0 where it is uncorrectable (R368). -/
def amapW (s : State) (e : Nat) : Nat :=
  match wordLook s .amap 0 e with
  | some (d, _) => (s.reg .AMAP e).toNat ^^^ d
  | none => 0
def hmapW (s : State) (w : Nat) : Nat :=
  match wordLook s .hmap 0 w with
  | some (d, _) => (s.reg .HMAP w).toNat ^^^ d
  | none => 0

def amapTenant (s : State) (e : Nat) : Nat := bits (amapW s e) 2 10
def amapDrain (s : State) (e : Nat) : Bool := bit1 (amapW s e) 1

/-- The fields of an address map entry, and DRAIN of a window, as the slices read them: the shadow copies (R24). -/
def shAmap (s : State) (e : Nat) : Nat := 2 * (SMap.getD (fun _ => (0 : BitVec 13)) s.shadow.amap e).toNat
def amapScope (s : State) (e : Nat) : Nat := bits (shAmap s e) 12 2
def shDrained (s : State) (line : Nat) : Bool :=
  SMap.getD (fun _ => false) s.shadow.hmap (windowOf line) || bit1 (shAmap s (entryOf line)) 1

/-- A line is homed by this instance (R14, R339). -/
def homed (s : State) (line : Nat) : Bool :=
  let h := hmapW s (windowOf line)
  bit1 h 18 && bits h 0 8 == s.fld Fld.STRAP_INST_ID && bit1 (amapW s (entryOf line)) 0

/-- The line's tenant: that of its address map entry. -/
def tenantOf (s : State) (line : Nat) : Nat := amapTenant s (entryOf line)

/-- A write that lands in an array of PORT is sent to its shadow copy while CORE is out of reset (R24). The write and its copy fall
in one command: the lag of up to 8 CCLK is not modelled. -/
def shadowAmap (s : State) (e w : Nat) : State :=
  if ! s.coreUp then s else
  { s with shadow := { s.shadow with amap := SMap.set (fun _ => 0) s.shadow.amap e (BitVec.ofNat 13 (w / 2)) } }
def shadowHmap (s : State) (k w : Nat) : State :=
  if ! s.coreUp then s else
  { s with shadow := { s.shadow with hmap := SMap.set (fun _ => false) s.shadow.hmap k (bit1 w 17) } }
def shadowAgt (s : State) (a w : Nat) : State :=
  if ! s.coreUp then s else
  { s with shadow := { s.shadow with agt := SMap.set (fun _ => 0) s.shadow.agt a (BitVec.ofNat 4 w) } }

/-- The way of a PA in its entry, and its target address in lines (R336). -/
def placeIn (w line : Nat) : Nat × Nat :=
  let ways := bits w 25 2
  let g := match bits w 27 2 with | 0 => 8 | 1 => 10 | _ => 12
  let off := line % 2 ^ 24 * 64
  let way := if ways = 0 then 0 else bits off g ways
  let comp := off % 2 ^ g + off / 2 ^ (g + ways) * 2 ^ g
  (way, (bits w 32 25 * 2 ^ 27 + comp) / 64)

/-- The primary port, the mirror port if the entry is mirrored, and the target address in lines (R336). -/
def portsOf (s : State) (line : Nat) : Nat × Option Nat × Nat :=
  let w := amapW s (entryOf line)
  let (way, ta) := placeIn w line
  ((bits w 14 5 + way) % 32, if bit1 w 24 then some ((bits w 19 5 + way) % 32) else none, ta)

/-- The ingress check of the maps reads both words: a repair is counted, an uncorrectable word raises MAP_UE (R368). -/
def mapsRead (s : State) (line : Nat) : State :=
  let e := entryOf line
  let w := windowOf line
  let ie := errInj s .amap 0 e
  let ih := errInj s .hmap 0 w
  let (s, r) := wordRead s .amap 0 e
  let s := if r.isSome then s else
    raiseN { s with fault := { s.fault with sticky := SMap.set (fun _ => false) s.fault.sticky (2 * 2 ^ 17 + e) true } }
      .inst 0x0C e 1 ie .port
  let (s, r) := wordRead s .hmap 0 w
  if r.isSome then s else
    raiseN { s with fault := { s.fault with
      sticky := SMap.set (fun _ => false) s.fault.sticky (2 * 2 ^ 17 + 0x8000 + w) true } } .inst 0x0C (0x8000 + w) 1 ih .port

/-- A map entry is written whole: its errors end (R368). -/
def mapWritten (s : State) (home : Bool) (k : Nat) : State :=
  let s := wordWritten s (if home then .hmap else .amap) 0 k
  { s with fault := { s.fault with
    sticky := SMap.set (fun _ => false) s.fault.sticky (2 * 2 ^ 17 + (if home then 0x8000 else 0) + k) false } }

/-- The agent table word read by the Port Complex: an uncorrectable entry raises AGT_UE and counts as DEAD until it is
written (R368). -/
def agentRead (s : State) (a : Nat) : State :=
  let i := errInj s .agt 0 a
  let (s, r) := wordRead s .agt 0 a
  if r.isSome then s else
    raiseN { s with fault := { s.fault with sticky := SMap.set (fun _ => false) s.fault.sticky (2 ^ 17 + a) true } }
      .inst 0x0A a 1 i .port

/-- STATE as ingress and fan-out see it. -/
def seenState (s : State) (a : Nat) : Nat :=
  match wordLook s .agt 0 a with
  | some (d, _) => bits (s.agtW a ^^^ d) 0 3
  | none => 4

/-- A steward or the Port Complex writes an agent-table word whole (R84, R368); its reserved bits [31:24] stay 0 (R5, R83). -/
def agtWrite (s : State) (a w : Nat) : State :=
  let w := w % 2 ^ 24 + w / 2 ^ 32 % 2 ^ 32 * 2 ^ 32
  let s := shadowAgt (wordWritten (s.setAgt a w) .agt 0 a) a w
  { s with fault := { s.fault with sticky := SMap.set (fun _ => false) s.fault.sticky (2 ^ 17 + a) false } }

/-- The Port Complex streams both maps and the agent table to the shadow copies at a cold or warm start (R24). -/
def shadowStream (s : State) : State :=
  let am := ((SMap.slice s.regs 0x0E0000 (8 * 16384)).map (fun e => e.1 / 8)).foldl (fun l e =>
    SMap.set (fun _ => 0) l e (BitVec.ofNat 13 (amapW s e / 2))) []
  let hm := ((SMap.slice s.regs 0x0C0000 (4 * 4096)).map (fun e => e.1 / 4)).foldl (fun l k =>
    SMap.set (fun _ => false) l k (bit1 (hmapW s k) 17)) []
  let ag := s.agents.foldl (fun l a =>
    SMap.set (fun _ => 0) l a (BitVec.ofNat 4 (seenState s a + 8 * b2n (s.agtDc a)))) []
  { s with shadow := ⟨am, hm, ag⟩ }

def agtWriteState (s : State) (a st : Nat) : State := agtWrite s a (s.agtW a / 8 * 8 + st)

end Sys2Proof.Machine
end

