-- ==== Sys2Proof/Machine/Cabinet.lean ====
section
/-! DEFINITION. The Cabinet (chapter 05) with the Drawer's part of chapter 13: words and their format, lookups, format
errors and blind sets, victim choice and pins, reads with correction, writes under REFUSE, repeat tracking, the Cullet
table, the age walker and the scrubber. -/

namespace Sys2Proof.Machine

/-! ### The word (R136, R137) -/

structure CabW where
  tag : Nat
  grain : Nat
  state : Nat
  shf : Nat
  pcnt : Nat
  fwd : Nat
  loc : Nat
  age : Nat
  sharers : Nat
  deriving DecidableEq, Repr

def cabEmpty : CabW := ⟨0, 0, 0, 0, 0, 0, 0, 0, 0⟩

def decodeCab (w : Nat) : CabW :=
  ⟨bits w 0 26, bits w 26 2, bits w 28 3, bits w 31 2, bits w 33 3, bits w 36 2, bits w 38 16, bits w 54 2, bits w 56 64⟩

def encodeCab (c : CabW) : BitVec 120 :=
  BitVec.ofNat 120 (c.tag % 2 ^ 26 + c.grain % 4 * 2 ^ 26 + c.state % 8 * 2 ^ 28 + c.shf % 4 * 2 ^ 31 +
    c.pcnt % 8 * 2 ^ 33 + c.fwd % 4 * 2 ^ 36 + c.loc % 2 ^ 16 * 2 ^ 38 + c.age % 4 * 2 ^ 54 + c.sharers % 2 ^ 64 * 2 ^ 56)

/-- The pointers of a pointer set, in slot order. -/
def CabW.ptrs (c : CabW) : List Nat :=
  if c.shf = 0 then (List.range (min c.pcnt 4)).map (fun i => bits c.sharers (16 * i) 16) else []

/-- The agent that FWD names: the owner of E and O, the forwarder of F. -/
def CabW.named (c : CabW) : Option Nat :=
  if 2 ≤ c.state ∧ c.state ≤ 4 then c.ptrs[c.fwd]? else none

/-- Bits set in a mask of n bits. -/
def popN (n v : Nat) : Nat := ((List.range n).filter (fun i => bit1 v i)).length

/-- The word satisfies R136 and R137: the row of its STATE, or all zeros when empty. -/
def cabOk (w : Nat) : Bool :=
  let c := decodeCab w
  if c.grain = 0 then w % 2 ^ 120 == 0 else
  let slotsZero := c.sharers / 2 ^ (16 * c.pcnt) == 0
  let fine := c.grain == 1 && c.loc / 16 == 0
  match c.state with
  | 1 => (fine || (c.grain == 2 && c.loc != 0)) && c.fwd == 0 &&
      (match c.shf with
       | 0 => 1 ≤ c.pcnt && c.pcnt ≤ 4 && slotsZero
       | 1 => c.pcnt == 0
       | 2 => c.pcnt == 0 && c.sharers == 0
       | _ => false)
  | 2 | 4 => fine && c.shf == 0 && 1 ≤ c.pcnt && c.pcnt ≤ 4 && c.fwd < c.pcnt && slotsZero
  | 3 => fine && c.shf == 0 && c.pcnt == 1 && c.fwd == 0 && slotsZero
  | _ => false

/-- A recorded holder (R172): a pointer, a group bit, or any agent of the tenant. -/
def CabW.has (c : CabW) (a : Nat) : Bool :=
  if c.grain = 0 then false
  else match c.shf with
    | 0 => c.ptrs.contains a
    | 1 => bit1 c.sharers (a / 1024)
    | _ => true

/-! ### Drawer words -/

/-- The Cullet spare a word is mapped to (R378). -/
def spareOf (s : State) (d w : Nat) : Option Nat :=
  (List.range 8).find? (fun k => s.fld Fld.CULLET_VALID d k = 1 ∧ s.fld Fld.CULLET_WORD d k = w)

/-- The word as written last, from its spare if it is mapped. -/
def drawerW (s : State) (d w : Nat) : Nat :=
  match spareOf s d w with
  | some k => (SMap.getD (fun _ => (0 : BitVec 120)) s.cab.spare (d * 8 + k)).toNat
  | none => (SMap.getD (fun _ => (0 : BitVec 120)) s.cab.words (d * 65536 + w)).toNat

/-- The protected place of a word: its spare or its own. -/
def placeOf (s : State) (d w : Nat) : Store × Nat :=
  match spareOf s d w with
  | some k => (.spare, k)
  | none => (.drawer, w)

/-- Raises a Drawer's fault, as a report of the slice that serves it (R394). -/
def raiseDrawer (s : State) (d code : Nat) (inj : Bool := false) : State :=
  raiseN s (.slice (logicOf s d)) code d 1 inj .core

/-- The order number of the next set to become blind (R224). -/
def blindTick (s : State) : State := { s with cab := { s.cab with blindSeq := s.cab.blindSeq + 1 } }

/-- A set becomes blind (R157), cause 0 PAGE, 1 FORMAT. While BLIND_ALL = 1 it changes no entry; a set that the census of
the Drawer had passed is blind again with those after it, and the census goes on from there. -/
def makeBlind (s : State) (d set cause : Nat) : State :=
  let n := s.cab.blindSeq
  let s := blindTick s
  let q := s.drq d
  if q.blindAll then
    match q.walk with
    | some (k, _) => if set ≤ k then s.setDrq d { q with walk := some (set, none) } else s
    | none => s
  else match (List.range 8).find? (fun i => let b := SMap.getD (fun _ => blind0) q.blind i; b.state ≠ 0 ∧ b.set = set) with
    | some i =>
      let f := fun (b : Blind) =>
        { b with state := 1, cursor := 0, cause := if cause = 0 then 0 else b.cause, seq := if b.state = 1 then b.seq else n }
      s.setDrq d { q with blind := SMap.upd (fun _ => blind0) q.blind i f }
    | none => match (List.range 8).find? (fun i => (SMap.getD (fun _ => blind0) q.blind i).state = 0) with
      | some i => s.setDrq d { q with
          blind := SMap.set (fun _ => blind0) q.blind i ⟨set, 1, cause, 0, n⟩ }
      | none =>
        let s := raiseDrawer (s.setFld Fld.CAB_ERR_BLIND_OVF 1 d) d 0x28
        s.setDrq d { s.drq d with blindAll := true, blindSeq := n, walk := none }

/-- A page is declared lost (R157): its two sets become blind. -/
def lostPage (s : State) (d page : Nat) (inj : Bool := false) : State :=
  let s := raiseDrawer (s.setFld Fld.CAB_ERR_LOST_PAGE 1 d) d 0x27 inj
  makeBlind (makeBlind s d (2 * page) 0) d (2 * page + 1) 0

/-- A format error (R139): the set becomes blind with cause FORMAT. -/
def formatError (s : State) (d set : Nat) : State :=
  makeBlind (raiseDrawer (s.setFld Fld.CAB_ERR_FORMAT 1 d) d 0x25) d set 1

/-- The 16 ways of a set are all retired (R153). -/
def setDead (s : State) (d set : Nat) : Bool := (List.range 16).all (fun w => (s.drq d).retired.contains (set * 16 + w))

/-- A refused write of the entry writer (R139, R168). -/
def wrFmtError (s : State) (d set : Nat) : State :=
  makeBlind (raiseDrawer (s.setFld Fld.CAB_ERR_WR_FMT 1 d) d 0x26) d set 1

/-! ### Repeats, spares, retirement (R377 to R379) -/

/-- A word marked hard: into a free spare in idle cycles, or its way is to be retired (R378). -/
def markHard (s : State) (d w : Nat) : State :=
  let q := s.drq d
  if q.hard.contains w ∨ q.retiring.contains w then s else
  let s := raiseDrawer (s.setFld Fld.SI_ERR_HARD 1 d) d 0x2A
  let free := (List.range 8).filter (fun k => s.fld Fld.CULLET_VALID d k = 0)
  if (spareOf s d w).isNone ∧ q.hard.length < free.length then s.setDrq d { q with hard := q.hard ++ [w] }
  else s.setDrq d { q with retiring := insertSorted w q.retiring }

/-- A correction of a word (R377): counted once per write of the word; the fourth counted within the window marks the
word hard. A rebuild adds 4 to the bucket. -/
def countCorrection (s : State) (d w : Nat) (rebuilt : Bool) : State :=
  let q := s.drq d
  let live := q.rpt.filter (fun r => s.now < r.time + r.win)
  let add := fun (t : State) => bucket t (.drawer d) (if rebuilt then 4 else 1)
  match live.find? (fun r => r.word = w) with
  | some r =>
    if r.fresh then
      let r' := { r with count := r.count + 1, fresh := false }
      let s := add (s.setDrq d { q with rpt := live.map (fun x => if x.word = w then r' else x) })
      if 4 ≤ r'.count then markHard s d w else s
    else s
  | none =>
    let s := add s
    if live.length < 16 then
      let win := max 1 (s.fld Fld.SI_RPT_WIN d) * 10000000
      s.setDrq d { s.drq d with rpt := live ++ [⟨w, 1, s.now, false, win⟩] }
    else (s.setDrq d { s.drq d with rpt := live }).addFld Fld.SI_RPT_OVF 1 d

/-- A word has been written: repeat entries see it (R377), a queued write-back of it is dropped (R375). -/
def noteWritten (s : State) (d w : Nat) : State :=
  let q := s.drq d
  s.setDrq d { q with
    wbq := q.wbq.filter (· ≠ w)
    rpt := q.rpt.map (fun r => if r.word = w then { r with fresh := true } else r) }

/-- Reads one Drawer word (R371, R375): its value, or none where its page is lost by it. -/
def drawerRead (s : State) (d w : Nat) : State × Option Nat :=
  let (st, k) := placeOf s d w
  if maskOf s st d k = 0 then (s, some (drawerW s d w)) else
  match wordLook s st d k with
  | some (dev, 0) => (s, some (drawerW s d w ^^^ dev))
  | some (dev, kind) =>
    let v := drawerW s d w ^^^ dev
    let s := countCorrection s d w (kind = 2)
    let q := s.drq d
    (if q.wbq.length < 4 ∧ ¬ q.wbq.contains w then s.setDrq d { q with wbq := q.wbq ++ [w] } else s, some v)
  | none => (lostPage s d (w / 32) (errInj s st d k), none)

/-- Stores a word at its place with fresh check bits. -/
def drawerPut (s : State) (d w : Nat) (v : BitVec 120) : State :=
  let s := match spareOf s d w with
    | some k =>
      let s := { s with cab := { s.cab with spare := SMap.set (fun _ => 0) s.cab.spare (d * 8 + k) v } }
      wordWritten s .spare d k
    | none =>
      let s := { s with cab := { s.cab with words := SMap.set (fun _ => 0) s.cab.words (d * 65536 + w) v } }
      wordWritten s .drawer d w
  noteWritten s d w

/-- A Drawer write under REFUSE (R373): the old word must be known, else the page is lost and the write refused. -/
def drawerWrite (s : State) (d w : Nat) (v : BitVec 120) : State × Bool :=
  let (st, k) := placeOf s d w
  match wordLook s st d k with
  | some (_, _) => (drawerPut s d w v, true)
  | none => (lostPage s d (w / 32) (errInj s st d k), false)

/-! ### Blind sets and unknown lines (R157, R158, R228) -/

/-- STATE and CURSOR of a set (R157): 0 FREE, 1 BLIND, 2 REBUILD. A set whose 16 ways are all retired is blind (R153). While
BLIND_ALL = 1, sets that the census of the Drawer has rebuilt are known, DEDUCED (log entry 99; R159: lines behind CURSOR are decided
normally; what a later decision changes would not be recorded in a set that counted as BLIND). -/
def blindOf (s : State) (d set : Nat) : Nat × Nat :=
  let q := s.drq d
  if setDead s d set then (1, 0)
  else if q.blindAll then
    match q.walk with
    | none => (1, 0)
    | some (k, cur) =>
      if k < set then (1, 0)
      else if set < k then (0, 0)
      else match cur with
        | some c => (2, c)
        | none => (1, 0)
  else match (List.range 8).find? (fun i => let b := SMap.getD (fun _ => blind0) q.blind i; b.state ≠ 0 ∧ b.set = set) with
  | some i => let b := SMap.getD (fun _ => blind0) q.blind i; (b.state, b.cursor)
  | none => (0, 0)

/-- The set has a blind-table entry in BLIND or REBUILD, as the directory instructions see it (R256, R258). -/
def inBlindTable (s : State) (d set : Nat) : Bool := (s.drq d).blind.any (fun b => b.2.state ≠ 0 && b.2.set == set)

/-- The adoption entry of the line's window, if it is not FREE (R228): STATE and CURSOR. -/
def adoptOf (s : State) (line : Nat) : Nat × Nat :=
  match (List.range 4).find? (fun i => s.fld Fld.ADOPT_WIN_A_STATE i ≠ 0 ∧
      s.fld Fld.ADOPT_WIN_A_WINDOW i = windowOf line) with
  | some i => (s.fld Fld.ADOPT_WIN_A_STATE i, s.fld Fld.ADOPT_WIN_B_CURSOR i)
  | none => (0, 0)

/-- How a line stands: none known; `some false` unknown in BLIND, `some true` unknown in REBUILD (R158, R228). -/
def unknownOf (s : State) (line : Nat) : Option Bool :=
  let (st, cur) := blindOf s (sliceOf line) (setOf line)
  let (ast, acur) := adoptOf s line
  if st = 1 ∨ st = 3 ∨ ast = 1 then some false
  else if st = 2 ∧ cur ≤ tagOf line then some true
  else if ast = 2 ∧ acur ≤ sectorOf line % 2 ^ 26 then some true
  else none

/-! ### Lookup (R138, R139) -/

structure Look where
  fine : Option (Nat × CabW)
  line : Option (Nat × CabW)
  sector : Option (Nat × CabW)
  bad : Bool
  deriving DecidableEq, Repr

/-- The 16 ways of a set as read, with none for a word whose page is lost; a lost page leaves the set blind. -/
def setReadAll (s : State) (d set : Nat) : State × List (Nat × Option Nat) :=
  (List.range 16).foldl (fun (p : State × List (Nat × Option Nat)) w =>
    let (t, v) := drawerRead p.1 d (set * 16 + w)
    (t, p.2 ++ [(w, v)])) (s, [])

/-- The 16 ways of a set as a decision reads them. -/
def setRead (s : State) (d set : Nat) : State × List (Nat × Nat) :=
  let (s, ws) := setReadAll s d set
  (s, ws.map (fun e => (e.1, e.2.getD 0)))

/-- What a set's words say of a line. -/
def lookIn (ws : List (Nat × Nat)) (line : Nat) : Look :=
  let cs := ws.map (fun e => (e.1, decodeCab e.2))
  let mine := cs.filter (fun e => e.2.grain ≠ 0 ∧ e.2.tag = tagOf line)
  let fine := mine.filter (fun e => e.2.grain = 1 ∧ e.2.loc % 16 = lineIn line)
  let sect := mine.filter (fun e => e.2.grain = 2)
  let coarse := sect.filter (fun e => bit1 e.2.loc (lineIn line))
  { fine := fine.head?
    line := coarse.head?
    sector := sect.head?
    bad := ws.any (fun e => ! cabOk e.2) || 2 ≤ fine.length || 2 ≤ sect.length || (! fine.isEmpty && ! coarse.isEmpty) }

/-! ### Busy work and pins (R108, R150) -/

def trkOfSlice (s : State) (n : Nat) : List (Nat × Trk) := (SMap.slice s.sl.trk (n * 512) 512).filter (·.2.valid)
def sinksOfSlice (s : State) (n : Nat) : List (Nat × Sink) := (SMap.slice s.sl.sinks (n * 16) 16).filter (·.2.used)

/-- A message of line or sector scope meets a busy entry (R108). -/
def meets (t : Trk) (line : Nat) (sector : Bool) : Bool :=
  t.pa == line || ((t.sector || sector) && sectorOf t.pa == sectorOf line)

/-- The line of a fine word in a set. -/
def lineOfFine (set : Nat) (c : CabW) : Nat := c.tag * 65536 + set * 16 + c.loc % 16
def sectorOfWord (set : Nat) (c : CabW) : Nat := c.tag * 4096 + set

/-- A way under a directory eviction that waits for its entry: its granule is busy and its holder is the entry that chose
it (R199). -/
def evHolder (s : State) (line : Nat) (sector : Bool) (self : Option Nat) : Option HoldWait :=
  let n := sliceOf line
  ((s.slq n).evQ.find? (fun e =>
    let c := decodeCab (drawerW s n (e.set * 16 + e.way))
    c.grain ≠ 0 ∧ (self.isNone ∨ e.waiter ≠ self) ∧ sectorOfWord e.set c = sectorOf line ∧
      (sector ∨ c.grain = 2 ∨ lineOfFine e.set c = line))).map (fun e =>
    match e.waiter with | some t => .trk t | none => .presented)

/-- What a new message of a scope conflicts with: a tracker entry, else a sink slot, else a waiting eviction (R108,
R199). -/
def blocker (s : State) (line : Nat) (sector : Bool) (self : Option Nat) : Option HoldWait :=
  let n := sliceOf line
  match (trkOfSlice s n).find? (fun e => some (n * 512 + e.1) ≠ self ∧ meets e.2 line sector) with
  | some (e, _) => some (.trk (n * 512 + e))
  | none =>
    match (sinksOfSlice s n).find? (fun e => e.2.hdr.pa.toNat = line ∨
        (sector ∧ sectorOf e.2.hdr.pa.toNat = sectorOf line)) with
    | some (k, _) => some (.sink (n * 16 + k))
    | none => evHolder s line sector self

/-- A way is pinned (R150). -/
def pinned (s : State) (d set : Nat) (e : Nat × Nat) : Bool :=
  let c := decodeCab e.2
  let q := s.drq d
  let w := set * 16 + e.1
  let busy := if c.grain = 0 then false
    else if c.grain = 2 then
      (trkOfSlice s d).any (fun t => sectorOf t.2.pa = sectorOfWord set c) ||
      (sinksOfSlice s d).any (fun k => sectorOf k.2.hdr.pa.toNat = sectorOfWord set c)
    else
      (trkOfSlice s d).any (fun t => meets t.2 (lineOfFine set c) false) ||
      (sinksOfSlice s d).any (fun k => k.2.hdr.pa.toNat = lineOfFine set c)
  busy || (s.slq d).pins.contains (set, e.1) || q.retired.contains w || q.retiring.contains w

/-- The order of victims by R151, among eligible ways given with their words. `fold` are the ways a fold will empty. -/
def victim (s : State) (d : Nat) (ws : List (Nat × Nat)) (fold : List Nat) : Option Nat :=
  let cs := ws.map (fun e => (e.1, decodeCab e.2))
  match cs.find? (fun e => e.2.grain = 0 ∨ fold.contains e.1) with
  | some (w, _) => some w
  | none =>
    let lim := min 16 (s.fld Fld.CAB_CTL_COARSE_VICT d)
    let small := cs.filter (fun e => e.2.grain = 2 ∧ popN 16 e.2.loc ≤ lim ∧ lim ≠ 0)
    let better1 := fun (a b : Nat × CabW) =>
      popN 16 b.2.loc < popN 16 a.2.loc ∨ (popN 16 b.2.loc = popN 16 a.2.loc ∧ a.2.age < b.2.age)
    let better2 := fun (a b : Nat × CabW) => a.2.age < b.2.age
    let pick := fun (l : List (Nat × CabW)) (better : Nat × CabW → Nat × CabW → Bool) =>
      l.foldl (fun (o : Option (Nat × CabW)) e => match o with
        | none => some e
        | some b => if better b e then some e else some b) none
    match pick small (fun a b => decide (better1 a b)) with
    | some (w, _) => some w
    | none => (pick cs (fun a b => decide (better2 a b))).map (·.1)

/-! ### Occupancy (R163, R186) -/

def drawerWords (s : State) (d : Nat) : List (Nat × CabW) :=
  (((SMap.slice s.cab.words (d * 65536) 65536).filter (fun e => (spareOf s d e.1).isNone)).map
    (fun e => (e.1, decodeCab e.2.toNat)) ++
  (List.range 8).filterMap (fun k => if s.fld Fld.CULLET_VALID d k = 1 then
    some (s.fld Fld.CULLET_WORD d k, decodeCab (SMap.getD (fun _ => (0 : BitVec 120)) s.cab.spare (d * 8 + k)).toNat) else none)).mergeSort (fun a b => decide (a.1 ≤ b.1))

def countWords (s : State) (d : Nat) (p : CabW → Bool) : Nat := ((drawerWords s d).filter (fun e => p e.2)).length

/-! ### The stream detector (R143) -/

/-- An S grant on a miss looks the detector up; the answer says whether it fired. -/
def streamHit (s : State) (d line agent : Nat) : State × Bool :=
  let n := s.fld Fld.CAB_CTL_STREAM_N d
  if n = 0 then (s, false) else
  let n := max 2 (min 16 n)
  let q := s.slq d
  let sec := sectorOf line
  let mask := match q.streams.find? (fun e => e.sector = sec ∧ e.agent = agent) with
    | some e => e.mask ||| (1#16 <<< lineIn line)
    | none => 1#16 <<< lineIn line
  let rest := q.streams.filter (fun e => ¬ (e.sector = sec ∧ e.agent = agent))
  if n ≤ popN 16 mask.toNat then (s.setSlq d { q with streams := rest }, true)
  else
    let rest := if 16 ≤ rest.length then rest.drop 1 else rest
    (s.setSlq d { q with streams := rest ++ [⟨sec, agent, mask⟩] }, false)

/-! ### Age walker and scrubber (R154, R380 to R382) -/

/-- The governor's background bit for a cluster in the present slot (R103, R466). -/
def bgOn (s : State) (c : Nat) : Bool := s.govBg.getLsbD c

/-- A visit of the age walker (R154): every non-empty unpinned way below age 3 of the next set ages by 1. -/
def ageVisit (s : State) (d : Nat) : State :=
  let q := s.drq d
  let set := q.ageSet
  let (s, ws) := setRead s d set
  let s := ws.foldl (fun t e =>
    let c := decodeCab e.2
    if c.grain ≠ 0 ∧ c.age < 3 ∧ ¬ pinned t d set e then
      (drawerWrite t d (set * 16 + e.1) (encodeCab { c with age := c.age + 1 })).1
    else t) s
  s.setDrq d { s.drq d with ageSet := (set + 1) % 4096 }

/-- One scrub visit (R380): the page's words are read and repaired; a mismatch of P or Q alone is rewritten, of both
loses the page. -/
def scrubPageVisit (s : State) (d page : Nat) : State :=
  let (s, lost) := (List.range 32).foldl (fun (p : State × Bool) k =>
    if p.2 then p else
    let (t, v) := drawerRead p.1 d (page * 32 + k)
    (t, v.isNone)) (s, false)
  if lost then s else
  let p := pqOf s .drawer d page 0
  let q := pqOf s .drawer d page 1
  if p ≠ 0 ∧ q ≠ 0 then lostPage s d page
  else if p ≠ 0 then setPq s .drawer d page 0 0
  else if q ≠ 0 then setPq s .drawer d page 1 0
  else s

end Sys2Proof.Machine
end

