-- ==== Sys2Proof/Machine/MemPort.lean ====
section
/-! DEFINITION. Memory ports (chapter 12): routing by port state (R350, R351), arbitration (R343 to R348), requests and
completions (R340, R341), failure of a port and the written mask of a resilver chunk (R356). The targets are outside:
their data and completions arrive with MEM_COMPLETION. -/

namespace Sys2Proof.Machine

def mpState (s : State) (m : Nat) : Nat := s.fld Fld.MP_STATE_STATE m

/-- The port a read of a line goes to; none where it completes with poison (R351, R352). -/
def readPort (s : State) (line : Nat) : Option Nat :=
  let (p, mir, _) := portsOf s line
  if mpState s p = 0 ∨ mpState s p = 1 then some p
  else match mir with
    | some m => if mpState s m = 1 then some m else none
    | none => if mpState s p = 3 then some p else none

/-- The ports a write of a line goes to; none of them where the write is discarded (R351, R352). -/
def writePorts (s : State) (line : Nat) : List Nat :=
  let (p, mir, _) := portsOf s line
  match mir with
  | none => if mpState s p = 2 then [] else [p]
  | some m =>
    if mpState s p = 2 then (if mpState s m = 1 then [m] else [])
    else if mpState s m = 2 then (if mpState s p = 1 then [p] else [])
    else [p, m]

def opOf (s : State) (id : Nat) : Option MemOp := SMap.getD (fun _ => none) s.mem.ops id
def setOp (s : State) (id : Nat) (o : Option MemOp) : State :=
  { s with mem := { s.mem with ops := SMap.set (fun _ => none) s.mem.ops id o } }

/-- Every write to a line of a resilver chunk sets its bit of the written mask (R356). -/
def maskWrite (s : State) (line : Nat) : State :=
  (List.range 4).foldl (fun t r =>
    match (t.bulkE r).run with
    | some b =>
      match b.chunk with
      | some base =>
        if b.op = 3 ∧ base ≤ line % 2 ^ 38 ∧ line % 2 ^ 38 < base + 64 then
          t.setBulkE r { t.bulkE r with run := some { b with mask := b.mask ||| (1#64 <<< (line % 2 ^ 38 - base)) } }
        else t
      | none => t
    | none => t) s

/-- Hands an operation to the arbiters of its ports; one with no port completes at once, a read of it with poison. -/
def issueOn (s : State) (o : MemOp) : State × Nat :=
  let id := s.mem.nextId
  let s := { s with mem := { s.mem with nextId := id + 1 } }
  if o.pend.isEmpty then
    (s.addWork (.done ⟨o.org, o.kind, o.pa, 0, o.kind == 0⟩), id)
  else
    let s := setOp s id (some o)
    (o.pend.foldl (fun t m => (t.setMport m { t.mport m with wait := (t.mport m).wait ++ [id] }).addWork (.arb m)) s, id)

/-- A read, write, partial write or poison write of a line (kinds 0 to 3 of R340). -/
def issueMem (s : State) (kind : Nat) (org : MemOrg) (line : Nat) (data : Line) (be : BitVec 64) (nt : Bool)
    (reqr : Nat) : State × Nat :=
  let (_, _, ta) := portsOf s line
  let ports := if kind = 0 then (readPort s line).toList else writePorts s line
  let s := if kind = 0 then s else maskWrite s line
  issueOn s ⟨kind, org, line, ta, data, if kind = 1 then BitVec.allOnes 64 else be, nt, reqr, ports⟩

/-! ### Arbitration -/

def prioOf (s : State) (m r : Nat) : Nat :=
  if r = 16 then s.fld Fld.ARB_PRIO2_PRIO16 m else bits (s.fld Fld.ARB_PRIO_PRIO m (r / 8)) (4 * (r % 8)) 4

def isThread (t : Nat) (org : MemOrg) : Bool :=
  match org with
  | .thread u _ => u == t
  | .lock u _ => u == t
  | _ => false

/-- A reissued read waits behind a write to its line that stands before it on the partner (R351). -/
def behindWrite (s : State) (p : MPort) (id pa : Nat) : Bool :=
  p.re.contains id && (p.wait.takeWhile (· ≠ id)).any (fun k => match opOf s k with
    | some o => o.pa == pa && (o.kind == 1 || o.kind == 2 || o.kind == 3)
    | none => false)

/-- The operation a requester presents: its oldest one; while a locked sequence is open, only those of the sequence. A LOCK is not
presented while the port is in BURST mode: its thread alone waits (R345, R348). -/
def presented (s : State) (m r : Nat) : Option Nat :=
  let p := s.mport m
  (p.wait.find? (fun id => match opOf s id with
    | some o => o.reqr == r && (o.kind != 4 || p.modeNow == 1) &&
        (match p.lock with | some (c, t) => c == r && isThread t o.org | none => true)
    | none => false)).filter (fun id => match opOf s id with
    | some o => ! behindWrite s p id o.pa
    | none => false)

/-- A presented operation holds the credits it needs (R341, R343); LOCK waits in BURST mode (R348). -/
def canGo (s : State) (m id : Nat) : Bool :=
  let p := s.mport m
  match opOf s id with
  | some o => 1 ≤ p.reqCred && p.out.length < 32 && (o.kind != 1 && o.kind != 2 || 1 ≤ p.wdCred) &&
      (o.kind != 4 || p.modeNow == 1)
  | none => false

def readyReqs (s : State) (m : Nat) : List Nat :=
  (List.range 17).filter (fun r => match presented s m r with | some id => canGo s m id | none => false)

/-- The rotation of R344: the place of a requester after the one last granted. -/
def rotKey (last r : Nat) : Nat := (r + 17 - last - 1) % 17

/-- The requester a new burst goes to (R344): one past the age guard first, then the highest priority, then the first
after the requester last granted. -/
def newHolder (s : State) (m : Nat) (rs : List Nat) : Option Nat :=
  let p := s.mport m
  let key := fun r => (if p.aged.contains r then 0 else 16 - prioOf s m r, rotKey p.last r)
  rs.foldl (fun b r => match b with
    | none => some r
    | some x => if (key r).1 < (key x).1 ∨ ((key r).1 = (key x).1 ∧ (key r).2 < (key x).2) then some r else some x) none

/-- A copy write of a resilver chunk whose line a newer write has covered is dropped (R356). -/
def copyDropped (s : State) (o : MemOp) : Bool :=
  match o.org with
  | .bulkWr r line => match (s.bulkE r).run with
    | some b => match b.chunk with
      | some base => b.op == 3 && b.mask.getLsbD (line - base)
      | none => false
    | none => false
  | _ => false

/-- One transfer of requester `r` on port `m`. -/
def transfer (s : State) (m r id : Nat) (o : MemOp) : State :=
  let p := s.mport m
  let wait := p.wait.filter (· ≠ id)
  if copyDropped s o then
    (setOp (s.setMport m { p with wait := wait }) id none).addWork (.done ⟨o.org, o.kind, o.pa, 0, false⟩)
  else
    let wd := if o.kind = 1 ∨ o.kind = 2 then 1 else 0
    let lock := if o.kind = 4 then (match o.org with | .lock t _ => some (r, t) | _ => p.lock)
      else if o.kind = 5 then none else p.lock
    let rtag := id % 65536
    let tmo := max 1 (s.fld Fld.MP_CTL_TMO m) * 1000
    let modeNow := if o.kind = 5 then s.fld Fld.ARB_MODE_MODE m else p.modeNow
    let msg : MemMsg := ⟨m, o.kind, p.lock.isSome, o.nt, o.taddr, rtag, r, o.data, o.be⟩
    let s := { s with memTx := s.memTx ++ [msg] }
    let s := if o.kind = 0 then mpEvent s m 2 else if o.kind = 3 then mpEvent s m 4
      else if o.kind = 1 ∨ o.kind = 2 then mpEvent s m 3 else if o.kind = 4 then mpEvent s m 10 else s
    let s := if r = 16 then mpEvent s m 6 else s
    let s := if p.aged.contains r then mpEvent s m 7 else s
    let req : OutReq := ⟨rtag, id, s.now + tmo⟩
    s.setMport m { p with
      wait := wait
      re := p.re.filter (· ≠ id)
      out := p.out ++ [req]
      reqCred := p.reqCred - 1
      wdCred := p.wdCred - wd
      lock := lock
      modeNow := modeNow
      last := r
      aged := p.aged.filter (· ≠ r)
      holder := some r
      burst := p.burst + 1 }

/-- The holder's burst ends, or is preempted keeping its count (R346). -/
def burstEnd (s : State) (m h keep : Nat) : State :=
  let p := s.mport m
  s.setMport m { p with holder := none, burst := 0, prog := SMap.set (fun _ => 0) p.prog h keep }

/-- MCLK of a port's region has stopped, as the region's clock monitor found (R22): the port's queues keep their entries, nothing
is sent and no completion is seen (R23). -/
def mclkStopped (s : State) (m : Nat) : Bool := SMap.getD (fun _ => false) s.fault.sticky (3 * 2 ^ 17 + regionOfPort m)

/-- The completion credits that the switch holds by MPm_RD_CRD (R341): one for each entry of the return queue once CORE is out of
reset; a completion is taken in its command, and its credit returns with it. -/
def rdCred (s : State) (_m : Nat) : Nat := if s.coreUp then 32 else 0

/-- One arbitration (R343 to R347); says whether there may be another. -/
def arbOnce (s : State) (m : Nat) : State × Bool :=
  if mclkStopped s m then (s, false) else
  let p := s.mport m
  let s := if p.lock.isNone then s.setMport m { p with modeNow := s.fld Fld.ARB_MODE_MODE m } else s
  let p := s.mport m
  let rs := readyReqs s m
  let limit := s.fld Fld.ARB_MODE_LIMIT m + 1
  let go := fun (s : State) (r : Nat) =>
    match presented s m r with
    | some id => match opOf s id with
      | some o => (transfer s m r id o, true)
      | none => (s, false)
    | none => (s, false)
  let start := fun (s : State) =>
    match newHolder s m rs with
    | some r =>
      let p := s.mport m
      go (s.setMport m { p with holder := some r, burst := SMap.getD (fun _ => 0) p.prog r }) r
    | none => (s, false)
  match p.holder with
  | none => start s
  | some h =>
    if p.lock.isSome then (if rs.contains h then go s h else if rs.isEmpty then (s, false) else start s)
    else if ¬ rs.contains h ∨ limit ≤ p.burst then
      let s := burstEnd s m h 0
      if rs.isEmpty then (s, false) else start s
    else if rs.any (fun r => r ≠ h ∧ (prioOf s m h < prioOf s m r ∨ p.aged.contains r)) then
      start (burstEnd (mpEvent s m 5) m h p.burst)
    else go s h

/-- The port's arbiter runs until nothing more can be granted. -/
def arbRun : Nat → Nat → State → State
  | 0, _, s => s
  | fuel + 1, m, s =>
    let (t, more) := arbOnce s m
    if more then arbRun fuel m t else t

/-! ### Completions and failures -/

/-- One port of an operation is done with it; the operation completes when no port is left. -/
def opPortDone (s : State) (id m : Nat) (data : Line) (poison : Bool) : State :=
  match opOf s id with
  | none => s
  | some o =>
    let pend := o.pend.filter (· ≠ m)
    if pend.isEmpty then (setOp s id none).addWork (.done ⟨o.org, o.kind, o.pa, data, poison⟩)
    else setOp s id (some { o with pend := pend })

/-- The partner of a port for a line (R351). -/
def partnerFor (s : State) (line m : Nat) : Option Nat := partnerIn s (entryOf line) m

/-- A bulk run that uses a failed port fails (R354). -/
def bulkFail (s : State) (m : Nat) (org : MemOrg) : State :=
  match org with
  | .bulkRd r _ | .bulkWr r _ =>
    match (s.bulkE r).run with
    | some b => if mpState s m = 2 then s.setBulkE r { s.bulkE r with run := some { b with failed := true } } else s
    | none => s
  | _ => s

/-- What becomes of an operation that was on a port when it failed (R351). -/
def failOp (s : State) (m id : Nat) : State :=
  match opOf s id with
  | none => s
  | some o =>
    let online := match partnerFor s o.pa m with | some q => mpState s q == 1 | none => false
    if o.kind = 0 then
      match partnerFor s o.pa m with
      | some q =>
        if online then
          let s := setOp s id (some { o with pend := [q] })
          (s.setMport q { s.mport q with wait := (s.mport q).wait ++ [id], re := (s.mport q).re ++ [id] }).addWork (.arb q)
        else opPortDone (bulkFail s m o.org) id m 0 true
      | none => opPortDone (bulkFail s m o.org) id m 0 true
    else opPortDone (bulkFail s m o.org) id m 0 false

/-- A port fails (R350, R351). -/
def portFail (s : State) (m rtag : Nat) (tmo : Bool) : State :=
  let named := (amapValid s).filter (fun e => entryNames s e m)
  let hasOnline := named.any (fun e => match partnerIn s e m with | some q => mpState s q == 1 | none => false)
  let hasNone := named.any (fun e => match partnerIn s e m with | some q => mpState s q != 1 | none => true)
  let s := if hasOnline then raiseRegion s (regionOfPort m) 0x50 m else s
  let s := if hasNone then raiseRegion s (regionOfPort m) 0x51 m else s
  let s := ((s.setFld Fld.MP_STATE_STATE 2 m).setFld Fld.MP_ERR_FAIL 1 m).setFld Fld.MP_ERR_INFO_RTAG rtag m
  let s := if tmo then s.setFld Fld.MP_ERR_TMO 1 m else s
  let p := s.mport m
  let ids := p.out.map (·.op) ++ p.wait
  let s := s.setMport m { p with out := [], wait := [], re := [], lock := none, holder := none, burst := 0 }
  ids.foldl (fun t id => failOp t m id) s

/-- A discovery read fails on its port (R509). -/
def discNote (s : State) (id m : Nat) : State :=
  match opOf s id, s.start.run with
  | some o, some r => match o.org with
    | .disc _ => { s with start := { s.start with run := some { r with discBad := r.discBad ++ [m] } } }
    | _ => s
  | _, _ => s

/-- A completion on MPm_RD (R341, R350). -/
def memCompletion (s : State) (m rtag : Nat) (data : Line) (poison err : Bool) : State :=
  if rdCred s m = 0 ∨ mclkStopped s m then s else
  let p := s.mport m
  match p.out.find? (fun q => q.rtag = rtag) with
  | none => s
  | some q =>
    let s := if poison then mpEvent s m 8 else s
    let s := if err then mpEvent s m 9 else s
    if err ∧ (mpState s m = 1 ∨ mpState s m = 3) then portFail s m rtag false
    else
      let s := if err then discNote s q.op m else s
      let s := s.setMport m { p with out := p.out.filter (fun x => x.op ≠ q.op) }
      (opPortDone s q.op m data (poison || err)).addWork (.arb m)

/-- The oldest request's completion timeout (R350). -/
def memTimeout (s : State) (m : Nat) : State :=
  match (s.mport m).out with
  | [] => s
  | q :: _ =>
    let t := max s.now q.deadline
    let s := { s with now := t, lehrNow := max s.lehrNow t }
    if mpState s m = 1 ∨ mpState s m = 3 then portFail s m q.rtag true
    else match opOf s q.op with
      | some o => match o.org with
        | .disc _ =>
          let s := discNote s q.op m
          let s := s.setMport m { s.mport m with out := (s.mport m).out.filter (fun x => x.op ≠ q.op) }
          (opPortDone s q.op m 0 true).addWork (.arb m)
        | _ => s
      | none => s

/-- Request and write-data credits of the switch (R341): up to 255 of each. -/
def memCredit (s : State) (m : Nat) (req wd : Bool) : State :=
  if ! s.coreUp ∨ mclkStopped s m then s else
  let p := s.mport m
  (s.setMport m { p with
    reqCred := min 255 (p.reqCred + b2n req)
    wdCred := min 255 (p.wdCred + b2n wd) }).addWork (.arb m)

/-- A requester that waits reaches the age guard (R344). -/
def ageGuard (s : State) (m r : Nat) : State :=
  let p := s.mport m
  if (presented s m r).isSome ∧ ¬ p.aged.contains r then
    (s.setMport m { p with aged := insertSorted r p.aged }).addWork (.arb m)
  else s

end Sys2Proof.Machine
end

