-- ==== Sys2Proof/Machine/Fanout.lean ====
section
/-! DEFINITION. The fabric side of the Port Complex: egress in its classes with transmit credits (R61, R65, R70, R71),
snoop fan-out and the collection of answers (R78 to R82, R169, R170, R196, R218). -/

namespace Sys2Proof.Machine

/-! ### Egress -/

/-- Egress class of a message (R61): 0 SNP, 1 RSP, 2 DAT. -/
def FabMsg.cls (m : FabMsg) : Nat := if m.typ < 0x28 then 0 else if m.typ < 0x30 then 1 else 2

/-- A message as its header slot on FPn_TX_DAT (R59); MFIELD is free, DESIGN CHOICE (log entry 104). -/
def FabMsg.slot (m : FabMsg) : BitVec 128 :=
  BitVec.ofNat 128 (m.typ % 2 ^ 6 + 2 ^ 6 * (m.agent % 2 ^ 16) + 2 ^ 22 * (m.pa % 2 ^ 42) + 2 ^ 64 * (m.tag % 2 ^ 16) +
    2 ^ 80 * (m.biid % 2 ^ 12) + 2 ^ 92 * (Config.txMfield m.typ).toNat + 2 ^ 94 * (m.mval % 4) + 2 ^ 96 * (m.snpt % 8) +
    2 ^ 99 * b2n m.poison + 2 ^ 100 + 2 ^ 102 * (m.fwd % 2 ^ 16))

/-- Messages sent together as beats of a port: a header beat of up to four slots, then the line of each message that carries
one, in slot order (R58). -/
def txBeats (ms : List FabMsg) : List (BitVec 512) :=
  BitVec.ofNat 512 (((ms.take 4).zip (List.range 4)).foldl (fun a e => a + e.1.slot.toNat * 2 ^ (128 * e.2)) 0) ::
    (ms.take 4).filterMap (·.data)

/-- A message without line data and without a fan-out or tracker entry behind it. -/
def plainMsg (typ agent pa tag : Nat) : FabMsg := ⟨typ, agent, pa, tag, 0, 0, 0, false, 0, none, .plain⟩

/-- Appends a message to its class's egress order on a port. -/
def egPush (s : State) (p : Nat) (m : FabMsg) : State :=
  let f := s.fport p
  (match m.cls with
   | 0 => s.setFport p { f with snpQ := f.snpQ ++ [m] }
   | 1 => s.setFport p { f with rspQ := f.rspQ ++ [m] }
   | _ => s.setFport p { f with datQ := f.datQ ++ [m] }).addWork (.eg p)

/-- Leaving egress sets DATA_OUT or CMP_OUT, and tells the entry (R71, R187). -/
def leaveTrk (s : State) (tid : Nat) (isData : Bool) : State :=
  let r := s.recE tid
  let s := if r.valid then s.setRecE tid (if isData then { r with dataOut := true } else { r with cmpOut := true }) else s
  let t := s.trkE tid
  if t.valid then
    (s.setTrkE tid (if isData then { t with dataLeft := true } else { t with finalLeft := true })).addWork (.trk tid)
  else s

/-- A staged message of an entry may enter the egress order: its record is VALID (R70), DATA goes ahead of the final NDR
(R188), and DATA waits while a kept record of the entry is open (R518). -/
def mayEnter (s : State) (m : FabMsg) : Bool :=
  match m.own with
  | .data tid => (s.recE tid).valid && (match (s.trkE tid).kept with | some (_, none) => false | _ => true)
  | .final tid => (s.recE tid).valid && (! (s.trkE tid).dataSent || (s.trkE tid).dataLeft)
  | _ => true

/-- A DATA or final message whose flag the record already holds is discarded (R71), as is DATA that the kept record's
forwarder has delivered (R518). -/
def alreadyOut (s : State) (m : FabMsg) : Bool :=
  match m.own with
  | .data tid => (s.recE tid).dataOut ||
      (match (s.trkE tid).kept with | some (_, some a) => a == 1 || a == 2 | _ => false)
  | .final tid => (s.recE tid).cmpOut
  | _ => false

def ownTid (m : FabMsg) : Option (Nat × Bool) :=
  match m.own with
  | .data t => some (t, true)
  | .final t => some (t, false)
  | _ => none

/-- Moves staged messages that may enter into their ports' egress orders, oldest first. -/
def flushStaged (s : State) : State :=
  let go := s.port.staged.filter (fun e => mayEnter s e.2)
  let s := { s with port := { s.port with staged := s.port.staged.filter (fun e => ! mayEnter s e.2) } }
  go.foldl (fun t e =>
    if alreadyOut t e.2 then (match ownTid e.2 with | some (i, d) => leaveTrk t i d | none => t)
    else egPush t e.1 e.2) s

/-- Hands a message of a tracker entry to the Port Complex. -/
def stage (s : State) (p : Nat) (m : FabMsg) : State :=
  flushStaged { s with port := { s.port with staged := s.port.staged ++ [(p, m)] } }

/-! ### Answers (R81, R82) -/

/-- SNPDONE for a phase that has expanded and has no open target (R81). A record whose entry is gone is freed (R214); a
kept record holds its answer for the replayed entry, or gives it to the entry that waits for it (R516, R518). -/
def fanCheck (s : State) (tid : Nat) : State :=
  let f := s.fanE tid
  if f.active ∧ f.expanded ∧ f.open_.isEmpty ∧ f.deferred.isEmpty then
    if f.kept then
      match (s.trkE tid).kept with
      | some (a, none) =>
        let t := s.trkE tid
        ((s.setFanE tid fan0).setTrkE tid { t with kept := some (a, some (if f.dead ≠ 0 then 3 else f.merged)) }).addWork (.trk tid)
      | _ => s
    else
      let s := s.setFanE tid fan0
      if f.orphan then s else
      let d : SnpDone := ⟨tid, f.merged, f.sent, f.dead, f.holders, f.groups⟩
      let s := s.wdogArm (tid / 512)
      { s with port := { s.port with
        snpDone := SMap.upd (fun _ => []) s.port.snpDone (tid / 512) (fun l => l ++ [d]) } }
  else s

/-- The strongest answer a snoop allows (R177, R170). -/
def strongest : SnpKind → Nat
  | .inv => 0
  | .data => 1
  | .cur => 2
  | .fwdKeep => 2
  | .fwdClean => 1

/-- An answer of a probe within its round (R214). -/
def noteProbe (s : State) (tid a : Nat) : State :=
  match SMap.getD (fun _ => none) s.conf a with
  | some c => if c.tids.contains tid then
      { s with conf := SMap.set (fun _ => none) s.conf a (some { c with answered := true }) } else s
  | none => s

/-- Counts one target's answer (0 I, 1 S, 2 E); one stronger than the snoop allows raises SL_PROTO (R177). -/
def countAnswer (s : State) (tid a st dead : Nat) : State :=
  let f := s.fanE tid
  let lim := strongest f.kind
  let s := if lim < st then raiseSlice s (tid / 512) 0x22 (tid / 512) else s
  let st := min st lim
  let holders := if st = 0 ∨ 5 ≤ f.holders.length then f.holders else f.holders ++ [(a, st)]
  let groups := if st = 0 then f.groups else f.groups ||| (1#64 <<< (a / 1024))
  let s := s.setFanE tid { f with
    open_ := f.open_.filter (fun t => t.agent ≠ a)
    merged := max f.merged st
    dead := max f.dead dead
    holders := holders
    groups := groups }
  fanCheck (noteProbe s tid a) tid

/-- The fan-out record a BIRsp names: its BI-ID under PC_BIID.BASE and its BITag, with the agent among the open targets
of a BISnp (R80). -/
def birspTid (s : State) (a biid tag : Nat) : Option Nat :=
  let tid := (biid % 16 * 8 + bits tag 9 3) * 512 + tag % 512
  if biid / 16 = s.fld Fld.PC_BIID_BASE ∧ tag / 4096 = 0 ∧
      (s.fanE tid).open_.any (fun t => t.agent == a && t.left && ! t.df) ∧ ¬ (s.fanE tid).deferred.any (fun e => e.1 == a)
  then some tid else none

/-- The fan-out record a DF_DONE names: by BI-ID, agent and PA (R80). -/
def dfTid (s : State) (a biid pa : Nat) : Option Nat :=
  if biid / 16 ≠ s.fld Fld.PC_BIID_BASE then none else
  ((s.port.fan.filter (fun e => e.1 / 4096 = biid % 16 ∧ e.2.pa = pa ∧
    e.2.open_.any (fun t => t.agent == a && t.left && t.df) ∧ ¬ e.2.deferred.any (fun d => d.1 == a))).head?).map (·.1)

/-- A writeback of the agent for the line, received earlier, has not yet reached its slice (R196). -/
def wbAhead (s : State) (a pa : Nat) : Bool :=
  s.port.dat.any (fun e => e.2.user == .waiting && e.2.hdr.agent.toNat == a && e.2.hdr.pa.toNat == pa)

/-- An answer from the fabric: counted, or kept until the agent's earlier writebacks have gone ahead (R196). -/
def fabAnswer (s : State) (tid a st : Nat) : State :=
  let f := s.fanE tid
  if wbAhead s a f.pa then s.setFanE tid { f with deferred := f.deferred ++ [(a, st)] }
  else countAnswer s tid a st 0

/-- Counts the answers that no earlier writeback holds back any more. -/
def releaseDeferred (s : State) : State :=
  s.port.fan.foldl (fun t e =>
    e.2.deferred.foldl (fun u d =>
      let f := u.fanE e.1
      if f.deferred.contains d ∧ ¬ wbAhead u d.1 f.pa then
        countAnswer (u.setFanE e.1 { f with deferred := f.deferred.filter (· ≠ d) }) e.1 d.1 d.2 0
      else u) t) s

/-! ### Sending -/

/-- What leaving egress of port `p` means for a message. -/
def leave (s : State) (p : Nat) (m : FabMsg) : State :=
  match m.own with
  | .plain => s
  | .refused => egPush s p (plainMsg 0x28 m.agent m.pa m.tag)
  | .data tid => leaveTrk s tid true
  | .final tid => leaveTrk s tid false
  | .snoop tid =>
    let f := s.fanE tid
    let dl := s.now + max 1 (s.fld Fld.SNP_TMO_TMO) * 1000
    s.setFanE tid { f with open_ := f.open_.map (fun t =>
      if t.agent = m.agent then { t with left := true, deadline := dl } else t) }

/-- A message to a DEAD or RECLAIMED agent is discarded as if sent (R217). -/
def toDead (s : State) (m : FabMsg) : Bool := s.agtState m.agent == 4 || s.agtState m.agent == 5

/-- A snoop whose fan-out record has closed never leaves (R516). -/
def closedSnoop (s : State) (m : FabMsg) : Bool :=
  match m.own with
  | .snoop tid => ! (s.fanE tid).open_.any (fun t => t.agent == m.agent)
  | _ => false

/-- Takes the head of a class on a port: discarded (R71, R217, R516), answered in place of an ineligible forwarder (R169), sent on
a credit, or left. The second part says whether the head went. -/
def egHead (s : State) (p c : Nat) : State × Bool :=
  let f := s.fport p
  let q := match c with | 0 => f.snpQ | 1 => f.rspQ | _ => f.datQ
  let credit := match c with | 0 => f.txSnp | 1 => f.txRsp | _ => f.txDat
  match q with
  | [] => (s, false)
  | m :: rest =>
    let f1 := match c with
      | 0 => { f with snpQ := rest }
      | 1 => { f with rspQ := rest }
      | _ => { f with datQ := rest }
    if closedSnoop s m then (s.setFport p f1, true)
    else if toDead s m then
      let s := s.setFport p f1
      match m.own with
      | .snoop tid => (if (s.fanE tid).open_.any (fun t => t.agent == m.agent) then
          countAnswer s tid m.agent 0 (b2n (m.typ == 0x23)) else s, true)
      | _ => (leave s p m, true)
    else if alreadyOut s m then
      let s := s.setFport p f1
      (match ownTid m with | some (t, d) => leaveTrk s t d | none => s, true)
    else if m.typ = 0x23 ∧ ¬ s.eligible m.agent then
      (match m.own with
       | .snoop tid => (countAnswer (s.setFport p f1) tid m.agent 0 0, true)
       | _ => (s.setFport p f1, true))
    else if credit = 0 then (s, false)
    else
      let f2 := match c with
        | 0 => { f1 with txSnp := f1.txSnp - 1 }
        | 1 => { f1 with txRsp := f1.txRsp - 1 }
        | _ => { f1 with txDat := f1.txDat - 1 }
      let s := fpEvent (s.setFport p f2) p
        (if c = 1 then 8 else if c = 2 then 7 else if m.typ = 0x23 then 6 else 5)
      (leave { s with tx := s.tx ++ [(p, m)] } p m, true)

def egClass : Nat → Nat → Nat → State → State
  | 0, _, _, s => s
  | fuel + 1, p, c, s =>
    let (t, more) := egHead s p c
    if more then egClass fuel p c t else t

/-- A port's egress sends what it can: DATA first, then responses, then snoops; then staged messages may enter. -/
def egRun (s : State) (p : Nat) : State :=
  flushStaged (egClass 64 p 0 (egClass 64 p 1 (egClass 64 p 2 s)))

/-! ### Fan-out (R78, R79) -/

/-- BI-ID and BITag of a tracker entry's snoops (R80). -/
def biidOf (s : State) (tid : Nat) : Nat := s.fld Fld.PC_BIID_BASE * 16 + tid / 4096
def bitagOf (tid : Nat) : Nat := tid / 512 % 8 * 512 + tid % 512

/-- An agent qualifies as a target (R79). -/
def qualifies (s : State) (ten : Nat) (excl : Option Nat) (a : Nat) : Bool :=
  let st := seenState s a
  (st == 1 || st == 2 || st == 3) && s.agtTenant a == ten && excl != some a

/-- The targets of a descriptor, in rising order or in pointer order. -/
def targetsOf (s : State) (d : SnpDesc) (ten : Nat) (excl : Option Nat) : List Nat :=
  match d with
  | .ptrs as => (as.dedup).filter (qualifies s ten excl)
  | .groups v => s.agents.filter (fun a => v.getLsbD (a / 1024) && qualifies s ten excl a)
  | .tenant => s.agents.filter (qualifies s ten excl)

/-- A pointer set names an agent that is DEAD when the phase expands (R218). -/
def namesDead (s : State) (d : SnpDesc) (excl : Option Nat) : Bool :=
  match d with
  | .ptrs as => as.any (fun a => seenState s a == 4 && excl != some a)
  | _ => false

def snpCode : SnpKind → Nat
  | .cur => 0x20 | .data => 0x21 | .inv => 0x22 | .fwdKeep => 0x23 | .fwdClean => 0x23

/-- The replicator expands one SNP message (R78, R79). -/
def expand (s : State) (m : SnpMsg) : State :=
  let ten := tenantOf s m.pa
  let s := match m.desc with | .ptrs as => as.foldl agentRead s | _ => s
  let ts := targetsOf s m.desc ten m.excl
  let df := m.kind == .fwdKeep || m.kind == .fwdClean
  let f := s.fanE m.tid
  let s := s.setFanE m.tid { f with
    active := true, kind := m.kind, pa := m.pa, expanded := true
    open_ := ts.map (fun a => ⟨a, false, 0, false, df⟩)
    sent := ts.length, merged := 0, dead := b2n (namesDead s m.desc m.excl), holders := [], groups := 0 }
  let s := ts.foldl (fun t a => egPush t (t.agtFp a)
    ⟨snpCode m.kind, a, m.pa, if df then m.tag else bitagOf m.tid, biidOf t m.tid, 0,
     if m.kind = .fwdClean then 1 else 0, false, if df then m.fwd else 0, none, .snoop m.tid⟩) s
  fanCheck s m.tid

/-- A SNP message may go: for a request its record is VALID (R70). -/
def snpMay (s : State) (m : SnpMsg) : Bool :=
  let t := s.trkE m.tid
  t.valid && (t.cls != 0 || (s.recE m.tid).valid)

/-- The cluster's replicator takes the first SNP message that may go. -/
def snoopPhase (s : State) (c : Nat) : State :=
  if ! s.portUp ∨ ! s.coreUp then s else
  let q := SMap.getD (fun _ => []) s.port.snpQ c
  match q.find? (snpMay s) with
  | none => s
  | some m =>
    let s := { s with port := { s.port with snpQ := SMap.set (fun _ => []) s.port.snpQ c (q.erase m) } }
    expand s m

/-- A slice starts a snoop phase (R78). -/
def sendSnoop (s : State) (m : SnpMsg) : State :=
  { s with port := { s.port with snpQ := SMap.upd (fun _ => []) s.port.snpQ (m.tid / 4096) (fun l => l ++ [m]) } }

/-- Sets a cause bit of an agent (R213): bit 0 SNPTMO, 1 LINK, 2 HBMISS. -/
def setCause (s : State) (a b : Nat) : State :=
  { s with port := { s.port with evt := SMap.upd (fun _ => 0) s.port.evt a (fun v => v ||| 2 ^ b) } }

/-- A target expires (R82): it stays open, its agent's SNPTMO cause is set. A DF_FWD target is timed as a BISnp is. -/
def snoopTimeout (s : State) (tid a : Nat) : State :=
  let f := s.fanE tid
  match f.open_.find? (fun t => t.agent = a ∧ t.left ∧ ¬ t.expired) with
  | none => s
  | some t =>
    let n := max s.now t.deadline
    let s := { s with now := n, lehrNow := max s.lehrNow n }
    let s := s.setFanE tid { f with open_ := f.open_.map (fun x => if x.agent = a then { x with expired := true } else x) }
    setCause (raisePort s 0x08 a) a 0

end Sys2Proof.Machine
end

