-- ==== Sys2Proof/Machine/Rules.lean ====
section
/-! DEFINITION. Rule match (chapter 10) and the decision tables of the default banks (chapter 06): the match key and its
flags, the rules and steps of a loaded bank, and the programs that the default bank runs for every cell of R172 to R176,
R179, R195 and R220, written in the action steps of R292. -/

namespace Sys2Proof.Machine

/-- STATE as a decision reads it (R167, R169, R287): a stored F reads S in modes 2, 3 and 6, and where its forwarder is
not eligible. -/
def presentState (s : State) (c : CabW) (mode : Nat) : Nat :=
  if c.state = 2 then
    match c.named with
    | some f => if (mode = 2 ∨ mode = 3 ∨ mode = 6) ∨ ¬ s.shEligible f then 1 else 2
    | none => 1
  else c.state

/-- What a decision sees of a line: the word found with its way, and the sector's coarse word. -/
structure Seen where
  word : CabW
  way : Option Nat
  sector : Option (Nat × CabW)
  deriving DecidableEq, Repr

def seenOf (l : Look) : Seen :=
  match l.fine with
  | some (w, c) => ⟨c, some w, l.sector⟩
  | none => match l.line with
    | some (w, c) => ⟨c, some w, l.sector⟩
    | none => ⟨cabEmpty, none, l.sector⟩

/-- The condition flags of a match (R288), bit 0 first. -/
structure Flags where
  rInH : Bool
  rIsO : Bool
  oElig : Bool
  rElig : Bool
  pcnt4 : Bool
  rOnly : Bool
  present : Bool
  uflag : Bool
  deriving DecidableEq, Repr

def flagsOf (s : State) (v : Seen) (r : Nat) : Flags :=
  let c := v.word
  { rInH := c.has r
    rIsO := c.named == some r
    oElig := match c.named with | some o => s.shEligible o | none => false
    rElig := s.shEligible r
    pcnt4 := c.grain != 0 && c.shf == 0 && c.pcnt == 4
    rOnly := c.shf == 0 && c.ptrs == [r]
    present := c.grain == 2
    uflag := s.fld Fld.RB_CTL_UFLAG == 1 }

def Flags.num (f : Flags) : Nat :=
  b2n f.rInH + 2 * b2n f.rIsO + 4 * b2n f.oElig + 8 * b2n f.rElig + 16 * b2n f.pcnt4 + 32 * b2n f.rOnly +
    64 * b2n f.present + 128 * b2n f.uflag

/-- The 24-bit match key (R287). -/
def matchKey (typ st : Nat) (c : CabW) (mode : Nat) (f : Flags) : Nat :=
  typ + 2 ^ 6 * st + 2 ^ 9 * c.grain + 2 ^ 11 * (if c.grain = 0 then 0 else c.shf) + 2 ^ 13 * mode + 2 ^ 16 * f.num

/-! ### Banks -/

/-- The source of a bank: 0 cleared, 1 the default bank, 2 all words loaded. -/
def bankSrc (s : State) (b : Nat) : Nat := if b = 0 then s.sl.banks.src0 else s.sl.banks.src1

/-- A bank word: rules 0 to 1,023, then steps (R278). -/
def bankWord (s : State) (b i : Nat) : BitVec 64 := SMap.getD (fun _ => 0) s.sl.banks.words (b * 4096 + i)

/-- A slice logic decides by the default bank as the parison image gave it: no rload has written over it and no word of the logic's
rule store is bad. Its words are the compiled tables of chapter 06 (R306), DEDUCED (log entry 41). -/
def bankPure (s : State) (logic b : Nat) : Bool :=
  bankSrc s b == 1 && s.integ.mask.all (fun e => e.1 / 2 ^ 24 ≠ Store.rb.num * 2 ^ 16 + logic)

/-- A rule or step word as one slice logic reads it (R368): an uncorrectable word raises RB_UE and reads as given. -/
def bankRead (s : State) (logic b i : Nat) (bad : Nat) : State × Nat :=
  let unit := logic
  let w := b * 4096 + i
  let inj := errInj s .rb unit w
  let (s, r) := wordRead s .rb unit w
  match r with
  | some d => (s, (bankWord s b i).toNat ^^^ d)
  | none => (raiseN s (.slice logic) 0x2E logic 1 inj .core, bad)

def ruleHit (key w : Nat) : Bool :=
  bit1 w 63 && ((key ^^^ w % 2 ^ 24) &&& bits w 24 24) == 0

/-- The lowest-numbered matching rule of a bank whose words are good. -/
def matchWord (s : State) (key b : Nat) : Option Nat :=
  ((List.range 1024).map (fun i => (bankWord s b i).toNat)).find? (ruleHit key)

/-- The lowest-numbered matching rule of a bank (R290). -/
def matchFrom (key logic b : Nat) : Nat → Nat → State → State × Option Nat
  | 0, _, s => (s, none)
  | n + 1, i, s =>
    let (s, w) := bankRead s logic b i 0
    if ruleHit key w then (s, some w) else matchFrom key logic b n (i + 1) s

/-- A step word as an action step (R292); a reserved operation or argument is `bad`. -/
def stepOf (w idx : Nat) : AStep :=
  let a := bits w 5 3
  let b := bits w 8 3
  let j := bits w 11 3
  match w % 32 with
  | 0 => if a = 0 ∧ b = 0 then .nop else .bad idx
  | 1 =>
    let k : Option SnpKind := match a with
      | 0 => some .cur | 1 => some .data | 2 => some .inv | 3 => some .fwdKeep | 4 => some .fwdClean | _ => none
    let t : Option SnpTgt := match b with
      | 0 => some .holders | 1 => some .others | 2 => some .owner | 3 => some .fwdr | 4 => some .tenant | _ => none
    (match k, t with | some k, some t => .snoop k t | _, _ => .bad idx)
  | 2 => if a = 0 ∧ b = 0 then .memrd else .bad idx
  | 3 => if a ≤ 2 ∧ b = 0 then .memwr a else .bad idx
  | 4 => if a = 0 ∧ b = 0 then .poison else .bad idx
  | 5 => if 1 ≤ a ∧ a ≤ 3 ∧ b = 0 then .wait (bit1 a 0) (bit1 a 1) else .bad idx
  | 6 => if b ≤ 1 then .branch a (b == 1) j else .bad idx
  | 7 => if a ≤ 1 ∧ b = 0 then .data a else .bad idx
  | 8 => if a = 0 ∧ b = 0 then .final else .bad idx
  | 9 =>
    let l : Option WList := match a with
      | 0 => some .r | 1 => some .hPlusR | 2 => some .hMinusR | 3 => some .h | _ => none
    (match l with | some l => if b ≤ 4 then .write l b else .bad idx | none => .bad idx)
  | 10 => if a = 0 ∧ b = 0 then .split else .bad idx
  | 11 => if a = 0 ∧ b = 0 then .alloc else .bad idx
  | 12 => if a = 0 ∧ b = 0 then .proto else .bad idx
  | 13 => if a = 0 ∧ b = 0 then .reread else .bad idx
  | _ => .bad idx

/-- The steps of an action sequence of a bank (R292), and those of them with LAST = 1 (R293). -/
def seqSteps (s : State) (b sq : Nat) : List AStep :=
  (List.range 8).map (fun k => stepOf (bankWord s b (1024 + 8 * sq + k)).toNat (8 * sq + k))
def seqLasts (s : State) (b sq : Nat) : List Nat :=
  (List.range 8).filter (fun k => bit1 (bankWord s b (1024 + 8 * sq + k)).toNat 14)

/-- What a match gives an entry: its program with its LAST steps, NEXT, RCLASS and ASEQ (R290), and the bank that its steps are
read from as they run. -/
structure Dec where
  prog : List AStep
  next : Nat
  rclass : Nat
  aseq : Nat
  lasts : List Nat := []
  bank : Option Nat := none
  deriving DecidableEq, Repr

/-! ### The default bank's decisions

NEXT codes: 0 I, 1 S, 2 F, 3 E, 4 O, 5 ANSWER, 6 UNCHANGED. Final messages: 1 CMP, 2 CMP_S, 3 CMP_E, 4 DATA_ONLY.
WRITE states: 0 NEXT, 1 I, 2 S, 3 E, 4 O. -/

def dec (p : List AStep) (next rclass : Nat) : Dec := { prog := p, next := next, rclass := rclass, aseq := 0 }

/-- A read that grants S with memory data: the word gains R or is rewritten unchanged. -/
def memShared (l : WList) (next : Nat) (needWay : Bool) : Dec :=
  dec ([.memrd] ++ (if needWay then [.alloc] else []) ++ [.write l 0, .wait false true, .data 0, .final]) next 2

/-- A grant of E with memory data from I or from R's own copy (`withData`), with no snoop. -/
def grantE (withData coarse needWay : Bool) : Dec :=
  dec ((if withData then [.memrd] else []) ++ (if coarse then [.alloc, .split] else if needWay then [.alloc] else []) ++
    [.write .r 0] ++ (if withData then [.wait false true, .data 0] else []) ++ [.final]) 3 3

/-- A direct forward for a read (R170, R173, R194): `proto` raises SL_PROTO when the owner of an O word answers I. -/
def fwdRead (k : SnpKind) (t : SnpTgt) (isO : Bool) : Dec :=
  if isO then
    dec [.snoop k t, .wait true false, .branch 0 true 4, .proto, .write .hPlusR 0, .branch 0 true 9, .memrd,
      .wait false true, .data 0, .final] 1 2
  else
    dec [.snoop k t, .wait true false, .write .hPlusR 0, .branch 0 true 7, .memrd, .wait false true, .data 0, .final] 1 2

/-- fwd-k in the modes that may write O (R175): the answer A leaves O, S leaves S; I removes the owner. -/
def fwdKeepRead (isO : Bool) : Dec :=
  dec [.snoop .fwdKeep .owner, .wait true false, .branch 2 false 7, .branch 1 false 9,
    (if isO then .proto else .nop), .write .hPlusR 2, .branch 6 false 10, .write .hPlusR 4, .branch 6 false 10,
    .write .hPlusR 2, .branch 0 true 14, .memrd, .wait false true, .data 0, .final] 1 2

/-- A read of a plain E owner (R190, R192): SNP_DATA with a memory read in parallel. -/
def snpDataRead : Dec :=
  dec [.snoop .data .owner, .memrd, .wait true true, .data 0, .write .hPlusR 0, .final] 1 2

/-- An ownership request on a recorded line: the other holders are invalidated. `src` says where RD_E's data comes from:
0 no data, 1 memory in parallel, 2 the owner's writeback, or memory after the phase when there is none. On a coarse word
the way is chosen, the snoop sent, the word split and the fine word written before the answers arrive, in the order of the
example under R156. -/
def ownFrom (k : SnpTgt) (src : Nat) (coarse : Bool) : Dec :=
  if coarse then
    dec ([.alloc, .snoop .inv k] ++ (if src = 0 then [] else [.memrd]) ++ [.split, .write .r 0, .wait true (src ≠ 0)] ++
      (if src = 0 then [] else [.data 0]) ++ [.final]) 3 3
  else match src with
  | 0 => dec [.snoop .inv k, .wait true false, .write .r 0, .final] 3 3
  | 1 => dec [.snoop .inv k, .memrd, .wait true true, .data 0, .write .r 0, .final] 3 3
  | _ => dec [.snoop .inv k, .wait true false, .branch 3 false 6, .memrd, .wait false true, .data 0,
      .write .r 0, .final] 3 3

/-- An uncached write (R173, R192): the holders are invalidated, then R's data is written. `snp` none on I. -/
def uncached (part : Bool) (t : Option SnpTgt) (coarse : Bool) : Dec :=
  let src := if part then 2 else 0
  match t with
  | none => dec [.memwr src, .wait false true, .final] 0 1
  | some t => dec ((if coarse then [.split] else []) ++ [.snoop .inv t, .wait true false, .memwr src, .wait false true] ++
      (if coarse then [] else [.write .r 1]) ++ [.final]) 0 1

def isRead (typ : Nat) : Bool := typ == 0x01 || typ == 0x04

/-- DROP (R174), decided on the presented state `st`. The last holder of a coarse word takes the line to I, which clears the line's
presence bit (R145), DEDUCED (log entry 106). -/
def dropDec (mode st : Nat) (f : Flags) (c : CabW) : Dec :=
  let plain := c.grain == 1 && c.shf == 0
  if st = 0 ∨ ¬ f.rInH then (if st = 0 then dec [.final] 0 1 else dec [.write .h 0, .final] 6 1)
  else if c.state = 3 then (if f.rIsO then dec [.write .hMinusR 1, .final] 0 1 else dec [.write .h 0, .final] 6 1)
  else if c.state = 4 then
    if f.rIsO then dec [.write .hMinusR 2, .final] 1 1
    else if c.pcnt = 2 then dec [.write .hMinusR 3, .final] 3 1
    else if mode = 4 ∨ mode = 5 then dec [.write .h 0, .final] 6 1
    else dec [.write .hMinusR 4, .final] 4 1
  else if ¬ plain then (if c.grain = 2 ∧ f.rOnly then dec [.write .hMinusR 1, .final] 0 1 else dec [.write .h 0, .final] 6 1)
  else if st = 2 ∧ ¬ f.rIsO then dec [.write .hMinusR 0, .final] 2 1
  else dec [.write .hMinusR 2, .final] 1 1

/-- The decision of the default bank for a request (R173 to R176, R195). `st` is the presented state. -/
def decideReq (typ mode st : Nat) (f : Flags) (c : CabW) : Dec :=
  let coarse := c.grain == 2
  let oMode := mode == 2 || mode == 3 || mode == 6 || mode == 7
  if typ = 0x07 then dropDec mode st f c
  else if typ = 0x03 then
    (match st with
     | 0 => dec [.memrd, .wait false true, .data 0] 0 4
     | 3 => dec [.snoop .cur .owner, .memrd, .wait true true, .data 0, .branch 0 false 7, .write .h 0, .branch 6 false 8,
         .write .h 3] 6 4
     | 4 => if oMode then
         if f.rIsO then dec [.memrd, .wait false true, .data 0, .write .h 0] 6 4 else
         dec [.snoop .cur .owner, .wait true false, .branch 3 false 5, .memrd, .wait false true, .data 0, .branch 0 false 9,
           .write .h 0, .branch 6 false 10, .write .h 2] 6 4
       else
         dec [.snoop .data .owner, .wait true false, .branch 3 false 5, .memrd, .wait false true, .data 0, .write .h 0] 1 4
     | _ => dec [.memrd, .write .h 0, .wait false true, .data 0] 6 4)
  else if typ = 0x13 ∨ typ = 0x17 then
    uncached (typ = 0x17) (match st with | 0 => none | 3 => some .owner | _ => some .others) coarse
  else if isRead typ then
    (match st with
     | 0 => if typ = 0x01 then memShared .r 1 true else grantE true false true
     | 3 =>
       if f.rIsO then (if typ = 0x01 then memShared .r 1 false else grantE true false false)
       else if f.oElig then (if oMode then fwdKeepRead false else fwdRead .fwdClean .owner false)
       else snpDataRead
     | 4 =>
       if f.rIsO then memShared .h 1 false
       else if oMode then (if f.pcnt4 ∧ ¬ f.rInH then fwdRead .fwdClean .owner true else fwdKeepRead true)
       else fwdRead .fwdClean .owner true
     | _ =>
       if f.rInH then
         (if typ = 0x04 ∧ f.rOnly then grantE true coarse false else memShared .h 6 false)
       else if st = 2 then fwdRead .fwdClean .fwdr false
       else memShared .hPlusR 1 false)
  else
    let own := typ == 0x05 || typ == 0x06
    (match st with
     | 0 => grantE (! own) false true
     | 3 => if f.rIsO then ownFrom .others (if own then 0 else 1) false
            else ownFrom .owner (if own then 0 else 1) false
     | 4 => ownFrom .others (if own then 0 else if f.rIsO then 1 else 2) false
     | _ => ownFrom .others (if own then 0 else 1) coarse)

/-- SETTLE (R179): only an O word is settled; BIRspI from the owner raises SL_PROTO. -/
def decideSettle (c : CabW) : Dec :=
  if c.state = 4 then dec [.snoop .data .owner, .wait true true, .branch 0 true 4, .proto, .write .h 0] 1 0
  else dec [] 6 0

/-- RELEASE (R211): a pointer set that names the agent; the agent is removed as DROP would. -/
def decideRelease (mode st : Nat) (f : Flags) (c : CabW) : Dec :=
  if c.grain = 0 ∨ c.shf ≠ 0 ∨ ¬ f.rInH then dec [] 6 0
  else
    let d := if c.grain = 2 then dec [.write .hMinusR 2] 1 0 else dropDec mode st f c
    dec ([.snoop .inv .agent, .wait true true] ++ d.prog.filter (· ≠ .final)) d.next 0

/-- PROBE (R214): SNP_CUR to the agent alone. -/
def decideProbe : Dec := dec [.snoop .cur .agent, .wait true false] 6 0

/-- RECLAIM with operand 1 (R220): the dead agent is removed; a dead owner's line takes the dead-owner path. -/
def decideReclaim (mode st : Nat) (f : Flags) (c : CabW) : Dec :=
  if c.grain = 0 ∨ c.shf ≠ 0 ∨ ¬ f.rInH then dec [] 6 0
  else if c.state = 3 then dec [.poison, .wait false true, .write .hMinusR 1, .lost 2] 0 0
  else if c.state = 4 then
    if f.rIsO then dec [.poison, .snoop .inv .rest, .wait true true, .write .hMinusR 1, .lost 2] 0 0
    else if mode = 4 ∨ mode = 5 then dec [] 6 0
    else if c.pcnt = 2 then dec [.write .hMinusR 3] 3 0
    else dec [.write .hMinusR 4] 4 0
  else if st = 2 ∧ ¬ f.rIsO then dec [.write .hMinusR 0] 2 0
  else dec [.write .hMinusR 2] 1 0

/-- A decision on an unknown line (R158): every snoop goes to the tenant. `rebuild` says the set is in REBUILD. -/
def decideUnknown (typ : Nat) (rebuild : Bool) : Dec :=
  let w := fun (l : List AStep) => if rebuild then l else []
  match typ with
  | 0x01 | 0x04 => dec ([.snoop .data .tenant, .memrd, .wait true true, .data 0] ++ w [.write .hPlusR 2] ++ [.final]) 1 2
  | 0x02 => dec ([.snoop .inv .tenant, .memrd, .wait true true, .data 0] ++ w [.write .r 3] ++ [.final]) 3 3
  | 0x05 | 0x06 => dec ([.snoop .inv .tenant, .wait true false] ++ w [.write .r 3] ++ [.final]) 3 3
  | 0x03 => dec [.snoop .cur .tenant, .memrd, .wait true true, .data 0] 6 4
  | 0x13 => dec [.snoop .inv .tenant, .wait true false, .memwr 0, .wait false true, .final] 0 1
  | 0x17 => dec [.snoop .inv .tenant, .wait true false, .memwr 2, .wait false true, .final] 0 1
  | 0x07 => dec [.final] 6 1
  | 0x3F => decideProbe
  | _ => dec [] 6 0

/-- The rule match of an entry (R289 to R291). The second part is none where no rule matches. -/
def matchRule (s : State) (slice bank typ mode : Nat) (v : Seen) (r : Nat) : State × Option Dec :=
  let st := presentState s v.word mode
  let f := flagsOf s v r
  let key := matchKey typ st v.word mode f
  if bankPure s (logicOf s slice) bank then
    let d :=
      match typ with
      | 0x3C => decideSettle v.word
      | 0x3D => decideReclaim mode st f v.word
      | 0x3E => decideRelease mode st f v.word
      | 0x3F => decideProbe
      | _ => decideReq typ mode st f v.word
    (s, some { d with aseq := match matchWord s key bank with | some w => bits w 51 8 | none => 0 })
  else
    let (s, o) := matchFrom key (logicOf s slice) bank 1024 0 s
    match o with
    | none => (s, none)
    | some w =>
      let sq := bits w 51 8
      (s, some { prog := seqSteps s bank sq, next := bits w 48 3, rclass := bits w 59 3, aseq := sq
                 lasts := seqLasts s bank sq, bank := some bank })

end Sys2Proof.Machine
end

