-- ==== Sys2Proof/Machine/Slice.lean ====
section
/-! DEFINITION. The slice's entry writer, way choice and action machine (chapters 04 to 07 and 10): what a tracker entry does
from its rule match to its retirement. -/

namespace Sys2Proof.Machine

def setT (s : State) (tid : Nat) (f : Trk → Trk) : State := s.setTrkE tid (f (s.trkE tid))

/-- The agent field of an entry (R106): the requester, or for MNT the steward thread, which for the programs that the model
runs itself is thread 0 of the cluster's steward for SETTLE and its thread 1 for the other walks. -/
def trkAgent (tid : Nat) (t : Trk) : Nat :=
  if t.cls ≠ 2 then t.agent
  else match t.msg with
    | some (thr, _) => thr
    | none => tid / 4096 * 4 + (if t.typ = 0x3C then 0 else 1)

/-- A tracker entry as its 128-bit word (R106). STEP of an entry whose steps are not those of a bank's sequence (the default bank's
tables, directory evictions, the dead-owner path) is the place in the model's own program, modulo 8, DESIGN CHOICE (log entry 90). -/
def trkWord (tid : Nat) (t : Trk) : BitVec 128 :=
  if ! t.valid then 0 else
  BitVec.ofNat 128 ([(b2n t.valid, 0, 1), (t.epoch, 1, 1), (t.cls, 2, 2), (t.typ, 4, 6), (trkAgent tid t, 10, 16), (t.pa, 26, 42),
    (b2n t.sector, 68, 1), (t.tstate, 69, 4), (t.cur, 73, 3), (t.grain, 76, 2), (b2n t.snpOut, 78, 1), (b2n t.wbTaken, 79, 1),
    (b2n t.rel, 80, 1), (b2n t.memOut, 81, 1), (t.dbuf, 82, 11), (b2n t.dbufV, 93, 1), (t.hold, 94, 15), (t.aseq, 109, 8),
    (t.step, 117, 3), (t.nacks, 120, 3)].foldl (fun a (v, lo, n) => a + v % 2 ^ n * 2 ^ lo) 0)

/-- Word `e` of the tracker store of a slice logic: what it held when it failed, else its entry
of the slice it serves. -/
def trkStored (s : State) (logic e : Nat) : BitVec 128 :=
  if bit1 (s.fld Fld.CL_SPARE_FAILED (logic / 9)) (logic % 9) then SMap.getD (fun _ => 0) s.sl.dead (logic * 512 + e) else
  match (List.range 8).map (logic / 9 * 8 + ·) |>.find? (fun n => logicOf s n = logic) with
  | some n => trkWord (n * 512 + e) (s.trkE (n * 512 + e))
  | none => 0

/-- A failed logic keeps the words of its tracker store. -/
def keepStore (s : State) (n logic : Nat) : State :=
  { s with sl := { s.sl with dead :=
    (SMap.slice s.sl.trk (n * 512) 512).foldl (fun m e =>
      SMap.set (fun _ => 0) m (logic * 512 + e.1) (trkWord (n * 512 + e.1) e.2)) s.sl.dead } }

/-- The line an entry's present phase is for: its own line, or a line of its sector (R155, R225). -/
def curLine (t : Trk) : Nat := t.pa / 16 * 16 + t.sub

def logicOfTid (s : State) (tid : Nat) : Nat := logicOf s (tid / 512)

/-- The lowest number from `k` on, of `n`, that is not in a list. -/
def lowestFree (used : List Nat) : Nat → Nat → Option Nat
  | 0, _ => none
  | n + 1, k => if used.contains k then lowestFree used n (k + 1) else some k

/-! ### Tracker pools and data buffers (R104, R105, R107) -/

/-- Entries of a slice that cannot be allocated: those in use, and those whose phase is still open in the Port Complex
(R214). -/
def usedEntries (s : State) (n : Nat) : List Nat :=
  ((SMap.slice s.sl.trk (n * 512) 512).filter (·.2.valid)).map (·.1) ++
  ((SMap.slice s.port.fan (n * 512) 512).filter (·.2.active)).map (·.1)

def sharedFree (s : State) (n : Nat) : Nat :=
  464 - ((usedEntries s n).dedup.filter (fun e => 16 ≤ e ∧ e < 480)).length

/-- The entry a message of a class (0 REQ, 1 SNP, 2 MNT) allocates (R104, R105): the lowest free number of its pool, or
of the shared pool where it may borrow. -/
def allocEntry (s : State) (n cls : Nat) : Option Nat :=
  let used := usedEntries s n
  let shared := lowestFree used 464 16
  let borrow := if s.fld Fld.SL_CTL_BORROW_LVL (logicOf s n) < sharedFree s n then shared else none
  match cls with
  | 0 => shared
  | 1 => (lowestFree used 32 480).orElse (fun _ => borrow)
  | _ => (lowestFree used 16 0).orElse (fun _ => borrow)

def bufsUsed (s : State) (c : Nat) : List Nat := SMap.getD (fun _ => []) s.sl.dbufUsed c
def setBufs (s : State) (c : Nat) (l : List Nat) : State :=
  { s with sl := { s.sl with dbufUsed := SMap.set (fun _ => []) s.sl.dbufUsed c l } }

/-- The tracker data buffer an entry takes (R107): one of the eight kept for MNT and SNP entries of its slice, else one of
the cluster's others. -/
def freeBuf (s : State) (tid : Nat) : Option Nat :=
  let used := bufsUsed s (tid / 4096)
  let rest := lowestFree used 1984 64
  if (s.trkE tid).cls = 0 then rest
  else (lowestFree used 8 (8 * (tid / 512 % 8))).orElse (fun _ => rest)

/-! ### Memory (R70, R107, R189) -/

/-- A memory request of the entry is outstanding (MEM_OUT of R106). -/
def memPending (t : Trk) : Bool := t.rdOp.isSome || ! t.rdDrop.isEmpty || ! t.wrOps.isEmpty

/-- Issues a read of the entry's line into its data buffer; false where no buffer is free. -/
def startRead (s : State) (tid : Nat) : State × Bool :=
  let t := s.trkE tid
  let take : Option (State × Trk) :=
    if t.dbufV then some (s, t)
    else match freeBuf s tid with
      | some b =>
        let c := tid / 4096
        some (clEvent (setBufs s c (insertSorted b (bufsUsed s c))) c 11, { t with dbuf := b, dbufV := true })
      | none => none
  match take with
  | none => (s.setTrkE tid { t with tstate := 1, memOut := memPending t }, false)
  | some (s, t) =>
    let id := s.mem.nextId
    let s := s.setTrkE tid { t with rdOp := some id, memOut := true, mdata := none }
    ((issueMem s 0 (.trkRd tid id) (curLine t) 0 0 (t.typ == 6) (tid / 4096)).1, true)

/-- Issues a memory write of an entry. -/
def issueWr (s : State) (tid : Nat) (w : WrReq) (own : Bool) : State :=
  let t := s.trkE tid
  let id := s.mem.nextId
  let s := s.setTrkE tid { t with
    wrOps := t.wrOps ++ [id], ownWr := if own then t.ownWr ++ [id] else t.ownWr, memOut := true,
    wbOps := match w.wb with | some (p, e) => t.wbOps ++ [(id, p, e)] | none => t.wbOps }
  (issueMem s w.kind (.trkWr tid id) w.line w.data w.be (t.typ == 6) (tid / 4096)).1

/-- A request's memory writes wait for the release (R70); SNP and MNT entries have none to wait for. -/
def mayWrite (t : Trk) : Bool := t.cls != 0 || t.rel

def queueWr (s : State) (tid : Nat) (w : WrReq) : State :=
  if mayWrite (s.trkE tid) then issueWr s tid w false
  else setT s tid (fun t => { t with wrWait := t.wrWait ++ [w] })

/-- Drops the outstanding read: its data is discarded when it returns. -/
def dropRead (t : Trk) : Trk :=
  match t.rdOp with
  | some id => { t with rdOp := none, rdDrop := t.rdDrop ++ [id], mdata := none }
  | none => { t with mdata := none }

/-! ### Messages to the requester (R187, R188, R193) -/

/-- The type owes its requester data (R295). -/
def owesType (t : Trk) : Bool := t.cls == 0 && 1 ≤ t.typ && t.typ ≤ 4

/-- DATA to the requester. -/
def sendData (s : State) (tid : Nat) (d : Option Line) (poison : Bool) : State :=
  let t := s.trkE tid
  let s := s.setTrkE tid { t with dataSent := true }
  stage s (s.agtFp t.agent)
    ⟨0x30, t.agent, t.pa, t.hdr.tag.toNat, 0, 0, 0, poison, 0, if poison then none else d, .data tid⟩

/-- The final message is DATA (R187, R290). -/
def dataFinal (t : Trk) : Bool := t.rclass == 4 || t.typ == 3

/-- The entry owes a final NDR: RCLASS names one, and DATA is not its final message. RCLASS 0 names none, and the reserved values 5 to
7 none either, DEDUCED (log entry 91). -/
def owesNdr (t : Trk) : Bool := t.cls == 0 && ! dataFinal t && 1 ≤ t.rclass && t.rclass ≤ 3

/-- The final NDR by RCLASS, if the entry owes one. -/
def sendFinal (s : State) (tid : Nat) : State :=
  let t := s.trkE tid
  if ! owesNdr t then s else
  let s := s.setTrkE tid { t with finalSent := true }
  let typ := match t.rclass with | 2 => 0x29 | 3 => 0x2A | _ => 0x28
  stage s (s.agtFp t.agent) { plainMsg typ t.agent t.pa t.hdr.tag.toNat with own := .final tid }

/-- The entry's final message has left egress (R187). -/
def completed (t : Trk) : Bool :=
  t.cls != 0 || (if dataFinal t then t.dataLeft else ! owesNdr t || t.finalLeft)

/-! ### Sharer sets (R146, R147) -/

inductive HS
  | ptrs (l : List Nat)
  | groups (v : Nat)
  | whole
  deriving DecidableEq, Repr

def hsOf (c : CabW) : HS :=
  match c.shf with
  | 0 => .ptrs c.ptrs
  | 1 => .groups c.sharers
  | _ => .whole

def groupsOf (l : List Nat) : Nat := l.foldl (fun v a => v ||| 2 ^ (a / 1024 % 64)) 0

def HS.union : HS → HS → HS
  | .whole, _ | _, .whole => .whole
  | .groups u, .groups v => .groups (u ||| v)
  | .groups u, .ptrs l | .ptrs l, .groups u => .groups (u ||| groupsOf l)
  | .ptrs l, .ptrs m => .ptrs (l ++ m.filter (fun a => ! l.contains a))

/-- A group vector, tenant-wide where more than TW_GROUPS bits would be set (R146). -/
def asGroups (s : State) (d v : Nat) : HS :=
  let tw := s.fld Fld.CAB_CTL_TW_GROUPS d
  if tw ≠ 0 ∧ tw < popN 64 v then .whole else .groups v

/-- The format of an S word (R146 steps 2 to 6). -/
def fmtS (s : State) (d scope : Nat) (exact : Bool) (old : Option CabW) (h : HS) : HS :=
  if scope = 2 then .whole else
  let shf := match old with | some c => c.shf | none => 0
  match h with
  | .whole => .whole
  | .groups v => asGroups s d v
  | .ptrs l =>
    if exact ∧ l.length ≤ 4 then .ptrs l
    else if shf = 2 then .whole
    else if 4 < l.length ∨ shf = 1 then asGroups s d (groupsOf l)
    else .ptrs l

def sharersOf (l : List Nat) : Nat := (l.zip (List.range l.length)).foldl (fun v (a, i) => v + a % 65536 * 2 ^ (16 * i)) 0

/-- A word of a sharer set, AGE 0. -/
def mkWord (line grain state : Nat) (h : HS) (loc : Nat) : CabW :=
  match h with
  | .ptrs l => ⟨tagOf line, grain, state, 0, l.length, 0, loc, 0, sharersOf l⟩
  | .groups v => ⟨tagOf line, grain, state, 1, 0, 0, loc, 0, v⟩
  | .whole => ⟨tagOf line, grain, state, 2, 0, 0, loc, 0, 0⟩

/-- An agent first in a list. -/
def toFront (a : Nat) (l : List Nat) : List Nat := a :: l.filter (· ≠ a)

/-! ### The entry writer (R142 to R147, R168, R171) -/

def modeF (m : Nat) : Bool := m == 4 || m == 5 || m == 7
def modeO (m : Nat) : Bool := m == 2 || m == 3 || m == 6 || m == 7

/-- What a write asks for: the mode of the match, the list, the next state (0 I, 1 S, 2 F, 3 E, 4 O), the requester, the
agents removed because they answered I or wrote back (R172, R197), and for an unknown line the holders that answered. -/
structure WAsk where
  mode : Nat
  list : WList
  state : Nat
  req : Nat
  removed : List Nat
  unknown : Bool
  answers : HS
  deriving DecidableEq, Repr

/-- The list of a fine write, and whether it is exact (R146). -/
def fineList (a : WAsk) (cur : Option CabW) : HS × Bool :=
  let base : HS := if a.unknown then a.answers else match cur with | some c => hsOf c | none => .ptrs []
  let base := match base with | .ptrs l => HS.ptrs (l.filter (fun x => ! a.removed.contains x)) | h => h
  let exact := match base with | .ptrs _ => true | _ => false
  let r := if a.req < 65536 then [a.req] else []
  match a.list with
  | .r => (.ptrs r, true)
  | .h => (base, exact)
  | .hPlusR => (base.union (.ptrs r), exact)
  | .hMinusR => ((match base with | .ptrs l => HS.ptrs (l.filter (· ≠ a.req)) | h => h), exact)

/-- The forwarder of an S grant (R171). -/
def pickFwd (s : State) (a : WAsk) (cur : Option CabW) (l : List Nat) : Option Nat :=
  let old : Option Nat := match cur with
    | some c => if c.state = 2 ∨ c.state = 4 then c.named else none
    | none => none
  ([a.req] ++ old.toList).find? (fun x => l.contains x ∧ s.shEligible x)

/-- The fine word a write gives: none where the entry writer refuses it (R139, R168), `some none` for an empty word. A grant of S that
names a forwarder is an F word, a pointer set under every sharer scope (R146 step 1, R171; log entry 12). An F whose forwarder is no
longer recorded becomes S (R174). -/
def fineWord (s : State) (d line scope : Nat) (a : WAsk) (cur : Option CabW) : Option (Option CabW) :=
  let (h, exact) := fineList a cur
  let loc := lineIn line
  let sWord := fun (pick : Bool) =>
    let fw : Option (Nat × List Nat) := match h with
      | .ptrs l =>
        if pick ∧ exact ∧ modeF a.mode ∧ ¬ a.unknown ∧ l.length ≤ 4 then (pickFwd s a cur l).map (fun f => (f, l)) else none
      | _ => none
    match fw with
    | some (f, l) => some (some (mkWord line 1 2 (.ptrs (toFront f l)) loc))
    | none => some (some (mkWord line 1 1 (fmtS s d scope exact cur h) loc))
  if a.state = 0 ∨ h = .ptrs [] then some none
  else match a.state with
  | 1 => sWord (a.list ≠ .hMinusR)
  | 2 =>
    if ¬ modeF a.mode then sWord false else
    match h, (match cur with | some c => c.named | none => none) with
    | .ptrs l, some f =>
      if ¬ l.contains f then sWord false
      else if l.length ≤ 4 ∧ bit1 (s.shAgt f) 3 then some (some (mkWord line 1 2 (.ptrs (toFront f l)) loc))
      else none
    | _, _ => none
  | 3 => match h with
    | .ptrs [x] => some (some (mkWord line 1 3 (.ptrs [x]) loc))
    | _ => none
  | _ => match h, (match cur with | some c => c.named | none => none) with
    | .ptrs l, some o => if modeO a.mode ∧ l.contains o ∧ l.length ≤ 4 then
        some (some (mkWord line 1 4 (.ptrs (toFront o l)) loc)) else none
    | _, _ => none

/-- The coarse word after an S write of one of its lines, or after its line goes to I (R142, R145). -/
def coarseWord (s : State) (d line scope : Nat) (a : WAsk) (c : CabW) : Option CabW :=
  let bit := 2 ^ lineIn line
  if a.state = 0 then
    let m := if bit1 c.loc (lineIn line) then c.loc - bit else c.loc
    if m = 0 then none else some { c with loc := m, age := 0 }
  else
    let dead := fun (x : Nat) => a.removed.contains x && s.shState x == 4
    let base := match hsOf c with | .ptrs l => HS.ptrs (l.filter (fun x => ! dead x)) | h => h
    let h := match a.list with
      | .r | .hPlusR => if a.req < 65536 then base.union (.ptrs [a.req]) else base
      | .h => base
      | .hMinusR => match base with | .ptrs l => HS.ptrs (l.filter (· ≠ a.req)) | h => h
    if h = .ptrs [] then none else
    let loc := if a.list = .hMinusR then c.loc else c.loc ||| bit
    some { mkWord line 2 1 (fmtS s d scope false (some c) h) loc with tag := c.tag }

/-- The 16 words of a set as they stand. -/
def peekSet (s : State) (d set : Nat) : List (Nat × Nat) :=
  (List.range 16).map (fun w => (w, drawerW s d (set * 16 + w)))

/-- Writes a word, or an empty one. -/
def putWord (s : State) (d set way : Nat) (c : Option CabW) : State :=
  (drawerWrite s d (set * 16 + way) (match c with | some c => encodeCab c | none => 0)).1

/-- The fine S pointer-set words of a line's sector, which a new coarse word folds in (R144). -/
def foldWays (ws : List (Nat × Nat)) (line : Nat) : List (Nat × CabW) :=
  (ws.map (fun e => (e.1, decodeCab e.2))).filter (fun e =>
    e.2.grain = 1 ∧ e.2.tag = tagOf line ∧ e.2.state = 1 ∧ e.2.shf = 0)

/-- The requester a write and a match name: the agent of a request, the agent that a RECLAIM, RELEASE or PROBE message names; SETTLE
and CENSUS name none (an ID of no agent). -/
def reqOf (t : Trk) : Nat :=
  if t.cls = 0 then t.agent else if t.typ = 0x3C ∨ (t.typ = 0x3D ∧ t.lostBy = 0) then 0x10000 else t.operand

/-- A new coarse word for a sector, recording `h0` for the lines of `loc0`, with the fold of R144. -/
def writeCoarseNew (s : State) (d line scope way : Nat) (h0 : HS) (loc0 : Nat) : State :=
  let set := setOf line
  let fw := foldWays (peekSet s d set) line
  let h := fw.foldl (fun h e => h.union (hsOf e.2)) h0
  let loc := fw.foldl (fun m e => m ||| 2 ^ (e.2.loc % 16)) loc0
  let s := putWord s d set way (some (mkWord line 2 1 (fmtS s d scope false none h) loc))
  let s := slEvent s (logicOf s d) 8
  fw.foldl (fun t e => if e.1 = way then t else putWord t d set e.1 none) s

/-! ### Way choice (R150 to R153) -/

/-- The entry grants S. -/
def grantsS (t : Trk) : Bool := t.cls == 0 && t.rclass == 2

def pinWay (s : State) (d set way : Nat) : State :=
  s.setSlq d { s.slq d with pins := (s.slq d).pins ++ [(set, way)] }
def unpinWay (s : State) (d set way : Nat) : State :=
  s.setSlq d { s.slq d with pins := (s.slq d).pins.erase (set, way) }

def queueEv (s : State) (d : Nat) (e : EvMsg) : State :=
  let s := s.wdogArm d
  s.setSlq d { s.slq d with evQ := (s.slq d).evQ ++ [e] }

/-- ALLOC: chooses a way where the entry needs one; false while it waits in EVICT_WAIT. `folds` says that a new coarse word is to be
written (R144). A decision on an unknown line never evicts (R158); a census does (R226). -/
def allocStep (s : State) (tid : Nat) (line : Nat) (folds : Bool) : State × Bool :=
  let t := s.trkE tid
  let d := tid / 512
  let set := setOf line
  let wait := fun (s : State) => (setT s tid (fun t => { t with tstate := 4 }), false)
  match t.newWay with
  | some _ => (s, t.tstate ≠ 4)
  | none =>
    let ws := peekSet s d set
    let lk := lookIn ws line
    if lk.fine.isSome ∨ (grantsS t ∧ lk.sector.isSome) then (s, true) else
    let avail := ws.filter (fun e => ! pinned s d set e)
    let fold := if folds then (foldWays ws line).map (·.1) else []
    let take := fun (w : Nat) => setT (pinWay s d set w) tid (fun t => { t with newWay := some w })
    if setDead s d set then (s, true)
    else if t.unknown ∧ t.cls = 0 then
      match avail.find? (fun e => (decodeCab e.2).grain = 0) with
      | some (w, _) => (take w, true)
      | none => (s, true)
    else match victim s d avail fold with
    | some w =>
      let empty := ws.any (fun e => e.1 = w ∧ (decodeCab e.2).grain = 0) || fold.contains w
      if empty then (take w, true) else wait (queueEv (take w) d ⟨set, w, some tid, none⟩)
    | none =>
      match lk.line with
      | some (w, _) => wait (queueEv (take w) d ⟨set, w, some tid, none⟩)
      | none => wait s

/-- An entry that has answered for its eviction gives its chosen way up (retirement). -/
def freeWay (s : State) (tid : Nat) (t : Trk) : State :=
  match t.newWay with
  | some w => unpinWay s (tid / 512) (setOf t.pa) w
  | none => s

/-- A pre-transition entry has written an O word after O-settle began (R181). -/
def settlePush (s : State) (tid line : Nat) : State :=
  if (s.trkE tid).pre then
    let q := s.slq (tid / 512)
    s.setSlq (tid / 512) { q with settleQ := if q.settleQ.contains line then q.settleQ else q.settleQ ++ [line] }
  else s

/-- Entries of a slice that wait for a way choose again (R153). -/
def wakeWays (s : State) (n : Nat) : State :=
  { s with work := s.work ++ ((trkOfSlice s n).filter (fun e => e.2.tstate = 4 ∧ e.2.newWay.isNone)).map (fun e => .trk (n * 512 + e.1)) }

/-- The write has been made: MNT entries report it, a SETTLE entry is counted (R185), and a sector scope narrows (R108), which may
unpin ways. -/
def wroteWord (s : State) (tid : Nat) : State :=
  let t := s.trkE tid
  let s := if t.cls = 2 ∧ t.typ = 0x3C ∧ ¬ t.wrote then s.addFld Fld.SWEEP_STATUS_SETTLED 1 else s
  let s := s.setTrkE tid { t with outcome := max t.outcome 1, wrote := true, sector := t.sector && t.cls == 1 }
  if t.sector ∧ t.cls ≠ 1 then wakeWays s (tid / 512) else s

/-- WRITE (R292): the word of the entry's line through the entry writer; false while it waits for a way. E, F or O asked of a line that
was found coarse and was not split is refused (R139). A line that was folded into a coarse word after the decision is split here
(R145), DEDUCED (log entry 92). -/
def writeStep (s : State) (tid : Nat) (l : WList) (code : Nat) : State × Bool :=
  let t := s.trkE tid
  let d := tid / 512
  let line := curLine t
  let set := setOf line
  if t.unknown ∧ ¬ t.rebuild then (s, true) else
  let st := match code with
    | 0 => (match t.next with | 5 => (if t.ans = 2 then 3 else t.ans) | n => n)
    | 1 => 0 | 2 => 1 | 3 => 3 | _ => 4
  let scope := amapScope s (entryOf line)
  let lk := lookIn (peekSet s d set) line
  let a : WAsk := ⟨t.mode, l, st, reqOf t, t.answered ++ t.gone, t.unknown,
    if 5 ≤ t.holders.length then .groups t.groups.toNat else .ptrs (t.holders.map (·.1))⟩
  if 6 ≤ st then
    match lk.fine.orElse (fun _ => lk.line) with
    | some (w, c) =>
      let s := wroteWord (putWord s d set w (some { c with age := 0 })) tid
      (if c.state = 4 then settlePush s tid line else s, true)
    | none => (s, true)
  else
    let fin := fun (s : State) (w : Nat) (cur : Option CabW) =>
      match fineWord s d line scope a cur with
      | none => wrFmtError s d set
      | some none => if cur.isSome then wroteWord (putWord s d set w none) tid else s
      | some (some c) =>
        if cabOk (encodeCab c).toNat then
          let s := wroteWord (putWord s d set w (some c)) tid
          if c.state = 4 then settlePush s tid line else s
        else wrFmtError s d set
    match lk.fine, lk.line, lk.sector with
    | some (w, c), _, _ => (fin s w (some c), true)
    | none, some (w, c), _ =>
      if st ≤ 1 then (wroteWord (putWord s d set w (coarseWord s d line scope a c)) tid, true)
      else if t.grain = 2 then (wrFmtError s d set, true)
      else
        let m := c.loc - 2 ^ lineIn line
        let s := slEvent (putWord s d set w (if m = 0 then none else some { c with loc := m, age := 0 })) (logicOf s d) 9
        let (s, ok) := allocStep s tid line false
        if ¬ ok then (s, false)
        else match (s.trkE tid).newWay with
          | some v => (fin s v none, true)
          | none => (s, true)
    | none, none, some (w, c) =>
      if st = 0 then (s, true)
      else if st = 1 ∧ t.cls ≠ 2 then (wroteWord (putWord s d set w (coarseWord s d line scope a c)) tid, true)
      else
        let (s, ok) := allocStep s tid line false
        if ¬ ok then (s, false)
        else match (s.trkE tid).newWay with
          | some v => (fin s v none, true)
          | none => (s, true)
    | none, none, none =>
      if st = 0 ∨ (fineList a none).1 = .ptrs [] then (s, true) else
      let (s, ok) := allocStep s tid line t.coarsePlan
      if ¬ ok then (s, false)
      else match (s.trkE tid).newWay with
        | some v =>
          if t.coarsePlan ∧ st = 1 then
            (wroteWord (writeCoarseNew s d line scope v (.ptrs [reqOf t]) (2 ^ lineIn line)) tid, true)
          else (fin s v none, true)
        | none => (s, true)

/-- SPLIT (R145 steps 1 and 2): the line leaves the coarse word. -/
def splitStep (s : State) (tid : Nat) : State :=
  let t := s.trkE tid
  let d := tid / 512
  let line := curLine t
  let set := setOf line
  match (lookIn (peekSet s d set) line).line with
  | some (w, c) =>
    let m := c.loc - 2 ^ lineIn line
    let s := putWord s d set w (if m = 0 then none else some { c with loc := m, age := 0 })
    wakeWays (setT (slEvent s (logicOf s d) 9) tid (fun t => { t with sector := false, tstate := 5 })) d
  | none => setT s tid (fun t => { t with sector := false })

/-! ### Snoop phases (R78, R518) -/

def wordDesc (c : CabW) : SnpDesc :=
  match c.shf with
  | 0 => .ptrs c.ptrs
  | 1 => .groups (BitVec.ofNat 64 c.sharers)
  | _ => .tenant

def snoopDesc (t : Trk) (g : SnpTgt) : SnpDesc :=
  let c := decodeCab t.uword.toNat
  match g with
  | .holders | .others => wordDesc c
  | .owner | .fwdr => .ptrs c.named.toList
  | .tenant => .tenant
  | .agent => .ptrs [t.operand]
  | .rest => .ptrs (c.ptrs.filter (fun a => some a ≠ c.named))

def isDf (k : SnpKind) : Bool := k == .fwdKeep || k == .fwdClean

/-- Starts a snoop phase; false while a kept record of another phase is open (R518). -/
def startPhase (s : State) (tid : Nat) (k : SnpKind) (g : SnpTgt) : State × Bool :=
  let t := s.trkE tid
  let desc := snoopDesc t g
  let excl := if t.cls = 0 then some t.agent else none
  let t1 := { t with snpOut := true, phKind := k, phDesc := desc, phExcl := excl }
  let plain := fun (s : State) =>
    let s := slEvent (s.setTrkE tid t1) (logicOfTid s tid) 11
    (sendSnoop s ⟨tid, k, curLine t, desc, excl, t.agent, t.hdr.tag.toNat⟩, true)
  match t.kept with
  | none => plain s
  | some (a, none) =>
    if isDf k ∧ desc = .ptrs [a] then
      let f := s.fanE tid
      ((s.setTrkE tid { t1 with kept := none }).setFanE tid { f with kept := false, orphan := false, kind := k }, true)
    else (s.setTrkE tid { t with tstate := 2 }, false)
  | some (a, some m) =>
    if isDf k ∧ desc = .ptrs [a] then
      let st := if m = 3 then 0 else m
      let d : SnpDone := ⟨tid, st, 1, if m = 3 then 2 else 0, if st = 0 then [] else [(a, st)], 0⟩
      ({ s.setTrkE tid t1 with port := { s.port with
        snpDone := SMap.upd (fun _ => []) s.port.snpDone (tid / 512) (fun l => l ++ [d]) } }, true)
    else plain s

/-! ### The dead-owner path (R218, R219) -/

def deadSteps (t : Trk) (c : CabW) : List AStep :=
  let write : AStep :=
    if t.cls ≠ 0 then .write .hMinusR 1
    else if t.rclass = 3 then .write .r 3
    else if t.rclass = 2 then .write .r 2
    else if t.next ≠ 0 ∧ c.has t.agent then .write .r 2 else .write .r 1
  let wrNa := t.cls == 0 && t.typ == 0x13
  (if wrNa then [.memwr 0] else [.poison]) ++
  (if c.state = 4 then [.snoop .inv .rest, .wait true false] else []) ++
  [.wait false true] ++ (if owesType t then [.dataPoison] else []) ++ [write] ++
  (if wrNa then [] else [.lost t.lostBy]) ++ (if t.cls = 0 then [.final] else [])

/-- SNPDONE reaches its entry (R81, R218). -/
def takeDone (s : State) (d : SnpDone) : State :=
  let t := s.trkE d.tid
  if ¬ t.valid ∨ ¬ t.snpOut then s else
  let c := decodeCab t.uword.toNat
  let quiet := if d.merged = 0 ∧ 0 < d.count then
      (match t.phDesc with | .ptrs as => as.filter (fun a => some a ≠ t.phExcl) | _ => []) else []
  let deads := if d.dead ≠ 0 then c.ptrs.filter (fun a => s.shState a = 4) else []
  let t1 := { t with
    snpOut := false, ans := d.merged, ansDead := d.dead, ansCount := d.count, holders := d.holders, groups := d.groups
    answered := t.answered ++ (quiet ++ deads).filter (fun a => ! t.answered.contains a) }
  let byO := fun (o : Nat) => t.taken.any (fun k => k.agent == o)
  let t2 := match c.named with
    | some o =>
      if t.dead.isNone ∧ 3 ≤ c.state ∧ deads.contains o ∧ ¬ byO o then
        let by_ := if t.cls = 0 then (if d.dead = 2 then 0 else 1) else 3
        let t3 := { dropRead t1 with dead := some o, lostBy := by_ }
        { t3 with prog := t3.prog.take t3.step ++ deadSteps t3 c, lasts := t3.lasts.filter (· < t3.step), fetch := none }
      else t1
    | none => t1
  (s.setTrkE d.tid t2).addWork (.trk d.tid)

/-! ### Writebacks taken (R193, R197, R198) -/

/-- The writeback taken last as the entry's data. -/
def takenData (t : Trk) : Option Taken := (t.taken.filter (·.given)).getLast?

/-- A partial writeback was taken and the requester still needs the reread's data. -/
def rereadDue (t : Trk) : Bool :=
  owesType t && ! t.dataSent && t.taken.any (fun k => k.given && k.part)

/-- The taken full line is given to the requester at once (R193). -/
def giveTaken (s : State) (tid : Nat) (k : Taken) (d : Line) : State :=
  let t := s.trkE tid
  if owesType t ∧ ¬ t.dataSent ∧ ¬ k.part then sendData s tid (some d) k.poison else s

/-- Gives the reread's data when it has come and no phase is open; starts the reread once the write has gone (R198). -/
def rereadPump (s : State) (tid : Nat) : State :=
  let t := s.trkE tid
  if ¬ rereadDue t then s else
  match t.mdata with
  | some (d, p) => if t.snpOut then s else sendData s tid (some d) p
  | none => if t.rdOp.isNone ∧ t.wrWait.isEmpty then (startRead s tid).1 else s

/-! ### Census words (R226) -/

/-- The words a census entry writes from what its phases found: E lines, then the sector's S lines in one coarse word or
in fine words. -/
def censusWords (s : State) (t : Trk) : List CabW :=
  let d := sliceOf t.pa
  let scope := amapScope s (entryOf t.pa)
  let eOf := fun (h : List (Nat × Nat)) => (h.filter (fun x => x.2 = 2)).map (·.1)
  let es := t.found.filterMap (fun f => match eOf f.2.1 with
    | [a] => some (mkWord f.1 1 3 (.ptrs [a]) (lineIn f.1))
    | _ => none)
  let ss := t.found.filter (fun f => (eOf f.2.1).isEmpty ∧ ¬ f.2.1.isEmpty)
  let hs := fun (f : Nat × List (Nat × Nat) × BitVec 64) =>
    if 5 ≤ f.2.1.length then HS.groups f.2.2.toNat else HS.ptrs (f.2.1.map (·.1))
  let n := s.fld Fld.CAB_CTL_STREAM_N d
  let coarse := scope = 1 ∨ ((scope = 0 ∨ scope = 2) ∧ n ≠ 0 ∧ max 2 (min 16 n) ≤ ss.length)
  if ss.isEmpty then es
  else if coarse then
    let h := ss.foldl (fun h f => h.union (hs f)) (HS.ptrs [])
    let loc := ss.foldl (fun m f => m ||| 2 ^ lineIn f.1) 0
    es ++ [mkWord t.pa 2 1 (fmtS s d scope true none h) loc]
  else es ++ ss.map (fun f => mkWord f.1 1 1 (fmtS s d scope true none (hs f)) (lineIn f.1))

/-- Writes the census words one after another, each into a way of its own; a coarse word folds in the fine words that decisions have
recorded in the sector (R144). A set with no way left records nothing (R153). -/
def censusStep : Nat → Nat → State → State × Bool
  | 0, _, s => (s, true)
  | fuel + 1, tid, s =>
    let t := s.trkE tid
    match (censusWords s t)[t.wi]? with
    | none => (s, true)
    | some c =>
      let d := tid / 512
      let set := setOf t.pa
      let (s, ok) := allocStep s tid (t.pa / 16 * 16 + (if c.grain = 1 then c.loc % 16 else 0)) (c.grain == 2)
      if ¬ ok then (s, false)
      else
        let t := s.trkE tid
        let s := match t.newWay with
          | some w =>
            let s := if c.grain = 1 then putWord s d set w (some c)
              else writeCoarseNew s d (t.pa / 16 * 16) (amapScope s (entryOf t.pa)) w (hsOf c) c.loc
            wakeWays (unpinWay s d set w) d
          | none => s
        censusStep fuel tid (setT s tid (fun t => { t with newWay := none, wi := t.wi + 1, outcome := max t.outcome 1 }))

/-! ### Steps (R292 to R295) -/

def adv (s : State) (tid : Nat) : State := setT s tid (fun t => { t with step := t.step + 1 })
def waitIn (s : State) (tid ts : Nat) : State × Bool := (setT s tid (fun t => { t with tstate := ts }), false)

/-- The data held for the requester carries poison. -/
def heldPoison (t : Trk) : Bool :=
  match takenData t, t.mdata with
  | some k, none => k.poison
  | _, some (_, p) => p
  | none, none => false

/-- BRANCH conditions (R294). -/
def branchCond (t : Trk) (c : Nat) : Bool :=
  match c with
  | 0 => t.ans == 0
  | 1 => t.ans == 1
  | 2 => t.ans == 2
  | 3 => t.wbTaken
  | 4 => t.ansDead != 0
  | 5 => match takenData t with | some k => k.part | none => false
  | 6 => true
  | _ => heldPoison t

/-- The bytes that byte enables select. -/
def beMask (be : BitVec 64) : Line :=
  (List.range 64).foldl (fun a i => if be.getLsbD i then a ||| (0xFF#512 <<< (8 * i)) else a) 0#512

/-- The data of MEMWR by its source (R292): 0 the requester's data (R69), with its byte enables where the request is partial; 1 the
taken writeback; 2 the requester's bytes merged over the buffer, or, with nothing in it, over memory. -/
def wrData (s : State) (t : Trk) (src : Nat) : Option WrReq :=
  let full := fun (d : Line) => WrReq.mk 1 (curLine t) d (BitVec.allOnes 64) none
  if src = 1 then
    (takenData t).map (fun k =>
      let d := s.datE k.port k.dat
      if k.poison then ⟨3, curLine t, 0, 0, none⟩ else if k.part then ⟨2, curLine t, d.data, d.hdr.be, none⟩ else full d.data)
  else match t.reqDat with
  | none => none
  | some (p, e) =>
    let d := s.datE p e
    let be := if t.typ = 0x17 then d.hdr.be else BitVec.allOnes 64
    if d.hdr.poison then some ⟨3, curLine t, 0, 0, none⟩
    else match src, t.mdata with
      | 2, some (m, _) => some (full ((m &&& ~~~ beMask be) ||| (d.data &&& beMask be)))
      | _, _ => if t.typ = 0x17 then some ⟨2, curLine t, d.data, be, none⟩ else some (full d.data)

/-- RB_ERR_INFO latches the error that is about to set a bit of RB_ERR while all its bits are 0 (R311). -/
def rbErrInfo (s : State) (n typ idx : Nat) : State :=
  if (s.reg .RB_ERR).toNat % 4 = 0 then
    ((s.setFld Fld.RB_ERR_INFO_LSLICE n).setFld Fld.RB_ERR_INFO_TYPE typ).setFld Fld.RB_ERR_INFO_STEP idx
  else s

/-- What a bad step raises (R295), and what a message that no rule matches does (R291). -/
def badStepFault (s : State) (n typ idx set : Nat) : State :=
  makeBlind (raiseSlice ((rbErrInfo s n typ idx).setFld Fld.RB_ERR_BAD_STEP 1) n 0x24 n) n set 1
def noRuleFault (s : State) (n typ set : Nat) : State :=
  makeBlind (raiseSlice ((rbErrInfo s n typ 0).setFld Fld.RB_ERR_NORULE 1) n 0x23 n) n set 1

/-- A BAD_STEP (R295). -/
def badStep (s : State) (tid idx : Nat) : State :=
  let t := s.trkE tid
  let d := tid / 512
  let s := badStepFault s d t.typ idx (setOf t.pa)
  setT s tid (fun t => { t with step := t.prog.length })

/-- A LOST record (R223), counted by the running reclaim (R220). -/
def lostRecord (s : State) (tid by_ : Nat) : State :=
  let t := s.trkE tid
  let c := decodeCab t.uword.toNat
  let d := match t.dead with | some d => d | none => t.operand
  let s := s.addFld Fld.RECLAIM_LOST_LOST 1
  let s := setT s tid (fun t => { t with outcome := max t.outcome 2 })
  parReady s (recOf ([(0x41, 0, 8), (d, 8, 16), (curLine t, 24, 42), (tenantOf s t.pa, 66, 10),
    (if c.state = 4 then 1 else 0, 76, 1), (by_, 77, 2)] ++ recTail s.now))

/-- Raises SL_PROTO for an entry. -/
def proto (s : State) (tid : Nat) : State :=
  setT (raiseSlice s (tid / 512) 0x22 (tid / 512)) tid (fun t => { t with outcome := max t.outcome 3 })

/-- One action step; false where the entry waits. -/
def runStep (s : State) (tid : Nat) (st : AStep) : State × Bool :=
  let t := s.trkE tid
  let next := fun (s : State) => (adv s tid, true)
  -- the step is done once its message has left; until then the entry waits in EGRESS (R107, R293)
  let gone := fun (s : State) =>
    let u := s.trkE tid
    if (if st = .final then u.finalLeft else u.dataLeft) then next s else waitIn s tid 6
  match st with
  | .nop => next s
  | .snoop k g =>
    if t.snpOut then waitIn s tid 2
    else
      let (s, ok) := startPhase s tid k g
      if ok then next s else (s, false)
  | .memrd =>
    -- after a partial writeback the reread of R198 is the entry's read; a writeback waiting for REL goes first (R189)
    if rereadDue t then next s
    else if ¬ t.wrWait.isEmpty then waitIn s tid 7
    else
      let (s, ok) := startRead (s.setTrkE tid (dropRead t)) tid
      -- data taken from a writeback stays the entry's data, and the read's is discarded (R190)
      if ok then next (if (takenData t).isSome then setT s tid dropRead else s) else (s, false)
  | .memwr src =>
    if ¬ mayWrite t then waitIn s tid 7
    else match wrData s t src with
      | some w => next (issueWr s tid w true)
      | none => next s
  | .poison =>
    if ¬ mayWrite t then waitIn s tid 7
    else next (issueWr s tid ⟨3, curLine t, 0, 0, none⟩ true)
  | .wait snp mem =>
    let w1 := snp && t.snpOut
    let w2 := mem && (t.rdOp.isSome || ! t.wrWait.isEmpty || ! t.wrOps.isEmpty)
    if w1 ∧ w2 then waitIn s tid 3 else if w1 then waitIn s tid 2 else if w2 then waitIn s tid 1 else next s
  | .branch c neg j =>
    if branchCond t c != neg then (setT s tid (fun t => { t with step := j }), true) else next s
  | .data src =>
    if ¬ owesType t ∨ t.dataLeft then next s
    else if t.dataSent ∨ t.snpOut ∨ rereadDue t ∨ (src = 0 ∧ t.mdata.isNone ∧ t.rdOp.isSome) then waitIn s tid 6
    else
      let held : Option (Line × Bool) := if src = 0 then t.mdata else (takenData t).map (fun k => ((s.datE k.port k.dat).data, k.poison))
      match held with
      | some (d, p) => gone (sendData s tid (some d) p)
      | none => next s
  | .dataPoison =>
    if t.dataLeft then next s else if t.dataSent then waitIn s tid 6 else gone (sendData s tid none true)
  | .final =>
    if ! owesNdr t ∨ t.finalLeft then next s
    else if t.finalSent ∨ t.snpOut ∨ rereadDue t ∨ ¬ t.ownWr.isEmpty ∨
        ((t.typ = 0x13 ∨ t.typ = 0x17) ∧ (¬ t.wrWait.isEmpty ∨ ¬ t.wrOps.isEmpty)) then waitIn s tid 6
    else gone (sendFinal s tid)
  | .write l c =>
    let (s, ok) := writeStep s tid l c
    if ok then next s else (s, false)
  | .split => next (splitStep s tid)
  | .alloc =>
    let (s, ok) := allocStep s tid (curLine t) (t.coarsePlan)
    if ok then next s else (s, false)
  | .proto => next (proto s tid)
  | .reread =>
    if ¬ t.wrWait.isEmpty then waitIn s tid 7
    else
      let (s, ok) := startRead (s.setTrkE tid (dropRead t)) tid
      if ok then next s else (s, false)
  | .bad idx => (badStep s tid idx, true)
  | .atLine i => next (setT s tid (fun t => { t with sub := i }))
  | .note =>
    if t.deadline ≠ 0 then (s, false)
    else if 2 ≤ (t.holders.filter (fun h => h.2 = 2)).length then
      if t.rounds < 3 then
        (setT s tid (fun t => { t with rounds := t.rounds + 1, deadline := s.now + 10000, tstate := 2 }), false)
      else next (setT (proto s tid) tid (fun t => { t with rounds := 0 }))
    else next (setT s tid (fun t => { t with rounds := 0, found := t.found ++ [(curLine t, t.holders, t.groups)] }))
  | .census =>
    let (s, ok) := censusStep 32 tid s
    if ok then next s else (s, false)
  | .lost b => next (lostRecord s tid b)

/-- The requester has its data by a direct forward: the holder that was asked did not answer I (R192, R194). -/
def forwarded (t : Trk) : Bool := isDf t.phKind && t.ans != 0

/-- The completion of R295 when a sequence has ended: DATA with poison and SL_PROTO where the type owes data and none has left, then
the final message of RCLASS. The entry ends, in RETIRE, when all it owes has left. -/
def endSeq (s : State) (tid : Nat) : State × Bool :=
  let t := s.trkE tid
  let dataDue : Bool := t.cls == 0 && ! t.dataSent && (dataFinal t || (owesType t && ! forwarded t))
  if completed t ∧ ¬ dataDue ∧ (t.dataSent → t.dataLeft) then
    (setT s tid (fun t => { t with ended := true, tstate := 9 }), true)
  else if (dataDue ∨ ¬ t.finalSent) ∧ t.snpOut then waitIn s tid 2
  else if (dataDue ∨ ¬ t.finalSent) ∧ (rereadDue t ∨ t.rdOp.isSome ∨ ¬ t.wrWait.isEmpty ∨ ¬ t.wrOps.isEmpty) then waitIn s tid 1
  else if dataDue then (proto (sendData s tid none true) tid, true)
  else if owesNdr t ∧ ¬ t.finalSent then (sendFinal s tid, true)
  else waitIn s tid 6

/-! ### Retirement (R115, R187) -/

def mayRetire (t : Trk) : Bool :=
  t.valid && t.ended && ! t.snpOut && t.rdOp.isNone && t.rdDrop.isEmpty && t.wrWait.isEmpty && t.wrOps.isEmpty && completed t &&
  (match t.kept with | some (_, none) => false | _ => true)

/-- A line whose busy work ends becomes reserved for the head of its reservations; the guard starts afresh (R115). -/
def reserveLine (s : State) (n line : Nat) : State :=
  let q := s.slq n
  if q.cq.any (fun r => r.line = line) then
    let g := max 1 (s.fld Fld.SL_CTL_CQ_GUARD (logicOf s n)) * 100
    s.setSlq n { q with reserved := q.reserved.filter (fun e => e.1 ≠ line) ++ [(line, s.now + g)] }
  else s

/-- The status and result of an MNT entry's completion (R260). -/
def mntResult (s : State) (t : Trk) : Nat × Nat :=
  if t.typ = 0x3F then (if t.ansCount = 0 ∨ t.snpOut then (0, 0) else (1, s.now - t.start)) else (t.outcome, 0)

/-- Entries of a slice that wait for a way, and those of its cluster that wait for a data buffer, run again. -/
def wakeWaiters (s : State) (n : Nat) : State :=
  let s := wakeWays s n
  let c := n / 8
  let bufs := (SMap.slice s.sl.trk (c * 4096) 4096).filter (fun e =>
    e.2.valid ∧ e.2.tstate = 1 ∧ ¬ e.2.memOut ∧ ¬ e.2.dbufV)
  { s with work := s.work ++ bufs.map (fun e => .trk (c * 4096 + e.1)) }

end Sys2Proof.Machine
end

