-- ==== Sys2Proof/Machine/Thread.lean ====
section
/-! DEFINITION. Steward threads (chapter 09): their registers and local memory, advancing, traps (R275 to R277), halting and
the end of locks (R257), the inbox (R260, R262), and the Hutch (chapter 11) through which they fetch, load and store. -/

namespace Sys2Proof.Machine

/-! ### Threads -/

/-- A thread as every start leaves it (R237, R269, R282). -/
def thr0 : Thread :=
  { g := [], p := 0, pc := 0, last := 0, run := 0, blk := .none_, tvec := 0, epc := 0, tcause := 0, tinfo := 0,
    blkTmo := 200000, inTrap := false, inbox := [], credits := 0, locks := [], lockSeq := none, pkt := [], fetched := [],
    late := [], stopReq := false }

def hEnt0 : HEnt := ⟨false, false, 0, 0, 0⟩
def hutch0 : Hutch := ⟨[], [], none, none, none, [], 0, none⟩

namespace State

def thr (s : State) (t : Nat) : Thread := SMap.getD (fun _ => thr0) s.stw.thr t
def setThr (s : State) (t : Nat) (v : Thread) : State :=
  { s with stw := { s.stw with thr := SMap.set (fun _ => thr0) s.stw.thr t v } }

def hut (s : State) (c : Nat) : Hutch := SMap.getD (fun _ => hutch0) s.hutch c
def setHut (s : State) (c : Nat) (v : Hutch) : State :=
  { s with hutch := SMap.set (fun _ => hutch0) s.hutch c v }

/-- A general register: g0 reads 0 (R237). -/
def greg (s : State) (t n : Nat) : BitVec 64 := if n = 0 then 0 else SMap.getD (fun _ => 0) (s.thr t).g n

/-- Writes a general register: a write of g0 is discarded (R237). -/
def setGreg (s : State) (t n : Nat) (v : BitVec 64) : State :=
  if n = 0 then s else s.setThr t { s.thr t with g := SMap.set (fun _ => 0) (s.thr t).g n v }

/-- Predicate p. -/
def pred (s : State) (t n : Nat) : Bool := (s.thr t).p.getLsbD n
def setPred (s : State) (t n : Nat) (b : Bool) : State :=
  let p := (s.thr t).p
  s.setThr t { s.thr t with p := if b then p ||| (1#8 <<< n) else p &&& ~~~ (1#8 <<< n) }

/-- A local memory word (R242), as written last. -/
def lword (s : State) (t w : Nat) : BitVec 64 := SMap.getD (fun _ => 0) s.stw.lmem (t * 8192 + w)

end State

/-- Writes a local memory word with fresh check bits (R242). -/
def lwrite (s : State) (t w : Nat) (v : BitVec 64) : State :=
  wordWritten { s with stw := { s.stw with lmem := SMap.set (fun _ => 0) s.stw.lmem (t * 8192 + w) v } } .stw t w

/-- Reads a local memory word: none where it is uncorrectable (R242). -/
def lread (s : State) (t w : Nat) : State × Option (BitVec 64) :=
  let (s, r) := wordRead s .stw t w
  (s, r.map (fun d => s.lword t w ^^^ BitVec.ofNat 64 d))

/-- The thread's steward has FAILED (R280). -/
def stwFailed (s : State) (c : Nat) : Bool := s.fld Fld.STW_STATUS_FAILED c == 1

/-- State of a thread as STW_STATUS shows it: all read 0 after a core failure (R284). -/
def threadState (s : State) (t : Nat) : Nat := if stwFailed s (t / 4) then 0 else (s.thr t).run

/-- The instruction has completed: PC moves on by `n` bytes. -/
def advance (s : State) (t n : Nat) : State :=
  s.setThr t { s.thr t with pc := (s.thr t).pc + BitVec.ofNat 64 n, blk := .none_, fetched := [] }

/-- Branches to an address. -/
def jump (s : State) (t : Nat) (a : BitVec 64) : State :=
  s.setThr t { s.thr t with pc := a, blk := .none_, fetched := [] }

/-- Sends LOCK (4) or UNLOCK (5) for a thread on a port (R340, R348). -/
def seqOp (s : State) (t kind port : Nat) : State :=
  (issueOn s ⟨kind, .lock t s.mem.nextId, port, 0, 0, 0, false, t / 4, [port]⟩).1

/-- Closes the thread's open locked sequence, or one that it is still opening (R264, R272, R280, R348). -/
def closeSeq (s : State) (t : Nat) : State :=
  let held := match (s.thr t).lockSeq, (s.thr t).blk with
    | some (ps, _), _ => ps
    | none, .mlock _ _ held _ _ _ => held
    | none, _ => []
  held.foldl (fun u p => seqOp u t 5 p) (s.setThr t { s.thr t with lockSeq := none })

/-- A lock's tracker entry retires (R257). -/
def endLock (s : State) (tid : Nat) : State :=
  if (s.trkE tid).valid ∧ (s.trkE tid).cls = 2 ∧ (s.trkE tid).typ = 0 then
    (setT s tid (fun t => { t with ended := true })).addWork (.trk tid)
  else s

/-- All locks of a thread end; a later dunlock of them answers LOST (R257). -/
def endLocks (s : State) (t : Nat) : State :=
  let s1 := (s.thr t).locks.foldl (fun u l => if l.lost then u else endLock u l.tid) s
  s1.setThr t { s1.thr t with locks := (s1.thr t).locks.map (fun l => { l with lost := true }) }

/-- A blocked dlock that ends without its lock leaves its slice's queue (R257). -/
def dropDlock (s : State) (t : Nat) : State :=
  { s with sl := { s.sl with sl := s.sl.sl.map (fun e =>
    (e.1, { e.2 with mntQ := e.2.mntQ.filter (fun m => ! (m.typ == 0 && m.agent == t)) })) } }

/-- The thread becomes HALTED (R272, R283). -/
def haltThread (s : State) (t : Nat) : State :=
  let s := endLocks (closeSeq s t) t
  s.setThr t { s.thr t with run := 0, blk := .none_, pkt := [], stopReq := false, fetched := [] }

/-- A STOP that waited for the blocking instruction acts at the boundary (R283). -/
def boundary (s : State) (t : Nat) : State := if (s.thr t).stopReq then haltThread s t else s

/-- A trap (R277): the handler continues, or the thread becomes FAULTED. -/
def trap (s : State) (t cause : Nat) (info : BitVec 64) : State :=
  let s := clEvent (closeSeq s t) (t / 4) 8
  let th := s.thr t
  let th1 := { th with epc := th.pc, tcause := cause, tinfo := info, inTrap := true, blk := .none_, fetched := [] }
  if th.tvec ≠ 0 ∧ ¬ th.inTrap then boundary (s.setThr t { th1 with pc := th.tvec }) t
  else
    let s := endLocks (s.setThr t { th1 with run := 3, stopReq := false }) t
    let s := (s.setFld Fld.STW_TRAP_CAUSE cause (t / 4) (t % 4)).setFld Fld.STW_TRAP_NESTED (b2n th.inTrap) (t / 4) (t % 4)
    raiseCluster s (t / 4) 0x40 t

/-- The time a wait that begins now ends under BLK_TMO; 0 for no limit (R269). -/
def blkLimit (s : State) (t : Nat) : Nat :=
  if (s.thr t).blkTmo = 0 then 0 else s.now + (s.thr t).blkTmo.toNat

/-! ### Inbox (R260, R262) -/

/-- KIND of a message: 0 MNT completion, 1 eviction completion, 2 mailbox. -/
def InMsg.kind (m : InMsg) : Nat := bits m.lo.toNat 22 2

/-- A message reaches an inbox. A yield that waits for a message ends with YIELD_WAKE; the completions of a failed steward
are discarded (R280). -/
def inboxPush (s : State) (t : Nat) (m : InMsg) : State :=
  if stwFailed s (t / 4) then s else
  let th := s.thr t
  let blk := match th.blk with
    | .yield u b _ => .yield u b true
    | b => b
  s.setThr t { th with inbox := th.inbox ++ [m], blk := blk }

/-- A completion message for a thread (R260). -/
def completion (kind typ status cookie tid result : Nat) : InMsg :=
  ⟨BitVec.ofNat 64 (cookie % 65536 + typ % 64 * 2 ^ 16 + kind % 4 * 2 ^ 22 + status % 256 * 2 ^ 24 + tid % 65536 * 2 ^ 32),
   BitVec.ofNat 64 result⟩

/-- mwait takes the oldest message into its register pair (R262). -/
def takeMsg (s : State) (t gd pd : Nat) : State :=
  match (s.thr t).inbox with
  | [] => s
  | m :: rest =>
    let cpl := m.kind != 2
    let s := if cpl then clEvent s (t / 4) 7 else s
    let th := s.thr t
    let s := s.setThr t { th with inbox := rest, credits := if cpl then th.credits - 1 else th.credits }
    ((s.setGreg t gd m.lo).setGreg t (gd + 1) m.hi).setPred t pd true

/-- Returns completion credits without a message (R261). -/
def creditBack (s : State) (t n : Nat) : State :=
  s.setThr t { s.thr t with credits := (s.thr t).credits - n }

/-- TSTATUS.IRQ of a thread (R274): its steward has an eligible interrupt and it is IRQ_THREAD. -/
def thrIrq (s : State) (t : Nat) : Bool :=
  s.fld Fld.STW_CTL_IRQ_THREAD (t / 4) == t % 4 && ! (eligibleSrcs s (t / 4)).isEmpty

/-! ### The Hutch -/

def hutEnt (s : State) (c i : Nat) : HEnt := SMap.getD (fun _ => hEnt0) (s.hut c).ent i
def setHutEnt (s : State) (c i : Nat) (e : HEnt) : State :=
  s.setHut c { s.hut c with ent := SMap.set (fun _ => hEnt0) (s.hut c).ent i e }
def hutEvb (s : State) (c k : Nat) : Option HEvb := SMap.getD (fun _ => none) (s.hut c).evb k
def setHutEvb (s : State) (c k : Nat) (e : Option HEvb) : State :=
  s.setHut c { s.hut c with evb := SMap.set (fun _ => none) (s.hut c).evb k e }

/-- The entry or the eviction-buffer entry that holds a line (R314). -/
def hutFind (s : State) (c line : Nat) : Option Nat :=
  (List.range 48).find? (fun i => let e := hutEnt s c i; e.valid && e.line == line)
def evbFind (s : State) (c line : Nat) : Option Nat :=
  (List.range 4).find? (fun k => match hutEvb s c k with | some e => e.line == line | none => false)

/-- A 64-bit word of a line, and a line with one word replaced. -/
def lineWord (l : Line) (k : Nat) : BitVec 64 := (l >>> (64 * k)).setWidth 64
def setLineWord (l : Line) (k : Nat) (v : BitVec 64) : Line :=
  (l &&& ~~~ ((0xFFFFFFFFFFFFFFFF#512) <<< (64 * k))) ||| ((v.setWidth 512) <<< (64 * k))

/-- The address map entry a steward access of a line names is valid (R241). -/
def hutMapped (s : State) (line : Nat) : Bool := bit1 (amapW s (entryOf line)) 0

/-- Words of an entry are written with fresh check bits. -/
def hutWritten (s : State) (c i : Nat) : State :=
  (List.range 8).foldl (fun t k => wordWritten t .hutch c (8 * i + k)) s

/-- Sends a line's write from eviction-buffer entry `k` (R324). -/
def evbSend (s : State) (c k line : Nat) (data : Line) (poison : Bool) : State :=
  let id := s.mem.nextId
  let s := setHutEvb s c k (some ⟨line, data, id, false, poison⟩)
  (issueMem s (if poison then 3 else 1) (.hutchEv c k) line data 0 false c).1

/-- A free eviction-buffer entry. -/
def evbFree (s : State) (c : Nat) : Option Nat := (List.range 4).find? (fun k => (hutEvb s c k).isNone)

/-- The entry a requester's miss takes (R320): the lowest invalid one of its mask, else the highest age, lowest number; none whose
fill or maintenance operation is in progress. -/
def hutVictim (s : State) (c req : Nat) : Option Nat :=
  let busy := fun (i : Nat) =>
    (match (s.hut c).maint with
     | some m => m.writing && (hutEnt s c i).valid && (hutEnt s c i).line == m.line
     | none => false) ||
    (match (s.hut c).miss with | some m => m.victim == some i | none => false)
  let es := (List.range 48).filter (fun i => bit1 (s.fld Fld.HUTCH_MASK_MASK c req) i && ! busy i)
  match es.find? (fun i => ! (hutEnt s c i).valid) with
  | some i => some i
  | none => es.foldl (fun b i => match b with
    | none => some i
    | some j => if (hutEnt s c j).age < (hutEnt s c i).age then some i else some j) none

/-- The value a load takes from a word of data, extended (R251). -/
def loadVal (l : Line) (n : Nat) (signed : Bool) (off : Nat) : BitVec 64 :=
  let v := (l >>> (8 * off)).setWidth 64
  match n with
  | 1 => if signed then (v.setWidth 8).signExtend 64 else (v.setWidth 8).setWidth 64
  | 2 => if signed then (v.setWidth 16).signExtend 64 else (v.setWidth 16).setWidth 64
  | 4 => if signed then (v.setWidth 32).signExtend 64 else (v.setWidth 32).setWidth 64
  | _ => v

/-- The Hutch-window address of a line's byte. -/
def hutAddr (line off : Nat) : BitVec 64 := BitVec.ofNat 64 (2 ^ 48 + line * 64 + off)

/-- An access traps HUTCH_UE (R243); for the bulk engine the operation fails. -/
def accFail (s : State) (a : HAcc) : State :=
  match a.thr with
  | some t =>
    if a.kind = .boot then { s with start := { s.start with boot := { s.start.boot with wait := false, bad := true } } } else
    if (s.thr t).blk ≠ .hutch then s else
    let off := match a.kind with | .load _ _ _ o => o | .store o _ => o | .fetch o => o | _ => 0
    trap s t 5 (hutAddr a.line off)
  | none => s.setBulkE a.region { s.bulkE a.region with fetching := false, queue := (s.bulkE a.region).queue.drop 1 }

/-- A thread's access has its line: it ends. -/
def accData (s : State) (a : HAcc) (d : Line) : State :=
  match a.thr with
  | some t =>
    if a.kind = .boot then { s with start := { s.start with boot := { s.start.boot with
      words := s.start.boot.words ++ (List.range 16).map (fun k => (d >>> (32 * k)).setWidth 32), wait := false } } } else
    if (s.thr t).blk ≠ .hutch then s else
    (match a.kind with
     | .fetch _ => boundary (s.setThr t { s.thr t with blk := .none_, fetched := (s.thr t).fetched ++ [a.line] }) t
     | .load gd n sg off => boundary (advance (s.setGreg t gd (loadVal d n sg off)) t 4) t
     | .store _ _ => boundary (advance s t 4) t
     | _ => s)
  | none => s

/-- The words of an entry an access reads: all 8 for the bulk engine and a fetch's or load's one. -/
def accWords (a : HAcc) : List Nat :=
  match a.kind with
  | .load _ _ _ off => [off / 8]
  | .store _ _ => []
  | .fetch off => [off / 8]
  | _ => List.range 8

/-- Reads the words of an entry that an access needs: their deviation, or none where one is uncorrectable. -/
def entRead (s : State) (c i : Nat) : List Nat → State × Option Line
  | [] => (s, some 0)
  | k :: ks =>
    let (s, r) := wordRead s .hutch c (8 * i + k)
    match r with
    | none => (s, none)
    | some d =>
      let (s, q) := entRead s c i ks
      (s, q.map (fun l => l ^^^ ((BitVec.ofNat 512 d) <<< (64 * k))))

/-- A dirty line leaves its entry for memory (R319): its data, with poison where a word cannot be read. -/
def hutOut (s : State) (c i : Nat) : State × Line × Bool :=
  let e := hutEnt s c i
  let (s, r) := entRead s c i (List.range 8)
  match r with
  | some dev => (s, e.data ^^^ dev, false)
  | none => (s.setFld Fld.HUTCH_STATUS_UE 1 c, 0, true)

/-- A dirty victim moves to eviction-buffer entry `k`. -/
def evictTo (s : State) (c i k : Nat) : State :=
  let line := (hutEnt s c i).line
  let (s, d, p) := hutOut s c i
  setHutEnt (evbSend s c k line d p) c i { hutEnt s c i with valid := false, dirty := false }

/-- What an access leaves of a line: a store's word replaced. -/
def accLine (a : HAcc) (d : Line) : Line :=
  match a.kind with
  | .store off v => setLineWord d (off / 8) v
  | .prog done res _ => setLineWord (setLineWord d 3 ((lineWord d 3 &&& ~~~ 0xFFFFFFFF#64) ||| BitVec.ofNat 64 (done % 2 ^ 32))) 4
      ((lineWord d 4 &&& ~~~ 3#64) ||| BitVec.ofNat 64 (res % 4))
  | _ => d

def isStore (a : HAcc) : Bool := match a.kind with | .store _ _ => true | .prog _ _ _ => true | _ => false

/-- Begins a miss for an access (R318, R322): a victim under the requester's mask, its dirty line moved to the buffer,
then the read. -/
def hutMissStart (s : State) (c : Nat) (a : HAcc) (useMask : Bool) : State :=
  let v := if useMask then hutVictim s c a.req else none
  let read := fun (s : State) => (issueMem s 0 (.hutchFill c) a.line 0 0 false c).1
  match v with
  | none => read (s.setHut c { s.hut c with miss := some ⟨a, none, false, false⟩ })
  | some i =>
    let e := hutEnt s c i
    if e.valid ∧ e.dirty then
      match evbFree s c with
      | some k =>
        let s := evictTo s c i k
        read (s.setHut c { s.hut c with miss := some ⟨a, some i, false, false⟩ })
      | none => s.setHut c { s.hut c with miss := some ⟨a, some i, true, false⟩ }
    else
      let s := setHutEnt s c i { e with valid := false }
      read (s.setHut c { s.hut c with miss := some ⟨a, some i, false, false⟩ })

/-- One access as the Hutch serves it (R317 to R319, R322, R327). -/
def hutServe (s : State) (c : Nat) (a : HAcc) (bulkDone : State → HAcc → Line → State) : State :=
  let fin := fun (s : State) (d : Line) => if a.thr.isSome then accData s a d else bulkDone s a d
  if s.fld Fld.HUTCH_CTL_EN c = 0 then hutMissStart s c a false
  else match hutFind s c a.line with
    | some i =>
      let s := clEvent s c 3
      let e := hutEnt s c i
      let (s, r) := entRead s c i (accWords a)
      (match r with
       | some dev =>
         if isStore a then
           let s := setHutEnt s c i { e with age := 0, dirty := true, data := accLine a e.data }
           let s := match a.kind with
             | .store off _ => wordWritten s .hutch c (8 * i + off / 8)
             | _ => wordWritten (wordWritten s .hutch c (8 * i + 3)) .hutch c (8 * i + 4)
           fin s e.data
         else fin (setHutEnt s c i { e with age := 0 }) (e.data ^^^ dev)
       | none =>
         if e.dirty then
           -- R319: a dirty entry found uncorrectable is written back as poison and the access traps
           let s := setHutEnt s c i { e with valid := false, dirty := false }
           let s := s.setFld Fld.HUTCH_STATUS_UE 1 c
           let s := (issueMem s 3 .drop e.line 0 0 false c).1
           accFail s a
         else hutMissStart (setHutEnt s c i { e with valid := false }) c a true)
    | none => match evbFind s c a.line with
      | some k =>
        let s := clEvent s c 3
        (match hutEvb s c k with
         | some b =>
           if b.poison then accFail s a
           else if isStore a then
             let d := accLine a b.data
             let s := setHutEvb s c k (some { b with data := d, again := true })
             fin s b.data
           else fin s b.data
         | none => s)
      | none =>
        match (s.hut c).pf with
        | some (l, _) => if l = a.line then s.setHut c { s.hut c with q := a :: (s.hut c).q }
            else hutMissStart (clEvent s c 4) c a true
        | none => hutMissStart (clEvent s c 4) c a true

/-- An access whose line a prefetch is bringing waits for it (R323). -/
def waitsPf (s : State) (c : Nat) (a : HAcc) : Bool :=
  match (s.hut c).pf with
  | some (l, _) => l == a.line && s.fld Fld.HUTCH_CTL_EN c == 1 && (hutFind s c a.line).isNone && (evbFind s c a.line).isNone
  | none => false

/-- The Hutch serves waiting accesses until a miss blocks it: a thread's access ahead of the bulk engine's, which goes first after it
has been passed over 8 times (R316). -/
def hutPump (bulkDone : State → HAcc → Line → State) : Nat → Nat → State → State
  | 0, _, s => s
  | fuel + 1, c, s =>
    let h := s.hut c
    if h.miss.isSome then s else
    let ok := fun (a : HAcc) => ! waitsPf s c a
    let stw := h.q.find? (fun a => a.thr.isSome && ok a)
    let bulk := h.q.find? (fun a => a.thr.isNone && ok a)
    match (if 8 ≤ h.passed then bulk.orElse (fun _ => stw) else stw.orElse (fun _ => bulk)) with
    | none => s
    | some a =>
      let passed := if a.thr.isSome ∧ bulk.isSome then h.passed + 1 else 0
      hutPump bulkDone fuel c (hutServe (s.setHut c { h with q := h.q.erase a, passed := passed }) c a bulkDone)

/-- The next-line prefetch (R323) after a demand miss of a fetch or a load with ST = 0. -/
def hutPrefetch (s : State) (c : Nat) (a : HAcc) : State :=
  let l := (a.line + 1) % 2 ^ 42
  let ok : Bool := match a.kind with | .fetch _ => true | .boot => true | .load _ _ _ _ => ! a.st | _ => false
  if s.fld Fld.HUTCH_CTL_PF c = 1 ∧ ok ∧ a.thr.isSome ∧ (hutFind s c l).isNone ∧ (evbFind s c l).isNone ∧
      hutMapped s l ∧ (s.hut c).pf.isNone then
    let s := clEvent (s.setHut c { s.hut c with pf := some (l, a.req) }) c 5
    (issueMem s 0 (.hutchPf c) l 0 0 false c).1
  else s

/-- The age a fill is inserted at (R319). -/
def fillAge (a : HAcc) : Nat :=
  match a.kind with
  | .load _ _ _ _ => if a.st ∨ a.req = 4 then 3 else 0
  | _ => 0

/-- The line of a miss has come (R318, R319, R322): it is installed, or the access is served without allocating. -/
def hutFilled (s : State) (c : Nat) (d : MemDone) (bulkDone : State → HAcc → Line → State) : State :=
  match (s.hut c).miss with
  | none => s
  | some m =>
    let fin := fun (s : State) (l : Line) => if m.acc.thr.isSome then accData s m.acc l else bulkDone s m.acc l
    let free := fun (s : State) => s.setHut c { s.hut c with miss := none }
    if m.writing then fin (free s) d.data
    else if d.poison then accFail (free s) m.acc
    else match m.victim with
      | some i =>
        let s := setHutEnt (free s) c i ⟨true, isStore m.acc, fillAge m.acc, m.acc.line, accLine m.acc d.data⟩
        hutPrefetch (fin (hutWritten s c i) d.data) c m.acc
      | none =>
        if isStore m.acc then
          let s := s.setHut c { s.hut c with miss := some { m with writing := true } }
          (issueMem s 1 (.hutchFill c) m.acc.line (accLine m.acc d.data) 0 false c).1
        else fin (free s) d.data

/-- The line of a prefetch is installed at age 2 under the mask of its requester (R319, R323); with a dirty victim and no free buffer
entry it waits for one. -/
def hutPfPut (s : State) (c : Nat) : State :=
  match (s.hut c).pf, (s.hut c).pfData with
  | some (l, req), some d =>
    let done := fun (s : State) => s.setHut c { s.hut c with pf := none, pfData := none }
    if (hutFind s c l).isSome ∨ (evbFind s c l).isSome then done s else
    match hutVictim s c req with
    | none => done s
    | some i =>
      let e := hutEnt s c i
      let put := fun (s : State) => done (hutWritten (setHutEnt s c i ⟨true, false, 2, l, d⟩) c i)
      if e.valid ∧ e.dirty then
        match evbFree s c with
        | some k => put (evictTo s c i k)
        | none => s
      else put s
  | _, _ => s

/-- A prefetch's line has come; one that comes poisoned installs nothing (R323). -/
def hutPfFilled (s : State) (c : Nat) (d : MemDone) : State :=
  if (s.hut c).pf.isNone then s
  else if d.poison then s.setHut c { s.hut c with pf := none }
  else hutPfPut (s.setHut c { s.hut c with pfData := some d.data }) c

/-! ### Maintenance (R325, R326) -/

def maintEnd (s : State) (c st : Nat) : State :=
  (s.setHut c { s.hut c with maint := none }).setFld Fld.HUTCH_MAINT_STATUS st c

/-- The maintenance operation goes as far as it can: it waits for a fill or for a line's write. -/
def maintRun (s : State) (c : Nat) : State :=
  match (s.hut c).maint with
  | none => s
  | some m =>
    let filling : Bool := match (s.hut c).miss with | some x => x.acc.line == m.line | none => false
    let prefetching : Bool := match (s.hut c).pf with | some (l, _) => l == m.line | none => false
    if m.writing ∨ filling ∨ prefetching then s
    else match evbFind s c m.line with
      | some _ => if m.op = 3 then maintEnd s c 2 else s
      | none =>
        match hutFind s c m.line with
        | some i =>
          let e := hutEnt s c i
          if m.op = 1 then
            maintEnd (hutWritten (setHutEnt s c i { e with data := 0, dirty := true }) c i) c 2
          else if m.op = 3 then maintEnd (setHutEnt s c i { e with valid := false, dirty := false }) c 2
          else if e.dirty then
            let (s, d, p) := hutOut s c i
            let s := s.setHut c { s.hut c with maint := some { m with writing := true } }
            let s := setHutEnt s c i { e with dirty := false, valid := ! p }
            (issueMem s (if p then 3 else 1) (.hutchEv c 4) e.line d 0 false c).1
          else if m.op = 4 then maintEnd (setHutEnt s c i { e with valid := false }) c 2
          else maintEnd s c 2
        | none =>
          if m.op = 1 then
            match hutVictim s c m.req with
            | none => maintEnd s c 2
            | some i =>
              let e := hutEnt s c i
              let put := fun (s : State) =>
                maintEnd (hutWritten (setHutEnt s c i ⟨true, true, 0, m.line, 0⟩) c i) c 2
              if e.valid ∧ e.dirty then
                match evbFree s c with
                | some k => put (evictTo s c i k)
                | none => s
              else put s
          else maintEnd s c 2

/-- HUTCH_MAINT.GO (R325, R326, R334). `thr` is the thread whose cw wrote it. -/
def maintGo (s : State) (c : Nat) (thr : Option Nat) : State :=
  if s.fld Fld.HUTCH_MAINT_STATUS c = 1 then s.setFld Fld.HUTCH_STATUS_MAINT_LOST 1 c else
  let op := s.fld Fld.HUTCH_MAINT_OP c
  let byIdx := s.fld Fld.HUTCH_MAINT_BYIDX c == 1
  let idx := s.fld Fld.HUTCH_MAINT_IDX c
  let req := s.fld Fld.HUTCH_MAINT_REQ c
  let pa := s.fld Fld.HUTCH_MAINT_PA_PA c
  let st := fun (v : Nat) => s.setFld Fld.HUTCH_MAINT_STATUS v c
  if 5 ≤ op ∨ 6 ≤ req ∨ (byIdx ∧ (op = 1 ∨ 47 < idx)) ∨ (¬ byIdx ∧ ¬ hutMapped s pa) then st 3
  else if op = 0 then st 2
  else
    let e := hutEnt s c idx
    if byIdx ∧ ¬ e.valid then st 2
    else
      let s := st 1
      maintRun (s.setHut c { s.hut c with maint := some ⟨op, if byIdx then e.line else pa, false, req, thr⟩ }) c

/-- A write from the Hutch has completed (R324): the buffer entry frees, or is sent again where a store changed it; slot 4
is maintenance's own write. -/
def hutEvDone (s : State) (c k : Nat) : State :=
  if k = 4 then
    match (s.hut c).maint with
    | none => s
    | some m =>
      let s := match m.op, hutFind s c m.line with
        | 4, some i => setHutEnt s c i { hutEnt s c i with valid := false, dirty := false }
        | _, _ => s
      maintEnd s c 2
  else match hutEvb s c k with
    | none => s
    | some b =>
      if b.again then evbSend s c k b.line b.data false
      else
        let s := setHutEvb s c k none
        match (s.hut c).miss with
        | some m =>
          if m.waitEvb then
            match m.victim with
            | some i =>
              let s := evictTo s c i k
              let s := s.setHut c { s.hut c with miss := some { m with waitEvb := false } }
              (issueMem s 0 (.hutchFill c) m.acc.line 0 0 false c).1
            | none => s
          else maintRun (hutPfPut s c) c
        | none => maintRun (hutPfPut s c) c

/-- A tick (R321): the age of every valid entry below 3 rises; ticks stop while the Hutch is off or TICK is 0. -/
def hutTick (s : State) (c : Nat) : State :=
  if s.fld Fld.HUTCH_CTL_EN c = 0 ∨ s.fld Fld.HUTCH_CTL_TICK c = 0 then s
  else (List.range 48).foldl (fun t i =>
    let e := hutEnt t c i
    if e.valid ∧ e.age < 3 then setHutEnt t c i { e with age := e.age + 1 } else t) s

/-- A write of HUTCH_CTL.EN (R327): DIRTY_OFF where dirty lines remain. -/
def hutEnWrite (s : State) (c v : Nat) : State :=
  let dirty := (List.range 48).any (fun i => (hutEnt s c i).valid && (hutEnt s c i).dirty)
  let s := if v % 2 = 0 ∧ dirty then s.setFld Fld.HUTCH_STATUS_DIRTY_OFF 1 c else s
  s.setFld Fld.HUTCH_CTL_EN (v % 2) c

end Sys2Proof.Machine
end

