-- ==== Sys2Proof/Machine/Bulk.lean ====
section
/-! DEFINITION. The bulk engines (R353 to R357): descriptors, chunks, the resilver copy, and the command MEM_RESILVER
(R352). -/

namespace Sys2Proof.Machine

/-- The cluster whose background bit gates a run, and its access to that cluster's Hutch as requester 5 (R315, R355). -/
def bulkAcc (r pa : Nat) (k : HKind) : HAcc := ⟨none, r, 5, k, pa / 64 % 2 ^ 42, false⟩

/-- The lines of a range lie in windows and entries homed here (R354), checked for each GiB. -/
def rangeHomed (s : State) (start count : Nat) : Bool :=
  start + count ≤ 2 ^ 42 &&
  (List.range ((start + count - 1) / 2 ^ 24 - start / 2 ^ 24 + 1)).all (fun k => homed s ((start / 2 ^ 24 + k) * 2 ^ 24))

/-- A descriptor is BAD (R354). -/
def descBad (s : State) (op start count : Nat) : Bool :=
  if op = 1 then start % 1024 ≠ 0 ∨ count % 16 ≠ 0 ∨ (count ≠ 0 ∧ ! rangeHomed s (start / 64) count)
  else if op = 2 then start % 64 ≠ 0 ∨ (count ≠ 0 ∧ ! rangeHomed s (start / 64) count)
  else op ≠ 3

/-- The next chunk of 64 lines, from chunk `k` of the instance's memory on, that holds a line of a port (R353, R355). Chunk
numbers count 4 KiB of PA[43:12] in rising order, over the valid address map entries. -/
def chunkHas (s : State) (m k : Nat) : Bool :=
  (List.range 64).any (fun i =>
    let (p, mir, _) := portsOf s (k * 64 + i)
    p == m || mir == some m)

def nextChunk (s : State) (m from_ : Nat) : Option Nat :=
  let es := (amapValid s).filter (fun e => entryNames s e m && from_ / 2 ^ 18 ≤ e)
  es.findSome? (fun e =>
    let lo := max from_ (e * 2 ^ 18)
    (List.range 16).findSome? (fun i => if lo + i < (e + 1) * 2 ^ 18 ∧ chunkHas s m (lo + i) then some (lo + i) else none))

/-- Hands an access to a cluster's Hutch. What the engine does with the line is `bulkData`. -/
def bulkLineClean (s : State) (c line : Nat) : State :=
  match hutFind s c line with
  | some i =>
    let e := hutEnt s c i
    if e.dirty then
      let (s, d, p) := hutOut s c i
      let s := setHutEnt s c i { e with dirty := false, valid := ! p }
      (issueMem s (if p then 3 else 1) .drop e.line d 0 false c).1
    else s
  | none => s

/-- A Hutch access of the engine has its line (R354): the descriptor is taken, or the last progress write ends the
operation. -/
def bulkData (s : State) (a : HAcc) (d : Line) : State :=
  let r := a.region
  let b := s.bulkE r
  match a.kind with
  | .desc =>
    match b.queue with
    | [] => s.setBulkE r { b with fetching := false }
    | q :: rest =>
      let w := fun k => (lineWord d k).toNat
      let op := bits (w 0) 0 4
      let start := bits (w 1) 0 48
      let count := bits (w 2) 0 32
      let run : BulkRun := ⟨q.pa, q.cluster, op, bits (w 0) 8 5, start / 64, count, 0, none, 0, 0, 0, false, false, 0⟩
      if descBad s op start count then
        let s := s.setBulkE r { b with queue := rest, fetching := false, run := some { run with op := 0, failed := true } }
        s.setHut q.cluster { s.hut q.cluster with q := (s.hut q.cluster).q ++ [bulkAcc r q.pa (.prog 0 3 true)] }
      else s.setBulkE r { b with queue := rest, fetching := false, run := some run }
  | .prog _ _ true =>
    match b.run with
    | some run =>
      let s := bulkLineClean (s.setBulkE r { b with run := none }) run.cluster a.line
      irqSet s (8 + r)
    | none => s
  | _ => s

/-- Writes DONE and RESULT into the descriptor through the Hutch (R354, R355). -/
def bulkProg (s : State) (r : Nat) (b : BulkRun) (res : Nat) (last : Bool) : State :=
  s.setHut b.cluster { s.hut b.cluster with q := (s.hut b.cluster).q ++ [bulkAcc r b.pa (.prog b.done res last)] }

/-- A cluster's Hutch serves what waits. -/
def hutRun (s : State) (c : Nat) : State := maintRun (hutPump bulkData 64 c s) c

/-- Starts the next descriptor's read where the engine is idle. -/
def bulkPoke (s : State) (r : Nat) : State :=
  let b := s.bulkE r
  match b.run, b.fetching, b.queue with
  | none, false, q :: rest =>
    match q.cmdPort with
    | some m => s.setBulkE r { b with queue := rest, run := some ⟨0, 0, 3, m, 0, 0, 0, none, 0, 0, 0, false, true, 0⟩ }
    | none =>
    let s := s.setBulkE r { b with fetching := true }
    hutRun (s.setHut q.cluster { s.hut q.cluster with q := (s.hut q.cluster).q ++ [bulkAcc r q.pa .desc] }) q.cluster
  | _, _, _ => s

def bulkQueued (b : Bulk) : Nat := b.queue.length + b2n b.run.isSome

/-- BULK_GO by a thread (R354, R367): queued, or dropped with OVF. -/
def bulkGo (s : State) (r thr desc : Nat) : State :=
  let b := s.bulkE r
  if 4 ≤ bulkQueued b then s.setFld Fld.BULK_STATUS_OVF 1 r
  else
    let pc := (s.thr thr).pc.toNat
    let (hi, s) := if pc / 2 ^ 48 = 1 then (bits pc 38 10, s)
      else (let (n, s) := s.takeFree; ((Config.free n).toNat % 1024, s))
    bulkPoke (s.setBulkE r { b with queue := b.queue ++ [⟨hi * 2 ^ 38 + desc * 64, thr / 4, none⟩] }) r

/-- The end of a run: RESULT is written; a resilver of the command ends the command (R352). -/
def bulkEnd (s : State) (r : Nat) (b : BulkRun) : State :=
  if b.fromCmd then
    let s := s.setBulkE r { s.bulkE r with run := none }
    let s := irqSet s (8 + r)
    if b.failed then
      let (n, s) := s.takeFree
      cmdEnd s ((Config.free n).toNat % 256) b.done
    else cmdEnd (s.setFld Fld.MP_STATE_STATE 1 b.port) 0 b.done
  else hutRun (bulkProg s r b (if b.failed then 2 else 1) true) b.cluster

/-- The lines of the next chunk (R355). -/
def chunkLines (s : State) (b : BulkRun) : Option (Nat × List Nat) :=
  if b.op = 3 then (nextChunk s b.port b.cursor).map (fun k =>
    (k, (List.range 64).filterMap (fun i =>
      let (p, mir, _) := portsOf s (k * 64 + i)
      if p = b.port ∨ mir = some b.port then some (k * 64 + i) else none)))
  else if b.done < b.count then
    some (0, (List.range (min 64 (b.count - b.done))).map (fun i => b.start + b.done + i))
  else none

/-- Starts a chunk while the starting cluster's background bit permits (R355), or ends the operation. -/
def bulkChunk (s : State) (r : Nat) : State :=
  match (s.bulkE r).run with
  | none => s
  | some b =>
    if b.op = 0 ∨ 0 < b.outst ∨ ! bgOn s b.cluster then s
    else if b.failed then bulkEnd s r b
    else match chunkLines s b with
      | none => bulkEnd s r b
      | some (k, ls) =>
        let b' := { b with
          chunk := some (if b.op = 3 then k * 64 else b.start + b.done), chunkEnd := ls.length
          outst := ls.length, mask := 0, cursor := if b.op = 3 then k + 1 else b.cursor }
        let s := s.setBulkE r { s.bulkE r with run := some b' }
        ls.foldl (fun t l =>
          if b.op = 1 then (issueMem t 1 (.bulkWr r l) l 0 0 false 16).1
          else if b.op = 2 then (issueMem t 3 (.bulkWr r l) l 0 0 false 16).1
          else
            let (_, _, ta) := portsOf t l
            let src := match partnerFor t l b.port with
              | some q => if mpState t q = 1 then [q] else []
              | none => []
            (issueOn t ⟨0, .bulkRd r l, l, ta, 0, 0, false, 16, src⟩).1) s

/-- A chunk's last write has completed: DONE and BULK_CUR are written (R355). -/
def chunkDone (s : State) (r : Nat) (b : BulkRun) : State :=
  let b := { b with done := b.done + (if b.op = 3 then 1 else b.chunkEnd), chunk := none, outst := 0, mask := 0 }
  let s := s.setBulkE r { s.bulkE r with run := some b }
  let more := ! b.failed && (chunkLines s b).isSome
  if more then (if b.fromCmd then s else hutRun (bulkProg s r b 0 false) b.cluster) else bulkEnd s r b

/-- A line of the running chunk has been read or written (R355, R356). -/
def bulkLine (s : State) (d : MemDone) : State :=
  match d.org with
  | .bulkRd r l =>
    match (s.bulkE r).run with
    | some b =>
      let (_, _, ta) := portsOf s l
      let dest := if mpState s b.port = 2 then [] else [b.port]
      (issueOn s ⟨if d.poison then 3 else 1, .bulkWr r l, l, ta, d.data, 0, false, 16, dest⟩).1
    | none => s
  | .bulkWr r _ =>
    match (s.bulkE r).run with
    | some b =>
      let b := { b with outst := b.outst - 1 }
      let s := s.setBulkE r { s.bulkE r with run := some b }
      if b.outst = 0 then chunkDone s r b else s
    | none => s
  | _ => s

/-- MEM_RESILVER as the command window runs it (R352, R447): the copy starts, or BAD_PORT. -/
def memResilver (s : State) (m : Nat) : State :=
  let ps := partners s m
  let r := regionOfPort m
  if mpState s m ≠ 2 ∨ ps.isEmpty ∨ ps.any (fun q => mpState s q ≠ 1) then cmdEnd s 0x2C 0
  else
    let s := s.setFld Fld.MP_STATE_STATE 3 m
    bulkPoke (s.setBulkE r { s.bulkE r with queue := (s.bulkE r).queue ++ [⟨0, 0, some m⟩] }) r

end Sys2Proof.Machine
end

