-- ==== Sys2Proof/Machine/Operands.lean ====
section
/-! DEFINITION. Operand forms: the fields of a steward instruction (R245), the second operand of the ALU and of compares
(R247, R250), the field operand of ins, ext and exts (R248), effective addresses (R251, R253), register pairs, directory
locators (R255); and the instruction fetch (R241 to R243) with the issue of an instruction (R238, R275). -/

namespace Sys2Proof.Machine

/-! ### Fields -/

/-- The fields of an instruction of one word, and of an Ext instruction (R245). -/
def oneWord (i : Ins) : Ins := { i with ext := none }
def twoWord (i : Ins) : Ins := { i with ext := some (i.ext.getD 0) }

/-- The fields of the ALU operation that func[5:0] = `k` selects (R247). -/
def funcIns (k : Nat) (i : Ins) : Ins := { i with fn := i.fn >>> 6 <<< 6 ||| BitVec.ofNat 11 k }

/-- The instruction word of major opcode `m` (R245). -/
def insWord (m : Nat) (i : Ins) : Nat :=
  m * 2 ^ 26 + i.gd.toNat * 2 ^ 21 + i.ga.toNat * 2 ^ 16 + i.gb.toNat * 2 ^ 11 + i.fn.toNat

/-- Values of the named registers. -/
def gaV (s : State) (t : Nat) (i : Ins) : BitVec 64 := s.greg t i.ga.toNat
def gbV (s : State) (t : Nat) (i : Ins) : BitVec 64 := s.greg t i.gb.toNat

/-- The extension word sign-extended. -/
def extV (x : BitVec 32) : BitVec 64 := x.signExtend 64

/-- imm11, sign-extended (R249, R251). -/
def imm11 (i : Ins) : BitVec 64 := i.fn.signExtend 64

/-- op2: gb, or imm32 sign-extended in the Ext format (R247, R250). -/
def op2 (s : State) (t : Nat) (i : Ins) : BitVec 64 :=
  match i.ext with
  | some x => extV x
  | none => gbV s t i

/-- The effective address of a load or store (R251, R252). -/
def memAddr (s : State) (t : Nat) (i : Ins) : BitVec 64 := gaV s t i + imm11 i

/-- E of cr and cw (R267). -/
def crAddr (s : State) (t : Nat) (i : Ins) : Nat :=
  ((gaV s t i).toNat + (match i.ext with | some x => x.toNat | none => 0)) % 2 ^ 32

/-- The target of a branch: the branch's address plus 4 times the signed offset (R253). -/
def target (pc off : BitVec 64) : BitVec 64 := pc + 4 * off

/-- A register pair names an even register (R245). -/
def evenReg (r : BitVec 5) : Bool := ! r.getLsbD 0

/-- Position and width of field F (R248): F is cut at bit 63. -/
def fieldPos (v : BitVec 64) : Nat := v.toNat % 64
def fieldWidth (v : BitVec 64) : Nat := min (v.toNat / 256 % 64 + 1) (64 - fieldPos v)

/-- A mask of the low n bits. -/
def lowMask (n : Nat) : BitVec 64 := BitVec.ofNat 64 (2 ^ n - 1)

/-- ins, ext and exts (R248). -/
def insField (old a f : BitVec 64) : BitVec 64 :=
  let m := lowMask (fieldWidth f) <<< fieldPos f
  (old &&& ~~~ m) ||| ((a <<< fieldPos f) &&& m)
def extField (a f : BitVec 64) : BitVec 64 := (a >>> fieldPos f) &&& lowMask (fieldWidth f)
def extsField (a f : BitVec 64) : BitVec 64 :=
  let n := fieldWidth f
  let v := extField a f
  if v.getLsbD (n - 1) then v ||| ~~~ lowMask n else v

/-- A directory locator (R255): its Drawer, set and way. -/
structure Loc where
  drawer : Nat
  set : Nat
  way : Nat
  deriving DecidableEq, Repr
def locOf (v : BitVec 64) : Option Loc :=
  if v.toNat < 2 ^ 23 then some ⟨bits v.toNat 16 7, bits v.toNat 4 12, bits v.toNat 0 4⟩ else none

/-- A PA held in a register: its line, none where bits above PA[47] are set. -/
def paLine (v : BitVec 64) : Option Nat := if v.toNat < 2 ^ 48 then some (v.toNat / 64) else none

/-! ### Regions (R241) -/

/-- The region of an address: local memory, the boot ROM of cluster 0, a line of the Hutch window, or none. -/
inductive Region
  | local_
  | rom
  | hutch (line : Nat)
  | out
  deriving DecidableEq, Repr

def regionOf (s : State) (t a : Nat) : Region :=
  if a < 0x10000 then .local_
  else if a < 0x11000 then (if t / 4 = 0 then .rom else .out)
  else if a / 2 ^ 48 = 1 then (if hutMapped s (a / 64 % 2 ^ 42) then .hutch (a / 64 % 2 ^ 42) else .out)
  else .out

/-- The requester of a thread's access (R315): the rule loader for a load inside HUTCH_RLWIN. -/
def hutReq (s : State) (t line : Nat) (load : Bool) : Nat :=
  let c := t / 4
  let p := line / 64
  if load ∧ s.fld Fld.HUTCH_RLWIN_BASE_EN c = 1 ∧ s.fld Fld.HUTCH_RLWIN_BASE_BASE c ≤ p ∧
      p ≤ s.fld Fld.HUTCH_RLWIN_LIM_LIMIT c then 4 else t % 4

/-- A thread's Hutch access: the thread is blocked until it is served (R318). -/
def thrHutch (s : State) (t line : Nat) (k : HKind) (st : Bool) : State :=
  let c := t / 4
  let load := match k with | .load _ _ _ _ => true | _ => false
  let a : HAcc := ⟨some t, 0, hutReq s t line load, k, line, st⟩
  let s := s.setThr t { s.thr t with blk := .hutch }
  hutRun (s.setHut c { s.hut c with q := (s.hut c).q ++ [a] }) c

/-! ### Fetch and issue -/

/-- Fetches the word at an address: traps ADDR, ALIGN, MEM_UE or HUTCH_UE (R275), or blocks for a Hutch miss. The second
part says that the word is there. -/
def fetch1 (s : State) (t a : Nat) : State × Bool :=
  match regionOf s t a with
  | .out => (trap s t 2 (BitVec.ofNat 64 a), false)
  | r =>
    if a % 4 ≠ 0 then (trap s t 3 (BitVec.ofNat 64 a), false)
    else match r with
      | .local_ =>
        let (s, v) := lread s t (a / 8)
        if v.isSome then (s, true) else (trap s t 4 (BitVec.ofNat 64 a), false)
      | .hutch line =>
        if (s.thr t).fetched.contains line then (s, true)
        else
          let s := thrHutch s t line (.fetch (a % 64)) false
          (s, (s.thr t).fetched.contains line)
      | _ => (s, true)

/-- A thread may issue its next instruction (R238). -/
def canIssue (s : State) (t : Nat) : Bool :=
  s.coreUp && ! stwFailed s (t / 4) && (s.thr t).run == 1 && (s.thr t).blk == .none_

/-- Issues an instruction (R275): fetch causes first, then ILLEGAL where `bad`, then its execution. `n` is its length in
bytes, `w` its first word. -/
def issue (s : State) (t n : Nat) (bad : Bool) (w : Nat) (body : State → State) : State :=
  if ! canIssue s t then s else
  let pc := (s.thr t).pc.toNat
  let (s, ok) := fetch1 s t pc
  if ! ok then s else
  let (s, ok) := if n = 8 then fetch1 s t ((pc + 4) % 2 ^ 64) else (s, true)
  if ! ok then s else
  let s := clEvent (s.setThr t { s.thr t with last := (s.thr t).pc }) (t / 4) 2
  if bad then trap s t 1 (BitVec.ofNat 64 w) else body s

/-- An instruction in the fields of R245 under major opcode `m`, of 4 bytes or, with an extension word, 8. -/
def issueIns (s : State) (t m : Nat) (i : Ins) (bad : Bool) (body : State → State) : State :=
  issue s t (if i.ext.isSome then 8 else 4) bad (insWord m i) body

/-- Length of an instruction in bytes. -/
def insLen (i : Ins) : Nat := if i.ext.isSome then 8 else 4

/-- Writes gd and moves on. -/
def retGd (s : State) (t : Nat) (i : Ins) (v : BitVec 64) : State := advance (s.setGreg t i.gd.toNat v) t (insLen i)

end Sys2Proof.Machine
end

