-- ==== Sys2Proof/Machine/Flags.lean ====
section
/-! DEFINITION. The predicates of the stewards (R250): the conditions of cmp and cmp.x and how a result combines with the
predicate written. The block has no other arithmetic flags. -/

namespace Sys2Proof.Machine

/-- The conditions of R250: none for a reserved code. -/
def condHolds (c : Nat) (a b : BitVec 64) : Option Bool :=
  match c with
  | 0 => some (a == b)
  | 1 => some (a != b)
  | 2 => some (a.slt b)
  | 3 => some (! a.slt b)
  | 4 => some (a.ult b)
  | 5 => some (! a.ult b)
  | 6 => some ((a &&& b) != 0)
  | 7 => some ((a &&& b) == 0)
  | _ => none

/-- COMB (R250): SET, AND, OR; none for the reserved code. -/
def combine (k : Nat) (old r : Bool) : Option Bool :=
  match k with
  | 0 => some r
  | 1 => some (old && r)
  | 2 => some (old || r)
  | _ => none

/-- What cmp writes to its predicate: none where a field is reserved (R250). -/
def cmpResult (fn : BitVec 11) (old : Bool) (a b : BitVec 64) : Option Bool :=
  if fn.toNat / 64 ≠ 0 then none
  else (condHolds (fn.toNat % 16) a b).bind (combine (fn.toNat / 16 % 4) old)

end Sys2Proof.Machine
end

