-- ==== Sys2Proof/Machine/Yelgar.lean ====
section
/-! DEFINITION. The Yelgar instruction set (chapter 09): what each instruction does to its thread and to the block, the ends
of blocking instructions, rule loading (R278, R279, R297 to R302), the steward registers (R283 to R285) and steward failure
(R280). -/

namespace Sys2Proof.Machine

/-! ### ALU, compares (R247 to R250) -/

/-- An ALU instruction by func. In the Ext format gb is unused; popc and clz use no second register (R245, R247). -/
def alu (s : State) (t : Nat) (i : Ins) (one : Bool) (f : BitVec 64 → BitVec 64 → BitVec 64 → BitVec 64) : State :=
  let ext := i.ext.isSome
  let bad := i.fn.toNat / 64 ≠ 0 ∨ ((ext ∨ one) ∧ i.gb ≠ 0)
  issueIns s t (if ext then 2 else 1) i bad (fun s =>
    retGd s t i (f (gaV s t i) (op2 s t i) (s.greg t i.gd.toNat)))

/-- Leading zeros of a register (R247). -/
def leadingZeros (v : BitVec 64) : Nat := ((List.range 64).takeWhile (fun k => ! v.getLsbD (63 - k))).length

def popCount (v : BitVec 64) : Nat := ((List.range 64).filter (fun k => v.getLsbD k)).length

/-- addi (R249). -/
def addi (s : State) (t : Nat) (i : Ins) : State :=
  issueIns s t 3 i (i.gb ≠ 0) (fun s => retGd s t i (gaV s t i + imm11 i))

/-- cmp and cmp.x (R250). -/
def cmp (s : State) (t : Nat) (i : Ins) : State :=
  let ext := i.ext.isSome
  let pd := i.gd.toNat % 8
  let bad := 8 ≤ i.gd.toNat ∨ (ext ∧ i.gb ≠ 0) ∨ (cmpResult i.fn false 0 0).isNone
  issueIns s t (if ext then 5 else 4) i bad (fun s =>
    match cmpResult i.fn (s.pred t pd) (gaV s t i) (op2 s t i) with
    | some b => advance (s.setPred t pd b) t (insLen i)
    | none => s)

/-! ### Loads and stores (R251, R252) -/

/-- A word of the boot ROM (R241). -/
def romWord (k : Nat) : BitVec 64 := Config.bootRom k

/-- A load of `n` bytes (R251): bits [15:12] are reserved, bit 11 is ST. -/
def load (s : State) (t m n : Nat) (signed : Bool) (i : Ins) : State :=
  issueIns s t m i (2 ≤ i.gb.toNat) (fun s =>
    let a := (memAddr s t i).toNat
    let info := BitVec.ofNat 64 a
    match regionOf s t a with
    | .out => trap s t 2 info
    | r =>
      if a % n ≠ 0 then trap s t 3 info
      else match r with
        | .hutch line => thrHutch s t line (.load i.gd.toNat n signed (a % 64)) (i.gb.getLsbD 0)
        | .rom => retGd s t i (loadVal ((romWord (a % 0x1000 / 8)).setWidth 512) n signed (a % 8))
        | _ =>
          let (s, v) := lread s t (a / 8)
          match v with
          | some w => retGd s t i (loadVal (w.setWidth 512) n signed (a % 8))
          | none => trap s t 4 info)

/-- st64 (R252): gd is reserved. -/
def st64 (s : State) (t : Nat) (i : Ins) : State :=
  issueIns s t 0x0F i (i.gd ≠ 0) (fun s =>
    let a := (memAddr s t i).toNat
    let info := BitVec.ofNat 64 a
    match regionOf s t a with
    | .out | .rom => trap s t 2 info
    | .hutch line => if a % 8 ≠ 0 then trap s t 3 info else thrHutch s t line (.store (a % 64) (gbV s t i)) false
    | .local_ => if a % 8 ≠ 0 then trap s t 3 info else advance (lwrite s t (a / 8) (gbV s t i)) t 4)

/-! ### Branches (R253, R254) -/

def wordJ (m : Nat) (off : BitVec 26) : Nat := m * 2 ^ 26 + off.toNat

/-- b and call. -/
def branch (s : State) (t m : Nat) (off : BitVec 26) (link : Bool) : State :=
  issue s t 4 false (wordJ m off) (fun s =>
    let pc := (s.thr t).pc
    let s := if link then s.setGreg t 31 (pc + 4) else s
    jump s t (target pc (off.signExtend 64)))

/-- bp: taken when the predicate equals the sense bit. -/
def branchP (s : State) (t : Nat) (p : BitVec 3) (sense : Bool) (off : BitVec 22) : State :=
  let w := 0x11 * 2 ^ 26 + p.toNat * 2 ^ 23 + b2n sense * 2 ^ 22 + off.toNat
  issue s t 4 false w (fun s =>
    if s.pred t p.toNat = sense then jump s t (target (s.thr t).pc (off.signExtend 64)) else advance s t 4)

/-- jmpr: LINK is func[0], TRET func[1]. -/
def jmpr (s : State) (t : Nat) (i : Ins) : State :=
  issueIns s t 0x13 i (i.gd ≠ 0 ∨ i.gb ≠ 0 ∨ 4 ≤ i.fn.toNat) (fun s =>
    let a := gaV s t i
    let s := if i.fn.getLsbD 0 then s.setGreg t 31 ((s.thr t).pc + 4) else s
    let s := if i.fn.getLsbD 1 then s.setThr t { s.thr t with inTrap := false } else s
    jump s t a)

/-! ### Directory instructions (R255 to R259) -/

/-- A trap LOCK_SEQ where a locked sequence is open (R264). -/
def noSeq (s : State) (t : Nat) (info : BitVec 64) (f : State → State) : State :=
  if (s.thr t).lockSeq.isSome then trap s t 8 info else f s

/-- gd+1 of dlook above the word's bits (R256); `lost` says that the read found a page it cannot rebuild. -/
def dlookHi (s : State) (l : Loc) (w : Nat) (hit corr lost : Bool) (way : Nat) : BitVec 64 :=
  let unk := lost || inBlindTable s l.drawer l.set
  let pin := pinned s l.drawer l.set (l.way, w)
  BitVec.ofNat 64 (w / 2 ^ 64 % 2 ^ 56 + b2n hit * 2 ^ 56 + b2n corr * 2 ^ 57 + b2n unk * 2 ^ 58 + b2n pin * 2 ^ 59 +
    way * 2 ^ 60)

/-- Reads the word at a way: the word and whether it was corrected, or none where its page is lost. -/
def dread (s : State) (l : Loc) : State × Option Nat × Bool :=
  let w := l.set * 16 + l.way
  let (st, k) := placeOf s l.drawer w
  let corr := match wordLook s st l.drawer k with | some (_, n) => n != 0 | none => false
  let (s, v) := drawerRead s l.drawer w
  (s, v, corr)

/-- dlook (R256). -/
def dlook (s : State) (t : Nat) (i : Ins) : State :=
  issueIns s t 0x18 i (! evenReg i.gd ∨ i.gb ≠ 0 ∨ 2 ≤ i.fn.toNat) (fun s =>
    let a := gaV s t i
    let put := fun (s : State) (l : Loc) (v : Option Nat) (corr : Bool) (way : Nat) =>
      let w := v.getD 0
      let hit := (decodeCab w).grain ≠ 0
      advance ((s.setGreg t i.gd.toNat (BitVec.ofNat 64 w)).setGreg t (i.gd.toNat + 1) (dlookHi s l w hit corr v.isNone way)) t 4
    let none_ := fun (s : State) (l : Loc) => put s l (some 0) false 0
    if i.fn.getLsbD 0 then
      let line := a.toNat / 64 % 2 ^ 42
      let d := sliceOf line
      let set := setOf line
      let (s, ws) := setReadAll s d set
      if ws.any (fun e => e.2.isNone) then put s ⟨d, set, 0⟩ none false 0 else
      let k := lookIn (ws.map (fun e => (e.1, e.2.getD 0))) line
      match (k.fine.orElse (fun _ => k.line)).orElse (fun _ => k.sector) with
      | some (w, _) =>
        let (s, v, corr) := dread s ⟨d, set, w⟩
        put s ⟨d, set, w⟩ v corr w
      | none => none_ s ⟨d, set, 0⟩
    else match locOf a with
      | none => trap s t 0x0A a
      | some l =>
        let (s, v, corr) := dread s l
        put s l v corr l.way)

/-- A lock of the thread covers a granule (R258): its entry still stands. -/
def lockCovers (s : State) (t line : Nat) (sector : Bool) : Option Lock :=
  (s.thr t).locks.find? (fun l => ! l.lost && (s.trkE l.tid).valid &&
    (if l.sector then sectorOf l.pa == sectorOf line else ! sector && l.pa == line))

/-- The covering lock of a word's granule; an empty word needs none. -/
def wordLock (s : State) (t set : Nat) (c : CabW) : Bool × Option Lock :=
  if c.grain = 0 then (true, none)
  else
    let l := if c.grain = 2 then lockCovers s t (sectorOfWord set c * 16) true
      else lockCovers s t (lineOfFine set c) false
    (l.isSome, l)

/-- A set meets R138: at most one fine word for a line, at most one coarse word for a sector, and no line in both. -/
def setOk (ws : List (Nat × Nat)) : Bool :=
  let cs := (ws.map (fun e => decodeCab e.2)).filter (fun c => c.grain ≠ 0)
  let fine := (cs.filter (fun c => c.grain = 1)).map (fun c => (c.tag, c.loc % 16))
  let coarse := cs.filter (fun c => c.grain = 2)
  fine.dedup == fine && (coarse.map (·.tag)).dedup == coarse.map (·.tag) &&
  coarse.all (fun c => fine.all (fun f => f.1 ≠ c.tag || ! bit1 c.loc f.2))

/-- dput of a whole page or set (R258, R159 step 1): the status and the state. -/
def dputPage (s : State) (l : Loc) : State × Nat :=
  let other := if l.set % 2 = 0 then l.set + 1 else l.set - 1
  let inTable := fun (x : Nat) => (s.drq l.drawer).blind.any (fun b => b.2.state == 1 && b.2.set == x)
  let format := (s.drq l.drawer).blind.any (fun b => b.2.state == 1 && b.2.set == l.set && b.2.cause == 1)
  let clear := fun (s : State) (lo n : Nat) => (List.range n).foldl (fun u k => drawerPut u l.drawer (lo + k) 0) s
  if (inTable l.set ∧ inTable other) ∨ (s.drq l.drawer).blindAll then
    let s := clear s (l.set / 2 * 32) 32
    (setPq (setPq s .drawer l.drawer (l.set / 2) 0 0) .drawer l.drawer (l.set / 2) 1 0, 0)
  else if format then (clear s (l.set * 16) 16, 0)
  else (s, 6)

/-- dput of one word (R258): the checks in their order. -/
def dputWord (s : State) (t : Nat) (l : Loc) (v : Nat) : State × Nat :=
  let w := l.set * 16 + l.way
  let old := decodeCab (drawerW s l.drawer w)
  let c := decodeCab v
  let (okOld, _) := wordLock s t l.set old
  let (okNew, lk) := wordLock s t l.set c
  let fwdDc : Bool := c.state != 2 || (match c.named with | some f => bit1 (s.shAgt f) 3 | none => false)
  if inBlindTable s l.drawer l.set then (s, 5)
  else if (s.drq l.drawer).retired.contains w then (s, 4)
  else if ¬ okOld ∨ ¬ okNew then (s, 2)
  else if ! cabOk v ∨ ! fwdDc ∨ ! setOk ((peekSet s l.drawer l.set).map (fun e => if e.1 = l.way then (e.1, v) else e)) then (s, 1)
  else
    let m := match lk with | some k => k.mode | none => 0
    if c.state = 4 ∧ ! modeO m then (s, 1)
    else
      let c' := if c.state = 2 ∧ ! modeF m then { c with state := 1, fwd := 0 } else c
      let (s, ok) := drawerWrite s l.drawer w (if c.grain = 0 then 0 else encodeCab c')
      (s, if ok then 0 else 3)

/-- dput (R258). -/
def dput (s : State) (t : Nat) (i : Ins) : State :=
  issueIns s t 0x19 i (! evenReg i.gb ∨ 2 ≤ i.fn.toNat) (fun s =>
    let a := gaV s t i
    match locOf a with
    | none => trap s t 0x0A a
    | some l =>
      let lo := (gbV s t i).toNat
      let hi := (s.greg t (i.gb.toNat + 1)).toNat
      let (s, st) :=
        if i.fn.getLsbD 0 then dputPage s l
        else if hi / 2 ^ 56 ≠ 0 then (s, 1)
        else dputWord s t l (lo + hi * 2 ^ 64)
      retGd s t i (BitVec.ofNat 64 st))

/-- devict (R259): starts a directory eviction with a completion for the thread. -/
def devict (s : State) (t : Nat) (i : Ins) : State :=
  issueIns s t 0x1A i (i.fn ≠ 0) (fun s =>
    noSeq s t 0 (fun s =>
    let a := gaV s t i
    match locOf a with
    | none => trap s t 0x0A a
    | some l =>
      let w := drawerW s l.drawer (l.set * 16 + l.way)
      let fin := fun (s : State) (n : Nat) => retGd s t i (BitVec.ofNat 64 n)
      if inBlindTable s l.drawer l.set then fin s 5
      else if (decodeCab w).grain = 0 then fin s 12
      else if pinned s l.drawer l.set (l.way, w) then fin s 13
      else if 16 ≤ (s.thr t).credits then fin s 14
      else
        let s := s.setThr t { s.thr t with credits := (s.thr t).credits + 1 }
        let s := queueEv (pinWay s l.drawer l.set l.way) l.drawer
          ⟨l.set, l.way, none, some (t, (gbV s t i).toNat % 65536)⟩
        fin s 0))

/-- The lock a thread holds on a PA in a scope. -/
def heldLock (s : State) (t line : Nat) (sector : Bool) : Option Lock :=
  (s.thr t).locks.find? (fun l => l.sector == sector &&
    (if sector then sectorOf l.pa == sectorOf line else l.pa == line))

/-- dlock (R257): asks for an MNT entry and blocks. -/
def dlock (s : State) (t : Nat) (i : Ins) : State :=
  issueIns s t 0x1B i (i.gb ≠ 0 ∨ 2 ≤ i.fn.toNat) (fun s =>
    let a := gaV s t i
    let sec := i.fn.getLsbD 0
    let fin := fun (s : State) (n : Nat) => retGd s t i (BitVec.ofNat 64 n)
    noSeq s t a (fun s =>
    match paLine a with
    | none => fin s 10
    | some line =>
      if ! homed s line then fin s 10
      else if (match heldLock s t line sec with | some l => ! l.lost | none => false) then fin s 8
      else if 4 ≤ ((s.thr t).locks.filter (fun l => ! l.lost)).length then fin s 9
      else
        let n := sliceOf line
        let s := s.wdogArm n
        let s := s.setSlq n { s.slq n with mntQ := (s.slq n).mntQ ++ [⟨0, line, t, 0, sec, some (t, 0)⟩] }
        s.setThr t { s.thr t with blk := .dlock i.gd.toNat line sec (blkLimit s t) }))

/-- dunlock (R257). -/
def dunlock (s : State) (t : Nat) (i : Ins) : State :=
  issueIns s t 0x1C i (i.gb ≠ 0 ∨ 2 ≤ i.fn.toNat) (fun s =>
    let fin := fun (s : State) (n : Nat) => retGd s t i (BitVec.ofNat 64 n)
    match paLine (gaV s t i) with
    | none => fin s 10
    | some line =>
      if ! homed s line then fin s 10 else
      match heldLock s t line (i.fn.getLsbD 0) with
      | none => fin s 11
      | some l =>
        let s := s.setThr t { s.thr t with locks := (s.thr t).locks.erase l }
        if l.lost ∨ ¬ (s.trkE l.tid).valid then fin s 3 else fin (endLock s l.tid) 0)

/-! ### Messages (R260 to R262) -/

/-- msend to a slice (R261): the state and the status. -/
def msendSlice (s : State) (t typ : Nat) (pa gb : BitVec 64) : State × Nat :=
  match paLine pa with
  | none => (s, 3)
  | some line =>
    if ! homed s line ∨ typ < 0x3C then (s, 3)
    else if 16 ≤ (s.thr t).credits then (s, 1)
    else
      let g := gb.toNat
      let op := bits g 16 8
      let n := sliceOf line
      let s := s.setThr t { s.thr t with credits := (s.thr t).credits + 1 }
      let s := (clEvent s (t / 4) 6).wdogArm n
      (s.setSlq n { s.slq n with mntQ := (s.slq n).mntQ ++
        [⟨typ, line, bits g 0 16, op, typ == 0x3D && op == 0, some (t, bits g 24 16)⟩] }, 0)

/-- msend to a thread (R261). -/
def msendThread (s : State) (t typ : Nat) (ga gb : BitVec 64) : State × Nat :=
  let u := ga.toNat
  if 64 ≤ u ∨ typ ≠ 0 ∨ stwFailed s (u / 4) then (s, 3)
  else if 8 ≤ ((s.thr u).inbox.filter (fun m => m.kind == 2)).length then (s, 2)
  else (inboxPush s u ⟨BitVec.ofNat 64 (2 * 2 ^ 22 + t * 2 ^ 32), gb⟩, 0)

/-- msend (R261): TYPE is func[5:0], DEST func[8:6]. -/
def msend (s : State) (t : Nat) (i : Ins) : State :=
  let dest := i.fn.toNat / 64 % 8
  issueIns s t 0x20 i (512 ≤ i.fn.toNat ∨ 2 ≤ dest) (fun s =>
    let (u, st) := if dest = 0 then msendSlice s t (i.fn.toNat % 64) (gaV s t i) (gbV s t i)
      else msendThread s t (i.fn.toNat % 64) (gaV s t i) (gbV s t i)
    retGd u t i (BitVec.ofNat 64 st))

/-- mwait (R262): pd is func[2:0]. -/
def mwait (s : State) (t : Nat) (i : Ins) : State :=
  let pd := i.fn.toNat % 8
  issueIns s t 0x21 i (! evenReg i.gd ∨ i.gb ≠ 0 ∨ 8 ≤ i.fn.toNat) (fun s =>
    noSeq s t 0 (fun s =>
    let a := gaV s t i
    if (s.thr t).inbox ≠ [] then advance (takeMsg s t i.gd.toNat pd) t 4
    else if a = 0 then advance (s.setPred t pd false) t 4
    else s.setThr t { s.thr t with blk := .mwait i.gd.toNat pd (a == BitVec.allOnes 64) (s.now + a.toNat) }))

/-- mwait's timeout (R262, MWAIT_TIMEOUT): a message that has come is taken. -/
def mwaitTimeout (s : State) (t : Nat) : State :=
  match (s.thr t).blk with
  | .mwait gd pd false dl =>
    let n := max s.now dl
    let s := { s with now := n, lehrNow := max s.lehrNow n }
    if (s.thr t).inbox ≠ [] then boundary (advance (takeMsg s t gd pd) t 4) t
    else boundary (advance (s.setPred t pd false) t 4) t
  | _ => s

/-! ### Memory (R263, R264, R348) -/

/-- The local words of a line at address `a`. -/
def localLine (s : State) (t a : Nat) : State × Line × Bool :=
  (List.range 8).foldl (fun (p : State × Line × Bool) k =>
    let (s, v) := lread p.1 t (a / 8 + k)
    (s, p.2.1 ||| (((v.getD 0).setWidth 512) <<< (64 * k)), p.2.2 || v.isNone)) (s, 0, false)

/-- Checks of R263 and R264 before a memory operation: the line's alignment, the local operand, the locked sequence. -/
def memOp (s : State) (t : Nat) (i : Ins) (local_ : Bool) (go : State → Nat → State) : State :=
  let a := gaV s t i
  let b := (gbV s t i).toNat
  if a.toNat % 64 ≠ 0 then trap s t 3 a
  else if local_ ∧ b % 64 ≠ 0 then trap s t 3 (BitVec.ofNat 64 b)
  else if local_ ∧ 0x10000 ≤ b then trap s t 2 (BitVec.ofNat 64 b)
  else
    let named : Bool := match paLine a with | some l => hutMapped s l | none => false
    let line := a.toNat / 64 % 2 ^ 42
    let (p, m, _) := portsOf s line
    -- the port that serves the line: the primary, or the mirror where the primary is FAILED (R348)
    let port := if mpState s p = 2 then m.getD p else p
    match (s.thr t).lockSeq with
    | some (ps, n) =>
      if 8 ≤ n ∨ (named ∧ ¬ ps.contains port) then trap s t 8 a
      else if ! named then retGd s t i 3
      else go (s.setThr t { s.thr t with lockSeq := some (ps, n + 1) }) line
    | none => if ! named then retGd s t i 3 else go s line

/-- Issues a thread's memory operation and blocks on it. -/
def memStart (s : State) (t kind gd line loc : Nat) (ue : Bool) (k : Nat) (data : Line) : State :=
  let id := s.mem.nextId
  let s := s.setThr t { s.thr t with blk := .mem kind gd (line * 64) loc ue id (blkLimit s t) }
  (issueMem s k (.thread t id) line data 0 false (t / 4)).1

def mrd (s : State) (t : Nat) (i : Ins) : State :=
  issueIns s t 0x24 i (i.fn ≠ 0) (fun s => memOp s t i true (fun s line =>
    memStart s t 0 i.gd.toNat line ((gbV s t i).toNat / 8) false 0 0))

def mwr (s : State) (t : Nat) (i : Ins) : State :=
  issueIns s t 0x25 i (i.fn ≠ 0) (fun s => memOp s t i true (fun s line =>
    let (s, d, ue) := localLine s t (gbV s t i).toNat
    memStart s t 1 i.gd.toNat line 0 ue (if ue then 3 else 1) d))

def mpoison (s : State) (t : Nat) (i : Ins) : State :=
  issueIns s t 0x26 i (i.gb ≠ 0 ∨ i.fn ≠ 0) (fun s => memOp s t i false (fun s line =>
    memStart s t 2 i.gd.toNat line 0 false 3 0))

/-- The next LOCK of an mlock, or its end (R348). -/
def lockNext (s : State) (t gd : Nat) (left held : List Nat) (pa dl : Nat) : State :=
  match left with
  | [] =>
    let s := s.setThr t { s.thr t with lockSeq := some (held, 0) }
    boundary (advance (s.setGreg t gd 0) t 4) t
  | p :: rest =>
    let id := s.mem.nextId
    let s := s.setThr t { s.thr t with blk := .mlock gd rest held pa id dl }
    seqOp s t 4 p

/-- mlock (R264, R348): the primary port and the mirror port in rising number, a FAILED one left out. -/
def mlock (s : State) (t : Nat) (i : Ins) : State :=
  issueIns s t 0x27 i (i.gb ≠ 0 ∨ i.fn ≠ 0) (fun s =>
    let a := gaV s t i
    noSeq s t a (fun s =>
    let (p, m, _) := portsOf s (a.toNat / 64 % 2 ^ 42)
    let ps := ((match m with | some q => if p ≤ q then [p, q] else [q, p] | none => [p])).filter (fun x => mpState s x ≠ 2)
    lockNext s t i.gd.toNat ps [] a.toNat (blkLimit s t)))

/-- munlock (R264). -/
def munlock (s : State) (t : Nat) (i : Ins) : State :=
  issueIns s t 0x28 i (i.ga ≠ 0 ∨ i.gb ≠ 0 ∨ i.fn ≠ 0) (fun s =>
    if (s.thr t).lockSeq.isNone then trap s t 8 0 else retGd (closeSeq s t) t i 0)

/-- A memory operation of a thread has completed (R263). -/
def thrDone (s : State) (t id : Nat) (d : MemDone) : State :=
  match (s.thr t).blk with
  | .mem kind gd _ loc ue op _ =>
    if op = id then
      let s := if kind = 0 then (List.range 8).foldl (fun u k => lwrite u t (loc + k) (lineWord d.data k)) s else s
      let st := if kind = 0 then b2n d.poison else if kind = 1 ∧ ue then 2 else 0
      boundary (advance (s.setGreg t gd (BitVec.ofNat 64 st)) t 4) t
    else s.setThr t { s.thr t with late := (s.thr t).late.filter (fun l => l.1 ≠ id) }
  | _ => s.setThr t { s.thr t with late := (s.thr t).late.filter (fun l => l.1 ≠ id) }

/-- A LOCK or UNLOCK has completed; a LOCK nobody waits for any more is undone. -/
def lockDone (s : State) (t id : Nat) (d : MemDone) : State :=
  if d.kind ≠ 4 then s else
  match (s.thr t).blk with
  | .mlock gd left held pa op dl =>
    if op = id then lockNext s t gd left (held ++ [d.pa]) pa dl else seqOp s t 5 d.pa
  | _ => seqOp (s.setThr t { s.thr t with late := (s.thr t).late.filter (fun l => l.1 ≠ id) }) t 5 d.pa

/-- BLK_TMO passes (R257, R263, R264, BLK_TMO_EXPIRY). -/
def blkExpiry (s : State) (t : Nat) : State :=
  let at_ := fun (dl : Nat) => let n := max s.now dl; { s with now := n, lehrNow := max s.lehrNow n }
  match (s.thr t).blk with
  | .dlock gd _ _ dl => if dl = 0 then s else
      boundary (advance ((dropDlock (at_ dl) t).setGreg t gd 7) t 4) t
  | .mem kind _ pa _ _ op dl => if dl = 0 then s else
      let s := at_ dl
      trap (s.setThr t { s.thr t with late := (s.thr t).late ++ [(op, kind)] }) t 6 (BitVec.ofNat 64 pa)
  | .mlock _ _ _ pa op dl => if dl = 0 then s else
      let s := at_ dl
      trap (s.setThr t { s.thr t with late := (s.thr t).late ++ [(op, 3)] }) t 6 (BitVec.ofNat 64 pa)
  | _ => s

/-! ### Queue, interrupts, control (R265, R266, R270 to R272) -/

/-- nqput (R265): ga names a pair; END is func[0]. -/
def nqput (s : State) (t : Nat) (i : Ins) : State :=
  issueIns s t 0x2C i (! evenReg i.ga ∨ i.gd ≠ 0 ∨ i.gb ≠ 0 ∨ 2 ≤ i.fn.toNat) (fun s =>
    let e := i.fn.getLsbD 0
    let w := ((s.greg t (i.ga.toNat + 1)).setWidth 128 <<< 64) ||| (gaV s t i).setWidth 128
    let w := (w &&& ~~~ (1#128 <<< 127)) ||| (if e then 1#128 <<< 127 else 0)
    let th := s.thr t
    if 8 ≤ th.pkt.length then trap (s.setThr t { th with pkt := [] }) t 9 0
    else if e then advance (thrReady (s.setThr t { th with pkt := [] }) t (th.pkt ++ [w])) t 4
    else advance (s.setThr t { th with pkt := th.pkt ++ [w] }) t 4)

/-- irq (R266). -/
def irqIns (s : State) (t : Nat) (i : Ins) : State :=
  issueIns s t 0x2D i (i.gd ≠ 0 ∨ i.gb ≠ 0) (fun s =>
    let n := memAddr s t i
    if n.toNat < 512 then advance (irqSet s n.toNat) t 4 else trap s t 7 n)

/-- What fence waits for has taken effect (R270, R326): of the operations that passed BLK_TMO, mwr (1) and mpoison (2). -/
def fenceReady (s : State) (t : Nat) : Bool :=
  (s.thr t).late.all (fun l => l.2 ≠ 1 && l.2 ≠ 2) && (SMap.getD (fun _ => []) s.nq.readyThr t).isEmpty &&
  (match (s.hut (t / 4)).maint with | some m => m.thr != some t | none => true)

/-- fence (R270). -/
def fence (s : State) (t : Nat) (i : Ins) : State :=
  issueIns s t 0x38 i (i.gd ≠ 0 ∨ i.ga ≠ 0 ∨ i.gb ≠ 0 ∨ i.fn ≠ 0) (fun s =>
    if fenceReady s t then advance s t 4 else s.setThr t { s.thr t with blk := .fence })

/-- yield (R271): BG is func[0]. -/
def yieldIns (s : State) (t : Nat) (i : Ins) : State :=
  issueIns s t 0x39 i (i.gd ≠ 0 ∨ i.gb ≠ 0 ∨ 2 ≤ i.fn.toNat) (fun s =>
    noSeq s t 0 (fun s =>
    let a := gaV s t i
    let bg := i.fn.getLsbD 0
    if a = 0 ∧ ¬ bg then advance s t 4
    else s.setThr t { s.thr t with run := 2, blk := .yield a.toNat bg false }))

/-- A waiting thread becomes ready (R271, YIELD_WAKE): a message came, an interrupt wakes it, the background bit is 1, or
its time has come. -/
def yieldWake (s : State) (t : Nat) : State :=
  match (s.thr t).blk with
  | .yield till bg msg =>
    let go := fun (s : State) => boundary (advance (s.setThr t { s.thr t with run := 1 }) t 4) t
    if msg ∨ thrIrq s t ∨ (bg ∧ bgOn s (t / 4)) ∨ (till ≠ 0 ∧ till ≤ s.now) then go s
    else if till ≠ 0 then go { s with now := max s.now till, lehrNow := max s.lehrNow till }
    else s
  | _ => s

/-- trap imm11 (R272): TINFO is imm11. -/
def trapIns (s : State) (t : Nat) (i : Ins) : State :=
  issueIns s t 0x3A i (i.gd ≠ 0 ∨ i.ga ≠ 0 ∨ i.gb ≠ 0) (fun s => trap s t 0x0B (imm11 i))

/-- halt (R272): PC at the next instruction. -/
def haltIns (s : State) (t : Nat) (i : Ins) : State :=
  issueIns s t 0x3B i (i.gd ≠ 0 ∨ i.ga ≠ 0 ∨ i.gb ≠ 0 ∨ i.fn ≠ 0) (fun s =>
    noSeq s t 0 (fun s => haltThread (advance s t 4) t))

/-! ### Thread control registers (R269) -/

/-- TSTATUS (R269). START is the kind of the last start. -/
def tstatus (s : State) (t : Nat) : BitVec 64 :=
  let th := s.thr t
  BitVec.ofNat 64 (t + s.fld Fld.START_STATUS_KIND % 4 * 2 ^ 6 + b2n (thrIrq s t) * 2 ^ 8 + b2n (bgOn s (t / 4)) * 2 ^ 9 +
    b2n th.inTrap * 2 ^ 10 + b2n th.lockSeq.isSome * 2 ^ 11 + th.inbox.length % 32 * 2 ^ 12 + th.credits % 32 * 2 ^ 17 +
    (th.locks.filter (fun l => ! l.lost)).length % 8 * 2 ^ 22)

/-- A thread control register: none where the number is not listed. -/
def tcrRead (s : State) (t n : Nat) : Option (BitVec 64) :=
  let th := s.thr t
  match n with
  | 0 => some (tstatus s t)
  | 1 => some (BitVec.ofNat 64 s.now)
  | 2 => some th.tvec
  | 3 => some th.epc
  | 4 => some (BitVec.ofNat 64 th.tcause)
  | 5 => some th.tinfo
  | 6 => some th.blkTmo
  | _ => none

def tcrWrite (s : State) (t n : Nat) (v : BitVec 64) : Option State :=
  let th := s.thr t
  match n with
  | 0 | 1 | 4 | 5 => some s
  | 2 => some (s.setThr t { th with tvec := v })
  | 3 => some (s.setThr t { th with epc := v })
  | 6 => some (s.setThr t { th with blkTmo := v })
  | _ => none

/-! ### Rule loading (R278, R279, R297 to R300) -/

def activeBank (s : State) : Nat := s.fld Fld.RB_STATUS_ACTIVE

/-- Old entries and sink slots (R297): their epoch is not the active bank. -/
def oldCount (s : State) : Nat :=
  (s.sl.trk.filter (fun e => e.2.valid && e.2.epoch != activeBank s)).length +
  (s.sl.sinks.filter (fun e => e.2.used && e.2.epoch != activeBank s)).length
def draining (s : State) : Bool := oldCount s != 0

/-- The bank word ga names: rules, then steps, by ga[10:0]; none where R279 traps. -/
def rloadIdx (ga : BitVec 64) : Option Nat :=
  let v := ga.toNat
  if 2 ^ 14 ≤ v then none
  else if v / 4096 = 0 then (if v < 1024 then some v else none)
  else if v / 4096 = 1 then some (1024 + v % 2048)
  else none

/-- The slice logics that have not FAILED, spares included. -/
def goodLogics (s : State) : List Nat :=
  (List.range 144).filter (fun l => ! bit1 (s.fld Fld.CL_SPARE_FAILED (l / 9)) (l % 9))

/-- Writes a word of the inactive bank, with fresh check bits in every logic that has not FAILED (R278). -/
def bankPut (s : State) (idx : Nat) (v : BitVec 64) : State :=
  let b := 1 - activeBank s
  let s := (goodLogics s).foldl (fun u l => wordWritten u .rb l (b * 4096 + idx)) s
  let k := s.sl.banks
  { s with sl := { s.sl with banks := { k with
    src0 := if b = 0 then 2 else k.src0, src1 := if b = 1 then 2 else k.src1
    words := SMap.set (fun _ => 0) k.words (b * 4096 + idx) v } } }

/-- An rswap is in progress (R299). -/
def swapping (s : State) : Bool := s.sl.banks.swap.isSome

/-- rload (R278, R298). One that must wait, for DRAINING or for an rload issued before it, blocks. -/
def rload (s : State) (t : Nat) (i : Ins) : State :=
  issueIns s t 0x3C i (i.fn ≠ 0) (fun s =>
    match rloadIdx (gaV s t i) with
    | none => trap s t 0x0C (gaV s t i)
    | some k =>
      if swapping s then retGd s t i 1
      else if draining s ∨ s.sl.banks.blocked ≠ [] then
        { s.setThr t { s.thr t with blk := .rload i.gd.toNat k (gbV s t i) } with
          sl := { s.sl with banks := { s.sl.banks with blocked := s.sl.banks.blocked ++ [t] } } }
      else retGd (bankPut s k (gbV s t i)) t i 0)

/-- A blocked rload is applied once DRAINING is 0 and those issued before it have been applied (R278, R298, RLOAD_UNBLOCK). -/
def rloadUnblock (s : State) (t : Nat) : State :=
  match (s.thr t).blk with
  | .rload gd k v =>
    if draining s ∨ swapping s ∨ s.sl.banks.blocked.head? ≠ some t then s else
    let s := { s with sl := { s.sl with banks := { s.sl.banks with blocked := s.sl.banks.blocked.drop 1 } } }
    boundary (advance ((bankPut s k v).setGreg t gd 0) t 4) t
  | _ => s

/-- The swap itself (R299): ACTIVE toggles in every logic, the profiles are exchanged. -/
def bankSwap (s : State) : State :=
  let a := s.fld Fld.RB_PROF_ACT_PROFILE
  let b := s.fld Fld.RB_PROF_INACT_PROFILE
  ((((s.setFld Fld.RB_STATUS_ACTIVE (1 - activeBank s)).setFld Fld.RB_PROF_ACT_PROFILE b).setFld Fld.RB_PROF_INACT_PROFILE
    a).setFld Fld.RB_STATUS_LOADED 1).addFld Fld.RB_STATUS_SWAPS 1

/-- An rswap begins: it ends 40 CCLK later, 25 ns at 1.6 GHz, and every logic switches then, DEDUCED (log entry 55). -/
def swapBegin (s : State) (who : Option (Nat × Nat)) : State :=
  { s with sl := { s.sl with banks := { s.sl.banks with swap := some (who, s.now + 25) } } }

/-- An rswap ends when its time has come; its thread goes on with OK. -/
def swapPoll (s : State) : State :=
  match s.sl.banks.swap with
  | some (who, t) =>
    if s.now < t then s else
    let s := bankSwap { s with sl := { s.sl with banks := { s.sl.banks with swap := none } } }
    (match who with
     | some (t, gd) => if (s.thr t).blk = .rswap then boundary (advance (s.setGreg t gd 0) t 4) t else s
     | none => s)
  | none => s

/-- rswap (R279, R299): EPOCH_BUSY, SWAPPING, or the thread blocks until the swap has ended. -/
def rswap (s : State) (t : Nat) (i : Ins) : State :=
  issueIns s t 0x3D i (i.ga ≠ 0 ∨ i.gb ≠ 0 ∨ i.fn ≠ 0) (fun s =>
    if swapping s then retGd s t i 2
    else if draining s then retGd s t i 1
    else swapBegin (s.setThr t { s.thr t with blk := .rswap }) (some (t, i.gd.toNat)))

/-! ### Steward registers (R283 to R285), failure (R280) -/

/-- STW_CTL.START of a thread (R283). -/
def stwStart (s : State) (t : Nat) : State :=
  let th := s.thr t
  if stwFailed s (t / 4) then s
  else if th.run = 0 then s.setThr t { th with run := 1, blk := .none_ }
  else if th.run = 3 then s.setThr t { th with run := 1, blk := .none_, inTrap := false }
  else s

/-- STW_CTL.STOP of a thread (R283). -/
def stwStop (s : State) (t : Nat) : State :=
  let th := s.thr t
  if th.run = 0 ∨ th.run = 3 then s
  else match th.blk with
    | .none_ => haltThread s t
    | .mwait _ pd _ _ => haltThread (advance (s.setPred t pd false) t 4) t
    | .yield _ _ _ => haltThread (advance s t 4) t
    | _ => s.setThr t { th with stopReq := true }

/-- A write of STW_CTL (R283): STOP wins over START. -/
def stwCtl (s : State) (c start stop : Nat) : State :=
  (List.range 4).foldl (fun u k =>
    if bit1 stop k then stwStop u (4 * c + k) else if bit1 start k then stwStart u (4 * c + k) else u) s

/-- A write of STW_Tt_PC (R285): only while the thread is HALTED or FAULTED. -/
def stwPcWrite (s : State) (t : Nat) (v : BitVec 64) : State :=
  let th := s.thr t
  if th.run = 0 ∨ th.run = 3 then s.setThr t { th with pc := v, fetched := [] } else s

/-- PC as STW_Tt_PC reads (R285). -/
def stwPcRead (s : State) (t : Nat) : BitVec 64 :=
  let th := s.thr t
  if th.run = 1 ∨ th.run = 2 then th.last else th.pc

/-- A steward core fails (R280). A second failed steward is FATAL by FC's classes (R16, R411). -/
def stewardFail (s : State) (c : Nat) : State :=
  if ! s.coreUp ∨ stwFailed s c then s else
  let s := (List.range 4).foldl (fun u k =>
    let t := 4 * c + k
    let u := dropDlock (endLocks (closeSeq u t) t) t
    u.setThr t { u.thr t with
      run := 0, blk := .none_, inbox := [], pkt := [], credits := 0, locks := [], stopReq := false, fetched := [],
      late := [] }) s
  let s := s.setHut c { s.hut c with q := (s.hut c).q.filter (fun a => a.thr.isNone) }
  let s := { s with sl := { s.sl with banks := { s.sl.banks with blocked := s.sl.banks.blocked.filter (fun t => t / 4 ≠ c) } } }
  let s := s.setFld Fld.STW_STATUS_FAILED 1 c
  raiseCluster s c 0x41 c

/-- Threads whose wait has ended run on: mwait with a message or an interrupt, fence. -/
def stwPoll (s : State) : State :=
  s.stw.thr.foldl (fun u e =>
    let t := e.1
    match (u.thr t).blk with
    | .mwait gd pd _ _ =>
      if (u.thr t).inbox ≠ [] then boundary (advance (takeMsg u t gd pd) t 4) t
      else if thrIrq u t then boundary (advance (u.setPred t pd false) t 4) t
      else u
    | .fence => if fenceReady u t then boundary (advance u t 4) t else u
    | _ => u) s

end Sys2Proof.Machine
end

