-- ==== Sys2Proof/Machine/Lehr.lean ====
section
/-! DEFINITION. The Lehr (chapter 16) with the home-status and rail outputs (R41, R50): temperatures, the governor and its
slot table, ageing, the margin plan and the ledger. -/

namespace Sys2Proof.Machine

/-! ### Outputs -/

/-- HOME_READY (R28, R50): with retention in LEHR, from the census step of a cold start, after replay of a warm start. -/
def homeReady (s : State) : Bool :=
  s.vaux && s.portUp && s.fld Fld.HOME_CTL_FORCE_OFF == 0 &&
  (match s.mode with
   | 1 => s.fld Fld.MODE_RETAINED == 1
   | 2 => s.start.run.isSome && 9 ≤ s.fld Fld.START_STATUS_STEP
   | 3 => s.start.run.isSome && 9 ≤ s.fld Fld.START_STATUS_STEP && ! s.port.replaying
   | 4 | 5 | 6 | 7 => true
   | _ => false)

/-- HOME_KEEP (R50). -/
def homeKeep (s : State) : Bool := s.vaux && s.portUp

/-- RAIL_REQ (R41). -/
def railReq (s : State) : Bool := s.vaux && s.lehr.railReq

/-! ### Messages and sources (R479, R480) -/

/-- A Lehr record: four words of 32 bits (R479). -/
def lehrRec (s : State) (fs : List (Nat × Nat × Nat)) : State :=
  let w := (recOf (fs ++ recTail s.lehrNow)).toNat
  lehrMsg s ((List.range 4).map (fun k => BitVec.ofNat 32 (bits w (32 * k) 32)))

/-- Sets a Lehr source 16 + k, held in LEHR_IRQ (R480). -/
def lehrIrq (s : State) (k : Nat) : State := s.setFld Fld.LEHR_IRQ_SRC (s.fld Fld.LEHR_IRQ_SRC ||| 2 ^ k)

/-! ### Temperature (R463) -/

def tempOf (s : State) (k : Nat) : Rat := SMap.getD (fun _ => 0) s.lehr.temp k

/-- The usable sensors of a region. -/
def usable (s : State) (r : Nat) : List Nat := (List.range 8).map (8 * r + ·) |>.filter (fun k => ! s.lehr.excl.contains k)

/-- The sensor with the highest filtered reading of a region, the lowest number among equals. -/
def hottest (s : State) (r : Nat) : Option Nat :=
  (usable s r).foldl (fun b k => match b with
    | none => some k
    | some j => if tempOf s j < tempOf s k then some k else some j) none

/-- T_r in 0.25 °C: a region without a usable sensor counts as at T_HOT. -/
def regionTemp (s : State) (r : Nat) : Rat :=
  match hottest s r with
  | some k => tempOf s k
  | none => 4 * s.fld Fld.THERM_CTL_T_HOT

def regionHot (s : State) (r : Nat) : Bool := decide ((4 * s.fld Fld.THERM_CTL_T_HOT : Rat) ≤ regionTemp s r)
def regionTrip (s : State) (r : Nat) : Bool := decide ((4 * s.fld Fld.THERM_CTL_T_TRIP : Rat) ≤ regionTemp s r)

/-- T_r in °C, rounded down, negative readings as 0 (R483). -/
def regionDeg (s : State) (r : Nat) : Nat := min 255 (regionTemp s r / 4).floor.toNat

/-! ### Current (R464) -/

def ctelUsed (s : State) : Bool := s.fld Fld.PIN_STATUS_CTEL_ABSENT == 0 && railReq s

/-- Sum and count of the frames of the last 64 slots. -/
def iSum (s : State) : Nat := (s.lehr.iHist.map (·.1)).sum
def iCnt (s : State) : Nat := (s.lehr.iHist.map (·.2)).sum
/-- I_avg in 25 mA, rounded down, as PWR frames carry it (R495). -/
def iAvg (s : State) : Nat := if iCnt s = 0 then 0 else iSum s / iCnt s

/-- The package share as the governor and GOV_PKG see it: none while BUDGET = 0 (R468, R501). -/
def pkgShare (s : State) : Nat := if s.fld Fld.PT_PKG_BUDGET = 0 then 0xFFFF else s.fld Fld.GOV_PKG_SHARE

/-- Condition PK (R467, R468): with PKG = 1 the lower of the limit and the package share. -/
def condPk (s : State) : Bool :=
  let pk := s.fld Fld.GOV_ILIM_PK
  let lim := if s.fld Fld.GOV_CTL_PKG = 1 then min pk (pkgShare s) else pk
  ctelUsed s && pk != 0 && decide (lim < s.lehr.iNow)

/-- Condition AVG (R467). -/
def condAvg (s : State) : Bool :=
  ctelUsed s && s.fld Fld.GOV_ILIM_AVG != 0 && decide (s.fld Fld.GOV_ILIM_AVG * iCnt s < iSum s)

/-- I_avg leaves the background margin (R467). -/
def marginOk (s : State) : Bool :=
  ! ctelUsed s || s.fld Fld.GOV_ILIM_AVG == 0 ||
  decide ((iSum s : Int) ≤ ((s.fld Fld.GOV_ILIM_AVG : Int) - s.fld Fld.GOV_BG_MARGIN) * iCnt s)

def maskOfB (n : Nat) (f : Nat → Bool) : Nat := (List.range n).foldl (fun a k => a + b2n (f k) * 2 ^ k) 0

/-- A GOV_LIMIT record (R479). -/
def govRecord (s : State) (active pk avg hot trip : Nat) : State :=
  lehrRec s [(0x52, 0, 8), (active, 8, 1), (pk, 9, 1), (avg, 10, 1), (hot, 11, 4), (trip, 15, 4), (s.lehr.iNow, 19, 16)]

/-- A THERM record with its source (R470). -/
def thermRecord (s : State) (r ev src : Nat) : State :=
  let k := (hottest s r).getD 0
  lehrIrq (lehrRec s [(0x50, 0, 8), (r, 8, 2), (ev, 10, 2), ((tempOf s k).floor.toNat % 4096, 12, 12), (k, 24, 5)]) src

/-- The four conditions are formed again: GOV_STATUS shows them, and what became true or false is recorded (R468, R470). -/
def govConds (s : State) : State :=
  let hot0 := s.fld Fld.GOV_STATUS_HOT
  let trip0 := s.fld Fld.GOV_STATUS_TRIP
  let any0 := s.fld Fld.GOV_STATUS_PK = 1 ∨ s.fld Fld.GOV_STATUS_AVG = 1 ∨ hot0 ≠ 0 ∨ trip0 ≠ 0
  let pk := b2n (condPk s)
  let avg := b2n (condAvg s)
  let hot := maskOfB 4 (regionHot s)
  let trip := maskOfB 4 (regionTrip s)
  let any1 := pk = 1 ∨ avg = 1 ∨ hot ≠ 0 ∨ trip ≠ 0
  let s := (((s.setFld Fld.GOV_STATUS_PK pk).setFld Fld.GOV_STATUS_AVG avg).setFld Fld.GOV_STATUS_HOT hot).setFld
    Fld.GOV_STATUS_TRIP trip
  let s := (List.range 4).foldl (fun u r =>
    let u := if bit1 hot r ∧ ¬ bit1 hot0 r then thermRecord u r 0 0
      else if ¬ bit1 hot r ∧ bit1 hot0 r then thermRecord u r 2 0 else u
    if bit1 trip r ∧ ¬ bit1 trip0 r then thermRecord u r 1 1
    else if ¬ bit1 trip r ∧ bit1 trip0 r then thermRecord u r 2 1 else u) s
  if any1 ∧ ¬ any0 then lehrIrq (govRecord s 1 pk avg hot trip) 2
  else if any0 ∧ ¬ any1 then govRecord s 0 pk avg hot trip
  else s

/-- A sensor's reading as a signed number of 0.25 °C. -/
def reading (v : BitVec 12) : Int := v.toInt

/-- A sensor reads outside −40 °C to 150 °C (R461). -/
def outOfRange (x : Int) : Bool := decide (x < -160 ∨ 600 < x)

/-- Every sensor is sampled once (R461, R463): an excluded one stays excluded; f moves by (x − f) ÷ 8. -/
def thermSample (s : State) (xs : List (BitVec 12)) : State :=
  if ! s.vaux then s else
  let s := (xs.zip (List.range 32)).foldl (fun u (v, k) =>
    let x := reading v
    if u.lehr.excl.contains k then u
    else if outOfRange x then { u with lehr := { u.lehr with excl := insertSorted k u.lehr.excl } }
    else
      let f := tempOf u k
      { u with lehr := { u.lehr with temp := SMap.set (fun _ => 0) u.lehr.temp k (f + ((x : Rat) - f) / 8) } }) s
  govConds s

/-- The self-check reads every sensor (R461): those out of range are excluded. -/
def thermCheck (s : State) (xs : List (BitVec 12)) : State :=
  { s with lehr := { s.lehr with excl := ((xs.zip (List.range 32)).filter (fun e => outOfRange (reading e.1))).map (·.2) } }

/-- A current telemetry frame (R43, R464). -/
def ctelFrame (s : State) (core sram : Nat) : State :=
  if ! railReq s then s
  else if core = 0xFFFF ∧ sram = 0xFFFF then
    let s := if s.fld Fld.PIN_STATUS_CTEL_ABSENT = 0 then lehrIrq (lehrRec s [(0x53, 0, 8), (1, 8, 1)]) 8 else s
    govConds (s.setFld Fld.PIN_STATUS_CTEL_ABSENT 1)
  else
    let hist := match s.lehr.iHist with
      | [] => [(core + sram, 1)]
      | (a, n) :: l => (a + core + sram, n + 1) :: l
    let s := { s with lehr := { s.lehr with iNow := core + sram, iHist := hist } }
    govConds ((s.setFld Fld.GOV_IMEAS_CORE core).setFld Fld.GOV_IMEAS_SRAM sram)

/-! ### The slot table (R465 to R468) -/

/-- CAPc and BGc of slot entry `n`. -/
def slotCap (s : State) (n c : Nat) : Nat :=
  if c < 8 then bits (s.fld Fld.GOV_SLOT_CAPL_CAP n) (4 * c) 4 else bits (s.fld Fld.GOV_SLOT_CAPH_CAP n) (4 * (c - 8)) 4
def slotBg (s : State) (n c : Nat) : Bool := bit1 (s.fld Fld.GOV_SLOT_BG_BG n) c

def ceilOf (s : State) (c : Nat) : Nat := bits (s.fld Fld.GOV_CEIL_CEIL) (4 * c) 4

def packCaps (f : Nat → Nat) : Nat := (List.range 16).foldl (fun a c => a + f c % 16 * 16 ^ c) 0

/-- The slot counter runs: not in LEHR (R470). -/
def govRuns (s : State) : Bool := s.vaux && s.mode != 1

/-- The slot in progress; 64 before the first. -/
def slotNow (s : State) : Nat := s.govSlot % 64

/-- A slot starts (R466): its entry is latched, clipped and sent to the slices. A reset of CORE clears the crossing (R23), so the
slices take nothing while CORE is in reset. -/
def slotStart (s : State) : State :=
  if ! govRuns s then s else
  let n := if s.govSlot = 64 then 0 else (s.govSlot + 1) % 64
  let trip := fun (c : Nat) => regionTrip s (c / 4)
  let cap := packCaps (fun c => if trip c then 0 else min (slotCap s n c) (ceilOf s c))
  let bg := maskOfB 16 (fun c => slotBg s n c && bit1 (s.fld Fld.GOV_BG_BG_EN) c && ! trip c)
  let s := { s with
    govSlot := n
    lehr := { s.lehr with
      iHist := ((0, 0) :: s.lehr.iHist).take 64, cap := BitVec.ofNat 64 cap, bg := BitVec.ofNat 16 bg } }
  if s.coreUp then { s with govCap := s.lehr.cap, govBg := s.lehr.bg } else s

/-- The governor writes the next entry (R467). -/
def govCompute (s : State) : State :=
  if ! govRuns s ∨ s.fld Fld.GOV_CTL_AUTO = 0 then s else
  let n := (slotNow s + 1) % 64
  let pk := condPk s
  let d0 := (if pk then 4 else 0) + (if condAvg s then 1 else 0)
  let cap := fun (c : Nat) =>
    let v := bits s.lehr.cap.toNat (4 * c) 4
    let d := d0 + (if regionHot s (c / 4) then 2 else 0)
    if 0 < d then v - d else min (ceilOf s c) (v + 1)
  let bg := fun (c : Nat) => ! pk && marginOk s &&
    decide (regionTemp s (c / 4) < (4 * s.fld Fld.THERM_CTL_T_TARGET : Rat))
  let caps := packCaps cap
  ((s.setFld Fld.GOV_SLOT_CAPL_CAP (caps % 2 ^ 32) n).setFld Fld.GOV_SLOT_CAPH_CAP (caps / 2 ^ 32) n).setFld
    Fld.GOV_SLOT_BG_BG (maskOfB 16 bg) n

/-! ### Ageing (R475 to R477) -/

/-- A signed number of n bits from a field. -/
def signedOf (n v : Nat) : Int := if v < 2 ^ (n - 1) then v else (v : Int) - 2 ^ n
def unsignedOf (n : Nat) (v : Int) : Nat := (v % (2 ^ n : Int)).toNat

/-- A pass may run (R475): RAIL_REQ, COLD_RST_N released, not in LEHR. -/
def passRuns (s : State) : Bool := railReq s && ! s.coldRst && s.mode != 1

/-- A pass begins; a PERIODIC plan whose pass it replaces falls due again. -/
def startPass (s : State) (reason : Nat) (fresh : Bool) : State :=
  let cut := match s.lehr.pass with | some p => p.reason == 1 && reason != 1 | none => false
  { s with lehr := { s.lehr with pass := some ⟨0, reason, fresh⟩, planDue := s.lehr.planDue || cut } }

/-- A PERIODIC plan that waits begins, once no pass runs (R476). -/
def planPoll (s : State) : State :=
  if s.lehr.planDue ∧ s.lehr.pass.isNone then startPass { s with lehr := { s.lehr with planDue := false } } 1 false else s

/-- steps_r (R476). -/
def ageSteps (s : State) (r : Nat) : Nat :=
  let k := max 1 (s.fld Fld.MGN_CTL_K)
  let a := (List.range 8).foldl (fun (m : Int) i =>
    let p := 8 * r + i
    max m (signedOf 16 (s.fld Fld.AGE_MON_NOW p) - signedOf 16 (s.fld Fld.AGE_MON_BASE p))) 0
  (a.toNat + k - 1) / k

/-- A plan: offsets by region, ceiling, assist, and whether a limit acted (R476). -/
structure Plan where
  v : List Int
  ceil : Nat
  assist : Nat
  limit : Bool
  deriving DecidableEq, Repr

def newPlan (s : State) : Plan :=
  if s.fld Fld.LEHR_STATUS_LDG_VALID = 0 then
    ⟨(List.range 4).map (fun _ => signedOf 5 (s.fld Fld.MGN_CTL_GUARD)), 60, 4, false⟩
  else
    let raw := (List.range 4).map (fun r => max (-16) (signedOf 5 (s.fld Fld.MGN_CTL_BIAS) + ageSteps s r))
    let ex := raw.foldl (fun (m : Int) v => max m (v - 15)) 0
    ⟨raw.map (fun v => min 15 v), max 16 (64 - ex.toNat),
     min 7 ((List.range 4).foldl (fun m r => max m (ageSteps s r)) 0 / 2), decide (0 < ex)⟩

/-- The offsets in force. -/
def planV (s : State) (r : Nat) : Int := signedOf 5 (bits (s.fld Fld.MGN_PLAN_VOFS) (5 * r) 5)

/-- PERIODIC and MANUAL plans never relax the plan in force (R476). -/
def clampPlan (s : State) (reason : Nat) (p : Plan) : Plan :=
  if reason = 1 ∨ reason = 3 then
    { p with
      v := (p.v.zip (List.range 4)).map (fun e => max e.1 (planV s e.2))
      ceil := min p.ceil (s.fld Fld.MGN_PLAN_CEIL)
      assist := max p.assist (s.fld Fld.MGN_PLAN_ASSIST) }
  else p

def packV (v : List Int) : Nat := (v.zip (List.range 4)).foldl (fun a e => a + unsignedOf 5 e.1 * 2 ^ (5 * e.2)) 0

/-- The ledger as 34 one-record packets (R477). -/
def mirrorLedger (s : State) : State :=
  let gen := s.fld Fld.MGN_GEN_GEN
  let s := lehrRec s [(0x62, 0, 8), (s.fld Fld.STRAP_INST_ID, 8, 8), (gen, 16, 16), (s.fld Fld.MGN_HOURS_HOURS, 32, 32)]
  let s := (List.range 32).foldl (fun u k =>
    lehrRec u [(0x60, 0, 8), (k, 8, 5), (u.fld Fld.AGE_MON_BASE k, 16, 16), (u.fld Fld.AGE_MON_NOW k, 32, 16),
      (gen, 48, 16)]) s
  lehrRec s [(0x61, 0, 8), (s.fld Fld.MGN_PLAN_VOFS, 8, 20), (s.fld Fld.MGN_PLAN_CEIL, 28, 7),
    (s.fld Fld.MGN_PLAN_ASSIST, 35, 3), (s.fld Fld.MGN_PLAN_REASON, 38, 2), (gen, 40, 16)]

/-- A plan is made and presented (R42, R476, R477). -/
def makePlan (s : State) (reason : Nat) : State :=
  -- an uncorrectable word of the ledger ends its validity, and the guard plan follows (R462)
  let (s, ok) := lehrGood s 256 68
  let s := if ok then s else s.setFld Fld.LEHR_STATUS_LDG_VALID 0
  let p := clampPlan s reason (newPlan s)
  let s := (((s.setFld Fld.MGN_PLAN_VOFS (packV p.v)).setFld Fld.MGN_PLAN_CEIL p.ceil).setFld Fld.MGN_PLAN_ASSIST
    p.assist).setFld Fld.MGN_PLAN_REASON reason
  let s := s.setFld Fld.LEHR_STATUS_GUARD (1 - s.fld Fld.LEHR_STATUS_LDG_VALID)
  let s := lehrWrote (s.addFld Fld.MGN_GEN_GEN 1) (ldgWords 0 ++ ldgWords 33)
  let s := { s with lehr := { s.lehr with mgnUpd := ! s.lehr.mgnUpd } }
  let s := lehrIrq s 5
  let s := if p.limit then lehrIrq s 6 else s
  mirrorLedger s

/-- A measurement of the pass's pair ends (R475): D from the two counts; the last pair's plan follows. The second part says
that the pass ended, with its reason. -/
def ageMeasure (s : State) (nu ns : Nat) : State × Option Nat :=
  match s.lehr.pass with
  | none => (s, none)
  | some p =>
    if ! passRuns s then (s, none) else
    let (d, s) := if nu = 0 then (let (n, s) := s.takeFree; ((Config.free n).toNat % 65536, s))
      else (unsignedOf 16 ((((nu : Int) - ns) * 10000) / nu), s)
    let s := s.setFld Fld.AGE_MON_NOW d p.pair
    let s := if p.fresh then lehrWrote (s.setFld Fld.AGE_MON_BASE d p.pair) (ldgWords (p.pair + 1)) else s
    if p.pair < 31 then ({ s with lehr := { s.lehr with pass := some { p with pair := p.pair + 1 } } }, none)
    else
      (planPoll (makePlan { s with lehr := { s.lehr with pass := none } } p.reason), some p.reason)

/-- MGN_CTL.GO (R476, R486): ignored while a pass runs or none may. -/
def mgnGo (s : State) : State :=
  if s.lehr.pass.isSome ∨ ! passRuns s then s else startPass s 3 false

/-- Another powered hour (R475, R476): a multiple of 1,024 makes a PERIODIC plan due. -/
def hourTick (s : State) : State :=
  if ! railReq s ∨ s.coldRst then s else
  let s := lehrWrote (s.addFld Fld.MGN_HOURS_HOURS 1) (ldgWords 0)
  if s.fld Fld.MGN_HOURS_HOURS % 1024 = 0 then
    if s.mode = 1 ∨ s.lehr.pass.isSome then { s with lehr := { s.lehr with planDue := true } }
    else startPass s 1 false
  else s

/-! ### The ledger (R478, R487) -/

def ldgPush (s : State) : State :=
  let w := fun k => s.fld Fld.LDG_REC_BITS k
  { s with lehr := { s.lehr with staged := s.lehr.staged ++
    [BitVec.ofNat 128 (w 0 + w 1 * 2 ^ 32 + w 2 * 2 ^ 64 + w 3 * 2 ^ 96)] } }

def ldgClear (s : State) : State := { s with lehr := { s.lehr with staged := [] } }

/-- The staged records of a type. -/
def stagedOf (s : State) (typ : Nat) : List Nat := (s.lehr.staged.map (·.toNat)).filter (fun w => w % 256 = typ)

/-- RESULT of a commit (R478, R487): 1 OK, 2 INCOMPLETE, 3 MISMATCH, 4 OLDER. -/
def ldgVerdict (s : State) (fresh : Bool) : Nat :=
  if s.lehr.staged.isEmpty then
    (if ¬ fresh then 2 else if s.fld Fld.LEHR_STATUS_LDG_VALID = 1 then 4 else 1)
  else match stagedOf s 0x62, stagedOf s 0x61 with
    | [h], [p] =>
      let ms := stagedOf s 0x60
      let gen := bits h 16 16
      if ms.length ≠ 32 ∨ ¬ (List.range 32).all (fun k => ms.any (fun m => bits m 8 5 = k)) ∨
          s.lehr.staged.length ≠ 34 then 2
      else if ms.any (fun m => bits m 48 16 ≠ gen) ∨ bits p 40 16 ≠ gen ∨ bits h 8 8 ≠ s.fld Fld.STRAP_INST_ID then 3
      else if s.fld Fld.LEHR_STATUS_LDG_VALID = 1 ∧ gen ≤ s.fld Fld.MGN_GEN_GEN then 4
      else 1
    | _, _ => 2

/-- LDG_CTL.COMMIT (R478): an accepted ledger becomes valid and a pass for a RESTORE plan starts. -/
def ldgCommit (s : State) : State :=
  let fresh := s.fld Fld.LDG_CTL_FRESH = 1
  let r := ldgVerdict s fresh
  let s := s.setFld Fld.LDG_CTL_RESULT r
  if r ≠ 1 then s
  else
  let s := lehrWrote s ((List.range 34).flatMap ldgWords)
  if s.lehr.staged.isEmpty then
    startPass (((s.setFld Fld.MGN_GEN_GEN 1).setFld Fld.MGN_HOURS_HOURS 0).setFld Fld.LEHR_STATUS_LDG_VALID 1) 2 true
  else
    let h := (stagedOf s 0x62).headD 0
    let s := (stagedOf s 0x60).foldl (fun u m => u.setFld Fld.AGE_MON_BASE (bits m 16 16) (bits m 8 5)) s
    let s := ((s.setFld Fld.MGN_GEN_GEN (bits h 16 16)).setFld Fld.MGN_HOURS_HOURS (bits h 32 32)).setFld
      Fld.LEHR_STATUS_LDG_VALID 1
    startPass (ldgClear s) 2 false

/-- LDG_CTL as one write (R487): CLEAR before PUSH, then COMMIT with FRESH of the same write. -/
def ldgCtl (s : State) (v : Nat) : State :=
  let s := s.setFld Fld.LDG_CTL_FRESH (bits v 3 1)
  let s := if bit1 v 2 then ldgClear s else s
  let s := if bit1 v 0 then ldgPush s else s
  if bit1 v 1 then ldgCommit s else s

end Sys2Proof.Machine
end

