-- ==== Sys2Proof/Machine/Punty.lean ====
section
/-! DEFINITION. The Punty links (chapter 17): bring-up, frames with their link-level delivery, flooding, partners and
their loss, time synchronisation, the package share and the home-map handoff. -/

namespace Sys2Proof.Machine

/-! ### Ports -/

def ptPort0 : PtPort :=
  { state := 0, attempt := 0, lock := 0, dl := 0, seq := 0, rx := 63, nak := false, replay := [], waitq := [],
    capOut := false, types := 0, dist := 255, pwr := none, same := false, t1 := none }

namespace State

def ptp (s : State) (p : Nat) : PtPort := SMap.getD (fun _ => ptPort0) s.pt.port p
def setPtp (s : State) (p : Nat) (v : PtPort) : State :=
  { s with pt := { s.pt with port := SMap.set (fun _ => ptPort0) s.pt.port p v } }
def instId (s : State) : Nat := s.fld Fld.STRAP_INST_ID

end State

/-- Punty runs: VAUX, CORE out of reset, not in LEHR (R493). -/
def ptRuns (s : State) : Bool := s.vaux && s.coreUp && s.mode != 1

/-- A port that carries frames: UP or UP_1LANE (R492). -/
def ptUp (s : State) (p : Nat) : Bool := (s.ptp p).state == 3 || (s.ptp p).state == 4
def upPorts (s : State) : List Nat := (List.range 4).filter (ptUp s)

/-- A change of STATE: source 32 + p and a PT_PORT record (R503). -/
def ptState (s : State) (p st : Nat) : State :=
  let old := s.ptp p
  if old.state = st then s else
  let s := irqSet (s.setPtp p { old with state := st }) (32 + p)
  parReady s (recOf ([(0x78, 0, 8), (p, 8, 2), (st, 10, 3), (old.attempt, 13, 4)] ++ recTail s.now))

/-! ### Sending (R494, R495) -/

/-- A payload of fields at byte offsets 4 to 35, of 1, 2 or 8 bytes. -/
def payOf (fs : List (Nat × Nat × Nat)) : BitVec 256 :=
  BitVec.ofNat 256 (fs.foldl (fun a (v, at_, n) => a + v % 256 ^ n * 256 ^ (at_ - 4)) 0)

/-- The frame's place among those that wait: FREEZE, FAULT, HB, then the rest (R494). -/
def ptPrio (typ : Nat) : Nat := match typ with | 4 => 0 | 3 => 1 | 2 => 2 | _ => 3

/-- Puts a waiting frame behind those of its priority or higher. -/
def ptQueue (f : PtFrame) : List PtFrame → List PtFrame
  | [] => [f]
  | g :: l => if ptPrio f.typ < ptPrio g.typ then f :: g :: l else g :: ptQueue f l

/-- A frame goes out with the next SEQ and the present ACK and NAK. -/
def ptOut (s : State) (p : Nat) (f : PtFrame) : State :=
  let q := s.ptp p
  let f := { f with seq := q.seq, ack := q.rx, nak := q.nak }
  { s.setPtp p { q with seq := (q.seq + 1) % 64, nak := false, replay := q.replay ++ [f] } with
    ptTx := s.ptTx ++ [(p, f)] }

/-- Waiting frames leave while fewer than 32 are unacknowledged. -/
def ptPump : Nat → Nat → State → State
  | 0, _, s => s
  | fuel + 1, p, s =>
    let q := s.ptp p
    match q.waitq with
    | [] => s
    | f :: l => if q.replay.length < 32 then ptPump fuel p (ptOut (s.setPtp p { q with waitq := l }) p f) else s

/-- Sends a frame on a port, if its partner understands the type (R495). -/
def ptSend (s : State) (p typ : Nat) (pay : BitVec 256) : State :=
  let q := s.ptp p
  if typ ≠ 1 ∧ (¬ ptUp s p ∨ ¬ bit1 q.types typ) then s
  else ptPump 64 p (s.setPtp p { q with waitq := ptQueue ⟨typ, 0, false, 0, pay⟩ q.waitq })

/-- The types a KH8 understands (R495): 0x01 to 0x0A. -/
def ptTypes : Nat := 0x07FE

/-- A CAP frame (R490, R495): it leaves in step 4 of an attempt, when both lanes have locked, which takes no time
here, DEDUCED (log entry 65). -/
def sendCap (s : State) (p : Nat) : State :=
  let lanes := if (s.ptp p).state = 1 then 3 else (s.ptp p).lock
  ptSend s p 1 (payOf [(s.instId, 4, 1), (1, 5, 1), (lanes, 6, 1), (ptTypes, 8, 2)])

/-- The DIST that this instance advertises, and its upstream port (R500). -/
def ptBest (s : State) : Nat × Nat :=
  (upPorts s).foldl (fun b p => if (s.ptp p).dist < b.1 then ((s.ptp p).dist, p) else b) (255, 7)
def ptDist (s : State) : Nat :=
  if s.fld Fld.PT_GCTL_TMASTER = 1 then 0 else min 255 ((ptBest s).1 + 1)
def ptUpstream (s : State) : Nat := if s.fld Fld.PT_GCTL_TMASTER = 1 then 7 else (ptBest s).2

def sendHb (s : State) (p : Nat) : State :=
  ptSend s p 2 (payOf [(s.instId, 4, 1),
    (s.mode + 8 * b2n (homeReady s) + 16 * b2n (homeKeep s) + 32 * s.fld Fld.FC_STATUS_FATAL +
      64 * s.fld Fld.PT_GCTL_TMASTER, 5, 1), (ptDist s, 6, 1)])

/-- Every 10 µs each UP port sends an HB (R498). -/
def hbSend (s : State) : State := if ptRuns s then (upPorts s).foldl sendHb s else s

/-! ### Bring-up (R490 to R493) -/

/-- The frame layer starts afresh: SEQ from 0, no frame kept. -/
def ptFresh (q : PtPort) : PtPort := { q with seq := 0, rx := 63, nak := false, replay := [], waitq := [] }

/-- Attempt `k` begins: the port trains and sends its CAP; it has 100 µs. -/
def ptAttempt (s : State) (p k : Nat) : State :=
  let q := ptFresh (s.ptp p)
  let s := s.setPtp p { q with attempt := k, dl := s.now + 100000, capOut := true }
  sendCap (ptState s p 1) p

/-- A port goes DOWN and keeps no frame; a new sequence follows with BG_RETRY = 1 (R492). -/
def ptDown (s : State) (p : Nat) : State :=
  let s := ptState (s.setPtp p { ptFresh (s.ptp p) with lock := 0, dist := 255, pwr := none, t1 := none }) p 6
  if s.fld Fld.PT_CTL_BG_RETRY p = 1 ∧ ¬ (s.ptp p).same then ptAttempt s p 1 else s

/-- A failed attempt: backoff before the next, or ABSENT after the eighth (R490). -/
def ptFail (s : State) (p : Nat) : State :=
  let k := (s.ptp p).attempt
  let q := { ptFresh (s.ptp p) with lock := 0 }
  if k < 8 then ptState (s.setPtp p { q with dl := s.now + 100000 * 2 ^ (k - 1) }) p 2
  else ptState ((s.setPtp p { q with dl := s.now + 1000000000 }).setFld Fld.PT_ERR_ABSENT 1 p) p 5

/-- PT_CTL.EN (R504). A write of 1 to an enabled port that is DOWN starts afresh (R492, R499); CODING is taken only while
EN = 0. -/
def ptEnable (s : State) (p v : Nat) : State :=
  let old := s.fld Fld.PT_CTL_EN p
  let s := s.setFld Fld.PT_CTL_BG_RETRY (bits v 2 1) p
  let s := if old = 0 then s.setFld Fld.PT_CTL_CODING (bits v 1 1) p else s
  if v % 2 = 0 then
    ptState ((s.setFld Fld.PT_CTL_EN 0 p).setPtp p { ptPort0 with state := (s.ptp p).state }) p 0
  else
    let s := s.setFld Fld.PT_CTL_EN 1 p
    let st := (s.ptp p).state
    if ptRuns s ∧ (old = 0 ∨ st = 6 ∨ st = 0) then ptAttempt (s.setPtp p { s.ptp p with same := false }) p 1 else s

def ptAdvance (s : State) (t : Nat) : State := { s with now := max s.now t, lehrNow := max s.lehrNow t }

def ptAttemptTimeout (s : State) (p : Nat) : State :=
  if ptRuns s ∧ (s.ptp p).state = 1 then ptFail (ptAdvance s (s.ptp p).dl) p else s

def ptBackoffEnd (s : State) (p : Nat) : State :=
  if ptRuns s ∧ (s.ptp p).state = 2 then ptAttempt (ptAdvance s (s.ptp p).dl) p ((s.ptp p).attempt + 1) else s

def ptBgRetry (s : State) (p : Nat) : State :=
  if ptRuns s ∧ (s.ptp p).state = 5 ∧ s.fld Fld.PT_CTL_BG_RETRY p = 1 then ptAttempt (ptAdvance s (s.ptp p).dl) p 1 else s

/-- The partner leaves electrical idle (R491): the next attempt starts at once. After ABSENT the sequence is a fresh one. -/
def ptIdleExit (s : State) (p : Nat) : State :=
  if ! ptRuns s then s
  else if (s.ptp p).state = 2 then ptAttempt s p ((s.ptp p).attempt + 1)
  else if (s.ptp p).state = 5 ∧ s.fld Fld.PT_CTL_BG_RETRY p = 1 then ptAttempt s p 1
  else s

/-- Lanes lose lock (R491, R492); `lanes` has a bit for each. -/
def ptLockLoss (s : State) (p lanes : Nat) : State :=
  if ! ptRuns s ∨ lanes % 4 = 0 then s else
  let q := s.ptp p
  let lock := q.lock &&& (3 - lanes % 4)
  if q.state = 1 then ptAttempt (s.setPtp p { q with lock := lock }) p 1
  else if q.state = 3 ∨ q.state = 4 then
    if lock = 0 then ptDown s p
    else if lock = q.lock then s
    else
      let s := raiseCore ((s.setPtp p { q with lock := lock }).setFld Fld.PT_ERR_LANE 1 p) 0x70 p
      ptState s p 4
  else s

/-- The lost lane relocks and deskews (R492). -/
def ptRelock (s : State) (p : Nat) : State :=
  if ptRuns s ∧ (s.ptp p).state = 4 then ptState (s.setPtp p { s.ptp p with lock := 3 }) p 3 else s

/-! ### Receiving (R494) -/

/-- Resends every unacknowledged frame in order. -/
def ptResend (s : State) (p : Nat) : State :=
  let q := s.ptp p
  let fs := q.replay.map (fun f => { f with ack := q.rx, nak := q.nak })
  let s := s.addFld Fld.PT_CNT_REPLAY_N fs.length p
  { s.setPtp p { q with replay := fs, nak := if fs.isEmpty then q.nak else false } with
    ptTx := s.ptTx ++ fs.map (fun f => (p, f)) }

def ptReplayTimeout (s : State) (p : Nat) : State := if ptRuns s ∧ ptUp s p then ptResend s p else s

/-- ACK removes the frames up to the one it names. -/
def ptAck (q : PtPort) (a : Nat) : PtPort :=
  match q.replay.findIdx? (fun f => f.seq = a) with
  | some i => { q with replay := q.replay.drop (i + 1) }
  | none => q

/-- The link layer takes a frame; the second part says whether its body acts: a good CRC, in order, on a port that carries
frames. A CAP starts the order afresh. -/
def ptTake (s : State) (p typ : Nat) (h : PtHdr) : State × Bool :=
  if ! ptRuns s then (s, false) else
  let q := s.ptp p
  if ¬ (q.state = 3 ∨ q.state = 4 ∨ (q.state = 1 ∧ typ = 1)) then (s, false)
  else if ! h.crcOk then
    (((s.setPtp p { q with nak := true }).setFld Fld.PT_ERR_CRC 1 p).addFld Fld.PT_CNT_CRC_N 1 p, false)
  else if typ = 1 then (s.setPtp p { ptAck q h.ack.toNat with rx := h.seq.toNat }, true)
  else
    let q := ptAck q h.ack.toNat
    let inOrder : Bool := h.seq.toNat == (q.rx + 1) % 64
    let s := s.setPtp p (if inOrder then { q with rx := h.seq.toNat } else q)
    let s := if h.nak then ptResend s p else s
    (ptPump 64 p s, inOrder)

/-- A frame that names the receiver (R499). -/
def ptSameId (s : State) (p : Nat) : State :=
  let s := s.setFld Fld.PT_ERR_SAME_ID 1 p
  ptState (s.setPtp p { ptFresh (s.ptp p) with same := true, lock := 0, dist := 255, pwr := none }) p 6

/-- A valid CAP brings the port UP (R490, R493): the port answers with its own CAP unless it has sent one. -/
def ptCap (s : State) (p : Nat) (h : PtHdr) (inst ver lanes types : Nat) : State :=
  let _ := lanes
  let (s, ok) := ptTake s p 1 h
  if ! ok then s
  else if inst = s.instId then ptSameId s p
  else
    let q := s.ptp p
    let s := if q.capOut then s.setPtp p { q with capOut := false }
      else sendCap (s.setPtp p { ptFresh q with rx := q.rx }) p
    let s := s.setPtp p { s.ptp p with types := types, lock := if q.state = 1 then 3 else q.lock }
    let s := (s.setFld Fld.PT_STATUS_PEER_ID inst p).setFld Fld.PT_STATUS_PEER_VER ver p
    if q.state = 1 then sendHb (ptState s p 3) p else s

/-! ### Flooding (R496) -/

def seenOfOrg (s : State) (o : Nat) : Nat × BitVec 32 := SMap.getD (fun _ => (65536, 0)) s.pt.seen o

/-- Whether a flooded frame is new; it is marked where it is. -/
def floodTake (s : State) (f : Flood) : State × Bool :=
  let o := f.origin.toNat
  let q := f.oseq.toNat
  let (hi, m) := seenOfOrg s o
  let put := fun (v : Nat × BitVec 32) => { s with pt := { s.pt with seen := SMap.set (fun _ => (65536, 0)) s.pt.seen o v } }
  if o = s.instId then (s, false)
  else if hi = 65536 then (put (q, 0), true)
  else
    let ahead := (q + 65536 - hi) % 65536
    let back := (hi + 65536 - q) % 65536
    if ahead = 0 then (s, false)
    else if ahead < 32768 then
      let m' := if 32 < ahead then 0 else ((m <<< ahead) ||| (1#32 <<< (ahead - 1)))
      (put (q, m'), true)
    else if 32 ≤ back ∨ m.getLsbD (back - 1) then (s, false)
    else (put (hi, m ||| (1#32 <<< (back - 1))), true)

/-- Forwards a flooded frame on every UP port but the one it came in on. -/
def floodOn (s : State) (inp : Option Nat) (typ : Nat) (pay : BitVec 256) : State :=
  ((upPorts s).filter (fun p => some p ≠ inp)).foldl (fun t p => ptSend t p typ pay) s

def floodHdr (o q ttl : Nat) : List (Nat × Nat × Nat) := [(o, 4, 1), (q, 5, 2), (ttl, 7, 1)]

/-- Originates a flooded frame with the next OSEQ. -/
def flood (s : State) (typ : Nat) (body : List (Nat × Nat × Nat)) : State :=
  let q := s.pt.oseq
  let ttl := max 1 (s.fld Fld.PT_GCTL_TTL)
  floodOn { s with pt := { s.pt with oseq := (q + 1) % 65536 } } none typ (payOf (floodHdr s.instId q ttl ++ body))

/-- A flooded frame arrives: link layer, duplicate check, forwarding; the second part says whether it acts. -/
def floodRx (s : State) (p typ : Nat) (h : PtHdr) (f : Flood) (body : List (Nat × Nat × Nat)) : State × Bool :=
  let (s, ok) := ptTake s p typ h
  if ! ok then (s, false) else
  let (s, new) := floodTake s f
  if ! new then (s, false)
  else if 1 < f.ttl.toNat then
    (floodOn s (some p) typ (payOf (floodHdr f.origin.toNat f.oseq.toNat (f.ttl.toNat - 1) ++ body)), true)
  else (s, true)

/-- FAULT frame fields. -/
def faultBody (code subj sev : Nat) (inj : Bool) : List (Nat × Nat × Nat) :=
  [(code, 8, 1), (sev % 4 + 4 * b2n inj, 9, 1), (subj, 10, 2)]

/-- Forwards a report to the peers (R405, R412, R497). -/
def floodFault (s : State) (code subj sev : Nat) (inj : Bool) : State :=
  if s.coreUp then flood s 3 (faultBody code subj sev inj) else s

/-- A FAULT frame (R412, R421, R497). -/
def ptFault (s : State) (p : Nat) (h : PtHdr) (f : Flood) (code subj sev : Nat) (inj : Bool) : State :=
  let (s, ok) := floodRx s p 3 h f (faultBody code subj sev inj)
  if ! ok then s else
  let w := s.fld Fld.FC_PEER_SEV_PT
  let old := bits w (2 * p) 2
  let s := s.setFld Fld.FC_PEER_SEV_PT (w - old * 2 ^ (2 * p) + max old sev * 2 ^ (2 * p))
  let s := if sev = 3 then s.addFld Fld.FC_PEER_SYS_FATAL 1 else s
  raiseCore s 0x71 f.origin.toNat

/-- A FREEZE frame (R497, R534): the trigger is taken when the command ends. -/
def ptFreeze (s : State) (p : Nat) (h : PtHdr) (f : Flood) (cause : Nat) : State :=
  let (s, ok) := floodRx s p 4 h f [(cause, 8, 1)]
  if ok ∧ s.fld Fld.FRZ_CTL_PEER_EN = 1 then { s with frzReq := s.frzReq ||| 16, frzOrigin := f.origin.toNat } else s

/-! ### Partners and their loss (R498) -/

def peerRecord (s : State) (x ev : Nat) (byFlood : Bool) : State :=
  irqSet (parReady s (recOf ([(0x79, 0, 8), (x, 8, 8), (ev, 16, 1), (b2n byFlood, 17, 1)] ++ recTail s.now))) 36

/-- An instance is lost. -/
def peerLost (s : State) (x : Nat) (byFlood : Bool) : State :=
  let w := s.fld Fld.PT_LOST_LOST (x / 32)
  let s := s.setFld Fld.PT_LOST_LOST (w ||| 2 ^ (x % 32)) (x / 32)
  let s := { s with pt := { s.pt with
    heard := SMap.set (fun _ => 0) s.pt.heard x 0, lost := insertSorted x s.pt.lost } }
  let s := if byFlood then s else raiseCore s 0x72 x
  peerRecord s x 0 byFlood

/-- A received HB (R498 to R500). -/
def ptHb (s : State) (p : Nat) (h : PtHdr) (inst dist : Nat) : State :=
  let (s, ok) := ptTake s p 2 h
  if ! ok then s
  else if inst = s.instId then ptSameId s p
  else
    let back := s.pt.lost.contains inst
    let s := { s with pt := { s.pt with
      heard := SMap.set (fun _ => 0) s.pt.heard inst (s.now + 1), lost := s.pt.lost.filter (· ≠ inst) } }
    let s := s.setPtp p { s.ptp p with dist := dist }
    if back then peerRecord s inst 1 false else s

/-- A direct partner has been silent for 30 µs. -/
def peerHbLoss (s : State) (x : Nat) : State :=
  let t := SMap.getD (fun _ => 0) s.pt.heard x
  if ! ptRuns s ∨ t = 0 then s
  else flood (peerLost (ptAdvance s (t - 1 + 30000)) x false) 10 [(x, 8, 1)]

/-- A LOST frame. -/
def ptLost (s : State) (p : Nat) (h : PtHdr) (f : Flood) (x : Nat) : State :=
  let (s, ok) := floodRx s p 10 h f [(x, 8, 1)]
  if ok then peerLost s x true else s

/-! ### Time (R500) -/

def tsyncPeriod (s : State) : State :=
  let p := ptUpstream s
  if ! ptRuns s ∨ s.fld Fld.PT_GCTL_TSYNC_EN = 0 ∨ p = 7 then s
  else ptSend (s.setPtp p { s.ptp p with t1 := some s.now }) p 5 (payOf [(s.now, 4, 8)])

def ptTsyncReq (s : State) (p : Nat) (h : PtHdr) (t1 : Nat) : State :=
  let (s, ok) := ptTake s p 5 h
  if ok then ptSend s p 6 (payOf [(t1, 4, 8), (s.now, 12, 8), (s.now, 20, 8)]) else s

/-- The offset of an exchange, and its correction: a step forward only at the first exchange above +10 µs, else a slew. -/
def ptTsyncRsp (s : State) (p : Nat) (h : PtHdr) (t1 t2 t3 : Nat) : State :=
  let (s, ok) := ptTake s p 6 h
  if ! ok ∨ (s.ptp p).t1 ≠ some t1 then s else
  let off : Int := (((t2 : Int) - t1) - ((s.now : Int) - t3)) / 2
  let first := s.pt.first
  let sat : Int := max (-(2 ^ 31)) (min (2 ^ 31 - 1) off)
  let s := s.setPtp p { s.ptp p with t1 := none }
  let s := (s.setFld Fld.PT_TSYNC_OFS_OFS (unsignedOf 32 sat)).setFld Fld.PT_TSYNC_LOCKED (b2n (decide (off.natAbs < 100)))
  let bad := if 100000 < off.natAbs then s.pt.badRun + 1 else 0
  let s := { s with pt := { s.pt with first := true, badRun := if bad = 10 then 0 else bad } }
  let s := if bad = 10 then irqSet s 38 else s
  if ¬ first ∧ 10000 < off then { s with now := s.now + off.toNat, lehrNow := s.lehrNow + off.toNat }
  else { s with lehr := { s.lehr with slew := max (-1000) (min 1000 off) } }

/-! ### Package power (R501) -/

/-- The ports whose partner is in the package. -/
def pkgPorts (s : State) : List Nat :=
  (upPorts s).filter (fun p => s.fld Fld.PT_STATUS_PEER_ID p / 4 = s.instId / 4)

/-- The package partners heard within 300 µs, each by its last PWR: DEMAND and BUDGET (R501). -/
def pkgHeard (s : State) : List (Nat × Nat) :=
  let es := (pkgPorts s).filterMap (fun p => match (s.ptp p).pwr with
    | some (t, d, b) => if s.now ≤ t + 300000 then some (s.fld Fld.PT_STATUS_PEER_ID p, p, t, d, b) else none
    | none => none)
  (es.filter (fun e => es.all (fun x => x.1 != e.1 || x.2.1 == e.2.1 || x.2.2.1 < e.2.2.1 ||
    (x.2.2.1 == e.2.2.1 && e.2.1 < x.2.1)))).map (fun e => e.2.2.2)

def pwrSend (s : State) : State :=
  let budget := s.fld Fld.PT_PKG_BUDGET
  if ! ptRuns s ∨ budget = 0 then s else
  let mine := iAvg s % 65536
  let s := (pkgPorts s).foldl (fun t p => ptSend t p 7 (payOf [(t.instId, 4, 1), (mine, 6, 2), (budget, 8, 2)])) s
  let heard := pkgHeard s
  let n := 1 + heard.length
  let b := heard.foldl (fun m e => min m e.2) budget
  let sum := mine + (heard.map (·.1)).sum
  let floor := b / (2 * n)
  let share := if sum = 0 then b / n else floor + (b - n * floor) * mine / sum
  { s with pt := { s.pt with n := n } }.setFld Fld.GOV_PKG_SHARE share

def ptPwr (s : State) (p : Nat) (h : PtHdr) (inst demand budget : Nat) : State :=
  let (s, ok) := ptTake s p 7 h
  if ok ∧ inst / 4 = s.instId / 4 then s.setPtp p { s.ptp p with pwr := some (s.now, demand, budget) } else s

/-! ### Home-map handoff (R502) -/

def genOf (s : State) (w : Nat) : Nat := SMap.getD (fun _ => 0) s.port.gens w
def genOrgOf (s : State) (w : Nat) : Nat := SMap.getD (fun _ => 0) s.port.genOrg w

/-- HOME, STANDBY and SB_EN of a window are rewritten with its generation; VALID and DRAIN stay. -/
def handoff (s : State) (w home standby sben gen org : Nat) : State :=
  let s := ((s.setFld Fld.HMAP_HOME home w).setFld Fld.HMAP_STANDBY standby w).setFld Fld.HMAP_SB_EN sben w
  let s := shadowHmap (mapWritten s true w) w (s.reg .HMAP w).toNat
  { s with port := { s.port with
    gens := SMap.set (fun _ => 0) s.port.gens w gen, genOrg := SMap.set (fun _ => 0) s.port.genOrg w org } }

def hmapRecord (s : State) (w home standby sben gen org : Nat) : State :=
  irqSet (parReady s (recOf ([(0x7A, 0, 8), (w, 8, 12), (home, 20, 8), (standby, 28, 8), (sben, 36, 1), (gen, 37, 8),
    (org, 45, 8)] ++ recTail s.now))) 37

/-- An HMAP_SET frame is applied when its GEN is newer, or equal with a lower ORIGIN. -/
def ptHmapSet (s : State) (p : Nat) (h : PtHdr) (f : Flood) (w home standby sben gen : Nat) : State :=
  let (s, ok) := floodRx s p 8 h f [(w, 8, 2), (home, 10, 1), (standby, 11, 1), (sben, 12, 1), (gen, 13, 1)]
  if ! ok then s else
  let org := f.origin.toNat
  let d := (gen + 256 - genOf s w) % 256
  if ¬ ((1 ≤ d ∧ d < 128) ∨ (d = 0 ∧ org < genOrgOf s w)) then s else
  let s := handoff s w home standby sben gen org
  let s := (List.range 4).foldl (fun t i =>
    if t.fld Fld.ADOPT_WIN_A_STATE i ≠ 0 ∧ t.fld Fld.ADOPT_WIN_A_WINDOW i = w ∧ home ≠ t.instId
    then t.setFld Fld.ADOPT_WIN_A_STATE 0 i else t) s
  hmapRecord s w home standby sben gen org

/-- The command HMAP_MOVE: OK (0) with GEN, NO_ENTRY (0x32), BAD_WINDOW (0x33). -/
def hmapMove (s : State) : State :=
  match s.cmd with
  | some c =>
    if c.code ≠ 0x70 then s else
    let a := fun k => (c.args.getD k 0).toNat
    let w := a 0 % 4096
    let hw := hmapW s w
    if ¬ bit1 hw 18 ∨ hw % 256 = s.instId then cmdEnd s 0x33 0
    else match (List.range 4).find? (fun i => s.fld Fld.ADOPT_WIN_A_STATE i = 0) with
      | none => cmdEnd s 0x32 0
      | some i =>
        let s := ((s.setFld Fld.ADOPT_WIN_A_WINDOW w i).setFld Fld.ADOPT_WIN_A_STATE 1 i).setFld Fld.ADOPT_WIN_B_CURSOR 0 i
        let gen := (genOf s w + 1) % 256
        let s := handoff s w s.instId (a 1 % 256) (bits (a 1) 8 1) gen s.instId
        let s := flood s 8 [(w, 8, 2), (s.instId, 10, 1), (a 1 % 256, 11, 1), (bits (a 1) 8 1, 12, 1), (gen, 13, 1)]
        cmdEnd s 0 gen
  | none => s

end Sys2Proof.Machine
end

