-- ==== Sys2Proof/Machine/Port.lean ====
section
/-! DEFINITION. The Port Complex (chapter 03): receive pools and credits, the ingress checks and refusals, hold slots, the
notices of the slices, and responses. -/

namespace Sys2Proof.Machine

/-! ### Receive pools (R64, R66, R88) -/

def datUsed (s : State) (p : Nat) : List (Nat × DatEntry) :=
  (SMap.slice s.port.dat (p * 32) 32).filter (fun e => e.2.user ≠ .free)

/-- The lowest free line of a port's DAT pool. -/
def datFree (s : State) (p : Nat) : Option Nat :=
  (List.range 32).find? (fun e => (s.datE p e).user = .free)

/-- A port with EN = 1 keeps every free entry credited to the switch while HOME_KEEP is 1 (R64, R88). -/
def regrant (s : State) (p : Nat) : State :=
  if s.fld Fld.FP_CTL_EN p = 1 ∧ s.portUp ∧ s.vaux then
    let f := s.fport p
    s.setFport p { f with
      reqCred := 32 - f.reqQ.length, datCred := 32 - (datUsed s p).length, rspCred := 64 }
  else s

def freeDat (s : State) (p e : Nat) : State := regrant (s.setDatE p e dat0) p

/-- FP_STATUS.GRANTED (R89): every entry of every receive pool is credited to the switch or in use. -/
def granted (s : State) (p : Nat) : Bool :=
  let f := s.fport p
  f.reqCred + f.reqQ.length == 32 && f.datCred + (datUsed s p).length == 32 && f.rspCred == 64

/-- FP_ERR and FP_ERR_INFO (R90, R91). -/
def fpErr (s : State) (p : Nat) (f : Fld) (agent typ : Nat) : State :=
  let s := if (s.reg .FP_ERR p).toNat % 128 = 0 then
      (s.setFld Fld.FP_ERR_INFO_AGENT agent p).setFld Fld.FP_ERR_INFO_TYPE typ p
    else s
  s.setFld f 1 p

/-- A message that overruns its pool is discarded (R66). -/
def overrun (s : State) (p typ : Nat) (h : Hdr) : State :=
  raisePort (fpErr s p Fld.FP_ERR_CRD_OVF h.agent.toNat typ) 0x07 p

/-! ### Refusals (R63) -/

def isWrite (typ : Nat) : Bool := 0x10 ≤ typ && typ ≤ 0x17
def isReadT (typ : Nat) : Bool := 1 ≤ typ && typ ≤ 4
def isNdr (typ : Nat) : Bool := typ == 5 || typ == 6 || typ == 7 || typ == 0x0A

/-- The responses to a refused message: for a read DATA with poison, then CMP once it has left. They leave on the port that
received the message, DESIGN CHOICE (log entry 82): the spec names no port, and an UNBOUND agent's entry gives none. -/
def refuseMsgs (s : State) (p typ : Nat) (h : Hdr) : State :=
  let cmp := plainMsg 0x28 h.agent.toNat h.pa.toNat h.tag.toNat
  if isReadT typ then
    egPush s p { plainMsg 0x30 h.agent.toNat h.pa.toNat h.tag.toNat with poison := true, data := some 0, own := .refused }
  else if isWrite typ ∨ isNdr typ then egPush s p cmp
  else s

/-- Refuses a message: fault code 1 PC_MISROUTE, 2 PC_TENANT, 3 PC_AGENT, 4 PC_BAD_OPC, 5 PC_UNEXP_RSP. -/
def refuse (s : State) (p typ : Nat) (h : Hdr) (code : Nat) : State :=
  let f := match code with
    | 1 => Fld.FP_ERR_MISROUTE | 2 => Fld.FP_ERR_TENANT | 3 => Fld.FP_ERR_AGENT | 4 => Fld.FP_ERR_BAD_OPC
    | _ => Fld.FP_ERR_UNEXP_RSP
  let s := raisePort (fpEvent (fpErr s p f h.agent.toNat typ) p 9) code h.agent.toNat
  if code ≤ 3 then refuseMsgs s p typ h else s

/-- Checks 1 to 4 of R67: 0 for a pass, else the fault code. DF messages need DC = 1 or HB = 1; DF_HB names no line. -/
def ingressCheck (s : State) (typ : Nat) (h : Hdr) : State × Nat :=
  let a := h.agent.toNat
  let line := h.pa.toNat
  let df := typ == 0x1C || typ == 0x1D
  if h.mfield = 1 ∨ h.mfield = 2 ∨ h.mval = 1 ∨ (df ∧ ¬ s.agtDc a ∧ ¬ s.agtHb a) then (s, 4) else
  let s := if typ = 0x1D then s else mapsRead s line
  if typ ≠ 0x1D ∧ ¬ homed s line then (s, 1) else
  let s := agentRead s a
  let st := seenState s a
  if ¬ (st = 1 ∨ st = 2 ∨ st = 3) then (s, 3)
  else if typ ≠ 0x1D ∧ s.agtTenant a ≠ tenantOf s line then (s, 2)
  else (s, 0)

/-- A message has passed the checks (R83, R84). -/
def passed (s : State) (a : Nat) : State :=
  let s := s.setHeard a
  { s with port := { s.port with hbNext := SMap.set (fun _ => 0) s.port.hbNext a 0 } }

/-! ### Hold slots (R69, R73 to R77) -/

def holdsUsed (s : State) : List (Nat × HoldSlot) := s.port.hold.filter (·.2.used)

/-- The lowest free hold slot: one past the run of used slots from 0. -/
def holdFree (s : State) : Option Nat :=
  let k := (holdsUsed s).foldl (fun k e => if e.1 = k then k + 1 else k) 0
  if k < 32768 then some k else none

/-- Words of the retention store: 6 a record, 4 a hold slot above them. -/
def rsWrite (s : State) (base n : Nat) : State := (List.range n).foldl (fun t k => wordWritten t .rs 0 (base + k)) s
def rsRead (s : State) (base n : Nat) : State × Bool :=
  (List.range n).foldl (fun (p : State × Bool) k =>
    let (t, r) := wordRead p.1 .rs 0 (base + k)
    (t, p.2 && r.isSome)) (s, true)
def holdWord (h : Nat) : Nat := 65536 * 6 + 4 * h

/-- HOLD_STATUS.HWM follows the highest occupancy; after a read, from the present one (R95). -/
def holdHwm (s : State) : State :=
  let n := (holdsUsed s).length
  if s.fld Fld.HOLD_STATUS_HWM < n / 2 then s.setFld Fld.HOLD_STATUS_HWM (n / 2) else s

def adoptingSlice (s : State) (n : Nat) : Bool := s.sl.adopting.any (fun e => e.1 == n)

/-- Presents a held request to its slice (R75); a hold slot whose word cannot be read is lost (R368). -/
def presentHold (s : State) (h : Nat) : State :=
  let v := s.holdE h
  if ! v.used then s else
  let n := sliceOf v.hdr.pa.toNat
  let (s, ok) := rsRead s (holdWord h) 4
  if ! ok then (raisePort s 0x0B (0x8000 + h)).setHoldE h hold0
  else if adoptingSlice s n ∨ ! s.coreUp ∨ s.port.replaying then s.setHoldE h { v with wait := .parked }
  else
    let s := (s.setHoldE h { v with wait := .presented }).wdogArm n
    s.setSlq n { s.slq n with reqQ := (s.slq n).reqQ ++ [h] }

/-- Held slots that satisfy a test, in the order they were first held (R75). -/
def heldBy (s : State) (p : HoldSlot → Bool) : List Nat :=
  ((holdsUsed s).filter (fun e => p e.2)).mergeSort (fun a b => decide (a.2.seq ≤ b.2.seq)) |>.map (·.1)

/-- Presents again every held request that satisfies a test. -/
def presentAgain (s : State) (p : HoldSlot → Bool) : State :=
  (heldBy s p).foldl (fun t h => presentHold (fpEvent t (t.holdE h).port 0x0B) h) s

/-- An earlier request of the same agent and line holds a slot (R76). -/
def sameBefore (s : State) (a line : Nat) : Bool :=
  (holdsUsed s).any (fun e => e.2.hdr.agent.toNat == a && e.2.hdr.pa.toNat == line)

/-- A request moves from its REQ pool into a hold slot (R74). -/
def takeHold (s : State) (p h : Nat) (r : ReqWait) : State :=
  let a := r.hdr.agent.toNat
  let same := sameBefore s a r.hdr.pa.toNat
  let q := s.port.holdSeq
  let slot : HoldSlot := ⟨true, r.typ, r.hdr, p, r.dat, r.nacks, q, .presented, 0⟩
  let s := { s with port := { s.port with holdSeq := q + 1 } }
  let s := holdHwm (rsWrite (s.setHoldE h slot) (holdWord h) 4)
  if seenState s a = 1 then s.setHoldE h { slot with wait := .binding }
  else if same then s.setHoldE h { slot with wait := .behind }
  else presentHold s h

/-- A hold slot frees: the next request of its agent and line, if one waits behind it, is presented. -/
def freeHold (s : State) (h : Nat) : State :=
  let v := s.holdE h
  let s := s.setHoldE h hold0
  match heldBy s (fun w => w.wait == .behind && w.hdr.agent == v.hdr.agent && w.hdr.pa == v.hdr.pa) with
  | k :: _ => presentHold s k
  | [] => s

/-- CORE takes requests from the pools (R27, R76). -/
def portOpen (s : State) : Bool := s.coreUp && ! s.port.replaying

/-- A request that passed the checks enters: a hold slot at once where one is free and no REQ waits on any port (R74). Such a
request leaves the rotation where it stands, DESIGN CHOICE (log entry 83). -/
def enterReq (s : State) (p : Nat) (r : ReqWait) : State :=
  let f := s.fport p
  match holdFree s with
  | some h => if portOpen s ∧ s.port.fp.all (fun e => e.2.reqQ.isEmpty) then takeHold s p h r else s.setFport p { f with reqQ := f.reqQ ++ [r] }
  | none => s.setFport p { f with reqQ := f.reqQ ++ [r] }

/-- HOLD_SLOT_PRESENT: a freed slot goes to the next waiting port in rotation (R74). -/
def holdSlotPresent (s : State) : State :=
  if ! portOpen s ∨ ! s.portUp then s else
  match holdFree s, ((List.range 64).map (fun k => (s.port.holdRot + 1 + k) % 64)).find? (fun p => (s.fport p).reqQ ≠ []) with
  | some h, some p =>
    match (s.fport p).reqQ with
    | r :: l =>
      let s := s.setFport p { s.fport p with reqQ := l }
      let s := { s with port := { s.port with holdRot := p } }
      regrant (takeHold s p h r) p
    | [] => s
  | _, _ => s

/-- Drops a hold slot's conflict-queue reservations and its place at the slice (R117). -/
def dropHeld (s : State) (h : Nat) : State :=
  let n := sliceOf (s.holdE h).hdr.pa.toNat
  let q := s.slq n
  let lines := (q.cq.filter (fun r => r.hold = h)).map (·.line)
  let cq := q.cq.filter (fun r => r.hold ≠ h)
  let gone := lines.filter (fun l => ! cq.any (fun r => r.line == l))
  let s := s.setSlq n { q with
    reqQ := q.reqQ.filter (· ≠ h), cq := cq, reserved := q.reserved.filter (fun e => ! gone.contains e.1) }
  (gone.filter (fun l => q.reserved.any (fun e => e.1 == l))).foldl (fun u l => State.notify u (n / 8) (.rsvFree n l)) s

/-- A held request is refused under the third row of R63 and its slot freed (R211, R217). -/
def refuseHeld (s : State) (h : Nat) : State :=
  let v := s.holdE h
  let s := dropHeld s h
  let s := match v.dat with | some e => freeDat s v.port e | none => s
  freeHold (refuse s v.port v.typ v.hdr 3) h

/-! ### Messages of the REQ class -/

/-- A REQ without data, or an uncached write with its line. CLN_EV and SPEC ask nothing of their line and are answered or passed
on at once, also from an agent in BINDING, DEDUCED (log entry 84): what R63 holds for it are requests to be presented. -/
def rxReq (s : State) (p typ : Nat) (h : Hdr) (data : Option Line) : State :=
  if ! s.portUp ∨ ! s.vaux then s else
  let f := s.fport p
  if f.reqCred = 0 ∨ (data.isSome ∧ f.datCred = 0) then overrun s p typ h else
  let s := s.setFport p { f with reqCred := f.reqCred - 1, datCred := if data.isSome then f.datCred - 1 else f.datCred }
  let s := fpEvent s p 2
  let (s, bad) := ingressCheck s typ h
  if bad ≠ 0 then regrant (refuse s p typ h bad) p
  else
    let s := passed s h.agent.toNat
    if typ = 0x0A then regrant (egPush s p (plainMsg 0x28 h.agent.toNat h.pa.toNat h.tag.toNat)) p
    else if typ = 0x08 then
      let n := sliceOf h.pa.toNat
      let s := regrant s p
      if s.fld Fld.PC_CTL_SPEC_EN = 0 ∨ ! s.coreUp ∨ (s.slq n).reqQ ≠ [] then s else slFixed s (logicOf s n) 5
    else match data with
      | none => regrant (enterReq s p ⟨typ, h, none, 0⟩) p
      | some d => match datFree s p with
        | some e => regrant (enterReq (s.setDatE p e ⟨.req, typ, h, d, 0, false⟩) p ⟨typ, h, some e, 0⟩) p
        | none => s

/-- A message of the RSP class: it takes a credit, which returns when it is consumed (R64). -/
def rspIn (s : State) (p typ : Nat) (h : Hdr) (use : State → State) : State :=
  if ! s.portUp ∨ ! s.vaux then s else
  let f := s.fport p
  if f.rspCred = 0 then overrun s p typ h
  else regrant (use (fpEvent (s.setFport p { f with rspCred := f.rspCred - 1 }) p 4)) p

/-- A header whose opcode R60 does not map (R60, R63). -/
def rxUnmapped (s : State) (p typ : Nat) (h : Hdr) : State :=
  if typ < 0x10 then
    if ! s.portUp ∨ ! s.vaux then s else
    let f := s.fport p
    if f.reqCred = 0 then overrun s p typ h
    else regrant (refuse (fpEvent (s.setFport p { f with reqCred := f.reqCred - 1 }) p 2) p typ h 4) p
  else rspIn s p typ h (fun s => refuse s p typ h 4)

/-! ### Responses -/

/-- A BIRsp: st 0 I, 1 S, 2 E (R67, R80, R81). -/
def rxBirsp (s : State) (p st : Nat) (h : Hdr) : State :=
  rspIn s p (0x18 + st) h (fun s =>
    let a := h.agent.toNat
    let (s, bad) := ingressCheck s (0x18 + st) h
    if bad ≠ 0 then refuse s p (0x18 + st) h bad
    else match birspTid s a h.biid.toNat h.tag.toNat with
      | none => refuse s p (0x18 + st) h 5
      | some tid => fabAnswer (passed s a) tid a st)

/-- DF_DONE: the answer is its MVAL, 0 I, 3 S, 2 A (R59, R170). -/
def rxDfDone (s : State) (p : Nat) (h : Hdr) : State :=
  rspIn s p 0x1C h (fun s =>
    let a := h.agent.toNat
    let (s, bad) := ingressCheck s 0x1C h
    if bad ≠ 0 then refuse s p 0x1C h bad
    else match dfTid s a h.biid.toNat h.pa.toNat with
      | none => refuse s p 0x1C h 5
      | some tid => fabAnswer (passed s a) tid a (match h.mval.toNat with | 0 => 0 | 3 => 1 | _ => 2))

/-- DF_HB (R67, R87). -/
def rxDfHb (s : State) (p : Nat) (h : Hdr) : State :=
  rspIn s p 0x1D h (fun s =>
    let a := h.agent.toNat
    let (s, bad) := ingressCheck s 0x1D h
    if bad ≠ 0 then refuse s p 0x1D h bad
    else
      let s := passed s a
      { s with port := { s.port with dfHeard := SMap.set (fun _ => false) s.port.dfHeard a true } })

/-- BICONF (R202): the Ack joins the RSP order of the agent's port. -/
def rxBiconf (s : State) (p : Nat) (h : Hdr) : State :=
  rspIn s p 0x09 h (fun s =>
    let a := h.agent.toNat
    let (s, bad) := ingressCheck s 0x09 h
    if bad ≠ 0 then refuse s p 0x09 h bad
    else
      let s := passed s a
      egPush s (s.agtFp a) (plainMsg 0x2B a h.pa.toNat h.tag.toNat))

/-! ### Transmit credits and links (R65, R88, R89) -/

/-- A transmit credit of a class (0 SNP, 1 RSP, 2 DAT). -/
def txCredit (s : State) (p c : Nat) : State :=
  if ! s.portUp ∨ ! s.vaux then s else
  let f := s.fport p
  let n := match c with | 0 => f.txSnp | 1 => f.txRsp | _ => f.txDat
  if n = 255 then fpErr s p Fld.FP_ERR_CRD_OVF 0 0
  else
    let f := { f with stalled := f.stalled.filter (· ≠ c) }
    (s.setFport p (match c with
      | 0 => { f with txSnp := n + 1 }
      | 1 => { f with txRsp := n + 1 }
      | _ => { f with txDat := n + 1 })).addWork (.eg p)

/-- A class has had no credit for 100 µs while a message waits. -/
def txStall (s : State) (p c : Nat) : State :=
  let f := s.fport p
  let (n, q) := match c with | 0 => (f.txSnp, f.snpQ) | 1 => (f.txRsp, f.rspQ) | _ => (f.txDat, f.datQ)
  match q with
  | m :: _ =>
    if n ≠ 0 ∨ f.stalled.contains c then s
    else
      let s := s.setFport p { f with stalled := insertSorted c f.stalled }
      raisePort (fpErr s p Fld.FP_ERR_TX_STALL m.agent m.typ) 0x06 p
  | [] => s

def fpEnWrite (s : State) (p v : Nat) : State :=
  if s.portUp ∧ s.vaux then regrant (s.setFld Fld.FP_CTL_EN (v % 2) p) p else s

/-- FPn_LINK_UP falls: every bound agent behind the port gets the LINK cause (R213). The pin has its level whether or not PORT is
out of reset (R36). -/
def linkDown (s : State) (p : Nat) : State :=
  if ! (s.fport p).link then s else
  let s := s.setFport p { s.fport p with link := false }
  if ! s.portUp then s else
  (s.agents.filter (fun a => s.agtFp a = p ∧ s.agtBound a)).foldl (fun t a => setCause t a 1) s

/-! ### Notices (R68, R72, R75, R77, R110) -/

/-- Pops the head of a cluster's notices. -/
def popNotice (s : State) (c : Nat) : State :=
  let s := s.setNotices c ((s.notices c).drop 1)
  -- entries in RETIRE wait for room in the queue (R107)
  if (s.notices c).length = 15 then
    { s with work := s.work ++ ((SMap.slice s.sl.trk (c * 4096) 4096).filter (·.2.ended)).map (fun e => .trk (c * 4096 + e.1)) }
  else s

/-- An acceptance notice (R68): the record is written, the release goes out, the slot frees. -/
def takeAccept (s : State) (c tid hold ep : Nat) : State :=
  let v := s.holdE hold
  if ! v.used then s else
  let r : AccRec := ⟨true, ep, v.typ, v.hdr, v.dat.map (fun e => (v.port, e)), false, false, v.nacks, s.now⟩
  let s := rsWrite (s.setRecE tid r) (6 * tid) 6
  let s := { s with port := { s.port with rel := SMap.upd (fun _ => []) s.port.rel c (fun l => l ++ [tid]) } }
  flushStaged (freeHold s hold)

/-- A refusal notice (R73, R77): the request is held, or answered with DF_NNACK. -/
def takeRefuse (s : State) (hold : Nat) (on : HoldWait) : State :=
  let v := s.holdE hold
  if ! v.used then s else
  let lvl := s.fld Fld.PC_CTL_NNACK_LVL
  let a := v.hdr.agent.toNat
  if lvl ≠ 0 ∧ lvl * 128 ≤ (holdsUsed s).length ∧ s.agtNnack a ∧ v.nacks < 4 then
    let s := dropHeld s hold
    let s := match v.dat with | some e => freeDat s v.port e | none => s
    freeHold (egPush s v.port (plainMsg 0x2C a v.hdr.pa.toNat v.hdr.tag.toNat)) hold
  else
    let t := s.fld Fld.PC_CTL_RETRY_TMO
    let tmo := s.now + (if t = 0 then 64 else t) * 1000
    rsWrite (s.setHoldE hold { v with nacks := min 7 (v.nacks + 1), wait := on, tmo := tmo }) (holdWord hold) 4

/-- A retire notice of a tracker entry (R72). -/
def takeRetire (s : State) (tid : Nat) : State :=
  let r := s.recE tid
  let s := if r.valid then
      let s := s.setRecE tid rec0
      (match r.dat with | some (p, e) => freeDat s p e | none => s)
    else s
  presentAgain s (fun v => v.wait == .trk tid)

/-- A retire notice of a writeback: the DAT credit returns, and requests that wait on its sink slot are presented. -/
def takeRetireSink (s : State) (key p e : Nat) : State :=
  presentAgain (freeDat s p e) (fun v => v.wait == .sink key)

/-- One notice of a cluster. -/
def takeNotice (s : State) (c : Nat) (n : Notice) : State :=
  let s := popNotice s c
  match n with
  | .accept tid hold ep => takeAccept s c tid hold ep
  | .retire tid => takeRetire s tid
  | .retireSink key p e _ => takeRetireSink s key p e
  | .refuse hold on => takeRefuse s hold on
  | .poolFree n => match heldBy s (fun v => v.wait == .pool n) with
    | h :: _ => presentHold (fpEvent s (s.holdE h).port 0x0B) h
    | [] => s
  | .rsvFree _ line => presentAgain s (fun v => v.wait == .rsv line)

/-- A crossing queue of 16 entries has no room: what would write it waits for credit (R20, R21). -/
def relFull (s : State) (c : Nat) : Bool := decide (16 ≤ (SMap.getD (fun _ => []) s.port.rel c).length)

def isRetire : Notice → Bool
  | .retire _ | .retireSink _ _ _ _ | .poolFree _ | .rsvFree _ _ => true
  | _ => false
def isAccept : Notice → Bool
  | .accept _ _ _ => true
  | _ => false
def isRefuse : Notice → Bool
  | .refuse _ _ => true
  | _ => false

/-- Takes the head of a cluster's queue if it is of a kind. -/
def noticeRow (kind : Notice → Bool) (s : State) (c : Nat) : State :=
  if ! s.portUp ∨ ! s.coreUp then s else
  match s.notices c with
  | n :: _ => if kind n ∧ ¬ (isAccept n ∧ relFull s c) then takeNotice s c n else s
  | [] => s

/-- A retire notice, with the writebacks that the same entry had taken, which stand before it. -/
def retireRow : Nat → State → Nat → State
  | 0, s, _ => s
  | fuel + 1, s, c =>
    match s.notices c with
    | .retireSink 1048576 p e l :: _ =>
      if s.portUp ∧ s.coreUp then retireRow fuel (takeNotice s c (.retireSink 1048576 p e l)) c else s
    | _ => noticeRow isRetire s c

/-- The release of a tracker ID reaches its slice: REL (R68, R70); writes that waited for it are issued. -/
def retryRelease (s : State) (c : Nat) : State :=
  if ! s.portUp ∨ ! s.coreUp then s else
  match SMap.getD (fun _ => []) s.port.rel c with
  | [] => s
  | tid :: l =>
    let s := { s with port := { s.port with rel := SMap.set (fun _ => []) s.port.rel c l } }
    let t := s.trkE tid
    if ! t.valid then s else
    let s := s.setTrkE tid { t with rel := true, wrWait := [] }
    (t.wrWait.foldl (fun u w => issueWr u tid w false) s).addWork (.trk tid)

/-- HELD_RETRY_TIMEOUT (R75). -/
def heldRetry (s : State) (h : Nat) : State :=
  let v := s.holdE h
  if ! v.used ∨ ! portOpen s then s else
  match v.wait with
  | .presented | .behind | .binding | .parked => s
  | _ => presentHold (fpEvent { s with now := max s.now v.tmo, lehrNow := max s.lehrNow v.tmo } v.port 0x0B) h

end Sys2Proof.Machine
end

