-- ==== Sys2Proof/Machine/Ingress.lean ====
section
/-! DEFINITION. What reaches a slice (chapters 04 and 07): allocation of requests, directory evictions and MNT messages,
writebacks (R197) with the sink (R112), retirement (R187), the failure of a slice logic with its adoption (R119 to R122),
replay (R516 to R519), and `settle`, which runs a command's work to its end. -/

namespace Sys2Proof.Machine

/-! ### Decisions -/

/-- The words of a line's set as an entry's Drawer read returns them (R139, R158, R291). -/
structure Found where
  look : Look
  unknown : Option Bool
  deriving DecidableEq, Repr

def readLine (s : State) (line : Nat) : State × Found :=
  let n := sliceOf line
  let (s, ws) := setRead s n (setOf line)
  let lk := lookIn ws line
  let s := if lk.bad then formatError s n (setOf line) else s
  (s, ⟨lk, unknownOf s line⟩)

/-- The bank and mode of an entry allocated now (R289, R300). -/
def activeEpoch (s : State) : Nat := s.fld Fld.RB_STATUS_ACTIVE

/-- The decision for a message of type `typ` naming `r` (R158, R290, R291). The last part says that the line is unknown,
and whether its set is in REBUILD. -/
def decideMsg (s : State) (line typ r : Nat) (f : Found) : State × Dec × Option Bool :=
  let n := sliceOf line
  match f.unknown with
  | some rb => (slEvent s (logicOf s n) 13, decideUnknown typ rb, some rb)
  | none =>
    let v := seenOf f.look
    let s := slEvent s (logicOf s n) (if v.way.isSome then 6 else 7)
    match matchRule s n (activeEpoch s) typ s.decMode v r with
    | (s, some d) => (s, d, none)
    | (s, none) =>
      (slEvent (noRuleFault s n typ (setOf line)) (logicOf s n) 13, decideUnknown typ false, some false)

/-- A step writes a word: any, or one that may come to S. -/
def writesAny (d : Dec) : Bool := d.prog.any (fun st => match st with | .write .. => true | _ => false)
def writesS (d : Dec) : Bool := d.prog.any (fun st => match st with
  | .write _ c => c == 2 || (c == 0 && (d.next == 1 || d.next == 5))
  | _ => false)

/-- A decision that splits or rewrites the sector's coarse word, or adds its line to it, has sector scope (R108, R142, R145). -/
def widens (d : Dec) (f : Found) : Bool :=
  f.unknown.isNone && f.look.fine.isNone &&
    ((f.look.line.isSome && (d.prog.contains .split || writesAny d)) || (f.look.sector.isSome && writesS d))

/-- A new coarse word is planned for an S grant on a miss without a coarse word of its sector (R142, R143). -/
def planCoarse (s : State) (line agent : Nat) (d : Dec) (f : Found) : State × Bool :=
  let n := sliceOf line
  if f.unknown.isSome ∨ d.rclass ≠ 2 ∨ f.look.fine.isSome ∨ f.look.line.isSome then (s, false) else
  if f.look.sector.isSome then (s, false) else
  let (s, fired) := streamHit s n line agent
  match amapScope s (entryOf line) with
  | 1 => (s, true)
  | 3 => (s, false)
  | _ =>
    let lvl := s.fld Fld.CAB_CTL_FINE_LVL n
    (s, fired || (lvl != 0 && decide (lvl * 1024 < countWords s n (fun c => c.grain == 1))))

/-! ### Requests (R101, R102, R109 to R117) -/

def cqHead (s : State) (n line : Nat) : Option Rsv := (s.slq n).cq.find? (fun r => r.line = line)
def isReserved (s : State) (n line : Nat) : Bool := (s.slq n).reserved.any (fun e => e.1 == line)

/-- The slices issue: CORE out of reset and the first rswap since it has loaded the banks (R302). -/
def slicesRun (s : State) : Bool := s.coreUp && s.fld Fld.RB_STATUS_LOADED == 1

/-- The logic that serves a slice has failed with no spare to take over (R119, R121): it issues nothing. -/
def sliceFailed (s : State) (n : Nat) : Bool := bit1 (s.fld Fld.CL_SPARE_FAILED (n / 8)) (logicOf s n - 9 * (n / 8))

/-- A slice issues: the slices run, its logic has not failed, and it is not being adopted. -/
def sliceIssues (s : State) (n : Nat) : Bool := slicesRun s && ! adoptingSlice s n && ! sliceFailed s n

/-- A cluster's notice queue has no room: its slices allocate and refuse nothing until the Port Complex has taken an entry (R20,
R21). What follows an entry already allocated waits behind the 16 entries of the queue, in the same list, DESIGN CHOICE (log entry 101). -/
def noticesFull (s : State) (n : Nat) : Bool := decide (16 ≤ (s.notices (n / 8)).length)

/-- CORE goes to sleep or wakes: no REQ is taken until step 10 of the wake (R472, R508). -/
def asleep (s : State) : Bool := s.mode == 1 && (s.sleepReady || s.start.run.isSome)

/-! ### The order of classes (R101) -/

/-- The line of a waiting eviction, and whether its granule is a sector. -/
def evGranule (s : State) (n : Nat) (e : EvMsg) : Option (Nat × Bool) :=
  let c := decodeCab (drawerW s n (e.set * 16 + e.way))
  if c.grain = 0 then none else
  let sub := if c.grain = 1 then c.loc % 16 else ((List.range 16).find? (fun i => bit1 c.loc i)).getD 0
  some ((sectorOfWord e.set c) * 16 + sub, c.grain == 2)

/-- The granule of a waiting eviction is busy with other work than that of the entry that asked for it (R108, R199). -/
def evBusy (s : State) (n : Nat) (e : EvMsg) (line : Nat) (sector : Bool) : Bool :=
  (trkOfSlice s n).any (fun t => some (n * 512 + t.1) ≠ e.waiter ∧ meets t.2 line sector) ||
    (sinksOfSlice s n).any (fun k => k.2.hdr.pa.toNat = line ∨ (sector ∧ sectorOf k.2.hdr.pa.toNat = sectorOf line))

/-- An MNT message has sector scope: it says so, or it may rewrite the coarse word that holds its line (R108, R211, R220). -/
def mntSector (s : State) (m : MntMsg) : Bool :=
  m.sector || (((m.typ == 0x3D && m.operand != 0) || m.typ == 0x3E) &&
    (let l := lookIn (peekSet s (sliceOf m.pa) (setOf m.pa)) m.pa
     l.fine.isNone && l.line.isSome))

/-- The head of a class could issue now: RSP, SNP, REQ, MNT. A message that the model's programs sent is background work. -/
def rspElig (s : State) (n : Nat) : Bool := sliceIssues s n && ! (SMap.getD (fun _ => []) s.port.snpDone n).isEmpty
def evElig (s : State) (n : Nat) : Bool :=
  sliceIssues s n && (match (s.slq n).evQ with
    | [] => false
    | e :: _ => match evGranule s n e with
      | none => true
      | some (line, sector) => ! evBusy s n e line sector && (allocEntry s n 1).isSome)
def reqElig (s : State) (n : Nat) : Bool :=
  sliceIssues s n && ! asleep s && ! noticesFull s n && ! (s.slq n).reqQ.isEmpty
def mntElig (s : State) (n : Nat) : Bool :=
  sliceIssues s n && (match (s.slq n).mntQ with
    | [] => false
    | m :: _ => (m.msg.isSome || m.typ == 0x3F || bgOn s (n / 8)) && (blocker s m.pa (mntSector s m) none).isNone &&
        (allocEntry s n 2).isSome)

/-- The exceptions of R101: REQ passed over 15 times issues next, MNT passed over 63 times issues next after it. -/
def reqDue (s : State) (n : Nat) : Bool := reqElig s n && decide (15 ≤ (s.slq n).reqPass)
def mntDue (s : State) (n : Nat) : Bool := mntElig s n && decide (63 ≤ (s.slq n).mntPass)

/-- A message of a class (0 DAT, 1 RSP, 2 SNP, 3 REQ, 4 MNT) may be the next that the slice issues. DAT never waits for a class before
it, and is in its slice as soon as the slice can take it. A step of the model is one issue; the CCLKs in which nothing issues are
not counted, DEDUCED (log entry 93). -/
def mayIssue (s : State) (n cls : Nat) : Bool :=
  if reqDue s n then cls == 3
  else if mntDue s n then cls == 4
  else (cls ≤ 1 || ! rspElig s n) && (cls ≤ 2 || ! evElig s n) && (cls ≤ 3 || ! reqElig s n)

/-- The slice has issued a message of a class: the others that could have issued are passed over, and the watchdog starts afresh. -/
def slIssued (s : State) (n cls : Nat) : State :=
  let q := s.slq n
  s.setSlq n { q with
    reqPass := if cls = 3 ∨ ! reqElig s n then 0 else q.reqPass + 1
    mntPass := if cls = 4 ∨ ! mntElig s n then 0 else q.mntPass + 1
    wdog := s.now }

/-- Takes the REQ that the rotation over fabric ports names. -/
def pickReq (s : State) (n : Nat) : Option Nat :=
  let q := s.slq n
  let key := fun (h : Nat) => ((s.holdE h).port + 63 - q.rot) % 64
  q.reqQ.foldl (fun b h => match b with
    | none => some h
    | some x => if key h < key x then some h else some x) none

/-- A refusal (R73, R110, R114): counted, and with a fourth refusal a reservation. -/
def refuseReq (s : State) (n h : Nat) (on : HoldWait) (rsv : Bool) (ev : Nat) : State :=
  let v := s.holdE h
  let l := logicOf s n
  let s := slFixed (if ev = 0 then s else slEvent s l ev) l 5
  let q := s.slq n
  let s := if rsv ∧ 3 ≤ v.nacks ∧ ¬ q.cq.any (fun r => r.hold = h) then
      if q.cq.length < 32 then
        slEvent (s.setSlq n { q with cq := q.cq ++ [⟨v.hdr.pa.toNat, h, v.hdr.agent.toNat, s.now⟩] }) l 5
      else s.addFld Fld.SL_CQ_OVF 1 l
    else s
  State.notify s (n / 8) (.refuse h on)

/-- R111: modes in which a REQ is refused ahead of allocation. -/
def modeRefuses (s : State) (line : Nat) : Bool :=
  (s.mode == 2 && decide (s.fld Fld.START_STATUS_STEP < 9)) ||
  (s.mode == 3 && (decide (s.fld Fld.START_STATUS_STEP < 9) || s.port.replaying)) ||
  (s.mode == 5 && shDrained s line)

/-- Fills a new entry and writes it to the tracker store. -/
def putEntry (s : State) (tid : Nat) (t : Trk) : State :=
  (wordWritten (s.setTrkE tid t) .trk (logicOf s (tid / 512)) (tid % 512)).addWork (.trk tid)

/-- The entry of an accepted or replayed request. -/
def reqEntry (s : State) (v : AccRec) (hold : Nat) (d : Dec) (f : Found) (unk : Option Bool) (coarse : Bool) : Trk :=
  let seen := seenOf f.look
  let w := if unk.isSome then cabEmpty else seen.word
  { trk0 with
    valid := true, epoch := activeEpoch s, cls := 0, typ := v.typ, agent := v.hdr.agent.toNat, pa := v.hdr.pa.toNat
    sector := unk.isNone && widens d f, cur := w.state, grain := w.grain, hold := hold, aseq := d.aseq
    nacks := v.nacks, hdr := v.hdr, reqDat := v.dat, prog := d.prog, next := d.next, rclass := d.rclass
    mode := s.decMode, uword := encodeCab w, way := if unk.isSome then none else seen.way, coarsePlan := coarse
    lasts := d.lasts, fetch := d.bank, unknown := unk.isSome, rebuild := unk == some true, sub := v.hdr.pa.toNat % 16, start := s.now }

/-- SLICE_REQ_ISSUE: one REQ of the slice is allocated or refused, where REQ is the class that issues (R101). -/
def sliceReqIssue (s : State) (n : Nat) : State :=
  if ! reqElig s n ∨ ! mayIssue s n 3 then s else
  match pickReq s n with
  | none => s
  | some h =>
    let v := s.holdE h
    let line := v.hdr.pa.toNat
    let s := (slIssued s n 3).addWork .daten
    let q := s.slq n
    let s := s.setSlq n { q with reqQ := q.reqQ.erase h, rot := v.port }
    let head := cqHead s n line
    if modeRefuses s line then refuseReq s n h .mode false 0
    else if isReserved s n line ∧ head.map (·.hold) ≠ some h then refuseReq s n h (.rsv line) true 4
    else match blocker s line false none with
      | some b => refuseReq s n h b true 3
      | none =>
        match allocEntry s n 0 with
        | none =>
          let q := s.slq n
          let s := if isReserved s n line then
              s.setSlq n { q with reserved := q.reserved.map (fun e => if e.1 = line then (line, 0) else e) } else s
          refuseReq s n h (.pool n) false 4
        | some e =>
          let (s, f) := readLine s line
          let (s, d, unk) := decideMsg s line v.typ v.hdr.agent.toNat f
          let (s, coarse) := planCoarse s line v.hdr.agent.toNat d f
          let sec := unk.isNone && widens d f
          match (if sec then blocker s line true none else none) with
          | some b => refuseReq s n h b true 3
          | none =>
            let tid := n * 512 + e
            let l := logicOf s n
            let q := s.slq n
            let s := if head.map (·.hold) = some h then s.setSlq n { q with
                cq := q.cq.filter (fun r => r.hold ≠ h), reserved := q.reserved.filter (fun e => e.1 ≠ line) } else s
            let s := slFixed (slEvent s l 2) l 4
            let r : AccRec := ⟨true, 0, v.typ, v.hdr, v.dat.map (fun x => (v.port, x)), false, false, v.nacks, 0⟩
            let s := putEntry s tid (reqEntry s r h d f unk coarse)
            State.notify s (n / 8) (.accept tid h (activeEpoch s))

/-- CQ_GUARD_TIMEOUT (R116). -/
def cqGuard (s : State) (n line : Nat) : State :=
  let q := s.slq n
  match q.reserved.find? (fun e => e.1 = line) with
  | none => s
  | some (_, dl) =>
    if dl = 0 then s else
    let s := { s with now := max s.now dl, lehrNow := max s.lehrNow dl }
    let head := cqHead s n line
    let cq := match head with | some r => q.cq.erase r | none => q.cq
    let s := s.setSlq n { q with cq := cq, reserved := q.reserved.filter (fun e => e.1 ≠ line) }
    let s := raiseSlice (s.setFld Fld.SL_ERR_CQ_TMO 1 (logicOf s n)) n 0x21 n
    let s := reserveLine s n line
    if isReserved s n line then s else State.notify s (n / 8) (.rsvFree n line)

/-! ### Directory evictions (R155, R156, R199) -/

/-- The steps of an eviction: every recorded holder is invalidated, line by line for a coarse word, then the word is
emptied. A split that evicts its own coarse word snoops its own line itself (R153): `own` is that line. -/
def evictSteps (c : CabW) (own : Option Nat) : List AStep :=
  if c.grain = 2 then
    let lines := (List.range 16).filter (fun i => bit1 c.loc i)
    (lines.filter (fun i => some i ≠ own)).flatMap (fun i => [AStep.atLine i, .snoop .inv .holders, .wait true true]) ++
      lines.flatMap (fun i => [AStep.atLine i, .write .h 1])
  else [.snoop .inv .holders, .wait true true, .write .h 1]

/-- An entry that waited for its way runs again. -/
def evDone (s : State) (w : Option Nat) : State :=
  match w with
  | some t => if (s.trkE t).valid then (setT s t (fun x => { x with tstate := 0 })).addWork (.trk t) else s
  | none => s

/-- DIRECTORY_EVICTION: the head of a slice's SNP class takes its entry; it waits while its granule is busy or no entry is
free, and where SNP is not the class that issues (R101). Its entry, which names no requester and no thread, reads AGENT 0xFFFF and,
for its snoops are SNP_INV, TYPE 0x22, DESIGN CHOICE (log entry 94). -/
def dirEvict (s : State) (n : Nat) : State :=
  if ! evElig s n ∨ ! mayIssue s n 2 then s else
  match (s.slq n).evQ with
  | [] => s
  | e :: l =>
    let s := (slIssued s n 2).addWork .daten
    let c := decodeCab (drawerW s n (e.set * 16 + e.way))
    let pop := s.setSlq n { s.slq n with evQ := l }
    match evGranule s n e, allocEntry s n 1 with
    | none, _ =>
      (match e.msg with
       | some (t, ck) => inboxPush (wakeWays (unpinWay pop n e.set e.way) n) t (completion 1 0 1 ck 0 0)
       | none => evDone pop e.waiter)
    | some _, none => s
    | some (line, _), some en =>
        let sub := line % 16
        let own := match e.waiter with
          | some w => if sectorOf (s.trkE w).pa = sectorOf line then some ((s.trkE w).pa % 16) else none
          | none => none
        let t : Trk := { trk0 with
          valid := true, epoch := activeEpoch s, cls := 1, typ := 0x22, pa := line, sector := c.grain == 2
          cur := c.state, grain := c.grain, prog := evictSteps c own, mode := s.decMode, uword := encodeCab c
          way := some e.way, waiter := e.waiter, msg := e.msg, sub := sub, start := s.now, agent := 0xFFFF
          operand := 0x10000, newWay := if e.waiter.isNone then some e.way else none }
        let l := logicOf s n
        putEntry (slFixed (slEvent pop l 10) l 4) (n * 512 + en) t

/-! ### MNT messages (R179, R211, R214, R220, R225, R257) -/

/-- The steps of a CENSUS entry (R225, R226): a phase for each line not recorded, then its words. -/
def censusSteps (s : State) (t : Nat) : List AStep :=
  let n := sliceOf t
  let ws := peekSet s n (setOf t)
  (List.range 16).flatMap (fun i =>
    let lk := lookIn ws (t / 16 * 16 + i)
    if lk.fine.isSome ∨ lk.line.isSome then [] else
    [AStep.atLine i, .snoop .cur .tenant, .wait true true, .note]) ++ [.census]

/-- The decision of an MNT message. CENSUS and PROBE are matched like the others (R289), and R291 applies where no rule matches; what
they do is R225's and R214's in every bank, for no step of a bank can name their targets, DEDUCED (log entry 95). A lock is no
decision. -/
def mntDec (s : State) (m : MntMsg) (f : Found) : State × Dec × Option Bool :=
  if m.typ = 0 then (s, dec [] 6 0, none)
  else
    let (s', d, unk) := decideMsg s m.pa m.typ m.agent f
    if m.typ = 0x3D ∧ m.operand = 0 then (s', { dec (censusSteps s m.pa) 6 0 with aseq := d.aseq }, unk)
    else if m.typ = 0x3F then (s', { decideProbe with aseq := d.aseq }, unk)
    else (s', d, unk)

/-- The head of a slice's MNT class takes its entry if it is of the row's type and MNT is the class that issues (R101, R105,
R109). -/
def mntIssue (s : State) (n : Nat) (want : MntMsg → Bool) : State :=
  if ! mntElig s n ∨ ! mayIssue s n 4 then s else
  match (s.slq n).mntQ with
  | [] => s
  | m :: l =>
    if ! want m then s else
    let sec := mntSector s m
    match blocker s m.pa sec none, allocEntry s n 2 with
    | none, some e =>
      let s := (slIssued s n 4).addWork .daten
      let s := s.setSlq n { s.slq n with mntQ := l }
      let (s, f) := if m.typ = 0 then (s, ⟨⟨none, none, none, false⟩, none⟩) else readLine s m.pa
      let (s, d, unk) := mntDec s m f
      let seen := seenOf f.look
      let w := if unk.isSome ∨ m.typ = 0 ∨ m.typ = 0x3F then cabEmpty else seen.word
      let tid := n * 512 + e
      let t : Trk := { trk0 with
        valid := true, epoch := activeEpoch s, cls := 2, typ := m.typ
        agent := match m.msg with | some (t, _) => t | none => 0
        pa := m.pa, sector := sec, cur := w.state, grain := w.grain, prog := d.prog, next := d.next, rclass := 0, mode := s.decMode
        uword := encodeCab w, way := if unk.isSome then none else seen.way, unknown := unk.isSome
        rebuild := unk == some true, sub := m.pa % 16, operand := m.agent, lostBy := m.operand, aseq := d.aseq
        msg := m.msg, lasts := d.lasts, fetch := d.bank, tstate := if m.typ = 0 then 8 else 0, start := s.now
        deadline := if m.typ = 0x3F then s.now + max 1 (s.fld Fld.LIVE_CTL_PROBE_TMO) * 1000 else 0 }
      let l := logicOf s n
      let s := putEntry (slFixed s l 4) tid t
      if m.typ = 0x3F ∧ m.msg.isNone ∧ m.operand = 0 then
        match SMap.getD (fun _ => none) s.conf m.agent with
        | some c =>
          let c' := { c with tids := c.tids ++ [tid], deadline := t.deadline }
          { s with conf := SMap.set (fun _ => none) s.conf m.agent (some c') }
        | none => s
      else s
    | _, _ => s

/-- DLOCK_GRANT (R257): the entry is allocated and the thread goes on. -/
def dlockGrant (s : State) (n : Nat) : State :=
  match (s.slq n).mntQ with
  | m :: _ =>
    if m.typ ≠ 0 then s else
    let used := usedEntries s n
    let s' := mntIssue s n (fun m => m.typ == 0)
    match m.msg, (usedEntries s' n).find? (fun e => ! used.contains e) with
    | some (t, _), some e =>
      match (s'.thr t).blk with
      | .dlock gd pa sec _ =>
        let th := s'.thr t
        let s := s'.setThr t { th with
          locks := th.locks.filter (fun l => ! (l.lost && l.pa == pa && l.sector == sec)) ++ [⟨n * 512 + e, pa, sec, s'.decMode, false⟩] }
        boundary (advance (s.setGreg t gd 0) t 4) t
      | _ => s'
    | _, _ => s'
  | [] => s

/-! ### Writebacks (R112, R174, R197, R289) -/

/-- A write of a sink slot through the entry writer. -/
def sinkWrite (s : State) (line : Nat) (a : WAsk) : State :=
  let d := sliceOf line
  let set := setOf line
  let lk := lookIn (peekSet s d set) line
  let scope := amapScope s (entryOf line)
  match lk.fine, lk.line with
  | some (w, c), _ =>
    if 6 ≤ a.state then putWord s d set w (some { c with age := 0 })
    else match fineWord s d line scope a (some c) with
      | none => wrFmtError s d set
      | some none => putWord s d set w none
      | some (some c') => if cabOk (encodeCab c').toNat then putWord s d set w (some c') else wrFmtError s d set
  | none, some (w, c) =>
    if 6 ≤ a.state then putWord s d set w (some { c with age := 0 })
    else if a.state ≤ 1 then putWord s d set w (coarseWord s d line scope a c)
    else wrFmtError s d set
  | none, none => s

def sinkAsk (mode a : Nat) (l : WList) (st : Nat) : WAsk := ⟨mode, l, st, a, [], false, .ptrs []⟩

/-- What the default bank records for a writeback of agent `a` (R174): kind 0 I, 1 S, 2 A. -/
def sinkDefault (s : State) (line a kind : Nat) (v : Seen) : State :=
  let c := v.word
  let mode := s.decMode
  let n := sliceOf line
  let w := fun (l : WList) (st : Nat) => sinkWrite s line (sinkAsk mode a l st)
  if ! c.has a then w .h 6
  else if c.state = 3 then
    (match kind with | 0 => w .hMinusR 0 | 1 => w .h 1 | _ => w .h 6)
  else if c.state = 4 ∧ c.named = some a then
    (match kind with
     | 0 => w .hMinusR 1
     | 1 => w .h 1
     | _ => sinkWrite (raiseSlice s n 0x22 n) line (sinkAsk mode a .h 1))
  else
    let d := dropDec mode (presentState s c mode) (flagsOf s v a) c
    d.prog.foldl (fun t st => match st with
      | .write l code => sinkWrite t line (sinkAsk mode a l (match code with | 0 => d.next | 1 => 0 | 2 => 1 | 3 => 3 | _ => 4))
      | _ => t) s

/-- A step of a bank as the slice logic reads it when it runs (R368, R293): an uncorrectable word reads as a reserved step. -/
def fetchStep (s : State) (n : Nat) (t : Trk) (k : Nat) : State × Option AStep :=
  match t.prog[k]?, t.fetch with
  | some st, some b =>
    let i := 8 * t.aseq + k
    let (s, w) := bankRead s (logicOf s n) b (1024 + i) 0x1F
    (s, some (if w = 0x1F then .bad i else st))
  | o, _ => (s, o)

/-- What a loaded bank's sequence records for a writeback: its WRITE, BRANCH and PROTO steps, to the step with LAST; a bad step ends it
(R295). NEXT 5 takes the merged answer, which without a phase is I (R294). -/
def sinkProg (line a next : Nat) (t : Trk) : Nat → Nat → State → State
  | 0, _, s => s
  | fuel + 1, k, s =>
    match fetchStep s (sliceOf line) t k with
    | (s, none) => s
    | (s, some st) =>
      let k' := if t.lasts.contains k then 8 else k + 1
      match st with
      | .write l code =>
        let n := match code with | 0 => (if next = 5 then 0 else next) | 1 => 0 | 2 => 1 | 3 => 3 | _ => 4
        sinkProg line a next t fuel k' (sinkWrite s line (sinkAsk t.mode a l n))
      | .proto => sinkProg line a next t fuel k' (raiseSlice s (sliceOf line) 0x22 (sliceOf line))
      | .branch c neg j =>
        sinkProg line a next t fuel (if t.lasts.contains k then 8 else if branchCond t c != neg then j else k + 1) s
      | .bad i => badStepFault s (sliceOf line) t.typ i (setOf line)
      | _ => sinkProg line a next t fuel k' s

/-- The kind of a writeback: 0 I, 1 S, 2 A. -/
def wbKind (typ : Nat) : Nat := typ % 4
def wbPart (typ : Nat) : Bool := 0x14 ≤ typ

/-- Row 1 of R197: a sink slot, its Drawer update and its memory write. -/
def wbSink (s : State) (p e k : Nat) : State :=
  let d := s.datE p e
  let line := d.hdr.pa.toNat
  let n := sliceOf line
  let a := d.hdr.agent.toNat
  let key := n * 16 + k
  let (s, f) := readLine s line
  let v := seenOf f.look
  let s := if f.unknown.isSome then s
    else
      let s := if v.word.has a then s else fpEvent s p 0x0A
      if bankPure s (logicOf s n) (activeEpoch s) then sinkDefault s line a (wbKind d.typ) v
      else match matchRule s n (activeEpoch s) d.typ s.decMode v a with
        | (s, some dc) => sinkProg line a dc.next
            { trk0 with prog := dc.prog, lasts := dc.lasts, fetch := dc.bank, aseq := dc.aseq, typ := d.typ, mode := s.decMode
                        wbTaken := true, taken := [⟨p, e, a, wbPart d.typ, d.hdr.poison, true⟩] } 64 0 s
        | (s, none) => noRuleFault s n d.typ (setOf line)
  let s := slFixed s (logicOf s n) 4
  let id := s.mem.nextId
  let s := s.setDatE p e { s.datE p e with user := .sink key }
  let s := s.setSinkE key ⟨true, p, e, d.typ, d.hdr, activeEpoch s, some id⟩
  let kind := if d.hdr.poison then 3 else if wbPart d.typ then 2 else 1
  (issueMem s kind (.sink key id) line d.data d.hdr.be false (n / 8)).1

/-- Whether a descriptor covers an agent (R78, R79). -/
def descHas (s : State) (d : SnpDesc) (line a : Nat) (excl : Option Nat) : Bool :=
  excl != some a && (match d with
    | .ptrs as => as.contains a
    | .groups v => v.getLsbD (a / 1024) && s.agtTenant a == tenantOf s line
    | .tenant => s.agtTenant a == tenantOf s line)

/-- A snoop step that an entry has decided and not yet run, for a line, that targets a writer; `sub` is the line of the sector that the
phases are for. -/
def decidedOn (s : State) (t : Trk) (line a : Nat) : Nat → List AStep → Option Bool
  | _, [] => none
  | _, .atLine i :: l => decidedOn s t line a i l
  | sub, .snoop k g :: l =>
    if t.pa / 16 * 16 + sub = line ∧ descHas s (snoopDesc t g) t.pa a (if t.cls = 0 then some t.agent else none)
    then some (isDf k) else decidedOn s t line a sub l
  | sub, _ :: l => decidedOn s t line a sub l

/-- How an entry's current or decided snoop phase for a line targets a writer: none, as a DF_FWD, or as a snoop (R197). -/
def phaseOn (s : State) (tid line a : Nat) : Option Bool :=
  let t := s.trkE tid
  match t.kept with
  | some (x, none) => if x = a ∧ t.pa = line then some true else none
  | _ =>
    let f := s.fanE tid
    let on := t.snpOut && curLine t == line &&
      (if f.active ∧ f.expanded then f.open_.any (fun x => x.agent == a) else descHas s t.phDesc t.pa a t.phExcl)
    if on then some (isDf t.phKind) else decidedOn s t line a t.sub (t.prog.drop t.step)

/-- A writeback that an entry does not take as its data removes the writer from the entry's next state as R174 removes it (row 5 of
R197): an owner leaves with WB_I only, and the word found must be the line's. -/
def wbRemoves (t : Trk) (line a kind : Nat) : Bool :=
  let c := decodeCab t.uword.toNat
  t.pa == line && (kind == 0 || ! (3 ≤ c.state && c.named == some a))

/-- Rows 2 to 5 of R197: the writeback meets a busy entry. It is written at its own line, which in a sector scope may be another than
the entry's. -/
def wbMeets (s : State) (p e tid : Nat) : State :=
  let d := s.datE p e
  let a := d.hdr.agent.toNat
  let line := d.hdr.pa.toNat
  let part := wbPart d.typ
  let s := s.setDatE p e { d with user := .trk tid }
  let w : WrReq := ⟨if d.hdr.poison then 3 else if part then 2 else 1, line, d.data, d.hdr.be, some (p, e)⟩
  let l := logicOf s (tid / 512)
  let again := (s.trkE tid).taken.any (fun k => k.agent == a && (s.datE k.port k.dat).hdr.pa == d.hdr.pa)
  let s := slFixed s l 4
  match (if again then none else phaseOn s tid line a) with
  | some df =>
    let k : Taken := ⟨p, e, a, part, d.hdr.poison, ! df⟩
    let s := setT (slEvent s l 12) tid (fun t =>
      let t := { t with wbTaken := true, taken := t.taken ++ [k] }
      if df then t else dropRead t)
    let s := queueWr s tid w
    (if df then s else giveTaken s tid k d.data).addWork (.trk tid)
  | none =>
    let s := setT s tid (fun t => if wbRemoves t line a (wbKind d.typ) then { t with gone := t.gone ++ [a] } else t)
    (queueWr s tid w).addWork (.trk tid)

/-- A writeback that waits in the DAT pool reaches its slice, if the slice takes it now. Between the choice of a victim and the entry of
its eviction, a writeback to the victim's line meets no entry and takes row 1, DEDUCED (log entry 96). -/
def wbTry (s : State) (p e : Nat) : State :=
  let d := s.datE p e
  let line := d.hdr.pa.toNat
  let n := sliceOf line
  if d.user ≠ .waiting ∨ ! slicesRun s ∨ sliceFailed s n ∨ ! mayIssue s n 0 then s else
  match (trkOfSlice s n).find? (fun t => meets t.2 line false) with
  | some (t, _) => wbMeets (slIssued s n 0) p e (n * 512 + t)
  | none => match (List.range 16).find? (fun k => ! (s.sinkE (n * 16 + k)).used) with
    | some k => wbSink (slIssued s n 0) p e k
    | none => s

/-- Writebacks waiting, in their arrival order. -/
def wbWaiting (s : State) (sel : Nat → Bool) : List (Nat × Nat) :=
  ((s.port.dat.filter (fun e => e.2.user == .waiting && sel (sliceOf e.2.hdr.pa.toNat))).mergeSort
    (fun a b => decide (a.2.seq ≤ b.2.seq))).map (fun e => (e.1 / 32, e.1 % 32))

/-- A writeback arrives (R60, R63, R67). -/
def rxWb (s : State) (p typ : Nat) (h : Hdr) (data : Line) : State :=
  if ! s.portUp ∨ ! s.vaux then s
  else if (s.fport p).datCred = 0 then overrun s p typ h else
  let s := s.setFport p { s.fport p with datCred := (s.fport p).datCred - 1 }
  let s := fpEvent s p 3
  let (s, bad) := ingressCheck s typ h
  if bad ≠ 0 then regrant (refuse s p typ h bad) p
  else match datFree s p with
    | none => s
    | some e =>
      let s := passed s h.agent.toNat
      let q := s.port.holdSeq
      let s := { s with port := { s.port with holdSeq := q + 1 } }
      (s.setDatE p e ⟨.waiting, typ, h, data, q, false⟩).addWork .daten

/-! ### Retirement (R187) -/

/-- A CENSUS entry of the census program has retired (R227, R228): CURSOR of the set it was issued for (a walk of kind 10,
with the sector and the Drawer) or of the adoption window (kind 7, with the sector and the window's number) passes the
sector; a window's CURSOR follows the sectors outstanding. One whose answers stayed contradictory leaves CURSOR at the sector
(R226): kinds 8 and 9 mark the set and the window's sector. -/
def censusNote (s : State) (n : Nat) (t : Trk) : State :=
  let set := setOf t.pa
  let sec := sectorOf t.pa
  let bad := t.outcome = 3
  let ofSet := s.walks.contains ⟨10, sec, n⟩
  let wins := (List.range 4).filter (fun i => s.walks.contains ⟨7, sec, i⟩)
  let s := { s with walks := s.walks.filter (fun w => ¬ ((w.kind = 10 ∧ w.agent = sec ∧ w.cluster = n) ∨ (w.kind = 7 ∧ w.agent = sec))) }
  let next := tagOf t.pa + 1
  let s :=
    if ! ofSet then s
    else if bad then { s with walks := s.walks ++ [⟨8, set, n⟩] }
    else
      let q := s.drq n
      let up := fun (b : Blind) => if b.state = 2 ∧ b.set = set then { b with cursor := max b.cursor next } else b
      s.setDrq n (match q.blindAll, q.walk with
        | true, some (k, some c) => if k = set then { q with walk := some (k, some (max c next)) } else q
        | true, _ => q
        | false, _ => { q with blind := q.blind.map (fun e => (e.1, up e.2)) })
  if bad then { s with walks := s.walks ++ wins.map (fun i => ⟨9, sec, i⟩) } else s

/-- What the retirement of an entry tells whoever waits for it: the entry that asked for an eviction, the thread that sent
the message (R260), AGT_PROBE (R214), the census. -/
def retireNotes (s : State) (tid : Nat) (t : Trk) : State :=
  let s := evDone s (if t.cls = 1 then t.waiter else none)
  match t.msg with
  | some (th, ck) =>
    if t.typ = 0 ∧ t.cls = 2 then s
    else
      let (st, res) := mntResult s t
      inboxPush s th (completion (if t.cls = 1 then 1 else 0) (if t.cls = 1 then 0 else t.typ) st ck tid res)
  | none =>
    if t.cls = 2 ∧ t.typ = 0x3F ∧ t.lostBy = 1 then
      match s.cmd with
      | some c => if c.code = 0x13 then
          let failed : Bool := t.ansDead != 0 ||
            s.port.fan.any (fun e => e.2.open_.any (fun x => x.agent == t.operand && x.expired))
          { s with cmd := some { c with phase := 2, val := if failed then 0 else (mntResult s t).2 } } else s
      | none => s
    else if t.cls = 2 ∧ t.typ = 0x3D ∧ t.lostBy = 0 then censusNote s (tid / 512) t
    else s

/-- An entry retires. -/
def retire (s : State) (tid : Nat) : State :=
  let t := s.trkE tid
  let n := tid / 512
  let s := if t.dbufV then setBufs s (n / 8) ((bufsUsed s (n / 8)).filter (· ≠ t.dbuf)) else s
  let s := freeWay s tid t
  let wbs := s.port.dat.filter (fun e => e.2.user == .trk tid)
  let s := wbs.foldl (fun u e => State.notify (u.setDatE (e.1 / 32) (e.1 % 32) { e.2 with user := .sink 1048576 }) (n / 8)
    (.retireSink 1048576 (e.1 / 32) (e.1 % 32) t.pa)) s
  let s := s.setTrkE tid trk0
  let lines := (((s.slq n).cq.map (·.line)).filter (fun l => meets t l false)).dedup
  let s := lines.foldl (fun u l => reserveLine u n l) s
  let s := State.notify s (n / 8) (.retire tid)
  let en := tid % 512
  let s := if 16 ≤ en ∧ en < 480 then
      let q := s.slq n
      let g := max 1 (s.fld Fld.SL_CTL_CQ_GUARD (logicOf s n)) * 100
      let s := s.setSlq n { q with reserved := q.reserved.map (fun e => if e.2 = 0 then (e.1, s.now + g) else e) }
      let waits := (holdsUsed s).any (fun e => e.2.wait == .pool n) ||
        (s.notices (n / 8)).any (fun x => match x with | .refuse _ (.pool k) => k == n | _ => false)
      if waits then State.notify s (n / 8) (.poolFree n) else s
    else s
  wakeWaiters (retireNotes s tid t) n

/-- Runs an entry's steps until it waits, then retires it if it may. -/
def runEntry : Nat → Nat → State → State
  | 0, _, s => s
  | fuel + 1, tid, s =>
    let s := rereadPump s tid
    let t := s.trkE tid
    if t.ended then s
    else
      let (s, more) := match fetchStep s (tid / 512) t t.step with
        | (s, some st) =>
          let (s, more) := runStep s tid st
          -- the sequence ends after a step with LAST (R293)
          (if more ∧ t.lasts.contains t.step then setT s tid (fun u => { u with step := u.prog.length }) else s, more)
        | (s, none) => endSeq s tid
      if more then runEntry fuel tid s else s

/-- An entry runs again (R107): its word is read first, and one that cannot be read fails its slice logic (R119). A dlock
entry only waits for its end. -/
def resume (s : State) (tid : Nat) : State :=
  if ! (s.trkE tid).valid then s else
  let n := tid / 512
  let (s, r) := wordRead s .trk (logicOf s n) (tid % 512)
  if r.isNone then (s.setFld Fld.SL_ERR_TRK_UE 1 (logicOf s n)).addWork (.fail n) else
  let t := s.trkE tid
  let s := if t.cls = 2 ∧ t.typ = 0 then s
    else if t.tstate = 4 ∧ t.newWay.isSome then s
    else runEntry 200 tid s
  if mayRetire (s.trkE tid) ∧ ¬ noticesFull s n then retire s tid else s

/-! ### Failure and adoption of a slice logic (R119 to R122) -/

/-- What becomes of the fan-out records of lost entries (R120, R516): a DF_FWD that has left stays, answered or not; the
rest close. -/
def closeFans (s : State) (sel : Nat → Bool) : State :=
  let answered := (s.sl.trk.filter (fun e => sel (e.1 / 512) && e.2.valid && isDf e.2.phKind && e.2.ansCount != 0 && ! e.2.snpOut)).filterMap
    (fun e => match e.2.phDesc with
      | .ptrs [a] => some (e.1, a, e.2.ans, e.2.ansDead)
      | _ => none)
  let queued := (s.port.snpDone.flatMap (fun e => if sel e.1 then e.2 else [])).filterMap (fun d =>
    let t := s.trkE d.tid
    match t.phDesc with
    | .ptrs [a] => if isDf t.phKind ∧ d.count ≠ 0 then some (d.tid, a, d.merged, d.dead) else none
    | _ => none)
  let fans := s.port.fan.filterMap (fun (e : Nat × FanRec) =>
    if ! sel (e.1 / 512) then some e
    else if e.2.kept then some e
    else if isDf e.2.kind ∧ e.2.active ∧ e.2.open_.any (·.left) then some (e.1, { e.2 with kept := true, orphan := false })
    else none)
  let s := { s with port := { s.port with
    fan := fans
    snpDone := s.port.snpDone.filter (fun e => ! sel e.1)
    snpQ := s.port.snpQ.filterMap (fun (e : Nat × List SnpMsg) =>
      let l := e.2.filter (fun m => ! sel (m.tid / 512))
      if l.isEmpty then none else some (e.1, l))
    staged := s.port.staged.filter (fun m => match m.2.own with
      | .plain | .refused => true | .snoop t => ! sel (t / 512) | .data t => ! sel (t / 512) | .final t => ! sel (t / 512)) } }
  (answered ++ queued).foldl (fun u e =>
    if (u.fanE e.1).active then u
    else u.setFanE e.1 { fan0 with
      active := true, kind := .fwdClean, pa := (s.trkE e.1).pa, expanded := true, merged := e.2.2.1, dead := e.2.2.2
      holders := [(e.2.1, e.2.2.1)], kept := true }) s

/-- Writebacks without a retire notice wait to be presented again (R113). -/
def rewaitDat (s : State) (sel : Nat → Bool) : State :=
  { s with port := { s.port with dat := s.port.dat.map (fun e =>
    let again : Bool := match e.2.user with | .sink _ => true | .trk _ => true | _ => false
    if again ∧ sel (sliceOf e.2.hdr.pa.toNat) ∧ 0x10 ≤ e.2.typ then (e.1, { e.2 with user := DatUser.waiting }) else e) } }

/-- Takes every notice waiting on a cluster's queue. -/
def drainNotices : Nat → Nat → State → State
  | 0, _, s => s
  | fuel + 1, c, s =>
    match s.notices c with
    | [] => s
    | n :: _ => drainNotices fuel c (takeNotice s c n)

/-- A slice's entries, sink slots, buffers and queues in its logic are gone. The programs that the model runs itself send
the messages of their lost MNT entries again, DEDUCED (log entry 20): their wait for the entry has timed out (R120). -/
def dropSlice (s : State) (n : Nat) : State :=
  let back := ((trkOfSlice s n).filter (fun e => e.2.cls = 2 ∧ e.2.typ ≠ 0 ∧ e.2.msg.isNone ∧ ¬ (e.2.typ = 0x3F ∧ e.2.lostBy = 1))).map
    (fun e => (⟨e.2.typ, e.2.pa, e.2.operand, e.2.lostBy, e.2.sector, none⟩ : MntMsg))
  let bufs := (trkOfSlice s n).filterMap (fun e => if e.2.dbufV then some e.2.dbuf else none)
  -- the completion credits of its MNT entries and evictions return to their threads (R261)
  let owed := (trkOfSlice s n).filterMap (fun e => if e.2.cls = 2 ∧ e.2.typ = 0 then none else e.2.msg.map (·.1)) ++
    (s.slq n).evQ.filterMap (fun e => e.msg.map (·.1))
  let s := owed.foldl (fun u t => creditBack u t 1) s
  let s := setBufs s (n / 8) ((bufsUsed s (n / 8)).filter (fun b => ! bufs.contains b))
  let held := (s.slq n).reqQ
  let s := held.foldl (fun u h => u.setHoldE h { u.holdE h with wait := .parked }) s
  let s := { s with sl := { s.sl with
    trk := s.sl.trk.filter (fun e => e.1 / 512 ≠ n), sinks := s.sl.sinks.filter (fun e => e.1 / 16 ≠ n) } }
  let s := s.setSlq n { sliceQ0 with mntQ := back ++ (s.slq n).mntQ, settleQ := (s.slq n).settleQ }
  { s with stw := { s.stw with thr := s.stw.thr.map (fun e => (e.1, { e.2 with
    locks := e.2.locks.map (fun l => if l.tid / 512 = n then { l with lost := true } else l) })) } }

/-- The logic at a cluster's position fails. -/
def logicMark (s : State) (c pos : Nat) : State :=
  let s := lehrWrote (s.setFld Fld.CL_SPARE_FAILED (s.fld Fld.CL_SPARE_FAILED c ||| 2 ^ pos) c) [repMap c]
  { s with repair := { s.repair with
    failed := SMap.set (fun _ => 0) s.repair.failed c (SMap.getD (fun _ => 0) s.repair.failed c ||| 2 ^ pos) } }

/-- Adoption of a logical slice by the cluster's spare (R120): the failed logic is isolated, and the spare takes the slice
with an empty tracker; replay follows. -/
def adopt (s : State) (n : Nat) (forced : Bool) : State :=
  let c := n / 8
  let spare := s.fld Fld.CL_SPARE_SPARE c
  let k := n % 8
  let w := s.fld Fld.CL_SLMAP_POS c
  let s := keepStore (logicMark s c (bits w (4 * k) 4)) n (logicOf s n)
  let s := closeFans (drainNotices 4096 c s) (· == n)
  let s := dropSlice (rewaitDat s (· == n)) n
  let w' := w - bits w (4 * k) 4 * 2 ^ (4 * k) + spare * 2 ^ (4 * k)
  let s := (s.setFld Fld.CL_SLMAP_POS w' c).setFld Fld.CL_SPARE_SPARE 15 c
  let s := lehrWrote s [repMap c]
  let s := { s with
    repair := { s.repair with pos := SMap.set (fun _ => 0) s.repair.pos c (w' + 1) }
    sl := { s.sl with adopting := s.sl.adopting ++ [(n, forced)] }
    port := { s.port with replay := s.port.replay ++ [n] } }
  s.addWork .daten

/-- The logic that serves a slice fails (R119, R121). -/
def sliceFail (s : State) (n : Nat) : State :=
  let c := n / 8
  let s := raiseSlice s n 0x20 n
  if s.fld Fld.CL_SPARE_SPARE c = 15 then
    let pos := logicOf s n - 9 * c
    raiseCluster (dropSlice (closeFans (keepStore (logicMark s c pos) n (9 * c + pos)) (· == n)) n) c 0x81 c
  else adopt s n false

/-- A slice logic's own failure by its number: the spare that serves nothing is only marked (R121). -/
def logicFail (s : State) (l : Nat) : State :=
  let c := l / 9
  let pos := l % 9
  match (List.range 8).find? (fun k => bits (s.fld Fld.CL_SLMAP_POS c) (4 * k) 4 = pos) with
  | some k => if bit1 (s.fld Fld.CL_SPARE_FAILED c) pos then s else (sliceFail s (8 * c + k)).addWork .daten
  | none =>
    if s.fld Fld.CL_SPARE_SPARE c = pos then
      raiseN ((logicMark s c pos).setFld Fld.CL_SPARE_SPARE 15 c) (.slice l) 0x20 (0x100 + l) 1 false .core
    else s

/-! ### Replay (R516 to R519) -/

/-- The kept fan-out record of an entry as its replayed entry takes it (R518). -/
def takeKept (s : State) (tid : Nat) : State × Option (Nat × Option Nat) :=
  let f := s.fanE tid
  if ! f.kept then (s, none) else
  match f.open_ with
  | t :: _ => (s, some (t.agent, none))
  | [] =>
    let a := match f.holders with | (a, _) :: _ => a | [] => 0x10000
    (s.setFanE tid fan0, some (a, some (if f.dead ≠ 0 then 3 else f.merged)))

/-- One acceptance record of a slice is closed, discarded or allocated again (R517, R519). -/
def replayRec (s : State) (tid : Nat) : State :=
  let r := s.recE tid
  if ! r.valid then s else
  let (s, ok) := rsRead s (6 * tid) 6
  let n := tid / 512
  let free := fun (s : State) =>
    let s := s.setRecE tid rec0
    let s := s.setFanE tid fan0
    let s := match r.dat with | some (p, e) => freeDat s p e | none => s
    slFixed (s.addFld Fld.REPLAY_STAT1_CLOSED 1) (logicOf s n) 5
  if ! ok then free (raisePort s 0x0B tid)
  else if r.cmpOut ∨ (r.typ = 3 ∧ r.dataOut) then free s
  else
    let line := r.hdr.pa.toNat
    let (s, f) := readLine s line
    let (s, d, unk) := decideMsg s line r.typ r.hdr.agent.toNat f
    let (s, coarse) := planCoarse s line r.hdr.agent.toNat d f
    let (s, kept) := takeKept s tid
    let s := rsWrite (s.setRecE tid { r with epoch := activeEpoch s }) (6 * tid) 6
    let t := { reqEntry s r 0 d f unk coarse with rel := true, replayed := true, kept := kept }
    let s := slFixed s (logicOf s n) 4
    putEntry (s.addFld Fld.REPLAY_STAT0_REPLAYED 1) tid t

/-- The end of a slice's replay: an adoption ends, and what was kept back is presented (R76, R120). -/
def replayEnd (s : State) (n : Nat) : State :=
  let done := adoptingSlice s n
  let s := { s with
    sl := { s.sl with adopting := s.sl.adopting.filter (fun e => e.1 ≠ n) }
    port := { s.port with replay := s.port.replay.filter (· ≠ n) } }
  let s := if done then s.setFld Fld.CL_ADOPT_STATUS 1 (n / 8) else s
  if s.port.replaying then
    if s.port.replay.isEmpty then
      presentAgain { s with port := { s.port with replaying := false } } (fun v => v.wait == .parked)
    else s
  else presentAgain s (fun v => v.wait == .parked && sliceOf v.hdr.pa.toNat == n)

/-- Each slice that replays goes on: first its writebacks, then its records in tracker ID order (R517). -/
def replayPump (s : State) : State :=
  s.port.replay.foldl (fun u n =>
    let u := (wbWaiting u (· == n)).foldl (fun v e => wbTry v e.1 e.2) u
    if (wbWaiting u (· == n)) ≠ [] then u
    else
      let tids := (SMap.slice u.port.recs (n * 512) 512).map (fun e => n * 512 + e.1)
      replayEnd (tids.foldl replayRec u) n) s

/-- Waiting writebacks enter their slices, except those that a replay or adoption takes first; answers that waited for
them are counted (R196). -/
def datEnter (s : State) : State :=
  if ! s.coreUp then s else
  let s := replayPump s
  let s := if s.port.replaying then s
    else (wbWaiting s (fun n => ! s.port.replay.contains n)).foldl (fun u e => wbTry u e.1 e.2) s
  releaseDeferred s

/-! ### Finished memory operations -/

/-- Read data comes into an entry's data buffer (R107, R368): a word that cannot be read gives poison. -/
def dbufFill (s : State) (tid : Nat) (poison : Bool) : State × Bool :=
  let c := tid / 4096
  let base := 8 * (s.trkE tid).dbuf
  let s := (List.range 8).foldl (fun u k => wordWritten u .dbuf c (base + k)) s
  let (s, ok) := (List.range 8).foldl (fun (p : State × Bool) k =>
    let (u, r) := wordRead p.1 .dbuf c (base + k)
    (u, p.2 && r.isSome)) (s, true)
  if ok then (s, poison) else (raiseCluster s c 0x2D c, true)

/-- CMP for a writeback whose memory write is done (R188); one presented again after it was completed gets no second CMP
(R520). -/
def cmpWb (s : State) (p e : Nat) : State :=
  let d := s.datE p e
  if d.cmp then s
  else egPush (s.setDatE p e { d with cmp := true }) (s.agtFp d.hdr.agent.toNat)
    (plainMsg 0x28 d.hdr.agent.toNat d.hdr.pa.toNat d.hdr.tag.toNat)

/-- A sink slot's memory write is done (R112, R188). -/
def sinkDone (s : State) (key id : Nat) : State :=
  let k := s.sinkE key
  if ! k.used ∨ k.op ≠ some id then s else
  let n := key / 16
  let line := k.hdr.pa.toNat
  let s := wakeWays ((cmpWb s k.port k.dat).setSinkE key sink0) n
  let s := reserveLine s n line
  (State.notify s (n / 8) (.retireSink key k.port k.dat line)).addWork .daten

/-- A memory write of an entry is done; a taken writeback is owed its CMP (R188). -/
def trkWrDone (s : State) (tid id : Nat) : State :=
  let t := s.trkE tid
  if ! t.valid ∨ ! t.wrOps.contains id then s else
  let s := s.setTrkE tid { t with
    wrOps := t.wrOps.filter (· ≠ id), ownWr := t.ownWr.filter (· ≠ id), wbOps := t.wbOps.filter (fun e => e.1 ≠ id)
    memOut := memPending { t with wrOps := t.wrOps.filter (· ≠ id) } }
  let s := match t.wbOps.find? (fun e => e.1 = id) with
    | some (_, p, e) => cmpWb s p e
    | none => s
  s.addWork (.trk tid)

/-- A memory operation that all its ports have answered reaches whoever asked for it. -/
def takeMemDone (s : State) (d : MemDone) : State :=
  match d.org with
  | .trkRd tid id =>
    let t := s.trkE tid
    if ! t.valid then s
    else if t.rdOp = some id then
      let (s, p) := dbufFill s tid d.poison
      (setT s tid (fun t => { t with rdOp := none, mdata := some (d.data, p), memOut := memPending { t with rdOp := none } })).addWork (.trk tid)
    else if t.rdDrop.contains id then
      (s.setTrkE tid { t with
        rdDrop := t.rdDrop.filter (· ≠ id), memOut := memPending { t with rdDrop := t.rdDrop.filter (· ≠ id) } }).addWork (.trk tid)
    else s
  | .trkWr tid id => trkWrDone s tid id
  | .sink key id => sinkDone s key id
  | .thread tid id => thrDone s tid id d
  | .lock tid id => lockDone s tid id d
  | .hutchFill c => hutRun (hutFilled s c d bulkData) c
  | .hutchPf c => hutRun (hutPfFilled s c d) c
  | .hutchEv c k => hutRun (hutEvDone s c k) c
  | .bulkRd _ _ => bulkLine s d
  | .bulkWr _ _ => bulkLine s d
  | .disc p =>
    match s.start.run with
    | some r => { s with start := { s.start with run := some { r with disc := r.disc.filter (· ≠ p) } } }
    | none => s
  | .job n =>
    match s.cmd with
    | some c => if c.val = n then { s with cmd := some { c with
        lines := c.lines ++ [d.data], phase := if d.poison then 90 else c.phase } } else s
    | none => s
  | .drop => s

/-! ### Settle -/

/-- One piece of work. -/
def workStep (s : State) (w : Work) : State :=
  match w with
  | .trk tid => resume s tid
  | .done d => takeMemDone s d
  | .arb m => arbRun 64 m s
  | .eg p => egRun s p
  | .daten => datEnter s
  | .fail n => sliceFail s n

/-- Runs the command's work until none is left. -/
def settleN : Nat → State → State
  | 0, s => s
  | fuel + 1, s =>
    match s.work with
    | [] => s
    | w :: l => settleN fuel (workStep { s with work := l } w)

/-- The work of one command. What a fuel of this size leaves stays in `work` and runs with the next command. -/
def settle (s : State) : State := settleN 100000 s

end Sys2Proof.Machine
end

