-- ==== Sys2Proof/Machine/Agents.lean ====
section
/-! DEFINITION. Agents (chapter 08): the binding, release, kill and probe commands, liveness, and reclaim, as the parison
image's programs run them. -/

namespace Sys2Proof.Machine

/-- The parison image's programs run: CORE out of reset and not sleep-ready, the boot program done, and no start before its
step 9 (R307, R447). -/
def progsUp (s : State) : Bool :=
  s.coreUp && s.fld Fld.BOOT_STATUS_CODE == 2 && ! s.sleepReady &&
  (s.start.run.isNone || decide (9 ≤ s.fld Fld.START_STATUS_STEP))

def cmdIs (s : State) (code : Nat) : Option CmdRun :=
  match s.cmd with
  | some c => if c.code = code ∧ progsUp s then some c else none
  | none => none

def cmdArg (c : CmdRun) (k : Nat) : Nat := (c.args.getD k 0).toNat

/-- A reclaim runs (R208, R215): from the DEAD write of an agent until it is RECLAIMED. -/
def reclaiming (s : State) : Bool := s.port.dying.isSome || s.agents.any (fun a => s.agtState a == 4)

/-- An agent's death is queued (R215). -/
def deathQueued (s : State) (a : Nat) : Bool := s.port.deaths.any (fun d => d.1 == a)

/-! ### State changes -/

/-- STATE becomes LIVE: requests held for the agent are presented (R63, R76). -/
def toLive (s : State) (a : Nat) : State :=
  let s := agtWriteState s a 2
  (heldBy s (fun v => v.wait == .binding && v.hdr.agent.toNat == a)).foldl (fun t h =>
    let v := t.holdE h
    if (holdsUsed t).any (fun e => e.2.hdr.agent == v.hdr.agent && e.2.hdr.pa == v.hdr.pa && decide (e.2.seq < v.seq))
    then t.setHoldE h { v with wait := .behind } else presentHold t h) s

/-- A hold slot whose acceptance notice is under way. -/
def accepting (s : State) (h : Nat) : Bool :=
  s.port.notices.any (fun e => e.2.any (fun n => match n with | .accept _ k _ => k == h | _ => false))

/-- Every held request of an agent is refused and its slot freed (R211, R217). -/
def refuseAgent (s : State) (a : Nat) : State :=
  (heldBy s (fun v => v.hdr.agent.toNat == a)).foldl (fun t h =>
    if (t.holdE h).used ∧ ¬ accepting t h then refuseHeld t h else t) s

/-! ### Walks (R211, R220) -/

/-- The messages of a cluster's part of a walk: one for each pointer-set word that names the agent, in rising Drawer and set
order. -/
def walkMsgs (s : State) (typ a op c : Nat) : List (Nat × MntMsg) :=
  ((List.range 8).map (fun k => 8 * c + k)).flatMap (fun d =>
    ((drawerWords s d).filter (fun e => cabOk (encodeCab e.2).toNat && e.2.ptrs.contains a && e.2.grain != 0)).map (fun e =>
      let set := e.1 / 16
      let c := e.2
      let sub := if c.grain = 1 then c.loc % 16 else ((List.range 16).find? (fun i => bit1 c.loc i)).getD 0
      (d, ⟨typ, sectorOfWord set c * 16 + sub, a, op, c.grain == 2, none⟩)))

def pushMnt (s : State) (ms : List (Nat × MntMsg)) : State :=
  ms.foldl (fun t e =>
    let t := t.wdogArm e.1
    t.setSlq e.1 { t.slq e.1 with mntQ := (t.slq e.1).mntQ ++ [e.2] }) s

/-- A walk of every cluster begins: kind 2 for a reclaim, 3 for a release. -/
def walkBegin (s : State) (kind a : Nat) : State :=
  { s with walks := s.walks.filter (fun w => w.kind ≠ kind) ++ (List.range 16).map (fun c => ⟨kind, a, c⟩) }

/-- The clusters whose background bit is set walk their Drawers (R220); the others wait. The words found are counted for the
command at hand (R209). -/
def walkStep (s : State) (kind typ op : Nat) : State :=
  (s.walks.filter (fun w => w.kind = kind ∧ bgOn s w.cluster)).foldl (fun t w =>
    let ms := walkMsgs t typ w.agent op w.cluster
    let t := pushMnt { t with walks := t.walks.filter (· ≠ w) } ms
    if kind = 3 then { t with cmd := t.cmd.map (fun c => { c with val := c.val + ms.length }) } else t) s

/-- Part of a walk for an agent remains: a cluster that has not walked, a message, or an entry. -/
def walkBusy (s : State) (typ a : Nat) : Bool :=
  s.walks.any (fun w => w.kind == (match typ with | 0x3D => 2 | 0x3E => 3 | _ => 0) && w.agent == a) ||
  s.sl.sl.any (fun e => e.2.mntQ.any (fun m => m.typ == typ && m.agent == a && m.msg.isNone)) ||
  s.sl.trk.any (fun e => e.2.valid && e.2.cls == 2 && e.2.typ == typ && e.2.operand == a && e.2.msg.isNone)

/-! ### Reclaim (R215 to R223) -/

def agtDeadRecord (s : State) (a cause : Nat) : State :=
  parReady s (recOf ([(0x40, 0, 8), (a, 8, 16), (cause, 24, 3), (s.agtTenant a, 27, 10), (s.agtFp a, 37, 6)] ++ recTail s.now))

/-- Waiting probes of an agent's confirmation are withdrawn. -/
def dropProbes (s : State) (a : Nat) : State :=
  { s with sl := { s.sl with sl := s.sl.sl.map (fun e => (e.1, { e.2 with
    mntQ := e.2.mntQ.filter (fun m => ! (m.typ == 0x3F && m.agent == a && m.msg.isNone && m.operand == 0)) })) } }

def setConf (s : State) (a : Nat) (c : Option Conf) : State :=
  { s with conf := SMap.set (fun _ => none) s.conf a c }

/-- Step 1 of R217: targets of the agent close as DEAD, and its held requests are refused. The step takes no time here, so its
CLOSING (R234) is over when the command ends. -/
def closeAgent (s : State) (a : Nat) : State :=
  let s := { s with port := { s.port with closing := true } }
  let s := s.port.fan.foldl (fun t e =>
    if e.2.open_.any (fun x => x.agent == a) then
      let f := t.fanE e.1
      countAnswer (t.setFanE e.1 { f with deferred := f.deferred.filter (fun d => d.1 ≠ a) }) e.1 a 0 2
    else t) s
  let s := refuseAgent s a
  { s with port := { s.port with closing := false } }

/-- Steps 1 and 3 of R217: the closing, and the walk begins. -/
def reclaimRun (s : State) (a : Nat) : State :=
  walkStep (walkBegin (closeAgent s a) 2 a) 2 0x3D 1

/-- The DEAD write, and the reclaim it begins (R215, R216), which `reclaimPoll` runs in the same command. -/
def startReclaim (s : State) (a cause : Nat) : State :=
  let s := raisePort (agtDeadRecord s a cause) 0x09 a
  let s := dropProbes (setConf (agtWriteState s a 4) a none) a
  let s := { s with port := { s.port with dying := some (a, cause), evt := SMap.set (fun _ => 0) s.port.evt a 0 } }
  let s := (s.setFld Fld.RECLAIM_STATUS_AGENT a).setFld Fld.RECLAIM_LOST_LOST 0
  flood s 9 [(a, 8, 2), (cause, 10, 1)]

/-- A death is decided (R215): its reclaim begins, or it is queued while another runs. -/
def decideDeath (s : State) (a cause : Nat) : State :=
  let st := s.agtState a
  if ¬ (st = 1 ∨ st = 2 ∨ st = 3) ∨ deathQueued s a then s
  else if reclaiming s ∨ ! progsUp s then
    let s := dropProbes (setConf s a none) a
    let s := if st = 2 then agtWriteState s a 3 else s
    { s with port := { s.port with deaths := s.port.deaths ++ [(a, cause)] } }
  else startReclaim s a cause

/-- Step 4 of R217. -/
def reclaimEnd (s : State) (a : Nat) : State :=
  let s := agtWriteState s a 5
  let s := { s with port := { s.port with dying := none }, walks := s.walks.filter (fun w => w.kind ≠ 2 ∧ w.kind ≠ 12) }
  parReady s (recOf ([(0x42, 0, 8), (a, 8, 16), (s.fld Fld.RECLAIM_LOST_LOST, 24, 32)] ++ recTail s.now))

/-- The reclaim goes on: it begins, or begins again after a start (R221), ends when its walk has, and the next queued death
begins. A walk entry of kind 12 says that it has begun in this start. -/
def reclaimPoll : Nat → State → State
  | 0, s => s
  | fuel + 1, s =>
    if ! progsUp s then s else
    match s.port.dying with
    | some (a, _) =>
      if ¬ s.walks.contains ⟨12, a, 0⟩ then
        let s := reclaimRun s a
        { s with walks := s.walks.filter (fun w => w.kind ≠ 12) ++ [⟨12, a, 0⟩] }
      else
        let s := walkStep s 2 0x3D 1
        if walkBusy s 0x3D a then s else reclaimPoll fuel (reclaimEnd s a)
    | none =>
      if reclaiming s then s else
      match s.port.deaths with
      | [] => s
      | (a, cause) :: l =>
        let s := { s with port := { s.port with deaths := l } }
        let st := s.agtState a
        reclaimPoll fuel (if st = 1 ∨ st = 2 ∨ st = 3 then startReclaim s a cause else s)

/-- A DEAD frame (R216, R497); it stays pending while no program can handle it. -/
def ptDead (s : State) (p : Nat) (h : PtHdr) (f : Flood) (a cause : Nat) : State :=
  let (s, ok) := floodRx s p 9 h f [(a, 8, 2), (cause, 10, 1)]
  if ! ok then s
  else if progsUp s then decideDeath s a 4
  else { s with pt := { s.pt with deadMsgs := s.pt.deadMsgs ++ [a] } }

/-- The pending DEAD messages are handled after the start. -/
def deadPoll (s : State) : State :=
  if ! progsUp s then s else
  s.pt.deadMsgs.foldl (fun t a => decideDeath t a 4) { s with pt := { s.pt with deadMsgs := [] } }

/-! ### Liveness (R213, R214) -/

/-- The probe line of an agent: the first line of the lowest address map entry of its tenant. An entry covers a range in each
16 TiB of the address space: the lowest one that is homed here, DEDUCED (log entry 85). -/
def probeLine (s : State) (a : Nat) : Option Nat :=
  ((amapValid s).find? (fun e => amapTenant s e = s.agtTenant a)).map (fun e =>
    (((List.range 16).find? (fun h => homed s ((h * 16384 + e) * 2 ^ 24))).getD 0 * 16384 + e) * 2 ^ 24)

def linkOf (s : State) (a : Nat) : Bool := (s.fport (s.agtFp a)).link

/-- A BISnp to the agent that expired is still outstanding. -/
def expiredOut (s : State) (a : Nat) : Bool :=
  s.port.fan.any (fun e => e.2.open_.any (fun t => t.agent == a && t.expired))

/-- The next round of a confirmation, or what stands in its place (R214). LINK_GRACE counts from where a round would begin and finds
the link down, also where the link fell within the round before, DESIGN CHOICE (log entry 86). -/
def confNext (s : State) (a : Nat) : State :=
  match SMap.getD (fun _ => none) s.conf a with
  | none => s
  | some c =>
    match probeLine s a with
    | none => decideDeath s a c.cause
    | some line =>
      if ! linkOf s a then
        let g := s.fld Fld.LIVE_CTL_LINK_GRACE
        if g = 0 then decideDeath s a 1
        else setConf s a (some { c with grace := true, deadline := s.now + g * 1000000 })
      else
        pushMnt (setConf s a (some { c with grace := false, answered := false, deadline := 0 }))
          [(sliceOf line, ⟨0x3F, line, a, 0, false, none⟩)]

/-- A confirmation begins with a cause (0 SNPTMO, 1 LINK, 2 HBMISS). -/
def confStart (s : State) (a cause : Nat) : State :=
  confNext (setConf (agtWriteState s a 3) a (some ⟨cause, 0, [], false, 0, false, false, s.now⟩)) a

/-- The liveness program takes pending causes in rising agent ID order; a confirmation that a reset interrupted begins its round
anew, DEDUCED (log entry 87); agents whose entry cannot be read are reclaimed (R213, R368). -/
def livenessPoll (s : State) : State :=
  if ! progsUp s then s else
  let s := s.conf.foldl (fun t e => match e.2 with
    | some c => if c.deadline = 0 ∧ ¬ c.grace ∧ ¬ walkBusy t 0x3F e.1 then confNext t e.1 else t
    | none => t) s
  let pend := s.port.evt
  let s := { s with port := { s.port with evt := [] } }
  let s := pend.foldl (fun t e =>
    if t.agtState e.1 = 2 then confStart t e.1 (if bit1 e.2 0 then 0 else if bit1 e.2 1 then 1 else 2) else t) s
  let s := s.conf.foldl (fun t e => match e.2 with
    | some c => if c.answered ∧ ¬ expiredOut t e.1 then setConf (dropProbes (agtWriteState t e.1 2) e.1) e.1 none else t
    | none => t) s
  (s.fault.sticky.filter (fun e => e.2 ∧ e.1 / 2 ^ 17 = 1)).foldl (fun t e =>
    let (n, t) := t.takeFree
    decideDeath t (e.1 % 2 ^ 17) ((Config.free n).toNat % 8)) s

/-- A probe entry retires with its phase open (R214). -/
def probeGiveUp (s : State) (tid : Nat) : State :=
  let f := s.fanE tid
  let n := tid / 512
  let late := (SMap.getD (fun _ => []) s.port.snpDone n).find? (fun d => d.tid = tid)
  match late with
  | some d =>
    takeDone { s with port := { s.port with
      snpDone := SMap.upd (fun _ => []) s.port.snpDone n (fun l => l.erase d) } } d
  | none =>
    let s := if f.active then s.setFanE tid { f with orphan := true } else s
    let s := { s with port := { s.port with
      snpQ := SMap.upd (fun _ => []) s.port.snpQ (tid / 4096) (fun l => l.filter (fun m => m.tid ≠ tid)) } }
    (setT s tid (fun t => { t with ended := true, snpOut := false, ansCount := 0, finalSent := true })).addWork (.trk tid)

def advanceTo (s : State) (t : Nat) : State := { s with now := max s.now t, lehrNow := max s.lehrNow t }

/-- PROBE_TIMEOUT of an agent's round, or of the round of AGT_PROBE or of a PROBE entry that a thread sent. -/
def probeTimeout (s : State) (a : Nat) (byCmd : Bool) : State :=
  if byCmd then
    match s.sl.trk.find? (fun e => e.2.valid && e.2.typ == 0x3F && e.2.cls == 2 && (e.2.lostBy == 1 || e.2.msg.isSome) &&
        ! e.2.ended && e.2.operand == a) with
    | some (tid, t) => probeGiveUp (advanceTo s t.deadline) tid
    | none => s
  else if ! progsUp s then s else
    match SMap.getD (fun _ => none) s.conf a with
    | none => s
    | some c =>
      if c.grace ∨ c.deadline = 0 then s else
      let s := advanceTo s c.deadline
      let s := match c.tids.getLast? with
        | some tid => if (s.trkE tid).valid ∧ (s.trkE tid).typ = 0x3F ∧ (s.trkE tid).operand = a then probeGiveUp s tid else s
        | none => s
      if c.answered ∧ ¬ expiredOut s a then setConf (agtWriteState s a 2) a none
      else
        let c := { c with failed := c.failed + 1, deadline := 0 }
        let s := setConf s a (some c)
        if max 1 (s.fld Fld.LIVE_CTL_PROBE_N) ≤ c.failed then decideDeath (setConf s a none) a c.cause
        else confNext s a

def linkGraceTimeout (s : State) (a : Nat) : State :=
  match SMap.getD (fun _ => none) s.conf a with
  | some c => if c.grace ∧ progsUp s then decideDeath (setConf (advanceTo s c.deadline) a none) a 1 else s
  | none => s

/-- FPn_LINK_UP rises (R214). -/
def linkUp (s : State) (p : Nat) : State :=
  let s := s.setFport p { s.fport p with link := true }
  if ! s.portUp ∨ ! s.vaux then s else
  s.conf.foldl (fun t e => match e.2 with
    | some c => if c.grace ∧ t.agtFp e.1 = p ∧ progsUp t then confNext t e.1 else t
    | none => t) s

/-- HEARTBEAT_MISS (R84): the first time at which now[41:10] - LAST_HEARD, which wraps, exceeds three periods, or three periods after
the report before. -/
def heartbeatMiss (s : State) (a : Nat) : State :=
  if ! s.portUp ∨ ¬ s.agtBound a ∨ ¬ s.agtHb a then s else
  let p3 := 3 * s.hbPeriod a
  let q := s.now / 1024
  let d := (q + 2 ^ 32 - s.agtHeard a) % 2 ^ 32
  let next := SMap.getD (fun _ => 0) s.port.hbNext a
  let t := max s.now (if next ≠ 0 then next else if p3 < d * 1024 then s.now else (q + (p3 / 1024 + 1 - d)) * 1024)
  let s := setCause (advanceTo s t) a 2
  { s with port := { s.port with hbNext := SMap.set (fun _ => 0) s.port.hbNext a (t + p3) } }

/-! ### Commands (R209 to R211) -/

def legalFrom (s : State) (a : Nat) (l : List Nat) : Bool := l.contains (s.agtState a)

def agtBind (s : State) : State :=
  match cmdIs s 0x10 with
  | none => s
  | some c =>
    if c.phase ≠ 0 then s else
    let a := cmdArg c 0 % 65536
    let w := cmdArg c 1
    if ! legalFrom s a [0, 5] then cmdEnd s 0x20 0
    else if ! s.port.biidSet then cmdEnd s 0x22 0
    else
      let hb := bits w 18 1
      let hbp := bits w 19 2
      let word := 1 + 8 * bits w 16 1 + 16 * bits w 17 1 + 32 * hb + 64 * hbp + 256 * bits w 0 10 +
        2 ^ 18 * bits w 10 6 + 2 ^ 32 * (s.now / 1024 % 2 ^ 32)
      let s := agtWrite s a word
      let s := { s with port := { s.port with
        dfHeard := SMap.set (fun _ => false) s.port.dfHeard a false, hbNext := SMap.set (fun _ => 0) s.port.hbNext a 0 } }
      if hb = 0 then cmdEnd (toLive s a) 0 0
      else { s with cmd := some { c with phase := 1, deadline := s.now + max 1000000 (4 * s.hbPeriod a) } }

/-- The wait for the first DF_HB goes on; a queued death leaves the agent as it is (R215). A command whose agent dies under it ends with
BAD_STATE, DESIGN CHOICE (log entry 88). -/
def bindPoll (s : State) : State :=
  match cmdIs s 0x10 with
  | some c =>
    let a := cmdArg c 0 % 65536
    if c.phase ≠ 1 ∨ deathQueued s a then s
    else if s.agtState a ≠ 1 then cmdEnd s 0x20 0
    else if SMap.getD (fun _ => false) s.port.dfHeard a then cmdEnd (toLive s a) 0 0
    else s
  | none => s

def bindHbTimeout (s : State) : State :=
  match cmdIs s 0x10 with
  | some c =>
    let a := cmdArg c 0 % 65536
    if c.phase ≠ 1 ∨ s.agtState a ≠ 1 ∨ deathQueued s a then s else
    let s := advanceTo s c.deadline
    let w := s.agtW a
    let w := w - 8 * bits w 3 1 - 16 * bits w 4 1 - 32 * bits w 5 1
    cmdEnd (toLive (agtWrite s a w) a) 0x23 0
  | none => s

/-- Step 4 of R211. -/
def unbind (s : State) (a : Nat) : State := refuseAgent (agtWriteState s a 0) a

def agtRelease (s : State) : State :=
  match cmdIs s 0x11 with
  | none => s
  | some c =>
    if c.phase ≠ 0 then s else
    let a := cmdArg c 0 % 65536
    if s.agtState a = 5 then cmdEnd (unbind s a) 0 0
    else if s.agtState a ≠ 2 then cmdEnd s 0x20 0
    else
      let s := agtWriteState s a 1
      { s with cmd := some { c with phase := 1, deadline := s.now + max 1 (s.fld Fld.LIVE_CTL_RELEASE_TMO) * 1000000 } }

/-- AGT_RELEASE goes on: records gone, then the walk, then UNBOUND. A queued death stops it; a command whose agent dies under it ends
with BAD_STATE, DESIGN CHOICE (log entry 88). -/
def releasePoll (s : State) : State :=
  match cmdIs s 0x11 with
  | none => s
  | some c =>
    let a := cmdArg c 0 % 65536
    if c.phase = 0 ∨ deathQueued s a then s
    else if s.agtState a ≠ 1 then cmdEnd { s with walks := s.walks.filter (fun w => w.kind ≠ 3) } 0x20 0
    else
      let s := if c.phase ≠ 1 then walkStep s 3 0x3E 0
        else if s.port.recs.any (fun e => e.2.valid && e.2.hdr.agent.toNat == a) then s
        else walkStep (walkBegin { s with cmd := some { c with phase := 2, val := 0 } } 3 a) 3 0x3E 0
      match s.cmd with
      | some c => if c.phase = 2 ∧ ¬ walkBusy s 0x3E a then cmdEnd (unbind s a) 0 c.val else s
      | none => s

def releaseWaitTimeout (s : State) : State :=
  match cmdIs s 0x11 with
  | some c =>
    let a := cmdArg c 0 % 65536
    if c.phase = 1 ∧ s.agtState a = 1 ∧ ¬ deathQueued s a then cmdEnd (toLive (advanceTo s c.deadline) a) 0x24 0 else s
  | none => s

def agtKill (s : State) : State :=
  match cmdIs s 0x12 with
  | some c =>
    let a := cmdArg c 0 % 65536
    if ! legalFrom s a [1, 2, 3] then cmdEnd s 0x20 0 else cmdEnd (decideDeath s a 3) 0 0
  | none => s

/-- AGT_PROBE (R209, R214): one round. With the agent's link down, or no entry of its tenant, no round can be sent and VALUE is 0 at
once, DESIGN CHOICE (log entry 89). Its answer does not make a SUSPECT agent LIVE, DEDUCED (log entry 89): the agent's own
confirmation decides that. -/
def agtProbe (s : State) : State :=
  match cmdIs s 0x13 with
  | none => s
  | some c =>
    if c.phase ≠ 0 then s else
    let a := cmdArg c 0 % 65536
    if ! legalFrom s a [2, 3] then cmdEnd s 0x20 0
    else match probeLine s a with
      | none => cmdEnd s 0 0
      | some line =>
        if ! linkOf s a then cmdEnd s 0 0
        else { pushMnt s [(sliceOf line, ⟨0x3F, line, a, 1, false, none⟩)] with cmd := some { c with phase := 1 } }

/-- AGT_PROBE ends with its round; a SUSPECT agent stays SUSPECT, DEDUCED (log entry 89). -/
def probePoll (s : State) : State :=
  match cmdIs s 0x13 with
  | some c => if c.phase = 2 then cmdEnd s 0 c.val else s
  | none => s

/-- What the agent programs do at the end of a command. -/
def agentPoll (s : State) : State := reclaimPoll 64 (livenessPoll (deadPoll (probePoll (releasePoll (bindPoll s)))))

end Sys2Proof.Machine
end

