-- ==== Sys2Proof/Machine/Census.lean ====
section
/-! DEFINITION. The census of blind sets and of adopted windows (R159, R224 to R228), as the parison image's program on
thread 1 of each steward runs it: which sector comes next, and the CENSUS messages it sends. -/

namespace Sys2Proof.Machine

/-- What a cluster's census can rebuild: a set of a Drawer, with whether its REBUILD has begun and its order. -/
structure CensusSet where
  drawer : Nat
  set : Nat
  cursor : Option Nat
  seq : Nat
  deriving DecidableEq, Repr

/-- The sets of a cluster that a census has still to rebuild, except those whose answers stayed contradictory. -/
def censusSets (s : State) (c : Nat) : List CensusSet :=
  let all := (List.range 8).flatMap (fun k =>
    let d := 8 * c + k
    let q := s.drq d
    if q.blindAll then
      let (set, cur) := q.walk.getD (0, none)
      [⟨d, set, cur, q.blindSeq⟩]
    else (q.blind.filter (fun e => e.2.state ≠ 0)).map (fun e =>
      ⟨d, e.2.set, if e.2.state = 2 then some e.2.cursor else none, e.2.seq⟩))
  all.filter (fun x => x.cursor.isNone || ! s.walks.contains ⟨8, x.set, x.drawer⟩)

/-- The set a cluster rebuilds: the one in REBUILD, else the one that became BLIND first (R224). -/
def censusPick (l : List CensusSet) : Option CensusSet :=
  match l.find? (fun x => x.cursor.isSome) with
  | some x => some x
  | none => l.foldl (fun b x => match b with
    | none => some x
    | some y => if x.seq < y.seq then some x else some y) none

/-- The ranges of 1 GiB, by PA[47:30], that this instance homes, in rising order: an address map entry covers one in each 16 TiB. -/
def homedBlocks (s : State) : List Nat :=
  (List.range 16).flatMap (fun h => ((amapValid s).map (fun e => h * 16384 + e)).filter (fun b => homed s (b * 2 ^ 24)))

/-- The next TAG at or above CURSOR whose sector this instance homes and that folds to the Drawer. -/
def nextTag (s : State) (d set cur : Nat) : Option Nat :=
  (homedBlocks s).findSome? (fun e =>
    if (e + 1) * 256 ≤ cur then none else
    ((List.range 256).map (fun k => e * 256 + k)).find? (fun t =>
      let line := (t * 4096 + set) * 16
      decide (cur ≤ t) && sliceOf line == d && homed s line))

/-- Step 1 of R159: the page is rewritten afresh, or the set emptied. -/
def censusBegin (s : State) (x : CensusSet) : State :=
  if (s.drq x.drawer).blindAll ∧ x.set % 2 = 1 then
    (List.range 16).foldl (fun u k => drawerPut u x.drawer (x.set * 16 + k) 0) s
  else (dputPage s ⟨x.drawer, x.set, 0⟩).1

/-- Sets STATE and CURSOR of a set: REBUILD at a cursor, or FREE (R159, steps 2 and 4). -/
def censusState (s : State) (x : CensusSet) (cur : Option Nat) : State :=
  let q := s.drq x.drawer
  let q := { q with blind := q.blind.filterMap (fun (e : Nat × Blind) =>
    if e.2.set ≠ x.set ∨ e.2.state = 0 then some e
    else match cur with
      | some c => some (e.1, { e.2 with state := 2, cursor := c })
      | none => none) }
  if q.blindAll then
    match cur with
    | some c => s.setDrq x.drawer { q with walk := some (x.set, some c) }
    | none =>
      if x.set < 4095 then s.setDrq x.drawer { q with walk := some (x.set + 1, none) }
      else s.setDrq x.drawer { q with blindAll := false, walk := none, blind := [], blindSeq := 0 }
  else s.setDrq x.drawer q

/-- The CENSUS message of a sector (R224). -/
def pushCensus (s : State) (sec kind who : Nat) : State :=
  let s := { s with walks := s.walks ++ [⟨kind, sec, who⟩] }
  pushMnt s [(sliceOf (sec * 16), ⟨0x3D, sec * 16, 0, 0, true, none⟩)]

/-- A cluster's census has a message or an entry outstanding. -/
def censusBusy (s : State) (c : Nat) : Bool := s.walks.any (fun w => w.kind == 10 && w.cluster / 8 == c)

/-- A cluster's census goes on: the next sector of its set, the end of the set, or the next set. -/
def censusCluster : Nat → State → Nat → State
  | 0, s, _ => s
  | fuel + 1, s, c =>
    if censusBusy s c ∨ ! bgOn s c then s else
    match censusPick (censusSets s c) with
    | none => s
    | some x =>
      match x.cursor with
      | none =>
        let s := { s with walks := s.walks.filter (fun w => w ≠ ⟨8, x.set, x.drawer⟩) }
        censusCluster fuel (censusState (censusBegin s x) x (some 0)) c
      | some cur =>
        match nextTag s x.drawer x.set cur with
        | some t => pushCensus s (t * 4096 + x.set) 10 x.drawer
        | none => censusCluster fuel (censusState s x none) c

/-- The next sector of an adopted window at or above `cur` that an address map entry covers and that folds to a slice of cluster
`c`. The fold runs through all slices within 128 sectors (R135). -/
def nextSector (s : State) (w c cur : Nat) : Option Nat :=
  ((amapValid s).filter (fun e => e / 64 = w % 256)).findSome? (fun e =>
    let lo := e % 64 * 2 ^ 20
    if lo + 2 ^ 20 ≤ cur then none else
    ((List.range 128).map (fun k => max lo cur + k)).find? (fun k =>
      decide (k < lo + 2 ^ 20) && clusterOf (sliceOf ((w * 2 ^ 26 + k) * 16)) == c))

/-- How far cluster `c` has come in the census of adoption entry `i`: a walk of kind 11, else CURSOR. -/
def windowPtr (s : State) (i c : Nat) : Nat :=
  match s.walks.find? (fun w => w.kind == 11 && w.cluster == 16 * i + c) with
  | some w => w.agent
  | none => s.fld Fld.ADOPT_WIN_B_CURSOR i

/-- Cluster `c` takes its next sector of window `w`, unless a sector of it is outstanding (kind 7) or stays unknown (kind 9). -/
def windowStep (s : State) (i w c : Nat) : State :=
  if ! bgOn s c ∨ s.walks.any (fun x => (x.kind == 7 || x.kind == 9) && x.cluster == i && clusterOf (sliceOf (x.agent * 16)) == c)
  then s else
  match nextSector s w c (windowPtr s i c) with
  | some k =>
    let s := { s with walks := s.walks.filter (fun x => ¬ (x.kind = 11 ∧ x.cluster = 16 * i + c)) ++ [⟨11, k + 1, 16 * i + c⟩] }
    pushCensus s (w * 2 ^ 26 + k) 7 i
  | none => s

/-- The census of an adopted window goes on in every cluster (R228). CURSOR is the lowest sector whose CENSUS has not retired; with
none left the entry is FREE. -/
def censusWindow (s : State) (i : Nat) : State :=
  let st := s.fld Fld.ADOPT_WIN_A_STATE i
  if st = 0 then s else
  let s := if st = 1 then (s.setFld Fld.ADOPT_WIN_A_STATE 2 i).setFld Fld.ADOPT_WIN_B_CURSOR 0 i else s
  let w := s.fld Fld.ADOPT_WIN_A_WINDOW i
  let s := (List.range 16).foldl (fun u c => windowStep u i w c) s
  let out := (s.walks.filter (fun x => (x.kind == 7 || x.kind == 9) && x.cluster == i)).map (fun x => x.agent % 2 ^ 26)
  let next := (List.range 16).filterMap (fun c => nextSector s w c (windowPtr s i c))
  match (out ++ next).min? with
  | some k => s.setFld Fld.ADOPT_WIN_B_CURSOR k i
  | none => { (s.setFld Fld.ADOPT_WIN_A_STATE 0 i).setFld Fld.ADOPT_WIN_B_CURSOR 0 i with
      walks := s.walks.filter (fun x => ¬ (x.kind = 11 ∧ x.cluster / 16 = i)) }

/-- The censuses go on, unless a reclaim holds thread 1 (R224). At a cold start no set is blind. -/
def censusPoll (s : State) : State :=
  if ! progsUp s ∨ ! slicesRun s ∨ s.port.dying.isSome then s else
  let blind := s.cab.dr.filter (fun e => e.2.blindAll || ! e.2.blind.isEmpty)
  let cs := (blind.map (fun e => e.1 / 8)).dedup
  let s := cs.foldl (censusCluster 8) s
  (List.range 4).foldl censusWindow s

end Sys2Proof.Machine
end

