-- ==== Sys2Proof/Machine/Integrity.lean ====
section
/-! DEFINITION. What the Drawers and store classes do by themselves to keep their words (chapter 13): write-backs, Cullet
copies, retirements, the scrubber and its laps, leaks of the buckets, expiry of repeat entries, the age walker's visits. -/

namespace Sys2Proof.Machine

/-- CORRECTION_WRITEBACK (R375): the oldest queued word of a Drawer is written back repaired. -/
def correctionWriteback (s : State) (d : Nat) : State :=
  if ! s.coreUp then s else
  let q := s.drq d
  match q.wbq with
  | [] => s
  | w :: l =>
    let s := s.setDrq d { q with wbq := l }
    let (st, k) := placeOf s d w
    match wordLook s st d k with
    | some (dev, _) => drawerPut s d w (BitVec.ofNat 120 (drawerW s d w ^^^ dev))
    | none => s

/-- The repair record follows a Drawer's Cullet entry (R379). -/
def recordCullet (s : State) (d k w : Nat) : State :=
  lehrWrote { s with repair := { s.repair with cullet := SMap.set (fun _ => 0) s.repair.cullet (d * 8 + k) (w + 1) } } [repCullet d k]

/-- The repair record follows a Drawer's retired ways (R379). -/
def recordRetired (s : State) (d : Nat) : State :=
  lehrWrote { s with repair := { s.repair with retired := SMap.set (fun _ => []) s.repair.retired d (s.drq d).retired } } [repRetired d]

/-- A Cullet entry becomes valid: the spare takes the word's value, and the repair record follows (R378, R379). -/
def culletTake (s : State) (d k w v : Nat) : State :=
  let s := (s.setFld Fld.CULLET_WORD w d k).setFld Fld.CULLET_VALID 1 d k
  recordCullet (drawerPut s d w (BitVec.ofNat 120 v)) d k w

/-- CULLET_COPY (R378). -/
def culletCopy (s : State) (d : Nat) : State :=
  if ! s.coreUp then s else
  let q := s.drq d
  match q.hard, (List.range 8).find? (fun k => s.fld Fld.CULLET_VALID d k = 0) with
  | w :: l, some k =>
    let s := s.setDrq d { q with hard := l }
    match wordLook s .drawer d w with
    | some (dev, _) => culletTake s d k w (drawerW s d w ^^^ dev)
    | none => lostPage s d (w / 32)
  | _, _ => s

/-- A directory eviction of a way waits or runs. -/
def evicting (s : State) (d set way : Nat) : Bool :=
  (s.slq d).evQ.any (fun e => e.set == set && e.way == way) ||
  (trkOfSlice s d).any (fun e => e.2.cls == 1 && e.2.way == some way && setOf e.2.pa == set)

/-- A non-empty way that is to be retired is evicted (R378). -/
def retireEvict (s : State) (d : Nat) : State :=
  (s.drq d).retiring.foldl (fun t w =>
    if (decodeCab (drawerW t d w)).grain = 0 ∨ evicting t d (w / 16) (w % 16) then t
    else queueEv t d ⟨w / 16, w % 16, none, none⟩) s

/-- WAY_RETIRE (R378): the lowest emptied way is written zero and marked retired in one step. -/
def wayRetire (s : State) (d : Nat) : State :=
  if ! s.coreUp then s else
  let q := s.drq d
  match q.retiring.find? (fun w => (decodeCab (drawerW s d w)).grain = 0) with
  | none => s
  | some w =>
    let s := drawerPut s d w 0
    let q := s.drq d
    let s := s.setDrq d { q with retiring := q.retiring.filter (· ≠ w), retired := insertSorted w q.retired }
    let s := recordRetired (raiseDrawer (s.setFld Fld.SI_ERR_RETIRE 1 d) d 0x2B) d
    -- a set with no way left is blind with cause FORMAT (R153, R157)
    if setDead s d (w / 16) then makeBlind s d (w / 16) 1 else s

/-- SCRUB_SLOW, at most once a lap (R381). -/
def scrubSlow (s : State) (d : Nat) : State :=
  if (s.drq d).scrubSlow then s
  else
    let s := raiseDrawer (s.setFld Fld.SI_ERR_SLOW 1 d) d 0x2C
    s.setDrq d { s.drq d with scrubSlow := true }

/-- SCRUB_VISIT (R380, R381): the next page, and at the last one the end of the lap. -/
def scrubVisit (s : State) (d : Nat) : State :=
  if ! s.coreUp ∨ s.sleepReady ∨ s.fld Fld.SCRUB_CTL_EN d = 0 ∨ ! bgOn s (d / 8) then s else
  let q := s.drq d
  let page := q.scrubPage
  let s := if q.scrubRun then s else s.setDrq d { q with scrubRun := true, scrubStart := s.now, scrubSlow := false }
  let s := scrubPageVisit s d page
  let q := s.drq d
  if page < 2047 then s.setDrq d { q with scrubPage := page + 1 }
  else
    let us := (s.now - q.scrubStart) / 1000
    let max := s.fld Fld.SCRUB_LAP_MAX_MAX d
    let s := s.setFld Fld.SCRUB_LAP_LAP (min us (2 ^ 32 - 1)) d
    let s := if max ≠ 0 ∧ max < us then scrubSlow s d else s
    s.setDrq d { s.drq d with scrubPage := 0, scrubRun := false, scrubSlow := false }

/-- SCRUB_LAP_TIMEOUT (R381): the lap in progress passes SCRUB_LAP_MAX. -/
def scrubLapTimeout (s : State) (d : Nat) : State :=
  let q := s.drq d
  let max := s.fld Fld.SCRUB_LAP_MAX_MAX d
  if ! s.coreUp ∨ ! q.scrubRun ∨ max = 0 ∨ q.scrubSlow then s
  else scrubSlow (advanceTo s (q.scrubStart + max * 1000 + 1)) d

/-- BUCKET_LEAK (R376) of the class whose overflow is interrupt source `src` (R441): 64 to 191 Drawers, 192 to 319 cluster
classes, 320 to 325 die classes. -/
def leakOf (s : State) (src : Nat) : State :=
  if src < 64 then s
  else if src < 192 then (if s.coreUp then bucketLeak s Fld.SI_BUCKET_LEVEL Fld.SI_BUCKET_LEAK (src - 64) 0 else s)
  else if src < 320 then
    let c := (src - 192) / 8
    let x := (src - 192) % 8
    if s.coreUp ∧ x < 5 then bucketLeak s Fld.CL_BKT_LEVEL Fld.CL_BKT_LEAK c x else s
  else if src < 324 then (if s.portUp then bucketLeak s Fld.DIE_BKT_P_LEVEL Fld.DIE_BKT_P_LEAK (src - 320) 0 else s)
  else if src = 324 then (if s.coreUp then bucketLeak s Fld.DIE_BKT_NQ_LEVEL Fld.DIE_BKT_NQ_LEAK 0 0 else s)
  else if src = 325 then (if s.vaux then bucketLeak s Fld.DIE_BKT_L_LEVEL Fld.DIE_BKT_L_LEAK 0 0 else s)
  else s

/-- REPEAT_ENTRY_EXPIRY (R377): the oldest entry of a Drawer's repeat tracker expires. -/
def repeatExpiry (s : State) (d : Nat) : State :=
  if ! s.coreUp then s else
  let q := s.drq d
  match q.rpt.foldl (fun (b : Option Rpt) r => match b with
      | none => some r
      | some x => if r.time + r.win < x.time + x.win then some r else some x) none with
  | none => s
  | some r =>
    let s := advanceTo s (r.time + r.win)
    s.setDrq d { s.drq d with rpt := q.rpt.filter (fun x => x.word ≠ r.word) }

/-- AGE_WALKER_VISIT (R154). -/
def ageWalk (s : State) (d : Nat) : State :=
  if ! s.coreUp ∨ s.sleepReady ∨ s.fld Fld.CAB_AGE_EN d = 0 ∨ ! bgOn s (d / 8) then s else ageVisit s d

end Sys2Proof.Machine
end

