-- ==== Sys2Proof/Machine/Modes.lean ====
section
/-! DEFINITION. Modes and their sweeps (R28 to R35, R178 to R183, R349), sleep and wake (R470 to R474), and what a reset of
CORE and of PORT clears (R23, R25, R160, R385, R515). -/

namespace Sys2Proof.Machine

/-! ### Sweeps -/

/-- A walk of a mode's sweep: 1 O-settle, 4 flush, 5 quiesce, 6 drain. -/
def isSweep (w : Walk) : Bool := w.kind == 1 || w.kind == 4 || w.kind == 5 || w.kind == 6
def sweepOn (s : State) : Bool := s.walks.any isSweep

/-- MODE.BUSY (R31, R472): a sweep runs, or the instance is between its sweep for LEHR and the commit. -/
def modeBusy (s : State) : Bool := sweepOn s || s.fld Fld.SLEEP_STATUS_STATE == 1

/-- A running sweep stops (R34, R182): SETTLE messages not yet issued and the settle queues are dropped; entries go on. -/
def stopSweep (s : State) : State :=
  { s with
    walks := s.walks.filter (fun w => ! isSweep w)
    sl := { s.sl with
      sl := s.sl.sl.filterMap (fun (e : Nat × SliceQ) =>
        let q := { e.2 with settleQ := [], mntQ := e.2.mntQ.filter (fun m => ! (m.typ == 0x3C && m.msg.isNone)) }
        if q = sliceQ0 then none else some (e.1, q))
      trk := s.sl.trk.map (fun e => (e.1, { e.2 with pre := false })) } }

/-- A transition with a sweep begins (R185): KIND 1 O_SETTLE, 2 FLUSH, 3 QUIESCE, 4 DRAIN. -/
def startSweep (s : State) (kind : Nat) (ws : List Walk) : State :=
  let s := ((s.setFld Fld.SWEEP_STATUS_KIND kind).setFld Fld.SWEEP_STATUS_DRAWERS 0).setFld Fld.SWEEP_STATUS_SETTLED 0
  { s with walks := s.walks ++ ws }

/-- MODE.CUR changes (R31); in LEHR the governor's slot counter stops and a wake resumes at slot 0 (R470). -/
def setMode (s : State) (m : Nat) (forced : Bool) : State :=
  let s := ((s.setFld Fld.MODE_PREV s.mode).setFld Fld.MODE_CUR m).setFld Fld.MODE_FORCED (b2n forced)
  if m = 1 then { s with govSlot := 64 } else s

/-- A requested transition that a forced one replaces is PREEMPTED (R34; for one already accepted DEDUCED, log entry 100). -/
def preempt (s : State) : State := if s.fld Fld.MODE_REQ_STATUS = 1 then s.setFld Fld.MODE_REQ_STATUS 4 else s

/-- A forced transition (R34). -/
def forceMode (s : State) (m : Nat) : State := setMode (preempt (stopSweep s)) m true

/-- The requested transition is complete (R33). -/
def reqDone (s : State) : State := if s.fld Fld.MODE_REQ_STATUS = 1 then s.setFld Fld.MODE_REQ_STATUS 5 else s

def settleMsg (line : Nat) : MntMsg := ⟨0x3C, line, 0, 0, false, none⟩

/-- O-settle begins (R178): busy entries become pre-transition, and each cluster's walk of its 8 Drawers starts. -/
def startOSettle (s : State) : State :=
  let s := { s with sl := { s.sl with trk := s.sl.trk.map (fun e => (e.1, { e.2 with pre := e.2.valid })) } }
  startSweep s 1 ((List.range 16).map (fun c => ⟨1, 0, c⟩))

/-- The SETTLE messages of one cluster's walk: one for every O word, in rising Drawer and set order (R178). -/
def settleMsgs (s : State) (c : Nat) : List (Nat × MntMsg) :=
  ((List.range 8).map (fun k => 8 * c + k)).flatMap (fun d =>
    ((drawerWords s d).filter (fun e => e.2.state = 4 ∧ e.2.grain = 1)).map (fun e => (d, settleMsg (lineOfFine (e.1 / 16) e.2))))

/-- The walks of O-settle go on in the clusters whose background bit the governor sets (R178): a walk that has ended is marked 1. -/
def settleWalk (s : State) : State :=
  (s.walks.filter (fun w => w.kind = 1 ∧ w.agent = 0 ∧ bgOn s w.cluster)).foldl (fun t w =>
    let t := pushMnt t (settleMsgs t w.cluster)
    { t with walks := t.walks.map (fun x => if x = w then { w with agent := 1 } else x) }.setFld Fld.SWEEP_STATUS_DRAWERS
      (min 128 (t.fld Fld.SWEEP_STATUS_DRAWERS + 8))) s

/-- Lines pushed into a settle queue become SETTLE messages once the walk of the slice's cluster has ended (R178, R181). -/
def drainSettle (s : State) : State :=
  s.sl.sl.foldl (fun t e =>
    if e.2.settleQ.isEmpty ∨ ¬ t.walks.contains ⟨1, 1, e.1 / 8⟩ then t
    else pushMnt (t.setSlq e.1 { t.slq e.1 with settleQ := [] }) (e.2.settleQ.map (fun l => (e.1, settleMsg l)))) s

/-- The conditions of R182: every Drawer walked, every settle queue empty, every pre-transition and every SETTLE entry retired. -/
def oSettled (s : State) : Bool :=
  s.walks.all (fun w => ! (w.kind == 1 && w.agent == 0)) &&
  s.sl.sl.all (fun e => e.2.settleQ.isEmpty && ! e.2.mntQ.any (fun m => m.typ == 0x3C && m.msg.isNone)) &&
  s.sl.trk.all (fun e => ! (e.2.valid && (e.2.pre || (e.2.cls == 2 && e.2.typ == 0x3C))))

/-- No tracker entry holds a drained line (R30). -/
def drainDone (s : State) : Bool := s.sl.trk.all (fun e => ! (e.2.valid && shDrained s e.2.pa))

/-- Everything delivered has completed (R30): no record VALID, no hold slot in use, sinks free, port pools and tracker
empty. -/
def allQuiet (s : State) : Bool :=
  s.port.recs.all (fun e => ! e.2.valid) && s.port.hold.all (fun e => ! e.2.used) && s.sl.sinks.all (fun e => ! e.2.used) &&
  s.port.fp.all (fun e => e.2.reqQ.isEmpty) && s.port.dat.all (fun e => e.2.user == .free) &&
  s.sl.trk.all (fun e => ! e.2.valid) && s.sl.sl.all (fun e => e.2.evQ.isEmpty)

/-- The flush drops the Cabinet (R30, R160): every recorded word is evicted. -/
def flushWords (s : State) : State :=
  (List.range 128).foldl (fun t d =>
    ((drawerWords t d).filter (fun e => e.2.grain ≠ 0)).foldl (fun u e =>
      if cabOk (encodeCab e.2).toNat then queueEv u d ⟨e.1 / 16, e.1 % 16, none, none⟩
      else drawerPut u d e.1 0) t) s

/-- A wake entry: a free value, within the local memory and not 0 (R508). -/
def wakeEntry (n : Nat) : BitVec 64 := BitVec.ofNat 64 (4 * ((Config.free n).toNat % 16383 + 1))

/-- The dirty lines of a cluster's Hutch are written to memory (R329), one that cannot be read as poison (R319). -/
def hutClean (s : State) (c : Nat) (h : Hutch) : State :=
  (h.ent.filter (fun e => e.2.valid && e.2.dirty)).foldl (fun u e =>
    let (u, d, p) := hutOut u c e.1
    (issueMem u (if p then 3 else 1) .drop e.2.line d 0 false c).1) s

/-- The last word of a thread's local memory, which holds the wake entry (R508). -/
def wakeWord : Nat := 8191

def dropHutches (s : State) : State := { s with hutch := [] }
def dropThreads (s : State) : State := { s with stw := { s.stw with thr := [] } }

/-- The last part of the sweep for LEHR (R281, R329, R472): the Hutches write back and invalidate themselves, the threads
stop. With retention the boot program has written its wake entry (R508): a word address of the local memory of thread 0,
whose value the spec does not give. -/
def stopThreads (s : State) : State :=
  let s := dropHutches (s.hutch.foldl (fun t c => hutClean t c.1 c.2) s)
  let s := dropThreads ((List.range 64).foldl (fun t k => endLocks (closeSeq t k) k) s)
  if s.fld Fld.MODE_RETAINED = 1 ∧ s.fld Fld.BOOT_STATUS_CODE = 2 then
    lwrite s.takeFree.2 0 wakeWord (wakeEntry s.takeFree.1)
  else s

/-- One sweep goes on. The walks for LEHR have three parts: 0 everything delivered completes, 1 the flush's evictions, 2
the Hutches' writes; then CORE signals sleep-ready. What is delivered before that signal is completed first (R30), and a flush
begins again for it. -/
def sweepStep (s : State) (w : Walk) : State :=
  let drop := fun (s : State) => { s with walks := s.walks.filter (· ≠ w) }
  let part := fun (s : State) (n : Nat) => { s with walks := s.walks.map (fun x => if x = w then { w with agent := n } else x) }
  match w.kind with
  | 1 => if oSettled s then reqDone { s with walks := s.walks.filter (fun x => x.kind ≠ 1) } else s
  | 6 => if drainDone s then reqDone (drop s) else s
  | 4 | 5 =>
    if w.agent = 0 then
      if ! allQuiet s then s
      else if w.kind = 4 then (part (flushWords s) 1).setFld Fld.SWEEP_STATUS_DRAWERS 128
      else stopThreads (part s 2)
    else if w.agent = 1 then (if allQuiet s then stopThreads (part s 2) else s)
    else if ! s.mem.ops.isEmpty then s
    else if ! allQuiet s then (if w.kind = 4 then part s 0 else s)
    else if s.stw.thr.isEmpty ∧ s.hutch.isEmpty then { drop s with sleepReady := true } else stopThreads s
  | _ => s

/-- Sweeps go on (R182); a sweep for LEHR passes through its parts. -/
def sweepPoll (s : State) : State :=
  let s := drainSettle (settleWalk s)
  let s := (s.walks.filter isSweep).foldl sweepStep s
  let s := (s.walks.filter isSweep).foldl sweepStep s
  (s.walks.filter isSweep).foldl sweepStep s

/-- The drain set is empty (R349): no entry that counts has DRAIN = 1. -/
def drainSetEmpty (s : State) : Bool :=
  (amapValid s).all (fun e => ! amapDrain s e) &&
  (SMap.slice s.regs 0x0C0000 (4 * 4096)).all (fun e =>
    let w := e.2.toNat
    ! (bit1 w 18 && bits w 0 8 == s.instId && bit1 w 17))

/-- DRAIN returns to SERVICE when its drain set empties (R30, R349). -/
def drainPoll (s : State) : State := if s.mode = 5 ∧ drainSetEmpty s then forceMode s 4 else s

/-! ### MODE_REQ (R33) -/

/-- A transition that R30 lists as caused by MODE_REQ. -/
def reqLegal (cur to_ : Nat) : Bool :=
  (cur == 4 && (to_ == 5 || to_ == 6 || to_ == 7 || to_ == 1)) || (cur == 5 && (to_ == 4 || to_ == 6)) ||
  (cur == 6 && to_ == 4) || (cur == 7 && to_ == 4)

/-- A requested transition begins (R30). -/
def reqBegin (s : State) (m : Nat) (retain : Bool) : State :=
  let cur := s.mode
  let s := setMode (s.setFld Fld.MODE_REQ_STATUS 1) m false
  if m = 5 then startSweep s 4 [⟨6, 0, 0⟩]
  else if m = 4 ∧ cur ≠ 5 then startOSettle s
  else if m = 1 then
    let s := (s.setFld Fld.MODE_RETAINED (b2n retain)).setFld Fld.SLEEP_STATUS_STATE 1
    let s := { s with lehr := { s.lehr with fired := 0 } }
    if retain then startSweep s 3 [⟨5, 0, 0⟩] else startSweep s 2 [⟨4, 0, 0⟩]
  else reqDone s

/-- A write of MODE_REQ in the LCLK of a forced transition, which has been taken: the request is refused (R34). -/
def modeReqSame (s : State) (v : Nat) : State :=
  if ! s.vaux ∨ s.fld Fld.START_STATUS_EXHAUSTED = 1 then s else
  ((s.setFld Fld.MODE_REQ_REQ (bits v 0 3)).setFld Fld.MODE_REQ_RETAIN (bits v 3 1)).setFld Fld.MODE_REQ_STATUS 4

/-- A write of MODE_REQ (R33), ignored while the start attempts are exhausted (R512). -/
def modeReqWrite (s : State) (v : Nat) : State :=
  if s.fld Fld.START_STATUS_EXHAUSTED = 1 then s else
  let m := bits v 0 3
  let s := (s.setFld Fld.MODE_REQ_REQ m).setFld Fld.MODE_REQ_RETAIN (bits v 3 1)
  if ! reqLegal s.mode m then s.setFld Fld.MODE_REQ_STATUS 2
  else if modeBusy s then s.setFld Fld.MODE_REQ_STATUS 3
  else reqBegin s m (bit1 v 3)

/-! ### Sleep and wake (R471 to R474) -/

/-- A SLEEP record (R479): EVENT 0 asleep with retention, 1 without, 2 awake, 3 abandoned. -/
def sleepRecord (s : State) (ev src : Nat) : State := lehrRec s [(0x51, 0, 8), (ev, 8, 3), (src, 11, 7)]

/-- Whether a wake source can fire (R471): enabled, FABRIC only with retention, none while exhausted (R512). -/
def wakeEnabled (s : State) (k : Nat) : Bool :=
  s.vaux && s.fld Fld.START_STATUS_EXHAUSTED == 0 &&
  (match k with
   | 0 => bit1 (s.fld Fld.SLEEP_CTL_EN_LO) 0 && s.fld Fld.MODE_RETAINED == 1
   | 1 => bit1 (s.fld Fld.SLEEP_CTL_EN_LO) 1
   | 2 => true
   | 3 | 4 | 5 | 6 => bit1 (s.fld Fld.SLEEP_CTL_EN_HI) (k - 3)
   | _ => false)

/-- Wake sources fire in one LCLK (R473, R474): SRC records all of them. -/
def wakeFires (s : State) (ks : List Nat) : State :=
  let l := ks.filter (wakeEnabled s)
  let m := (List.range 7).foldl (fun a k => if l.contains k then a + 2 ^ k else a) 0
  if m = 0 then s else
  match s.fld Fld.SLEEP_STATUS_STATE with
  | 1 => { s with lehr := { s.lehr with fired := s.lehr.fired ||| m } }
  | 2 => sleepRecord ((s.setFld Fld.SLEEP_STATUS_STATE 4).setFld Fld.SLEEP_STATUS_SRC m) 2 m
  | 3 =>
    let s := sleepRecord ((s.setFld Fld.SLEEP_STATUS_STATE 4).setFld Fld.SLEEP_STATUS_SRC m) 2 m
    { s with lehr := { s.lehr with railReq := true } }
  | _ => s

def wakeFire (s : State) (k : Nat) : State := wakeFires s [k]

/-- FPn_RX_VLD on a port with FP_CTL.EN = 1 fires FABRIC in LEHR (R471). -/
def fabricWake (s : State) (p : Nat) : State :=
  if s.mode = 1 ∧ s.portUp ∧ s.fld Fld.FP_CTL_EN p = 1 then wakeFire s 0 else s

/-! ### What resets clear -/

/-- A store keeps its contents over a reset of CORE: those of PORT and LEHR, the Cabinet with its spares, the local memories,
and with retention the rule banks (R24, R237, R368, R385). -/
def storeKept (keep : Bool) (key : Nat) : Bool :=
  let n := key / 2 ^ 40
  n == Store.rs.num || n == Store.agt.num || n == Store.amap.num || n == Store.hmap.num || n == Store.lehr.num ||
  n == Store.drawer.num || n == Store.spare.num || n == Store.stw.num || (keep && n == Store.rb.num)

/-- What CORE's registers hold after a reset of it: their reset values; with retention, what the wake program restores
from its save area (R508): every RW bit but the counters, the last lap time (R385) and RB_STATUS (R302). -/
def coreRegs (s : State) (keep : Bool) : State :=
  if ! keep then s.resetRegs (· = .core) else
  let kept := s.regs.filterMap (fun (e : Nat × BitVec 64) =>
    match locate e.1 with
    | some (r, i, j, _) =>
      if r.desc.dom ≠ .core then some e
      else if r = .SCRUB_LAP ∨ r = .RB_STATUS then some e
      else if r = .SL_TEL_CNT ∨ r = .CL_TEL_CNT ∨ r = .MP_TEL_CNT then none
      else
        let m := r.accMask (· = .rw)
        let d := r.resetWord i j
        let v := (e.2 &&& m) ||| (d &&& ~~~ m)
        if v = d then none else some (e.1, v)
    | none => none)
  { s.resetRegs (· = .core) with regs := kept }

/-- A hold slot while CORE is down (R27, R516): what it waited for in CORE is gone. -/
def parkHold (v : HoldSlot) : HoldSlot :=
  match v.wait with
  | .binding | .behind => v
  | _ => { v with wait := .parked }

/-- Snoops of closed fan-out records never leave (R516). -/
def dropSnoops (s : State) (f : FPort) : FPort := { f with snpQ := f.snpQ.filter (fun m => ! closedSnoop s m) }

/-- A Punty port when CORE is reset (R493): `mode` 0 a cold reset, 1 a warm reset, 2 sleep. A warm reset keeps the lanes: a
port that was UP trains again only its frame layer. -/
def ptReset (mode : Nat) (q : PtPort) : PtPort :=
  if mode = 1 ∧ (q.state = 3 ∨ q.state = 4) then { ptPort0 with state := 6, lock := q.lock }
  else if mode = 1 then { ptPort0 with state := q.state, attempt := q.attempt, lock := q.lock }
  else ptPort0

/-- STW_STATUS.FAILED outlives every reset but that of a cold start (R280, R284). -/
def failedKept (s : State) (l : List Nat) : State := l.foldl (fun u c => u.setFld Fld.STW_STATUS_FAILED 1 c) s

/-- CORE enters reset or loses power (R25, R27, R515, R516): `keep` with retention, `pt` how its Punty ports fare. -/
def coreReset (s : State) (keep : Bool) (pt : Nat) : State :=
  let failed := (List.range 16).filter (stwFailed s)
  let resil := (List.range 32).filter (fun m => s.fld Fld.MP_STATE_STATE m = 3)
  let s := rewaitDat (closeFans s (fun _ => true)) (fun _ => true)
  let s := { s with port := { s.port with
    hold := s.port.hold.map (fun e => (e.1, if e.2.used then parkHold e.2 else e.2))
    fp := s.port.fp.map (fun e => (e.1, dropSnoops s e.2))
    notices := [], rel := [], snpQ := [], snpDone := [], staged := [], replay := [], replaying := false } }
  let s := failedKept (coreRegs s keep) failed
  { s with
    coreUp := false, sleepReady := false, work := [], frzReq := 0, walks := [], conf := s.conf.map (fun e => (e.1, e.2.map (fun c => { c with tids := [], answered := false, deadline := 0, grace := false })))
    shadow := if keep then s.shadow else ⟨[], [], []⟩
    sl := { slice0 with banks := if keep then { s.sl.banks with blocked := [], swap := none } else slice0.banks }
    cab := { s.cab with dr := s.cab.dr.filterMap (fun (e : Nat × DrawerQ) =>
      let q := { drawer0 with blindAll := e.2.blindAll, blind := e.2.blind, blindSeq := e.2.blindSeq, walk := e.2.walk }
      if q = drawer0 then none else some (e.1, q)) }
    mem := { mem0 with nextId := s.mem.nextId }
    integ := { mask := s.integ.mask.filter (fun e => storeKept keep e.1), pq := s.integ.pq.filter (fun e => storeKept keep e.1)
               inj := s.integ.inj.filter (fun e => storeKept keep e.1) }
    stw := { thr := [], lmem := s.stw.lmem }
    hutch := [], nq := nq0, irq := ⟨[], []⟩, govCap := 0, govBg := 0
    fault := { s.fault with held := s.fault.held.filter (fun r => r.dom ≠ .core)
                            sticky := s.fault.sticky.filter (fun e => e.1 / 2 ^ 17 ≠ 3) }
    pt := { punty0 with deadMsgs := s.pt.deadMsgs, port := s.pt.port.filterMap (fun (e : Nat × PtPort) =>
      let q := ptReset pt e.2
      if q = ptPort0 then none else some (e.1, q)) }
    start := { s.start with boot := boot0, resil := resil } }

def lehrStore : Nat := Store.lehr.num

/-- PORT and CORE enter reset or lose power (R25, R26, R160, R385): everything of both is cleared. The link pins keep
their levels. -/
def portReset (s : State) : State :=
  let s := coreReset s false 0
  let s := s.resetRegs (fun d => d = .port ∨ d = .cold ∨ d = .core)
  { s with
    portUp := false, stw := { thr := [], lmem := [] }
    port := { port0 with fp := s.port.fp.filterMap (fun (e : Nat × FPort) => if e.2.link then some (e.1, { fp0 with link := true }) else none) }
    agt := [], conf := [], cab := { words := [], spare := [], dr := [], blindSeq := 0 }
    integ := { mask := s.integ.mask.filter (fun e => e.1 / 2 ^ 40 == lehrStore)
               pq := s.integ.pq.filter (fun e => e.1 / 2 ^ 40 == lehrStore)
               inj := s.integ.inj.filter (fun e => e.1 / 2 ^ 40 == lehrStore) }
    fault := { s.fault with held := s.fault.held.filter (fun r => r.dom == Dom.lehr), sticky := [] }
    pt := { s.pt with deadMsgs := [] }
    start := { s.start with resil := [] } }

/-- SLEEP_COMMIT (R472, R473): the sleep is abandoned if a source has fired, else CORE is gated or the rails fall. -/
def sleepCommit (s : State) : State :=
  if ! s.sleepReady ∨ s.fld Fld.SLEEP_STATUS_STATE ≠ 1 then s else
  let src := s.lehr.fired
  if src ≠ 0 then
    let s := ((s.setFld Fld.SLEEP_STATUS_RESULT 2).setFld Fld.SLEEP_STATUS_SRC src).setFld Fld.SLEEP_STATUS_STATE 0
    let s := setMode { s with sleepReady := false } 4 true
    sleepRecord (lehrIrq (s.setFld Fld.MODE_REQ_STATUS 4) 4) 3 src
  else
    let s := reqDone (s.setFld Fld.SLEEP_STATUS_RESULT 1)
    if s.fld Fld.MODE_RETAINED = 1 then
      sleepRecord (coreReset (s.setFld Fld.SLEEP_STATUS_STATE 2) true 2) 0 0
    else
      let s := portReset (s.setFld Fld.SLEEP_STATUS_STATE 3)
      sleepRecord { s with lehr := { s.lehr with railReq := false } } 1 0

end Sys2Proof.Machine
end

