-- ==== Sys2Proof/Machine/Faults.lean ====
section
/-! DEFINITION. The instance fault collector (chapter 14): severity and promotion (R399 to R401), the latched record
(R402 to R404), the reactions (R405 to R409), two tolerated faults at once (R411), injection (R414), and the meanings of
its commands. -/

namespace Sys2Proof.Machine

/-- The report the collector takes next: one that can reach it (a CORE or PORT source needs CORE running, R413), the
earliest raised, and among those of one time the order of R403. -/
def reportBefore (s : State) (a b : Report) : Bool :=
  let sev := fun (r : Report) => min 3 (s.fld Fld.FC_SRC_SEV r.code + s.fld Fld.FC_SRC_LASTING r.code)
  a.time < b.time || (a.time == b.time &&
    (b2n a.inj < b2n b.inj || (a.inj == b.inj &&
      (sev b < sev a || (sev a == sev b &&
        (a.code < b.code || (a.code == b.code && a.subject < b.subject)))))))

def nextReport (s : State) : Option Report :=
  (s.fault.held.filter (fun r => s.coreUp || r.dom == .lehr)).foldl (fun b r =>
    match b with
    | none => some r
    | some x => if reportBefore s r x then some r else some x) none

def hist (s : State) (c : Nat) : SrcHist := SMap.getD (fun _ => hist0) s.fault.hist c
def setHist (s : State) (c : Nat) (h : SrcHist) : State :=
  { s with fault := { s.fault with hist := SMap.set (fun _ => hist0) s.fault.hist c h } }

/-- A report repeats the previous occurrence of its source within 16 µs (R400). -/
def isRepeat (s : State) (r : Report) : Bool :=
  let h := hist s r.code
  h.seen && h.lastSubject == r.subject && h.lastInj == r.inj && s.time ≤ h.lastTime + 16000

/-- Counts an occurrence in its source's window and promotes the source at N (R401). -/
def countOccur (s : State) (r : Report) : State :=
  let h := { hist s r.code with seen := true, lastSubject := r.subject, lastInj := r.inj, lastTime := s.time }
  let n := s.fld Fld.FC_SRC_N r.code
  let win := min (s.fld Fld.FC_SRC_WIN r.code) 64000
  if faultFixed r.code ∨ s.fld Fld.FC_SRC_LASTING r.code = 1 then setHist s r.code { h with count := 0 }
  else
    let h := if 0 < h.count ∧ s.time ≤ h.winEnd then { h with count := h.count + 1 }
      else if n = 0 ∨ win = 0 then { h with count := 0 }
      else { h with count := 1, winEnd := s.time + win * 1000000, winN := n }
    if 0 < h.count ∧ h.winN ≤ h.count then (setHist s r.code { h with count := 0 }).setFld Fld.FC_SRC_LASTING 1 r.code
    else setHist s r.code h

/-- The effective severity of a source's reports (R399). -/
def effSev (s : State) (code : Nat) : Nat := min 3 (s.fld Fld.FC_SRC_SEV code + s.fld Fld.FC_SRC_LASTING code)

def mergedSet (s : State) (code : Nat) : State :=
  let w := s.fld Fld.FC_MERGED_SRC (code / 32)
  s.setFld Fld.FC_MERGED_SRC (w ||| 2 ^ (code % 32)) (code / 32)

/-- Latches the record or merges into it (R402); says whether the report merged. A repeat never sets FC_OVF (R400). -/
def latchReport (s : State) (r : Report) (sev : Nat) (rep : Bool) : State × Bool :=
  if s.fld Fld.FC_STATUS_FAULT = 0 then
    let s := ((((s.setFld Fld.FC_FIRST_CODE r.code).setFld Fld.FC_FIRST_SEV sev).setFld Fld.FC_FIRST_LASTING
      (s.fld Fld.FC_SRC_LASTING r.code)).setFld Fld.FC_FIRST_INJ (b2n r.inj)).setFld Fld.FC_FIRST_SUBJECT r.subject
    let s := ((s.setFld Fld.FC_FIRST_TIME_TIME s.time).setFld Fld.FC_STATUS_FAULT 1).setFld Fld.FC_STATUS_SEV sev
    (mergedSet (s.addFld Fld.FC_STATUS_DUP_COUNT (r.count - 1)) r.code, false)
  else
    let m := max (s.fld Fld.FC_STATUS_SEV) sev
    if s.fld Fld.FC_FIRST_CODE = r.code ∧ s.fld Fld.FC_FIRST_SUBJECT = r.subject ∧ s.fld Fld.FC_FIRST_INJ = b2n r.inj then
      ((s.addFld Fld.FC_STATUS_DUP_COUNT r.count).setFld Fld.FC_STATUS_SEV m, true)
    else (mergedSet ((if rep then s else s.setFld Fld.FC_STATUS_OVF 1).setFld Fld.FC_STATUS_SEV m) r.code, true)

/-- FAULT_N is asserted (R407). -/
def faultPin (s : State) : Bool :=
  s.fault.pulse || s.fault.heldPin || s.fld Fld.FC_PIN_CTL_FORCE == 1 || s.fld Fld.FC_STATUS_FATAL == 1

/-- A qualifying report drives FAULT_N (R407). -/
def drivePin (s : State) : State :=
  let pulse := s.fault.pulse || ! faultPin s
  { s with fault := { s.fault with pulse := pulse, heldPin := s.fault.heldPin || s.fld Fld.FC_PIN_CTL_HOLD == 1 } }

/-- The FAULT record (R406), through the queue, or through the fall-back while the sorter is off. -/
def faultRecord (s : State) (r : Report) (sev : Nat) (merged : Bool) : State :=
  let w := recOf ([(0x48, 0, 8), (r.code, 8, 8), (r.subject, 16, 16), (sev, 32, 2), (s.fld Fld.FC_SRC_LASTING r.code, 34, 1),
    (b2n r.inj, 35, 1), (b2n merged, 36, 1), (min r.count 65535, 37, 16)] ++ recTail s.time)
  if sorterOff s then lehrMsg s ((List.range 4).map (fun k => BitVec.ofNat 32 (bits w.toNat (32 * k) 32)))
  else { s with nq := { s.nq with readyFc := s.nq.readyFc ++ [[w]] } }

/-- The forced transition to RECOVERY (R408, R183): F-drop takes no walk; a running sweep stops. -/
def forceRecovery (s : State) : State :=
  if s.mode = 4 ∨ s.mode = 5 then
    forceMode s 6
  else s

/-- A report fires the FAULT cause of a freeze (R405, R534). -/
def freezeByFault (s : State) (code : Nat) : State := { s with frzReq := s.frzReq ||| 4, frzCode := code }

/-- The reactions to a report at or above LATCH_SEV (R405). -/
def reactReport (s : State) (r : Report) (sev : Nat) (rep merged : Bool) : State :=
  let s := if rep then s else faultRecord s r sev merged
  let s := irqSet s 0
  if sev = 0 then s else
  let s := if 2 ≤ sev ∧ s.fld Fld.FC_SRC_PIN_EN r.code = 1 then drivePin s else s
  let s := if sev = 3 then s.setFld Fld.FC_STATUS_FATAL 1 else s
  let s := if sev = 2 ∧ s.fld Fld.FC_SRC_MODE_EN r.code = 1 then forceRecovery s else s
  let s := if s.fld Fld.FC_CTL_FRZ_EN = 1 ∧ s.fld Fld.FC_CTL_FRZ_SEV ≤ sev then freezeByFault s r.code else s
  if s.fld Fld.FC_CTL_FWD_EN = 1 ∧ s.fld Fld.FC_CTL_FWD_SEV ≤ sev then floodFault s r.code r.subject sev r.inj else s

/-- A report that enters a class while another tolerated fault is present raises DOUBLE_FAULT (R411), as does the failure
of a second steward, hosted or not (R280). -/
def doubleFault (s : State) (r : Report) : State :=
  match faultClass r.code with
  | none => s
  | some cls =>
    let other := (List.range 6).any (fun c =>
      if c = cls then (classSubjects s c).any (fun x => ! sameSubject s c x (classSubject r.code r.subject))
      else ! (classSubjects s c).isEmpty)
    let steward := r.code = 0x41 ∧ (List.range 16).any (fun c => c ≠ r.subject && stwFailed s c)
    if (! r.already && other) || steward then raiseCore s 0x80 r.code else s

/-- The collector handles one report (R399 to R411). -/
def handleReport (s : State) (r : Report) : State :=
  let s := { s with fault := { s.fault with held := s.fault.held.filter (· ≠ r) } }
  let rep := isRepeat s r
  let s := if rep then s else countOccur s r
  let sev := effSev s r.code
  let s := if sev < s.fld Fld.FC_CTL_LATCH_SEV then s else
    let (s, merged) := latchReport s r sev rep
    reactReport s r sev rep merged
  doubleFault s r

def faultReport (s : State) : State :=
  match nextReport s with
  | some r => handleReport s r
  | none => s

/-! ### Live conditions (R397, R404) -/

/-- The subjects of a source whose live condition holds. -/
def liveSubjects (s : State) (code : Nat) : List Nat :=
  match code with
  | 0x06 => (List.range 64).filter (fun p => let f := s.fport p
      (f.txSnp = 0 ∧ f.snpQ ≠ [] ∧ 0 ∈ f.stalled) ∨ (f.txRsp = 0 ∧ f.rspQ ≠ [] ∧ 1 ∈ f.stalled) ∨
      (f.txDat = 0 ∧ f.datQ ≠ [] ∧ 2 ∈ f.stalled))
  | 0x08 => (s.port.fan.flatMap (fun e => (e.2.open_.filter (·.expired)).map (·.agent))).dedup
  | 0x09 => s.agents.filter (fun a => s.agtState a = 4)
  | 0x0A => (s.fault.sticky.filter (fun e => e.1 / 2 ^ 17 = 1)).map (fun e => e.1 % 2 ^ 17)
  | 0x0C => (s.fault.sticky.filter (fun e => e.1 / 2 ^ 17 = 2)).map (fun e => e.1 % 2 ^ 17)
  | 0x20 => s.sl.adopting.map (fun e => e.1)
  | 0x27 => (s.cab.dr.filter (fun e => e.2.blind.any (fun b => b.2.state != 0))).map (fun e => e.1)
  | 0x28 => (s.cab.dr.filter (fun e => e.2.blindAll)).map (fun e => e.1)
  | 0x29 => ((List.range 128).filter (fun d => s.fld Fld.SI_BUCKET_OVF d = 1)) ++
      ((List.range 80).filter (fun k => s.fld Fld.CL_BKT_OVF (k / 5) (k % 5) = 1)).map (fun k => 0x100 + 8 * (k / 5) + k % 5) ++
      ((List.range 4).filter (fun x => s.fld Fld.DIE_BKT_P_OVF x = 1)).map (0x200 + ·) ++
      (if s.fld Fld.DIE_BKT_NQ_OVF = 1 then [0x204] else []) ++ (if s.fld Fld.DIE_BKT_L_OVF = 1 then [0x205] else [])
  | 0x40 => (List.range 64).filter (fun t => threadState s t = 3)
  | 0x41 => classSubjects s 2
  | 0x50 => (List.range 32).filter (portDown s)
  | 0x51 => (List.range 32).filter (fun m => s.fld Fld.MP_STATE_STATE m = 2)
  | 0x70 => classSubjects s 4
  | 0x82 => (List.range 4).filter (fun r => SMap.getD (fun _ => false) s.fault.sticky (3 * 2 ^ 17 + r))
  | _ => []

/-- FC_FIRST.LIVE: the live condition of the record's own subject (R404, R416). -/
def firstLive (s : State) : Bool :=
  s.fld Fld.FC_STATUS_FAULT == 1 && (liveSubjects s (s.fld Fld.FC_FIRST_CODE)).contains (s.fld Fld.FC_FIRST_SUBJECT)

/-- FC_STATUS.LIVE: that, or any subject of any merged source (R404). -/
def recordLive (s : State) : Bool :=
  s.fld Fld.FC_STATUS_FAULT == 1 && (firstLive s || (List.range 256).any (fun c =>
    bit1 (s.fld Fld.FC_MERGED_SRC (c / 32)) (c % 32) && ! (liveSubjects s c).isEmpty))

/-- FC_RECOV.CLASS (R419). -/
def recovClasses (s : State) : Nat :=
  ((List.range 6).filter (fun c => ! (classSubjects s c).isEmpty)).foldl (fun a c => a + 2 ^ c) 0

/-- Writing 1 to FC_STATUS.FAULT (R404): the record is cleared, or DENIED is set. HELD clears with a clear (R407). -/
def fcClear (s : State) : State :=
  if recordLive s then s.setFld Fld.FC_STATUS_DENIED 1
  else if s.fld Fld.FC_STATUS_FAULT = 0 then s
  else
    let s := (((s.setFld Fld.FC_STATUS_FAULT 0).setFld Fld.FC_STATUS_OVF 0).setFld Fld.FC_STATUS_SEV 0).setFld
      Fld.FC_STATUS_DUP_COUNT 0
    let s := (s.setReg .FC_FIRST 0).setReg .FC_FIRST_TIME 0
    let s := (List.range 8).foldl (fun t i => t.setReg .FC_MERGED 0 i) s
    { s with fault := { s.fault with heldPin := false } }

/-- Writing FC_PIN_CTL.RELEASE (R407). -/
def fcRelease (s : State) : State := { s with fault := { s.fault with heldPin := false } }

/-- FC_INJ.GO (R414): in TEST the report goes to the collector, else REFUSED is set. -/
def fcInject (s : State) : State :=
  let code := s.fld Fld.FC_INJ_CODE
  if s.mode = 7 ∧ (faultSrc code).isSome then raiseN s .inst code (s.fld Fld.FC_INJ_SUBJECT) 1 true .lehr
  else s.setFld Fld.FC_INJ_REFUSED 1

/-- The end of a source's window short of N (R401). -/
def windowEnd (s : State) (code : Nat) : State :=
  let h := hist s code
  if h.count = 0 then s
  else
    let s := { s with now := max s.now h.winEnd, lehrNow := max s.lehrNow h.winEnd }
    setHist s code { h with count := 0 }

/-- The FAULT_N pulse of 66 LCLK ends (R407). -/
def pulseEnd (s : State) : State := { s with fault := { s.fault with pulse := false } }

end Sys2Proof.Machine
end

