-- ==== Sys2Proof/Machine/Telemetry.lean ====
section
/-! DEFINITION. The telemetry reader (R532, R533) and the freeze (R534 to R538). -/

namespace Sys2Proof.Machine

/-! ### Snapshots (R535, R538) -/

/-- Every counter latches its value and OVF into its snapshot register, VALID set. -/
def snapCounters (s : State) : State :=
  (List.range 1664).foldl (fun t id =>
    let (_, _, _, r, i, j) := cntOf id
    let (v, o) := cntNow s id
    t.setReg r (BitVec.ofNat 64 (v + o * 2 ^ 48 + 2 ^ 49)) i j) s

/-- The slice a logic serves. -/
def servedBy (s : State) (l : Nat) : Option Nat :=
  ((List.range 8).map (fun k => l / 9 * 8 + k)).find? (fun n => logicOf s n = l)

/-- The state words of slice logics. The ledger account of the trigger slot is a matter of cycles, which the model leaves
out: a free value among the five (R531). -/
def snapSlices (s : State) : State :=
  (List.range 144).foldl (fun t l =>
    match servedBy t l with
    | some n =>
      let (f, t) := t.takeFree
      ((t.setFld Fld.SL_FRZ_USED (usedEntries s n).length l).setFld Fld.SL_FRZ_CQ (s.slq n).cq.length l).setFld
        Fld.SL_FRZ_LEDGER ((Config.free f).toNat % 5) l
    | none => t.setReg .SL_FRZ 0 l) s

/-- The state words of clusters, fabric ports, memory ports and the instance. -/
def snapClusters (s : State) : State :=
  (List.range 16).foldl (fun t c =>
    let st := (List.range 4).foldl (fun a k => a + threadState s (4 * c + k) * 4 ^ k) 0
    (((t.setFld Fld.CL_FRZ_STATES st c).setFld Fld.CL_FRZ_CAP (bits s.govCap.toNat (4 * c) 4) c).setFld Fld.CL_FRZ_BG
      (b2n (bgOn s c)) c).setFld Fld.CL_FRZ_DBUF (bufsUsed s c).length c) s

def snapPorts (s : State) : State :=
  let s := (List.range 64).foldl (fun t p =>
    let f := s.fport p
    (((t.setFld Fld.FP_FRZ_REQ f.reqQ.length p).setFld Fld.FP_FRZ_DAT (datUsed s p).length p).setFld Fld.FP_FRZ_TXSNP
      f.txSnp p).setFld Fld.FP_FRZ_TXDAT f.txDat p) s
  let s := (List.range 32).foldl (fun t m =>
    ((t.setFld Fld.MP_FRZ_OUT (s.mport m).out.length m).setFld Fld.MP_FRZ_HOLDER ((s.mport m).holder.getD 31) m).setFld
      Fld.MP_FRZ_STATE (s.fld Fld.MP_STATE_STATE m) m) s
  (s.setFld Fld.INST_FRZ_CUR s.mode).setFld Fld.INST_FRZ_HOLD (min 32767 (holdsUsed s).length)

/-- The Lehr's snapshot, which holds until the next freeze or re-arm. -/
def snapLehr (s : State) : State :=
  let t := (List.range 4).foldl (fun m r => max m (regionDeg s r)) 0
  let s := ((s.setFld Fld.LEHR_FRZ_SLOT (slotNow s)).setFld Fld.LEHR_FRZ_FROZEN 1).setFld Fld.LEHR_FRZ_TMAX t
  ((s.setFld Fld.LEHR_FRZ_CAPL_CAP (s.lehr.cap.toNat % 2 ^ 32)).setFld Fld.LEHR_FRZ_CAPH_CAP (s.lehr.cap.toNat / 2 ^ 32)).setFld
    Fld.LEHR_FRZ_BG_BG s.lehr.bg.toNat

/-! ### Records (R533) -/

/-- Counter records in packets of 8, in ID order, END on the last of each. -/
def cntPackets (typ sweep time : Nat) (val : Nat → Nat × Nat) : List (List (BitVec 128)) :=
  (List.range 208).map (fun p => (List.range 8).map (fun k =>
    let id := 8 * p + k
    let (v, o) := val id
    recOf [(typ, 0, 8), (id, 8, 12), (o, 20, 1), (v, 24, 48), (sweep, 72, 8), (time, 80, 47), (if k = 7 then 1 else 0, 127, 1)]))

def telReady (s : State) (ps : List (List (BitVec 128))) : State :=
  { s with nq := { s.nq with readyTel := s.nq.readyTel ++ ps } }

/-- TEL_STATUS.BUSY (R541): a sweep or a dump is running. -/
def telBusy (s : State) : Bool := s.nq.readyTel.any (fun p => recType (p.headD 0) != 0x70)

/-- TEL_SWEEP (R532): the period boundary begins a sweep, or is skipped while one runs. -/
def telSweep (s : State) : State :=
  if ! s.coreUp ∨ s.fld Fld.TEL_CTL_EN = 0 then s
  else if telBusy s then irqSet (s.addFld Fld.TEL_STATUS_SKIPS 1) 43
  else
    let n := (s.fld Fld.TEL_STATUS_SWEEP + 1) % 65536
    let s := s.setFld Fld.TEL_STATUS_SWEEP n
    telReady s ([[recOf ([(0x68, 0, 8), (n, 8, 16), (1664, 24, 12)] ++ recTail s.now)]] ++
      cntPackets 0x69 (n % 256) s.now (cntNow s) ++ [[recOf ([(0x6A, 0, 8), (n, 8, 16)] ++ recTail s.now)]])

/-! ### The trigger (R534 to R537) -/

/-- A trigger with CORE running and FROZEN = 0. -/
def freezeNow (s : State) (causes : Nat) : State :=
  let org := if bit1 causes 4 then s.frzOrigin else s.instId
  let code := if bit1 causes 2 then s.frzCode else 0
  let cnt := if bit1 causes 3 then s.fld Fld.FRZ_CNT_SEL_ID else 0
  let snap := snapLehr (snapPorts (snapClusters (snapSlices (snapCounters s))))
  let s := (((snap.setFld Fld.FRZ_STATUS_FROZEN 1).setFld Fld.FRZ_STATUS_CAUSES causes).setFld Fld.FRZ_STATUS_ORIGIN
    org).setFld Fld.FRZ_STATUS_CODE code
  let s := s.setFld Fld.FRZ_TIME_TIME s.now
  let s := telReady s [[recOf ([(0x70, 0, 8), (causes, 8, 5), (org, 13, 8), (code, 21, 8), (cnt, 29, 12)] ++ recTail s.now)]]
  let s := if causes = 16 then s else flood s 4 [(causes % 16, 8, 1)]
  if s.fld Fld.FRZ_CTL_DUMP = 1 then telReady s (cntPackets 0x71 0 s.now (cntSnap s)) else s

/-- The causes a command has fired are taken at its end: a freeze, a missed trigger, or with CORE down or in LEHR the Lehr's
snapshot alone, by PIN. -/
def freezePoll (s : State) : State :=
  let causes := s.frzReq
  if causes = 0 then s else
  let s := { s with frzReq := 0 }
  if ! s.coreUp ∨ s.mode = 1 then
    if bit1 causes 0 ∧ s.fld Fld.LEHR_FRZ_FROZEN = 0 then snapLehr s else s
  else if s.fld Fld.FRZ_STATUS_FROZEN = 1 then s.addFld Fld.FRZ_STATUS_MISSED 1
  else freezeNow s causes

/-- FREEZE_IN changes to a level (R534): a rising edge fires PIN. -/
def freezeIn (s : State) (level : Bool) : State :=
  let rise := level && ! s.freezeIn
  let s := { s with freezeIn := level }
  if rise ∧ s.vaux ∧ (! s.coreUp ∨ s.mode = 1 ∨ s.fld Fld.FRZ_CTL_PIN_EN = 1) then { s with frzReq := s.frzReq ||| 1 } else s

/-- FREEZE_OUT (R535). -/
def freezeOut (s : State) : Bool := s.coreUp && s.fld Fld.FRZ_STATUS_FROZEN == 1 && s.fld Fld.FRZ_CTL_OUT_EN == 1

def frzTrig (s : State) : State := if s.coreUp then { s with frzReq := s.frzReq ||| 2 } else s

/-- FRZ_CTL.REARM (R536). -/
def frzRearm (s : State) : State := if s.coreUp then (s.setReg .FRZ_STATUS 0).setFld Fld.LEHR_FRZ_FROZEN 0 else s

end Sys2Proof.Machine
end

