-- ==== Sys2Proof/Machine/Programs.lean ====
section
/-! DEFINITION. Programs of the parison image that the model runs itself: the bank and ledger commands (R305, R447, R478),
the hosting of a failed steward's work (R280). -/

namespace Sys2Proof.Machine

/-! ### CRC-32 (R303, R306) -/

/-- One bit of the IEEE 802.3 polynomial, least significant bit first. -/
def crcBit (c : Nat) : Nat := if c % 2 = 1 then c / 2 ^^^ 0xEDB88320 else c / 2
def crcByte (c b : Nat) : Nat := (List.range 8).foldl (fun x _ => crcBit x) (c ^^^ b)
def crc32 (bs : List Nat) : Nat := bs.foldl crcByte 0xFFFFFFFF ^^^ 0xFFFFFFFF

/-- The bytes of a line, of a 32-bit word, little-endian. -/
def lineBytes (l : Line) : List Nat := (List.range 64).map (fun k => bits l.toNat (8 * k) 8)
def wordBytes (w : BitVec 32) : List Nat := (List.range 4).map (fun k => bits w.toNat (8 * k) 8)

/-- Bytes `[at_, at_ + n)` of a line as a number. -/
def lineNum (l : Line) (at_ n : Nat) : Nat := bits l.toNat (8 * at_) (8 * n)

/-! ### Reads of a command program -/

/-- PA of a command's image: CMD_ARG1[15:0] above CMD_ARG0 (R447). -/
def cmdPa (c : CmdRun) : Nat := cmdArg c 0 + cmdArg c 1 % 65536 * 2 ^ 32

/-- Every one of `n` lines from a line is named by the address map (R263). -/
def namedLines (s : State) (line n : Nat) : Bool :=
  (List.range n).all (fun k => bit1 (amapW s (entryOf (line + k))) 0)

/-- The program reads line `k` of its image, or goes on to phase `next` when it has `n` lines. -/
def jobRead (s : State) (c : CmdRun) (n next : Nat) : State :=
  let k := c.lines.length
  if n ≤ k then { s with cmd := some { c with phase := next } }
  else (issueMem { s with cmd := some { c with val := k } } 0 (.job k) (cmdPa c / 64 + k) 0 0 false 0).1

/-- A command's reads go on once the line asked for has come. -/
def jobPoll (s : State) (c : CmdRun) (n next : Nat) : State := if c.lines.length = c.val + 1 then jobRead s c n next else s

/-! ### RB_LOAD and RB_SWAP (R305) -/

/-- The checks of a bank image (R303). -/
def imageOk (ls : List Line) : Bool :=
  match ls with
  | h :: body =>
    lineNum h 0 4 == 0x4B524231 && lineNum h 8 2 == 1 && lineNum h 10 2 == 1024 && lineNum h 12 2 == 2048 &&
    lineNum h 16 4 == crc32 (body.flatMap lineBytes)
  | [] => false

/-- The 3,072 words of an image are written by rload into the inactive bank. -/
def bankLoad (s : State) (words : List (BitVec 64)) : State :=
  let b := 1 - activeBank s
  let bk := s.sl.banks
  let s := { s with sl := { s.sl with banks := { bk with
    src0 := if b = 0 then 2 else bk.src0, src1 := if b = 1 then 2 else bk.src1
    words := bk.words.filter (fun e => e.1 / 4096 ≠ b) } } }
  (words.zip (List.range words.length)).foldl (fun u e => bankPut u e.2 e.1) s

/-- RB_LOAD begins: the image must be named by the address map. -/
def rbLoad (s : State) : State :=
  match cmdIs s 0x30 with
  | none => s
  | some c =>
    if c.phase ≠ 0 then s
    else if ! namedLines s (cmdPa c / 64) 385 then cmdEnd s 0x2A 0
    else jobRead s { c with phase := 1 } 385 2

/-- RB_LOAD goes on: its reads, the checks, the load once the inactive bank is free (R298), the swap. A line that comes
poisoned makes a bad image. -/
def rbLoadPoll (s : State) : State :=
  match cmdIs s 0x30 with
  | none => s
  | some c =>
    if c.phase = 90 then cmdEnd s 0x28 0
    else if c.phase = 1 then jobPoll s c 385 2
    else if c.phase = 2 then (if imageOk c.lines then { s with cmd := some { c with phase := 3 } } else cmdEnd s 0x28 0)
    else
      let prof := lineNum (c.lines.headD 0) 4 4
      if c.phase = 3 ∧ ! draining s ∧ ! swapping s ∧ s.sl.banks.blocked = [] then
        let s := bankLoad s ((c.lines.drop 1).flatMap (fun l => (List.range 8).map (lineWord l)))
        let s := s.setFld Fld.RB_PROF_INACT_PROFILE prof
        if cmdArg c 2 % 2 = 1 then { s with cmd := some { c with phase := 4 } } else cmdEnd s 0 prof
      else if c.phase = 4 ∧ ! swapping s then
        if draining s then cmdEnd s 0x29 prof else swapBegin { s with cmd := some { c with phase := 5 } } none
      else if c.phase = 5 ∧ ! swapping s then cmdEnd s 0 prof
      else s

/-- RB_SWAP: its rswap is refused with EPOCH_BUSY, or begins; the program issues it again while another is in progress, DEDUCED (log
entry 55). -/
def rbSwap (s : State) : State :=
  match cmdIs s 0x31 with
  | none => s
  | some c =>
    if c.phase ≠ 0 ∨ swapping s then s
    else if draining s then cmdEnd s 0x29 0
    else swapBegin { s with cmd := some { c with phase := 1 } } none

/-- RB_SWAP goes on: it ends when its swap has ended. -/
def rbSwapPoll (s : State) : State :=
  match cmdIs s 0x31 with
  | none => s
  | some c => if c.phase = 1 ∧ ! swapping s then cmdEnd s 0 (s.fld Fld.RB_PROF_ACT_PROFILE) else rbSwap s

/-! ### LEDGER_LOAD (R478) -/

/-- The result of a commit as the command's CODE and VALUE. -/
def ledgerEnd (s : State) : State :=
  match s.fld Fld.LDG_CTL_RESULT with
  | 1 => cmdEnd s 0 (s.fld Fld.MGN_GEN_GEN)
  | 4 => cmdEnd s 0x2F 0
  | _ => cmdEnd s 0x2E 0

/-- Record `k` of the mirrored ledger at byte `off` of the lines read. -/
def ledgerRec (ls : List Line) (off k : Nat) : BitVec 128 :=
  let b := off + 16 * k
  BitVec.ofNat 128 ((List.range 16).foldl (fun a i =>
    a + lineNum (ls.getD ((b + i) / 64) 0) ((b + i) % 64) 1 * 256 ^ i) 0)

/-- The lines that 34 records of 16 bytes from a PA span. -/
def ledgerLines (c : CmdRun) : Nat := (cmdPa c % 64 + 607) / 64

/-- LEDGER_LOAD begins: FRESH commits with nothing staged; else the 34 records are read. -/
def ledgerLoad (s : State) : State :=
  match cmdIs s 0x60 with
  | none => s
  | some c =>
    if c.phase ≠ 0 then s
    else if cmdArg c 2 % 2 = 1 then ledgerEnd (ldgCommit ((ldgClear s).setFld Fld.LDG_CTL_FRESH 1))
    else if ! namedLines s (cmdPa c / 64) (ledgerLines c) then cmdEnd s 0x2E 0
    else jobRead s { c with phase := 1 } (ledgerLines c) 2

def ledgerLoadPoll (s : State) : State :=
  match cmdIs s 0x60 with
  | none => s
  | some c =>
    if c.phase = 90 then cmdEnd s 0x2E 0
    else if c.phase = 1 then jobPoll s c (ledgerLines c) 2
    else if c.phase = 2 then
      let recs := (List.range 34).map (ledgerRec c.lines (cmdPa c % 64))
      let s := { s with lehr := { s.lehr with staged := recs } }
      ledgerEnd (ldgCommit (s.setFld Fld.LDG_CTL_FRESH 0))
    else s

/-! ### MEM_RESILVER (R352) -/

def memResilverRow (s : State) : State :=
  match cmdIs s 0x50 with
  | none => s
  | some c => if c.phase ≠ 0 then s else memResilver { s with cmd := some { c with phase := 1 } } (cmdArg c 0 % 32)

/-! ### HMAP_MOVE (R502) -/

def hmapMoveRow (s : State) : State := if (cmdIs s 0x70).isSome then hmapMove s else s

/-! ### Hosting (R280) -/

/-- The steward after a failed one takes its work once the failure has been reported, and says so in STW_STATUS. -/
def hostPoll (s : State) : State :=
  if ! progsUp s then s else
  (List.range 16).foldl (fun t c =>
    let h := (c + 1) % 16
    if stwFailed t c ∧ ! stwFailed t h ∧ t.fld Fld.STW_STATUS_HOSTING h = 0 ∧
        ! t.fault.held.any (fun r => r.code == 0x41 && r.subject == c) then
      (t.setFld Fld.STW_STATUS_HOSTING 1 h).setFld Fld.STW_STATUS_HOSTED c h
    else t) s

/-- STEWARD_FAILURE: a command that the steward ran is cut short (R448). -/
def stewardFailure (s : State) (c : Nat) : State :=
  if ! s.coreUp ∨ stwFailed s c then s else
  let host := s.fld Fld.STW_STATUS_HOSTING c = 1 ∧ s.fld Fld.STW_STATUS_HOSTED c = 0
  let s := stewardFail s c
  if c = 0 ∨ host then cmdAbort s else s

/-- The command programs go on. -/
def cmdPoll (s : State) : State :=
  hostPoll (ledgerLoadPoll (ledgerLoadPoll (rbSwapPoll (rbLoadPoll (rbLoadPoll (rbLoadPoll s))))))

/-! ### Clock monitors (R22) -/

/-- MCLK_MONITOR_TIMEOUT of a region. The model has no toggle to see again, so the condition stays until a reset. -/
def mclkTimeout (s : State) (r : Nat) : State :=
  if ! s.coreUp ∨ s.mode = 1 then s
  else raiseRegion { s with fault := { s.fault with
    sticky := SMap.set (fun _ => false) s.fault.sticky (3 * 2 ^ 17 + r) true } } r 0x82 r

/-- SL_WDOG_TIMEOUT (R119): a message has been eligible at a serving logic's ingress for SL_WDOG.TMO with no issue. The time is counted
from the last issue, the arrival at an empty ingress or the last write of SL_WDOG, DEDUCED (log entry 93). TMO = 0 disables the
watchdog (R128). -/
def slWdog (s : State) (n : Nat) : State :=
  let q := s.slq n
  let tmo := s.fld Fld.SL_WDOG_TMO (logicOf s n)
  if tmo = 0 ∨ ! (rspElig s n || evElig s n || reqElig s n || mntElig s n) then s
  else
    let s := advanceTo s (q.wdog + tmo * 1000)
    (s.setFld Fld.SL_ERR_WDOG 1 (logicOf s n)).addWork (.fail n)

/-- LOGIC_PAR_ERROR of a slice logic (R119). -/
def logicParError (s : State) (l : Nat) : State :=
  if ! s.coreUp then s else logicFail (s.setFld Fld.SL_ERR_LOGIC_PAR 1 l) l

/-- CL_ADOPT.GO of a cluster (R122, R132): STATUS 2 REFUSED, 3 BUSY, or the adoption. -/
def clAdopt (s : State) (c pos : Nat) : State :=
  let busy := s.sl.adopting.any (fun e => e.1 / 8 == c)
  if busy then s.setFld Fld.CL_ADOPT_STATUS 3 c
  else if s.mode ≠ 7 ∨ s.fld Fld.CL_SPARE_SPARE c = 15 then s.setFld Fld.CL_ADOPT_STATUS 2 c
  else adopt (s.setFld Fld.CL_ADOPT_STATUS 0 c) (8 * c + pos) true

end Sys2Proof.Machine
end

