-- ==== Sys2Proof/Machine/Starts.lean ====
section
/-! DEFINITION. Starts, resets and retries (R26, R30, R46, R47, R461, R506 to R513, R523), the boot fetch that the boot ROM
and the boot program of thread 0 run (R306, R307), and the writes of the two address maps (R337, R358). -/

namespace Sys2Proof.Machine

/-! ### The maps -/

/-- An address map entry passes the check of R337. -/
def amapOk (w : Nat) : Bool :=
  let n := 2 ^ bits w 25 2
  let pri := bits w 14 5
  let mir := bits w 19 5
  bits w 29 3 == 0 && bits w 57 7 == 0 && bits w 27 2 != 3 && decide (pri + n ≤ 32) &&
  (bits w 24 1 == 0 || (decide (mir + n ≤ 32) && (decide (pri + n ≤ mir) || decide (mir + n ≤ pri))))

/-- A write of an address map entry (R337, R359): taken, or refused with AMAP_ERR.BAD_ENTRY. -/
def amapWrite (s : State) (e w : Nat) : State :=
  if amapOk w then shadowAmap (mapWritten (s.setReg .AMAP (BitVec.ofNat 64 w) e) false e) e w
  else
    let s := if s.fld Fld.AMAP_ERR_BAD_ENTRY = 0 then s.setFld Fld.AMAP_ERR_INDEX e else s
    s.setFld Fld.AMAP_ERR_BAD_ENTRY 1

/-- A write of a home map window (R358): reserved bits are ignored, the window's generation stays. -/
def hmapWrite (s : State) (w v : Nat) : State :=
  shadowHmap (mapWritten (s.setReg .HMAP (BitVec.ofNat 64 (v % 2 ^ 19)) w) true w) w v

/-! ### Records and bookkeeping -/

/-- A start record (R523): TYPE and payload fields. -/
def startRecord (s : State) (typ : Nat) (fs : List (Nat × Nat × Nat)) : State := lehrRec s ((typ, 0, 8) :: fs)

def setRun (s : State) (r : Option StartRun) : State := { s with start := { s.start with run := r } }
def setBoot (s : State) (b : BootC) : State := { s with start := { s.start with boot := b } }

/-- The time a step that begins now may last to (R507, R525). -/
def stepLimit (s : State) : Nat := s.lehrNow + max 1 (s.fld Fld.START_CTL_STEP_TMO) * 1000000

/-- The next step of the start in progress begins. -/
def toStep (s : State) (k : Nat) : State :=
  match s.start.run with
  | some r => setRun (s.setFld Fld.START_STATUS_STEP k) (some { r with limit := stepLimit s })
  | none => s

/-- The start-attempt counters are read from the Lehr SRAM: they read 0 where their word is uncorrectable (R462). -/
def countRead (s : State) : State :=
  let (s, ok) := lehrGood s cntWord 1
  if ok then s else s.setReg .START_CNT 0

/-- A start-attempt counter counts a failure and stops at 3 (R511). -/
def countFail (s : State) (cold : Bool) : State :=
  let s := countRead s
  let f := if cold then Fld.START_CNT_COLD_FAIL else Fld.START_CNT_WARM_FAIL
  lehrWrote (s.setFld f (min 3 (s.fld f + 1))) [cntWord]

/-- Exhaustion (R512). -/
def exhaust (s : State) : State :=
  let s := startRecord (s.setFld Fld.START_STATUS_EXHAUSTED 1) 0x57 []
  raiseLehr s 0x61 0

/-- The start the Lehr begins after a failed one (R511): 0 COLD, 1 WARM, none after exhaustion or a reset. -/
def retryKind (s : State) (cold : Bool) (code : Nat) : Option Nat :=
  if code = 8 then none
  else if cold then (if s.fld Fld.START_CNT_COLD_FAIL < 3 then some 0 else none)
  else if code = 7 ∨ s.fld Fld.START_CNT_WARM_FAIL = 3 then some 0
  else some 1

/-- A start fails (R511): CODE is START_STATUS.CODE. MODE becomes LEHR, which is no transition where it is LEHR already (a wake
start), unless a reset (code 8) moves it on at once; in LEHR nothing is held in retention then (R31). CORE, and after a cold
start PORT, go back into reset. -/
def startFail (s : State) (code : Nat) : State :=
  match s.start.run with
  | none => s
  | some r =>
    let cold := r.kind = 0
    let s := startRecord (s.setFld Fld.START_STATUS_CODE code) 0x55
      [(r.kind, 8, 2), (s.fld Fld.START_STATUS_STEP, 10, 4), (code, 14, 4)]
    let s := countFail (setRun s none) cold
    let s := if code = 8 ∨ s.mode = 1 then s else setMode (preempt (stopSweep s)) 1 true
    let s := if s.mode = 1 then s.setFld Fld.MODE_RETAINED 0 else s
    let s := s.setFld Fld.SLEEP_STATUS_STATE 0
    let s := if cold then portReset s else coreReset s false 1
    let s := { s with start := { s.start with retry := retryKind s cold code, retryAt := s.lehrNow + max 1 (s.fld Fld.START_CTL_RETRY_DLY) * 1000000 } }
    if cold ∧ code ≠ 8 ∧ s.start.retry = none then exhaust s else s

/-! ### The boot fetch (R306, R307) -/

/-- Word `k`, byte `b` and `n` bytes from byte `b` of the image as received. -/
def imgWord (ws : List (BitVec 32)) (k : Nat) : Nat := (ws.getD k 0).toNat
def imgByte (ws : List (BitVec 32)) (b : Nat) : Nat := bits (imgWord ws (b / 4)) (8 * (b % 4)) 8
def imgNum (ws : List (BitVec 32)) (b n : Nat) : Nat :=
  (List.range n).foldl (fun a k => a + imgByte ws (b + k) * 256 ^ k) 0

/-- An entry of the section table. -/
structure Sect where
  kind : Nat
  off : Nat
  len : Nat
  crc : Nat
  deriving DecidableEq, Repr

/-- The section table of a header of three lines. -/
def imgSects (ws : List (BitVec 32)) : List Sect :=
  (List.range (imgNum ws 6 2)).map (fun k =>
    let b := 64 + 16 * k
    ⟨imgNum ws b 2, imgNum ws (b + 4) 4, imgNum ws (b + 8) 4, imgNum ws (b + 12) 4⟩)

def sectOf (ws : List (BitVec 32)) (kind : Nat) : Option Sect := (imgSects ws).find? (fun x => x.kind = kind)

/-- Step 3 of R307: BOOT_STATUS.CODE of the first check that fails, 0 for none. -/
def headerCode (ws : List (BitVec 32)) : Nat :=
  let n := imgNum ws 6 2
  if imgNum ws 0 4 ≠ 0x5052534E ∨ imgNum ws 4 2 ≠ 1 then 3
  else if imgNum ws 60 4 ≠ crc32 ((List.range 60).map (imgByte ws)) then 4
  else if n = 0 ∨ 8 < n then 8
  else
    let l := imgSects ws
    let one := fun k => (l.filter (fun x => x.kind = k)).length = 1
    if ¬ one 1 ∨ ¬ one 2 ∨ l.any (fun x => x.kind = 1 && decide (768 < x.len)) ∨
        l.any (fun x => (x.kind == 2 && x.len != 385) || decide (imgNum ws 8 4 < x.off + x.len)) then 8
    else 0

/-- The words of a section, and whether its CRC is right. -/
def sectWords (ws : List (BitVec 32)) (x : Sect) : List (BitVec 32) := (ws.drop (16 * x.off)).take (16 * x.len)
def sectOk (ws : List (BitVec 32)) (x : Sect) : Bool := crc32 ((sectWords ws x).flatMap wordBytes) == x.crc

/-- Pairs of 32-bit words as 64-bit words, the low one first. -/
def pairWords : List (BitVec 32) → List (BitVec 64)
  | a :: b :: l => (b ++ a) :: pairWords l
  | _ => []

/-- The fetch begins from a source (1 memory, 0 mailbox), step 2 of R307. -/
def bootFrom (s : State) (src : Nat) : State :=
  let b := s.start.boot
  let s := setBoot s { boot0 with active := true, src := src, fifo := b.fifo, gap := s.lehrNow }
  if src = 0 then s
  else
    let base := s.fld Fld.PARISON_LOC_BASE
    amapWrite s 16383 (1 + 3 * 2 ^ 12 + s.fld Fld.PARISON_LOC_MP * 2 ^ 14 + base * 8 * 2 ^ 32)

/-- A fetch fails with a code of BOOT_STATUS: with PARISON_SRC = 2 a failure of the ROM's own part from memory restarts it
with the mailbox, any other fails the start (R307). -/
def bootFail (s : State) (code startCode : Nat) : State :=
  if s.fld Fld.STRAP_PARISON_SRC = 2 ∧ s.start.boot.src = 1 ∧ s.fld Fld.START_STATUS_STEP = 5 then bootFrom s 0
  else startFail (setBoot (s.setFld Fld.BOOT_STATUS_CODE code) { s.start.boot with active := false }) startCode

/-- The image is present up to word `n`: mailbox words are popped as they come, lines are read one after another through the Hutch of
cluster 0 (R307). The second part says that it is. -/
def bootNeedN : Nat → State → Nat → State × Bool
  | 0, s, _ => (s, false)
  | fuel + 1, s, n =>
  let b := s.start.boot
  if n ≤ b.words.length then (if b.src = 0 then setBoot s { b with wait := false } else s, true)
  else if b.src = 0 then
    let k := n - b.words.length
    let ws := b.words ++ b.fifo.take k
    (setBoot s { b with words := ws, fifo := b.fifo.drop k, wait := decide (ws.length < n)
                        gap := if b.fifo.isEmpty then b.gap else s.lehrNow }, decide (n ≤ ws.length))
  else if b.wait then (s, false)
  else
    let k := b.words.length / 16
    let s := setBoot s { b with wait := true }
    let s := hutRun (s.setHut 0 { s.hut 0 with q := (s.hut 0).q ++ [⟨some 0, 0, 0, .boot, 0x0FFFC0000000 / 64 + k, false⟩] }) 0
    if s.start.boot.wait then (s, false) else bootNeedN fuel s n
def bootNeed (s : State) (n : Nat) : State × Bool := bootNeedN 1024 s n

/-- BOOT is copied into the local memory of thread 0, which goes on at ENTRY (steps 4 and 5 of R307). -/
def bootCopy (s : State) (x : Sect) : State :=
  let ws := s.start.boot.words
  let ds := pairWords (sectWords ws x)
  let s := (ds.zip (List.range ds.length)).foldl (fun u e => lwrite u 0 e.2 e.1) s
  let s := s.setFld Fld.BOOT_STATUS_SRC s.start.boot.src
  s.setThr 0 { s.thr 0 with pc := BitVec.ofNat 64 (imgNum ws 12 4) }

/-- Step 5: the boot ROM begins (R282, R307). -/
def bootBegin (s : State) : State :=
  let s := (s.setThr 0 { thr0 with run := 1, pc := 0x10000, last := 0x10000 }).setFld Fld.BOOT_STATUS_CODE 1
  let src := s.fld Fld.STRAP_PARISON_SRC
  if src = 1 ∨ src = 2 then
    let s := setBoot s { boot0 with active := true, src := 1, fifo := s.start.boot.fifo }
    if s.fld Fld.PARISON_LOC_VALID = 0 then bootFail s 7 3 else bootFrom s 1
  else bootFrom s 0

/-- Step 5 goes on. The second part says that it moved on. -/
def bootStep (s : State) : State × Bool :=
  if s.start.boot.bad then (bootFail s 6 3, true) else
  let (s, ok) := bootNeed s 48
  if ! ok then (s, false) else
  let ws := s.start.boot.words
  let c := headerCode ws
  if c ≠ 0 then (bootFail s c 3, true) else
  match sectOf ws 1 with
  | none => (bootFail s 8 3, true)
  | some x =>
    let (s, ok) := bootNeed s (16 * (x.off + x.len))
    if ! ok then (s, false)
    else if ! sectOk s.start.boot.words x then (bootFail s 4 3, true)
    else (toStep (bootCopy s x) 6, true)

/-- The words of the BANK section go into bank 0 by rload (R302, R303): rules and steps follow its header line. -/
def loadBank0 (s : State) (ws : List (BitVec 32)) : State :=
  let ds := (pairWords (ws.take 6144)).zip (List.range 3072)
  { s with sl := { s.sl with banks := { s.sl.banks with
    src0 := 1
    words := ds.filterMap (fun e => if e.1 = 0 then none else some (e.2, e.1)) ++ s.sl.banks.words.filter (fun e => 4096 ≤ e.1) } } }

/-- Step 6: the BANK section goes into bank 0, and the first rswap of the start (R302). -/
def ruleStep (s : State) : State × Bool :=
  if s.start.boot.bad then (bootFail s 6 3, true) else
  match sectOf s.start.boot.words 2 with
  | none => (bootFail s 8 3, true)
  | some x =>
    let (s, ok) := bootNeed s (16 * (x.off + x.len))
    if ! ok then (s, false)
    else if ! sectOk s.start.boot.words x then (bootFail s 4 4, true)
    else
      let s := loadBank0 s (s.start.boot.words.drop (16 * x.off + 16))
      let s := bankSwap (s.setFld Fld.RB_PROF_INACT_PROFILE (imgNum s.start.boot.words 16 4))
      (toStep s 7, true)

/-! ### Discovery (R509) -/

/-- The ports that a valid entry names, with the first line of the lowest such entry. -/
def discPorts (s : State) : List (Nat × Nat) :=
  let es := amapValid s
  (List.range 32).filterMap (fun m => (es.find? (fun e => entryNames s e m)).map (fun e => (m, e * 2 ^ 24)))

/-- Discovery begins: entry 16,383 is rewritten when the image came from memory (R307; its value
DESIGN CHOICE, log entry 97), ports no entry names are OFF, ports
found in RESILVER are FAILED, and the others are read. -/
def discBegin (s : State) (r : StartRun) : State :=
  let s := if s.start.boot.src = 1 then amapWrite s 16383 (s.reg .AMAP 16383).toNat else s
  let ps := discPorts s
  let s := (List.range 32).foldl (fun u m =>
    if ps.any (fun e => e.1 == m) then u else u.setFld Fld.MP_STATE_STATE 0 m) s
  let bad := (ps.map (·.1)).filter (s.start.resil.contains ·)
  let rd := ps.filter (fun e => ! bad.contains e.1)
  let s := setRun s (some { r with phase := 1, limit := stepLimit s, disc := rd.map (·.1), discBad := bad })
  rd.foldl (fun u e => (issueOn u ⟨0, .disc e.1, e.2, (portsOf u e.2).2.2, 0, 0, false, 0, [e.1]⟩).1) s

/-- The result of discovery: ONLINE or FAILED for every port read; false where the start fails. -/
def discEnd (s : State) (r : StartRun) : State × Bool :=
  let ps := (discPorts s).map (·.1)
  let s := ps.foldl (fun u m =>
    if r.discBad.contains m then (u.setFld Fld.MP_STATE_STATE 2 m).setFld Fld.MP_ERR_FAIL 1 m
    else u.setFld Fld.MP_STATE_STATE 1 m) s
  let es := amapValid s
  let lost := r.discBad.any (fun m => es.any (fun e => entryNames s e m &&
    (match partnerIn s e m with | some q => r.discBad.contains q | none => true)))
  (s, ! lost)

/-- LIB, the rest of the image, ends step 7 (R307). -/
def libStep (s : State) : State × Bool :=
  if s.start.boot.bad then (bootFail s 6 3, true) else
  let libs := (imgSects s.start.boot.words).filter (fun x => x.kind = 3)
  let (s, ok) := bootNeed s (libs.foldl (fun a x => max a (16 * (x.off + x.len))) 0)
  if ! ok then (s, false)
  else if ! libs.all (sectOk s.start.boot.words) then (bootFail s 4 3, true)
  else (toStep ((setBoot s { s.start.boot with active := false, words := [] }).setFld Fld.BOOT_STATUS_CODE 2) 8, true)

/-- Step 7: a cold start waits for the maps; then discovery, then LIB. -/
def discStep (s : State) (r : StartRun) : State × Bool :=
  if r.phase = 0 then
    if r.kind = 0 ∧ s.fld Fld.START_CTL_MAPS_READY = 0 then (s, false) else (discBegin s r, true)
  else if r.phase = 1 then
    if r.disc ≠ [] then (s, false)
    else
      let (s, ok) := discEnd s r
      if ok then (setRun s (some { r with phase := 2 }), true) else (startFail s 5, true)
  else libStep s

/-! ### The other steps (R507, R508) -/

/-- The slice map of a cluster with the failed logics `bad` of its nine: POS, SPARE (R121). -/
def mapOf (bad : List Nat) : Nat × Nat :=
  match bad with
  | [] => (0x76543210, 8)
  | 8 :: _ => (0x76543210, 15)
  | p :: _ => (0x76543210 - p * 2 ^ (4 * p) + 8 * 2 ^ (4 * p), 15)

def failMask (bad : List Nat) : Nat := bad.foldl (fun a p => a ||| 2 ^ p) 0

/-- A cold start builds the slice map of a cluster afresh from its self-test (R121). -/
def testCluster (s : State) (t : SelfTest) (c : Nat) : State :=
  let bad := (List.range 9).filter (fun p => t.logics.contains (9 * c + p))
  let (pos, spare) := mapOf bad
  let s := ((s.setFld Fld.CL_SLMAP_POS pos c).setFld Fld.CL_SPARE_SPARE spare c).setFld Fld.CL_SPARE_FAILED (failMask bad) c
  let s := lehrWrote s [repMap c]
  let s := { s with repair := { s.repair with
    pos := SMap.set (fun _ => 0) s.repair.pos c (if bad = [] then 0 else pos + 1)
    failed := SMap.set (fun _ => 0) s.repair.failed c (failMask bad) } }
  if 2 ≤ bad.length then raiseCluster s c 0x81 c else s

/-- A word that fails the self-test: a free Cullet spare takes it, else its way is retired (R378, R385). -/
def testWord (s : State) (e : Nat × Nat) : State :=
  let (d, w) := e
  if (spareOf s d w).isSome ∨ (s.drq d).retired.contains w then s else
  match (List.range 8).find? (fun k => s.fld Fld.CULLET_VALID d k = 0) with
  | some k => culletTake s d k w 0
  | none => recordRetired (s.setDrq d { s.drq d with retired := insertSorted w (s.drq d).retired }) d

/-- The slice map of a cluster from the repair record (R121). -/
def loadCluster (s : State) (c : Nat) : State :=
  let f := SMap.getD (fun _ => 0) s.repair.failed c
  let p := SMap.getD (fun _ => 0) s.repair.pos c
  let pos := if p = 0 then 0x76543210 else p - 1
  let spare := if p = 0 ∧ f = 0 then 8 else 15
  ((s.setFld Fld.CL_SLMAP_POS pos c).setFld Fld.CL_SPARE_SPARE spare c).setFld Fld.CL_SPARE_FAILED f c

/-- The Cullet tables and retirements from the repair record (R385), which counts as empty where a word of it is uncorrectable
(R462). -/
def loadRepair (s : State) : State :=
  let (s, ok) := lehrGood s 384 1280
  let s := if ok then s else { s with repair := ⟨[], [], [], []⟩ }
  let s := s.repair.cullet.foldl (fun u e =>
    (u.setFld Fld.CULLET_WORD (e.2 - 1) (e.1 / 8) (e.1 % 8)).setFld Fld.CULLET_VALID 1 (e.1 / 8) (e.1 % 8)) s
  s.repair.retired.foldl (fun u e => u.setDrq e.1 { u.drq e.1 with retired := e.2 }) s

/-- Step 3: the repair record, and at a cold start what the self-test finds; false where it fails. -/
def repairStep (s : State) (r : StartRun) : State × Bool :=
  let s := loadRepair s
  if r.kind ≠ 0 then ((List.range 16).foldl loadCluster s, true)
  else
    let s := (List.range 16).foldl (fun u c => testCluster u r.test c) s
    let s := r.test.words.foldl testWord s
    let s := r.test.stewards.foldl stewardFail s
    (s, r.test.ok)

/-- The pages of a Drawer that hold an error; a visit of any other page changes nothing. -/
def errPages (s : State) (d : Nat) : List Nat :=
  let words := (SMap.slice s.integ.mask (wordKey .drawer d 0) 65536).map (fun e => e.1 / 32)
  let spares := (List.range 8).filterMap (fun k =>
    if s.fld Fld.CULLET_VALID d k = 1 ∧ maskOf s .spare d k ≠ 0 then some (s.fld Fld.CULLET_WORD d k / 32) else none)
  let pq := (List.range 2048).filter (fun p => pqOf s .drawer d p 0 ≠ 0 ∨ pqOf s .drawer d p 1 ≠ 0)
  (words ++ spares ++ (if s.integ.pq.isEmpty then [] else pq)).dedup

/-- Step 4 of a warm start: the verify lap over every Drawer (R160, R385). Its time is not modelled, so LAP becomes 0. -/
def verifyLap (s : State) : State :=
  (List.range 128).foldl (fun u d =>
    ((errPages u d).foldl (fun v p => scrubPageVisit v d p) u).setFld Fld.SCRUB_LAP_LAP 0 d) s

/-- Step 8: the enabled Punty ports (R507). -/
def puntyBegin (s : State) : State :=
  (List.range 4).foldl (fun u p =>
    if ! bit1 (u.fld Fld.START_CTL_PT_EN) p then u
    else if (u.ptp p).lock ≠ 0 ∧ u.fld Fld.PT_CTL_EN p = 1 then ptAttempt u p 1
    else ptEnable u p (1 + 2 * u.fld Fld.PT_CTL_CODING p + 4 * u.fld Fld.PT_CTL_BG_RETRY p)) s

/-- Every port enabled at step 8 is UP, UP_1LANE or ABSENT. -/
def puntyReady (s : State) : Bool :=
  (List.range 4).all (fun p => ! bit1 (s.fld Fld.START_CTL_PT_EN) p || s.fld Fld.PT_CTL_EN p == 0 ||
    ptUp s p || (s.ptp p).state == 5)

/-- Replay begins (R517): every slice, and the counts of REPLAY_STAT start again (R527). -/
def replayBegin (s : State) : State :=
  let s := (s.setFld Fld.REPLAY_STAT0_REPLAYED 0).setFld Fld.REPLAY_STAT1_CLOSED 0
  { s with port := { s.port with replay := List.range 128, replaying := true } }.addWork .daten

/-- A cause that is still live after a start is reported again, unless its report is still held (R413). -/
def raiseAgain (s : State) : State :=
  let one := fun (s : State) (code : Nat) (raise : State → Nat → State) =>
    (liveSubjects s code).foldl (fun u x =>
      if u.fault.held.any (fun r => r.code == code && r.subject == x) then u else raise u x) s
  let s := one s 0x08 (fun u x => raisePort u 0x08 x)
  let s := one s 0x09 (fun u x => raisePort u 0x09 x)
  let s := one s 0x0A (fun u x => raisePort u 0x0A x)
  let s := one s 0x0C (fun u x => raisePort u 0x0C x)
  let s := one s 0x27 (fun u d => raiseDrawer u d 0x27)
  let s := one s 0x28 (fun u d => raiseDrawer u d 0x28)
  let s := one s 0x41 (fun u c => raiseCluster u c 0x41 c)
  one s 0x70 (fun u p => raiseCore u 0x70 p)

/-- A start completes (R511): the counters return to 0 and START_DONE is written. -/
def startDone (s : State) (r : StartRun) : State :=
  let us := (s.lehrNow - r.began) / 1000
  let s := lehrWrote ((s.setFld Fld.START_CNT_WARM_FAIL 0).setFld Fld.START_CNT_COLD_FAIL 0) [cntWord]
  let n := if r.kind = 1 then s.fld Fld.REPLAY_STAT0_REPLAYED else 0
  setRun (startRecord s 0x56 [(r.kind, 8, 2), (min us (2 ^ 32 - 1), 10, 32), (n, 42, 17)]) none

/-- Step 10 of a cold or warm start: the transition to SERVICE begins (R30); a target found FAILED beside an ONLINE partner
is reported (R509), and a cause that is still live (R413). -/
def startService (s : State) (r : StartRun) : State :=
  let s := toStep s 10
  let s := startOSettle (forceMode s 4)
  let s := startDone s r
  let s := (List.range 32).foldl (fun u m =>
    if mpState u m = 2 ∧ (partners u m).any (fun q => mpState u q == 1) then raiseRegion u (regionOfPort m) 0x50 m else u) s
  let s := presentAgain (raiseAgain s) (fun v => v.wait == .parked)
  (List.range 64).foldl regrant s

/-- One step of a start in progress; the second part says that it moved on. Step 2 waits for the pass, step 8 for the
Punty ports, step 9 for CENSUS_DONE or the end of replay. -/
def startStep (s : State) (r : StartRun) : State × Bool :=
  let cold := r.kind = 0
  match s.fld Fld.START_STATUS_STEP with
  | 2 => if cold ∧ s.lehr.pass.any (fun p => p.reason == 0) then (s, false) else (toStep s 3, true)
  | 3 =>
    let (s, ok) := repairStep s r
    if ok then (toStep s 4, true) else (startFail s 2, true)
  | 4 => (bootBegin (toStep (if cold then s else verifyLap s) 5), true)
  | 5 => bootStep s
  | 6 => ruleStep s
  | 7 =>
    let (s, moved) := discStep s r
    if moved ∧ s.fld Fld.START_STATUS_STEP = 8 then (puntyBegin s, true) else (s, moved)
  | 8 =>
    if ! puntyReady s then (s, false)
    else if cold then (toStep s 9, false)
    else (replayBegin (toStep s 9), false)
  | 9 => if cold ∨ s.port.replaying then (s, false) else (startService s r, false)
  | _ => (s, false)

/-- A start goes on as far as it can. -/
def startRunOn : Nat → State → State
  | 0, s => s
  | fuel + 1, s =>
    match s.start.run with
    | none => s
    | some r =>
      if r.kind = 2 then s
      else
        let (s, moved) := startStep s r
        if moved then startRunOn fuel s else s

def startPoll (s : State) : State := startRunOn 16 s

/-- The mode of a start, unless the reset that began it has entered it. -/
def enterMode (s : State) (m : Nat) : State := if s.mode = m then s else setMode (preempt s) m true

/-- A start begins at step 1 (R506, R507): 0 COLD, 1 WARM, 2 WAKE. PORT and CORE are out of reset, and CORE's time base
loads from the copy (R18). -/
def startBegin (s : State) (kind : Nat) (test : SelfTest) : State :=
  let s := { s with portUp := true, coreUp := true, now := s.lehrNow, sleepReady := false
                    start := { s.start with retry := none, boot := { boot0 with fifo := s.start.boot.fifo } }
                    pt := { s.pt with heard := [], lost := [], first := false, badRun := 0 } }
  let s := if kind = 0 then (List.range 64).foldl regrant s else s
  let s := if kind = 2 then s else shadowStream s
  let s := setRun s (some ⟨kind, s.lehrNow, stepLimit s, 0, [], [], test⟩)
  let s := ((s.setFld Fld.START_STATUS_KIND kind).setFld Fld.START_STATUS_STEP 1).setFld Fld.START_STATUS_CODE 0
  let s := lehrWrote ((countRead (cmdAbort (fbClose s))).addFld Fld.START_CNT_STARTS 1) [cntWord]
  let s := startRecord s 0x54 [(kind, 8, 2), (s.fld Fld.START_CNT_COLD_FAIL, 10, 2), (s.fld Fld.START_CNT_WARM_FAIL, 12, 2)]
  if s.fld Fld.LEHR_STATUS_SELFCHK = 0 then startFail s 1
  else if kind = 0 then
    let s := toStep (enterMode ((s.setFld Fld.START_CTL_MAPS_READY 0).setFld Fld.SLEEP_STATUS_STATE 0) 2) 2
    let s := if s.fld Fld.LEHR_STATUS_LDG_VALID = 0 then lehrIrq s 7 else s
    startPass s 0 false
  else
    let s := planPoll s
    if kind = 1 then
      let s := toStep (enterMode s 3) 2
      { s with port := { s.port with replay := [], replaying := true } }
    else s

/-- Step 10 of a wake (R474, R508): MODE becomes SERVICE with no sweep, and what waited is taken. -/
def wakeService (s : State) (r : StartRun) : State :=
  let s := (setMode (toStep s 10) 4 true).setFld Fld.SLEEP_STATUS_STATE 0
  let s := lehrIrq (startDone s r) 3
  let s := (List.range 4).foldl (fun u p => if u.fld Fld.PT_CTL_EN p = 1 then ptAttempt u p 1 else u) s
  let s := presentAgain (raiseAgain s) (fun v => v.wait == .parked)
  (List.range 64).foldl regrant s

/-- The short form of a start, after a wake with retention (R508). -/
def wakeRun (s : State) : State :=
  match s.start.run with
  | none => s
  | some r =>
    let s := (List.range 16).foldl loadCluster (loadRepair (toStep s 3))
    let s := toStep s 5
    let (s, e) := lread s 0 wakeWord
    let pc := match e with | some v => v.toNat | none => 0
    if pc = 0 ∨ 0x10000 ≤ pc then startFail s 3
    else wakeService ((s.setThr 0 { thr0 with run := 1, pc := BitVec.ofNat 64 pc, last := 0x10000 }).setFld Fld.BOOT_STATUS_CODE 2) r

/-- WAKE_START (R474, R508): CORE reset is released on a wake with retention. -/
def wakeStart (s : State) : State :=
  if ! s.vaux ∨ ! s.portUp ∨ s.coreUp ∨ s.coldRst ∨ s.fld Fld.SLEEP_STATUS_STATE ≠ 4 ∨ s.fld Fld.MODE_RETAINED = 0 then s
  else wakeRun (startBegin s 2 ⟨[], [], [], true⟩)

/-! ### Resets (R26, R46, R47, R513) -/

/-- The release of a cold reset, also of one the Lehr makes itself, deasserts FAULT_N and clears FATAL (R409, R415, R506). -/
def coldClear (s : State) : State :=
  { s with fault := { s.fault with pulse := false, heldPin := false } }.setFld Fld.FC_STATUS_FATAL 0

/-- COLD_RST_N is asserted (R26): PORT and CORE are reset together; a running start fails with code RESET. -/
def coldAssert (s : State) : State :=
  if ! s.vaux ∨ s.coldRst then s else
  let s := startFail s 8
  let s := if 2 ≤ s.mode then setMode (preempt (stopSweep s)) 2 true else s.setFld Fld.MODE_RETAINED 0
  let s := portReset s
  let cut := s.lehr.pass.any (fun p => p.reason == 1)
  { s with coldRst := true, start := { s.start with retry := none },
           lehr := { s.lehr with pass := none, planDue := s.lehr.planDue || cut } }

/-- COLD_RST_N is released (R47, R507): the straps are sampled and a cold start begins, unless the self-check failed (R461)
or the attempts are exhausted (R512). -/
def coldRelease (s : State) (inst src : Nat) (test : SelfTest) : State :=
  if ! s.vaux ∨ ! s.coldRst then s else
  let s := { s with coldRst := false }
  let s := (s.setFld Fld.STRAP_INST_ID inst).setFld Fld.STRAP_PARISON_SRC src
  if s.fld Fld.LEHR_STATUS_SELFCHK = 0 ∨ s.fld Fld.START_STATUS_EXHAUSTED = 1 then s
  else startBegin (coldClear { s with lehr := { s.lehr with railReq := true } }) 0 test

/-- WARM_RST_N is asserted (R26, R46, R513): ignored with WARM_IGN in modes 0, 1 and 2, among them every cold reset. -/
def warmAssert (s : State) : State :=
  if ! s.vaux ∨ s.warmRst then s else
  let s := { s with warmRst := true }
  if s.mode < 3 then s.setFld Fld.PIN_STATUS_WARM_IGN 1
  else if s.coldRst then s
  else
    let s := startFail s 8
    coreReset (setMode (preempt (stopSweep s)) 3 true) false 1

/-- WARM_RST_N is released (R507): a warm start begins where the reset was honoured. -/
def warmRelease (s : State) : State :=
  if ! s.vaux ∨ ! s.warmRst then s else
  let s := { s with warmRst := false }
  if s.mode = 3 ∧ ! s.coreUp ∧ ! s.coldRst then startBegin s 1 ⟨[], [], [], true⟩ else s

/-! ### VAUX (R30, R461) -/

/-- VAUX comes into range: the Lehr self-check runs with its sensor readings, and the straps are sampled. COLD_RST_N is
asserted, since the rails are not yet in range (R41). -/
def vauxRise (s : State) (inst src : Nat) (xs : List (BitVec 12)) (ok lref : Bool) : State :=
  if s.vaux then s else
  let s := { s with vaux := true, coldRst := true, lehr := { s.lehr with railReq := true, lref := lref } }
  let s := (s.setFld Fld.STRAP_INST_ID inst).setFld Fld.STRAP_PARISON_SRC src
  let s := thermCheck s xs
  if ok then s.setFld Fld.LEHR_STATUS_SELFCHK 1 else raiseLehr s 0x60 1

/-- VAUX is lost: everything but the pins, the queue and the model's own count of free values is gone. -/
def vauxLoss (s : State) : State :=
  { State.reset with
    dft := s.dft, freezeIn := s.freezeIn, wakeIn := s.wakeIn, warmRst := s.warmRst, free := s.free, pending := s.pending
    port := { port0 with fp := s.port.fp.filterMap (fun (e : Nat × FPort) =>
      if e.2.link then some (e.1, { fp0 with link := true }) else none) } }

/-! ### Timeouts and retries (R507, R511, R512) -/

/-- START_STEP_TIMEOUT (R507): steps 1 to 8, but not while step 7 waits for MAPS_READY or the fetch for mailbox words. -/
def stepTimeout (s : State) : State :=
  match s.start.run with
  | none => s
  | some r =>
    let k := s.fld Fld.START_STATUS_STEP
    let waits := (k == 7 && r.phase == 0 && r.kind == 0) || (s.start.boot.active && s.start.boot.src == 0 && s.start.boot.wait)
    if 8 < k ∨ waits then s else startFail (advanceTo s (r.limit + 1)) 6

/-- MBOX_TMO (R307): the mailbox has brought no word for 100 ms. -/
def mboxTimeout (s : State) : State :=
  let b := s.start.boot
  if s.start.run.isSome ∧ b.active ∧ b.src = 0 ∧ b.wait then bootFail (advanceTo s (b.gap + 100000001)) 5 3 else s

/-- START_RETRY (R511): after RETRY_DLY the Lehr begins the next start. A cold one holds PORT and CORE in reset first. -/
def startRetry (s : State) (test : SelfTest) : State :=
  match s.start.retry with
  | none => s
  | some k =>
    if ! s.vaux ∨ s.coldRst then s else
    let s := advanceTo s s.start.retryAt
    startBegin (if k = 0 then coldClear (portReset s) else s) k test

/-- START_CTL.RETRY = 1 (R512): leaves exhaustion and begins a cold start. -/
def retryCtl (s : State) (test : SelfTest) : State :=
  if s.fld Fld.START_STATUS_EXHAUSTED = 0 ∨ s.coldRst then s else
  let s := lehrWrote (((s.setFld Fld.START_STATUS_EXHAUSTED 0).setFld Fld.START_CNT_WARM_FAIL 0).setFld Fld.START_CNT_COLD_FAIL 0)
    [cntWord]
  startBegin (coldClear (portReset s)) 0 test

/-- CENSUS_DONE (R510). -/
def censusDone (s : State) : State :=
  match cmdIs s 0x40, s.start.run with
  | some _, some r =>
    if s.mode = 2 ∧ s.fld Fld.START_STATUS_STEP = 9 then
      let n := (s.agents.filter (fun a => s.agtState a = 2)).length
      cmdEnd (startService s r) 0 n
    else cmdEnd s 0x34 0
  | some _, none => cmdEnd s 0x34 0
  | none, _ => s

/-- The instance collector takes a report; one of effective severity FATAL fails a start in progress (R511). -/
def reportRow (s : State) : State :=
  match nextReport s with
  | none => s
  | some r =>
    let s := handleReport s r
    if effSev s r.code = 3 then startFail s 7 else s

/-- BOOT_MBOX: a word is pushed onto the FIFO, or dropped with OVF (R313). The time waited for it does not count toward the
step's limit (R507). -/
def mboxPush (s : State) (w : BitVec 32) : State :=
  let b := s.start.boot
  if 16 ≤ b.fifo.length then s.setFld Fld.BOOT_MBOX_STAT_OVF 1
  else
    let s := setBoot s { b with fifo := b.fifo ++ [w] }
    match s.start.run with
    | some r => if b.wait ∧ b.src = 0 then setRun s (some { r with limit := r.limit + (s.lehrNow - b.gap) }) else s
    | none => s

/-- BOOT_MBOX_POP: the head, 0 when the FIFO is empty (R313). -/
def mboxPop (s : State) : State × BitVec 32 :=
  let b := s.start.boot
  match b.fifo with
  | w :: l => (setBoot s { b with fifo := l }, w)
  | [] => (s, 0)

end Sys2Proof.Machine
end

