-- ==== Sys2Proof/Machine/RegPort.lean ====
section
/-! DEFINITION. The register window as the register port (R48) and cr and cw (R267, R268) reach it: what each read returns,
what reads clear and claim, what each write does, the holding registers of 64-bit registers (R7, R8), the access codes (R3 to
R6), and the diagnostic array window (R546 to R548). -/

namespace Sys2Proof.Machine

/-! ### LIVE fields -/

/-- A word with the given fields replaced. -/
def overlay (w : BitVec 64) (l : List (Fld × Nat)) : BitVec 64 := l.foldl (fun a e => (a &&& ~~~ e.1.mask) ||| e.1.put e.2) w

def countIf {α : Type} (l : List α) (p : α → Bool) : Nat := (l.filter p).length

/-- The present conditions of the registers at 0x00_0000 and of the LEHR domain. -/
def liveLehr (s : State) (r : RegName) (i : Nat) : List (Fld × Nat) :=
  match r with
  | .MODE => [(Fld.MODE_BUSY, b2n (modeBusy s))]
  | .PIN_STATUS => [(Fld.PIN_STATUS_HOME_READY, b2n (homeReady s)), (Fld.PIN_STATUS_HOME_KEEP, b2n (homeKeep s)),
      (Fld.PIN_STATUS_FAULT_N, b2n (! faultPin s)), (Fld.PIN_STATUS_FREEZE_IN, b2n s.freezeIn),
      (Fld.PIN_STATUS_FREEZE_OUT, b2n (freezeOut s)), (Fld.PIN_STATUS_WAKE_IN, s.wakeIn.toNat),
      (Fld.PIN_STATUS_RAIL_REQ, b2n (railReq s)), (Fld.PIN_STATUS_LREF_LOCK, b2n (s.lehr.lref && Config.lrefLock s.lehrNow))]
  | .LEHR_STATUS => [(Fld.LEHR_STATUS_CTEL_USED, b2n (ctelUsed s))]
  | .THERM_BAD => [(Fld.THERM_BAD_EXCL, maskOfB 32 (fun k => s.lehr.excl.contains k))]
  | .THERM_RGN => [(Fld.THERM_RGN_T, (List.range 4).foldl (fun a k => a + regionDeg s k * 2 ^ (8 * k)) 0)]
  | .THERM_S => [(Fld.THERM_S_TEMP, unsignedOf 12 (tempOf s i).floor)]
  | .GOV_STATUS => [(Fld.GOV_STATUS_SLOT, slotNow s % 64)]
  | .GOV_PKG => [(Fld.GOV_PKG_SHARE, pkgShare s)]
  | .MGN_GEN => [(Fld.MGN_GEN_BUSY, b2n s.lehr.pass.isSome)]
  | .START_STATUS => [(Fld.START_STATUS_RUNNING, b2n s.start.run.isSome)]
  | .FC_STATUS => [(Fld.FC_STATUS_LIVE, b2n (recordLive s))]
  | .FC_FIRST => [(Fld.FC_FIRST_LIVE, b2n (firstLive s))]
  | .FC_PIN_CTL => [(Fld.FC_PIN_CTL_PULSE, b2n s.fault.pulse), (Fld.FC_PIN_CTL_HELD, b2n s.fault.heldPin)]
  | .FC_RECOV => [(Fld.FC_RECOV_CLASS, recovClasses s)]
  | .NQ_FB_STAT => [(Fld.NQ_FB_STAT_COUNT, s.fb.recs.length)]
  | .START_CNT => if wordLook s .lehr 0 cntWord = none then
      [(Fld.START_CNT_WARM_FAIL, 0), (Fld.START_CNT_COLD_FAIL, 0), (Fld.START_CNT_STARTS, 0)] else []
  | _ => []

/-- Queue, interrupt and Punty registers, and the other CORE registers below 0x08_0000. -/
def liveCore (s : State) (r : RegName) (i : Nat) : List (Fld × Nat) :=
  match r with
  | .SWEEP_STATUS => [(Fld.SWEEP_STATUS_ACTIVE, b2n (modeBusy s))]
  | .RB_STATUS => [(Fld.RB_STATUS_DRAINING, b2n (draining s)), (Fld.RB_STATUS_SWAPPING, b2n (swapping s)), (Fld.RB_STATUS_OLD, oldCount s)]
  | .BOOT_MBOX_STAT => [(Fld.BOOT_MBOX_STAT_COUNT, s.start.boot.fifo.length),
      (Fld.BOOT_MBOX_STAT_WAIT, b2n (s.start.boot.active && s.start.boot.src == 0 && s.start.boot.wait))]
  | .IC_PEND => [(Fld.IC_PEND_PEND, maskOfB 32 (fun k => s.irq.pend.contains (32 * i + k)))]
  | .NQ_STATUS => [(Fld.NQ_STATUS_OCC, nqOcc s), (Fld.NQ_STATUS_ABOVE, b2n (nqAbove s)),
      (Fld.NQ_STATUS_LOCK, b2n s.nq.lock.isSome), (Fld.NQ_STATUS_LOCK_RING, s.nq.lock.getD 0)]
  | .NQ_MARK => [(Fld.NQ_MARK_VALID, maskOfB 8 (fun k => match (s.ringE k).mark with | .valid _ _ => true | _ => false))]
  | .NQ_RING_STAT => [(Fld.NQ_RING_STAT_OCC, ringOcc s i), (Fld.NQ_RING_STAT_PKTS, (s.ringE i).pkts),
      (Fld.NQ_RING_STAT_GAP, b2n (ringGap s i))]
  | .PT_STATUS => [(Fld.PT_STATUS_STATE, (s.ptp i).state), (Fld.PT_STATUS_ATTEMPT, (s.ptp i).attempt),
      (Fld.PT_STATUS_LOCK, (s.ptp i).lock)]
  | .PT_PKG => [(Fld.PT_PKG_N, s.pt.n)]
  | .PT_TSYNC => [(Fld.PT_TSYNC_DIST, ptDist s), (Fld.PT_TSYNC_UPSTREAM, ptUpstream s)]
  | .TEL_STATUS => [(Fld.TEL_STATUS_BUSY, b2n (telBusy s))]
  | _ => []

/-- PORT registers. -/
def livePort (s : State) (r : RegName) (i : Nat) : List (Fld × Nat) :=
  match r with
  | .FP_STATUS => [(Fld.FP_STATUS_LINK_UP, b2n (s.fport i).link), (Fld.FP_STATUS_GRANTED, b2n (granted s i)),
      (Fld.FP_STATUS_TXC_SNP, (s.fport i).txSnp), (Fld.FP_STATUS_TXC_RSP, (s.fport i).txRsp),
      (Fld.FP_STATUS_TXC_DAT, (s.fport i).txDat)]
  | .HOLD_STATUS =>
    let n := countIf s.port.hold (fun e => e.2.used)
    [(Fld.HOLD_STATUS_OCC, min n 32767), (Fld.HOLD_STATUS_FULL, b2n (decide (32768 ≤ n)))]
  | .RS_STATUS => [(Fld.RS_STATUS_VALID, countIf s.port.recs (fun e => e.2.valid)),
      (Fld.RS_STATUS_REPLAY, b2n (! s.port.replay.isEmpty))]
  | .AGT_EVT => match s.port.evt.find? (fun e => e.2 ≠ 0) with
    | some (a, m) => [(Fld.AGT_EVT_NEXT, a), (Fld.AGT_EVT_CAUSES, m), (Fld.AGT_EVT_ANY, 1)]
    | none => []
  | .RECLAIM_STATUS => [(Fld.RECLAIM_STATUS_BUSY, b2n (reclaiming s)), (Fld.RECLAIM_STATUS_CLOSING, b2n s.port.closing),
      (Fld.RECLAIM_STATUS_PEND, min 1023 s.port.deaths.length)]
  | .REPLAY_STAT2 => [(Fld.REPLAY_STAT2_KEPT, countIf s.port.fan (fun e => e.2.kept && ! e.2.open_.isEmpty))]
  | _ => []

/-- Memory-side and cluster registers. -/
def liveMem (s : State) (r : RegName) (i j : Nat) : List (Fld × Nat) :=
  match r with
  | .MP_STATE => [(Fld.MP_STATE_OUT, (s.mport i).out.length)]
  | .ARB_PROG => [(Fld.ARB_PROG_PROG, (List.range 4).foldl (fun a k =>
      a + SMap.getD (fun _ => 0) (s.mport i).prog (4 * j + k) % 256 * 2 ^ (8 * k)) 0)]
  | .BULK_STATUS =>
    let b := s.bulkE i
    [(Fld.BULK_STATUS_QUEUED, bulkQueued b), (Fld.BULK_STATUS_OP, match b.run with | some x => x.op | none => 0)]
  | .BULK_CUR => [(Fld.BULK_CUR_DONE, match (s.bulkE i).run with | some x => x.done | none => 0)]
  | .CL_ADOPT => if s.sl.adopting.any (fun e => e.1 / 8 == i) then [(Fld.CL_ADOPT_STATUS, 3)] else []
  | .CL_SPARE => [(Fld.CL_SPARE_ADOPTING, b2n (s.sl.adopting.any (fun e => e.1 / 8 == i)))]
  | .STW_STATUS =>
    [(Fld.STW_STATUS_STATE, (List.range 4).foldl (fun a k => a + threadState s (4 * i + k) * 2 ^ (2 * k)) 0),
     (Fld.STW_STATUS_IN_TRAP, maskOfB 4 (fun k => (s.thr (4 * i + k)).inTrap))]
  | .HUTCH_STATUS =>
    let h := s.hut i
    [(Fld.HUTCH_STATUS_VALID, countIf h.ent (fun e => e.2.valid)),
     (Fld.HUTCH_STATUS_DIRTY, countIf h.ent (fun e => e.2.valid && e.2.dirty)),
     (Fld.HUTCH_STATUS_EVB, countIf h.evb (fun e => e.2.isSome)), (Fld.HUTCH_STATUS_BLOCKED, b2n h.miss.isSome)]
  | _ => []

/-- Slice logic registers: ROLE 0 SERVING, 1 SPARE, 2 FAILED, 3 ADOPTING (R123). With ROLE 1 or 2 LSLICE is not valid and reads 0,
DESIGN CHOICE (log entry 98). -/
def liveSlice (s : State) (r : RegName) (l : Nat) : List (Fld × Nat) :=
  let n := servedBy s l
  let failed := bit1 (s.fld Fld.CL_SPARE_FAILED (l / 9)) (l % 9)
  let ents := match n with | some n => if failed then [] else trkOfSlice s n | none => []
  match r with
  | .SL_STATUS =>
    let role := if failed then 2 else match n with
      | none => 1
      | some n => if s.sl.adopting.any (fun e => e.1 == n) then 3 else 0
    [(Fld.SL_STATUS_LSLICE, if role = 0 ∨ role = 3 then n.getD 0 else 0), (Fld.SL_STATUS_ROLE, role),
     (Fld.SL_STATUS_CQ_RSVD, match n with | some n => b2n (! failed && ! (s.slq n).reserved.isEmpty) | none => 0)]
  | .SL_OCC => [(Fld.SL_OCC_TOTAL, countIf ents (fun e => e.2.valid)),
      (Fld.SL_OCC_SNP, countIf ents (fun e => e.2.valid && e.2.cls == 1)),
      (Fld.SL_OCC_MNT, countIf ents (fun e => e.2.valid && e.2.cls == 2))]
  | .SL_CQ =>
    let k := match n with | some n => if failed then 0 else (s.slq n).cq.length | none => 0
    [(Fld.SL_CQ_OCC, k), (Fld.SL_CQ_FULL, b2n (decide (32 ≤ k)))]
  | _ => []

/-- Drawer registers. The blind table shows through CAB_BLINDi (R166). -/
def liveDrawer (s : State) (r : RegName) (d j : Nat) : List (Fld × Nat) :=
  let q := s.drq d
  let b := SMap.getD (fun _ => blind0) q.blind j
  match r with
  | .CAB_OCC_FINE => [(Fld.CAB_OCC_FINE_COUNT, countWords s d (fun c => c.grain == 1))]
  | .CAB_OCC_COARSE => [(Fld.CAB_OCC_COARSE_COUNT, countWords s d (fun c => c.grain == 2))]
  | .CAB_OCC_O => [(Fld.CAB_OCC_O_COUNT, countWords s d (fun c => c.grain != 0 && c.state == 4))]
  | .CAB_OCC_F => [(Fld.CAB_OCC_F_COUNT, countWords s d (fun c => c.grain != 0 && c.state == 2))]
  | .CAB_STATE => [(Fld.CAB_STATE_BLIND_ALL, b2n q.blindAll), (Fld.CAB_STATE_BLIND_N, countIf q.blind (fun e => e.2.state != 0)),
      (Fld.CAB_STATE_REBUILDING, b2n (q.blind.any (fun e => e.2.state == 2)))]
  | .CAB_BLIND_A => [(Fld.CAB_BLIND_A_SET, b.set), (Fld.CAB_BLIND_A_STATE, b.state), (Fld.CAB_BLIND_A_CAUSE, b.cause)]
  | .CAB_BLIND_B => [(Fld.CAB_BLIND_B_CURSOR, b.cursor)]
  | .SCRUB_POS => [(Fld.SCRUB_POS_PAGE, q.scrubPage)]
  | .SI_RPT => [(Fld.SI_RPT_OCC, countIf q.rpt (fun x => decide (s.now < x.time + x.win)))]
  | .SI_RETIRED => [(Fld.SI_RETIRED_COUNT, q.retired.length)]
  | _ => []

/-- An agent-table entry as AGT_DATA shows it; one that cannot be read counts as DEAD (R368). -/
def agtShown (s : State) (a : Nat) : Nat :=
  match wordLook s .agt 0 a with
  | some (d, _) => s.agtW a ^^^ d
  | none => s.agtW a / 8 * 8 + 4

/-- A register's word as a read finds it, before access codes. -/
def liveWord (s : State) (r : RegName) (i j : Nat) : BitVec 64 :=
  if r = .AGT_DATA then BitVec.ofNat 64 (agtShown s (s.fld Fld.AGT_IDX_IDX))
  else if r = .AMAP then BitVec.ofNat 64 (amapW s i)
  else if r = .HMAP then BitVec.ofNat 64 (hmapW s i)
  else if r = .STW_PC then stwPcRead s (4 * i + j)
  else
    let w := s.reg r i j
    match r.desc.dom with
    | .lehr => overlay w (liveLehr s r i)
    | .port => overlay w (livePort s r i)
    | _ =>
      if r.desc.base < 0x080000 then overlay w (liveCore s r i)
      else if r.desc.base < 0x400000 then overlay w (liveMem s r i j)
      else if r.desc.base < 0x700000 then overlay w (liveSlice s r i)
      else overlay w (liveDrawer s r i j)

/-! ### The diagnostic array window (R546 to R548) -/

/-- The array that DIAG_CTL names: store, unit, data words, and the index of its word 0 in the store; none for a code that
names none or a UNIT outside it. -/
def diagArray (s : State) : Option (Store × Nat × Nat × Nat) :=
  let u := s.fld Fld.DIAG_CTL_UNIT
  match s.fld Fld.DIAG_CTL_ARRAY with
  | 0 => if u < 128 then some (.drawer, u, 65536, 0) else none
  | 1 => if u < 144 then some (.trk, u, 512, 0) else none
  | 2 => if u < 144 then some (.rb, u, 3072, 4096 * s.fld Fld.DIAG_CTL_BANK) else none
  | 3 => if u < 64 then some (.stw, u, 8192, 0) else none
  | 4 => some (.nq, 0, 8192, 0)
  | _ => none

/-- The data last written at the physical word of a store; `page` takes a Drawer word from its Cullet spare, as the page code
does (R370). -/
def diagData (s : State) (st : Store) (u k : Nat) (page : Bool) : Nat :=
  match st with
  | .drawer => if page then drawerW s u k else (SMap.getD (fun _ => (0 : BitVec 120)) s.cab.words (u * 65536 + k)).toNat
  | .spare => (SMap.getD (fun _ => (0 : BitVec 120)) s.cab.spare (u * 8 + k)).toNat
  | .trk => (trkStored s u k).toNat
  | .rb => (bankWord s (k / 4096) (k % 4096)).toNat
  | .stw => (s.lword u k).toNat
  | .nq => (slotW s k).toNat
  | _ => 0

/-- The stored bits at word `w` of the selected array: data words, then P and Q of each page, then a Drawer's spares. -/
def diagStored (s : State) (st : Store) (u d base w : Nat) : Option Nat :=
  let n := st.bits
  if w < d then some (encWord n (diagData s st u (base + w) false) ^^^ maskOf s st u (base + w))
  else if w < d + 2 * (d / 32) then
    let p := (w - d) / 2
    let ws := (List.range 32).map (fun k => encWord n (diagData s st u (base + 32 * p + k) true))
    let page := (base + 32 * p) / 32
    if (w - d) % 2 = 0 then some (pageP ws ^^^ pqOf s st u page 0) else some (pageQ (storedBytes n) ws ^^^ pqOf s st u page 1)
  else if st = .drawer ∧ 69632 ≤ w ∧ w < 69640 then
    some (encWord n (diagData s .spare u (w - 69632) false) ^^^ maskOf s .spare u (w - 69632))
  else none

/-- A read of the window at an offset from 0x80_0000 (R547, R548). -/
def diagRead (s : State) (off : Nat) : BitVec 32 :=
  if s.mode ≠ 7 ∨ s.fld Fld.DIAG_CTL_EN = 0 ∨ ! s.coreUp then 0 else
  match diagArray s with
  | none => 0
  | some (st, u, d, base) =>
    match diagStored s st u d base ((off - 0x800000) / 32) with
    | none => 0
    | some v =>
      let k := off % 32 / 4
      let data := v % 2 ^ st.bits
      if k < 4 then BitVec.ofNat 32 (bits data (32 * k) 32)
      else if k = 4 then BitVec.ofNat 32 (v / 2 ^ st.bits % 512)
      else 0

/-! ### Reads -/

/-- The domain of a register answers (R48). -/
def domUp (s : State) (d : Dom) : Bool :=
  s.vaux && (match d with | .lehr => true | .port => s.portUp | _ => s.coreUp)

def loHalf (w : BitVec 64) : BitVec 32 := w.setWidth 32
def hiHalf (w : BitVec 64) : BitVec 32 := (w >>> 32).setWidth 32

/-- A read of a 32-bit register by the register port (`src` none) or a steward thread. -/
def regRead32 (s : State) (src : Option Nat) (r : RegName) (i j : Nat) : State × BitVec 32 :=
  match r with
  | .NQ_RD0 => let s := nqPop s; (s, BitVec.ofNat 32 (s.fld Fld.NQ_RD0_BITS))
  | .NQ_FB_RD0 => let s := fbPop s; (s, BitVec.ofNat 32 (s.fld Fld.NQ_FB_RD0_BITS))
  | .BOOT_MBOX_POP => mboxPop s
  | .IC_CLAIMT => let (s, v) := icClaim s i; (s, BitVec.ofNat 32 v)
  | .IC_CLAIM => match src with
    | some t => let (s, v) := icClaim s (t / 4); (s, BitVec.ofNat 32 v)
    | none => (s, 0x3FF)
  | _ =>
    let v := r.shown (liveWord s r i j)
    let w := s.reg r i j
    let w' := r.afterRead w (BitVec.allOnes 64)
    let s := if w' = w then s else s.setReg r w' i j
    (if r = .HOLD_STATUS then holdHwm s else s, loHalf v)

/-- A read of a word of a 64-bit register (R7). -/
def regRead64 (s : State) (r : RegName) (i j half : Nat) : State × BitVec 32 :=
  let v := r.shown (liveWord s r i j)
  let a := r.addr i j
  if half = 0 then
    ({ s with hiLatch := SMap.set (fun _ => none) s.hiLatch a (some (hiHalf v)) }, loHalf v)
  else match SMap.getD (fun _ => none) s.hiLatch a with
    | some h => (s, h)
    | none => (s, hiHalf v)

/-- A read of the window (R3 to R7, R48, R548). -/
def regRead (s : State) (src : Option Nat) (off : Nat) : State × BitVec 32 :=
  if 0x800000 ≤ off then (s, diagRead s off) else
  match locate off with
  | none => (s, 0)
  | some (r, i, j, half) =>
    if ! domUp s r.desc.dom then (s, 0)
    else if r.desc.words = 2 then regRead64 s r i j half
    else regRead32 s src r i j

/-! ### Writes -/

/-- A write under the access codes alone (R3). -/
def plainWrite (s : State) (r : RegName) (v : BitVec 64) (i j : Nat) : State :=
  s.setReg r (r.written (s.reg r i j) v (BitVec.allOnes 64)) i j

/-- A write of an injector register (R383, R392): ARM = 1 outside TEST is ignored whole and sets REFUSED. -/
def injWrite (s : State) (r : RegName) (refused : Fld) (v i j : Nat) : State :=
  if bit1 v 9 ∧ s.mode ≠ 7 then s.setFld refused 1 i j else plainWrite s r (BitVec.ofNat 64 v) i j

/-- A write of FC_SRCs (R398, R423). -/
def faultSrcWrite (s : State) (k v : Nat) : State :=
  if faultSrc k = none then s
  else
    let sev := s.fld Fld.FC_SRC_SEV k
    let s := plainWrite s .FC_SRC (BitVec.ofNat 64 v) k 0
    if faultFixed k then s.setFld Fld.FC_SRC_SEV sev k else s

/-- A write of a local collector's LC_FIRST (R424): VALID clears the whole record. -/
def lcWrite (s : State) (first time : RegName) (v i : Nat) : State :=
  if bit1 v 8 then (s.setReg first 0 i).setReg time 0 i else s

/-- Pending bits set or cleared through IC_PENDi or IC_PCLRi (R456). -/
def pendWrite (s : State) (k v : Nat) (set : Bool) : State :=
  (List.range 32).foldl (fun u b =>
    if bit1 v b then (if set then irqSet u (32 * k + b) else irqClear u (32 * k + b)) else u) s

/-- A steward's write of an agent-table entry through AGT_DATA (R268). A new binding waits for its own first heartbeat (R87). LIVE
presents what the agent's requests wait with, and any other state after BINDING refuses them (R63); DEAD closes its targets and
a reclaim runs until RECLAIMED (R208, R217, R234). -/
def agtDataWrite (s : State) (w : Nat) : State :=
  let a := s.fld Fld.AGT_IDX_IDX
  let old := s.agtState a
  let new := w % 8
  let bound := fun (st : Nat) => st = 1 ∨ st = 2 ∨ st = 3
  let s := agtWrite s a w
  let s := if bound new ∧ ¬ bound old then { s with port := { s.port with
      dfHeard := SMap.set (fun _ => false) s.port.dfHeard a false, hbNext := SMap.set (fun _ => 0) s.port.hbNext a 0 } } else s
  let s := if new = 5 ∧ s.port.dying.map (·.1) = some a then { s with
      port := { s.port with dying := none }, walks := s.walks.filter (fun w => w.kind ≠ 2 ∧ w.kind ≠ 12) } else s
  if new = 2 then toLive s a
  else if new = 4 ∧ old ≠ 4 then closeAgent (s.setFld Fld.RECLAIM_STATUS_AGENT a) a
  else if old = 1 ∧ new ≠ 1 then
    (heldBy s (fun v => v.wait == .binding && v.hdr.agent.toNat == a)).foldl refuseHeld s
  else s

/-- A steward thread runs the commands of the window (R280, R447): thread 3 of steward 0, or of the steward that hosts it. -/
def runsCmds (s : State) (t : Nat) : Bool :=
  t % 4 == 3 && (t / 4 == 0 || (s.fld Fld.STW_STATUS_HOSTING (t / 4) == 1 && s.fld Fld.STW_STATUS_HOSTED (t / 4) == 0))

/-- A SL_TRK_IDX write copies the entry (R129). -/
def trkCopy (s : State) (l e : Nat) : State :=
  let w := (trkStored s l e).toNat
  (List.range 4).foldl (fun u k => u.setFld Fld.SL_TRK_DATA_BITS (bits w (32 * k) 32) l k) s

/-- FC_STATUS (R415): DENIED clears where 1, and FAULT is decided under R404. -/
def faultStatusWrite (s : State) (v : Nat) : State :=
  let s := if bit1 v 5 then s.setFld Fld.FC_STATUS_DENIED 0 else s
  if bit1 v 0 then fcClear s else s

/-- FC_PIN_CTL (R407, R418). -/
def pinCtlWrite (s : State) (v : Nat) : State :=
  let s := plainWrite s .FC_PIN_CTL (BitVec.ofNat 64 v) 0 0
  let s := if bit1 v 0 then s else { s with fault := { s.fault with heldPin := false } }
  if bit1 v 1 then fcRelease s else s

/-- FRZ_CTL (R541): REARM, then TRIG. -/
def frzCtlWrite (s : State) (v : Nat) : State :=
  let s := plainWrite s .FRZ_CTL (BitVec.ofNat 64 v) 0 0
  let s := if bit1 v 1 then frzRearm s else s
  if bit1 v 0 then frzTrig s else s

/-- HUTCH_CTL (R330). -/
def hutchCtlWrite (s : State) (c v : Nat) : State :=
  hutEnWrite (((s.setFld Fld.HUTCH_CTL_PF (bits v 1 1) c).setFld Fld.HUTCH_CTL_TICK (bits v 8 8) c)) c (v % 2)

/-- START_CTL (R525): RETRY begins a cold start whose self-test finds what `test` says. -/
def startCtlWrite (s : State) (v : Nat) (test : SelfTest) : State :=
  let s := plainWrite s .START_CTL (BitVec.ofNat 64 v) 0 0
  if bit1 v 5 then retryCtl s test else s

/-- A self-test that finds nothing. -/
def testClean : SelfTest := ⟨[], [], [], true⟩

/-- Writes with an action of the LEHR domain. -/
def writeLehr (s : State) (src : Option Nat) (r : RegName) (v i j : Nat) : State :=
  let plain := plainWrite s r (BitVec.ofNat 64 v) i j
  match r with
  | .MODE_REQ => modeReqWrite s v
  | .SLEEP_CTL => if bit1 v 8 then wakeFire plain 2 else plain
  | .THERM_CTL | .GOV_CTL | .GOV_ILIM => govConds plain
  | .MGN_CTL => if bit1 v 24 then mgnGo plain else plain
  | .LDG_CTL => ldgCtl s v
  | .START_CTL => startCtlWrite s v testClean
  | .FC_STATUS => faultStatusWrite s v
  | .FC_PIN_CTL => pinCtlWrite s v
  | .FC_INJ => if bit1 v 24 then fcInject plain else plain
  | .FC_SRC => faultSrcWrite s i v
  | .CMD_GO => if bit1 v 0 then cmdGo plain else plain
  | .CMD_POST => match src with
    | some t => if runsCmds s t then cmdPost s v else s
    | none => s
  | .CMD_POST_VAL => match src with
    | some t => if runsCmds s t then s.setFld Fld.CMD_POST_VAL_VALUE v else s
    | none => s
  | .DIE_INJ_L => injWrite s r Fld.DIE_INJ_L_REFUSED v 0 0
  | _ => plain

/-- Writes with an action of the PORT domain. -/
def writePort (s : State) (src : Option Nat) (r : RegName) (v i j : Nat) : State :=
  let plain := plainWrite s r (BitVec.ofNat 64 v) i j
  match r with
  | .FP_CTL => fpEnWrite s i v
  | .PC_BIID => { plain with port := { plain.port with biidSet := true } }
  | .HMAP => hmapWrite s i v
  | .ADOPT_WIN_A | .ADOPT_WIN_B => if src.isSome then s.setReg r (BitVec.ofNat 64 v &&& r.accMask (fun _ => true)) i 0 else s
  | .DIE_INJ_P => injWrite s r Fld.DIE_INJ_P_REFUSED v i 0
  | _ => plain

/-- Writes with an action of the CORE domain below the clusters. -/
def writeCore (s : State) (src : Option Nat) (r : RegName) (v i j : Nat) : State :=
  let plain := plainWrite s r (BitVec.ofNat 64 v) i j
  match r with
  | .BOOT_MBOX => mboxPush s (BitVec.ofNat 32 v)
  | .RLC_FIRST => lcWrite s r .RLC_TIME v i
  | .IC_PEND => pendWrite s i v true
  | .IC_PCLR => pendWrite s i v false
  | .NQ_CTL => nqEnWrite s (v % 2)
  | .NQ_RING => if s.fld Fld.NQ_CTL_EN = 1 then s else plain
  | .NQ_DROP_PKT => if bit1 v 0 then nqDropPkt s else s
  | .NQ_MARK => if bit1 v 3 then nqMark plain (v % 8) else plain
  | .NQ_REWIND => if bit1 v 3 then nqRewind plain (v % 8) else plain
  | .PT_CTL => ptEnable s i v
  | .FRZ_CTL => frzCtlWrite s v
  | .MP_STATE | .ARB_MODE | .ARB_PRIO | .ARB_PRIO2 => plain.addWork (.arb i)
  | .BULK_GO => match src with
    | some t => bulkGo s i t v
    | none => s
  | .DIE_INJ_NQ => injWrite s r Fld.DIE_INJ_NQ_REFUSED v 0 0
  | _ => plain

/-- Writes with an action of a cluster, a slice logic or a Drawer. -/
def writeUnit (s : State) (src : Option Nat) (r : RegName) (v i j : Nat) : State :=
  let plain := plainWrite s r (BitVec.ofNat 64 v) i j
  match r with
  | .CL_ADOPT => if bit1 v 3 then clAdopt s i (v % 8) else s
  | .SL_WDOG => match servedBy s i with
    | some n => plain.setSlq n { plain.slq n with wdog := s.now }
    | none => plain
  | .STW_CTL => stwCtl plain i (v % 16) (bits v 4 4)
  | .STW_STATUS => if src.isSome then
      (s.setFld Fld.STW_STATUS_HOSTING (bits v 13 1) i).setFld Fld.STW_STATUS_HOSTED (bits v 14 4) i else s
  | .HUTCH_CTL => hutchCtlWrite s i v
  | .HUTCH_MAINT => if bit1 v 16 then maintGo plain i src else plain
  | .CL_INJ => injWrite s r Fld.CL_INJ_REFUSED v i j
  | .CLC_FIRST => lcWrite s r .CLC_TIME v i
  | .SLC_FIRST => lcWrite s r .SLC_TIME v i
  | .SL_TRK_IDX => trkCopy plain i (v % 512)
  | .SI_INJ => injWrite s r Fld.SI_INJ_REFUSED v i 0
  | .CAB_BLIND_A => if src.isSome then
      let q := s.drq i
      s.setDrq i { q with blind := SMap.upd (fun _ => blind0) q.blind j (fun b => { b with state := bits v 12 2 }) } else s
  | .CAB_BLIND_B => if src.isSome then
      let q := s.drq i
      s.setDrq i { q with blind := SMap.upd (fun _ => blind0) q.blind j (fun b => { b with cursor := bits v 0 26 }) } else s
  | _ => plain

/-- A write of a 32-bit register. -/
def regWrite32 (s : State) (src : Option Nat) (r : RegName) (v i j : Nat) : State :=
  match r.desc.dom with
  | .lehr => writeLehr s src r v i j
  | .port => writePort s src r v i j
  | _ => if r.desc.base < 0x100000 then writeCore s src r v i j else writeUnit s src r v i j

/-- Both words of a 64-bit register taken together (R8). -/
def regWrite64 (s : State) (src : Option Nat) (r : RegName) (v : BitVec 64) (i j : Nat) : State :=
  match r with
  | .AMAP => amapWrite s i v.toNat
  | .AGT_DATA => if src.isSome then agtDataWrite s v.toNat else s
  | .STW_PC => stwPcWrite s (4 * i + j) v
  | .GOV_CEIL => govConds (plainWrite s r v i j)
  | _ => plainWrite s r v i j

/-- A low word is held and armed, a high word takes both where armed (R8). -/
def regWriteHalf (s : State) (src : Option Nat) (r : RegName) (v : BitVec 32) (i j half : Nat) : State :=
  let a := r.addr i j
  if half = 0 then { s with wrHold := SMap.set (fun _ => none) s.wrHold a (some v) }
  else match SMap.getD (fun _ => none) s.wrHold a with
    | some lo => regWrite64 { s with wrHold := SMap.set (fun _ => none) s.wrHold a none } src r (v ++ lo) i j
    | none => s

/-- A write of the window by the register port (`src` none) or a steward thread (R3 to R8, R48, R268, R548). -/
def regWrite (s : State) (src : Option Nat) (off : Nat) (v : BitVec 32) : State :=
  if 0x800000 ≤ off then s else
  match locate off with
  | none => s
  | some (r, i, j, half) =>
    if ! domUp s r.desc.dom then s
    else if r.desc.words = 2 then regWriteHalf s src r v i j half
    else regWrite32 s src r v.toNat i j

/-! ### cr and cw (R267) -/

def crOk (e : Nat) : Bool := e / 2 ^ 24 == 0 || (e / 2 ^ 24 == 0x80 && e / 4096 % 4096 == 0)

/-- cr: bits [10:0] and gb are reserved (the offset stands in the extension word). -/
def crIns (s : State) (t : Nat) (i : Ins) : State :=
  issueIns s t 0x30 i (i.gb ≠ 0 ∨ i.fn ≠ 0) (fun s =>
    let e := crAddr s t i
    if ! crOk e then trap s t 7 (BitVec.ofNat 64 e)
    else if e < 2 ^ 24 then
      if e % 4 ≠ 0 then trap s t 3 (BitVec.ofNat 64 e)
      else
        let (s, v) := regRead s (some t) e
        retGd s t i (v.setWidth 64)
    else match tcrRead s t (e % 4096) with
      | some v => retGd s t i v
      | none => trap s t 7 (BitVec.ofNat 64 e))

def cwIns (s : State) (t : Nat) (i : Ins) : State :=
  issueIns s t 0x31 i (i.gd ≠ 0 ∨ i.fn ≠ 0) (fun s =>
    let e := crAddr s t i
    if ! crOk e then trap s t 7 (BitVec.ofNat 64 e)
    else if e < 2 ^ 24 then
      if e % 4 ≠ 0 then trap s t 3 (BitVec.ofNat 64 e)
      else advance (regWrite s (some t) e ((gbV s t i).setWidth 32)) t (insLen i)
    else match tcrWrite s t (e % 4096) (gbV s t i) with
      | some s => advance s t (insLen i)
      | none => trap s t 7 (BitVec.ofNat 64 e))

end Sys2Proof.Machine
end

