-- ==== Sys2Proof/Machine/Finish.lean ====
section
/-! DEFINITION. The run of one command: its own effect, then what the block does by itself until it has nothing left to do
at this instant (the programs of the parison image, sweeps, the Hutch and memory work the effect set going), then the edge
detection of the interrupt sources. -/

namespace Sys2Proof.Machine

/-- Nothing in the block waits to go on by itself: no work in hand, no freeze to take, no sweep, walk, command, start,
confirmation or death under way, no thread that waits for a message or a fence, no adoption window or blind set for a
census, no way to retire, no failed steward to host, no bulk descriptor to begin. -/
def restful (s : State) : Bool :=
  s.work.isEmpty && s.frzReq == 0 && s.pt.deadMsgs.isEmpty &&
  (match s.sl.banks.swap with | some (_, t) => decide (s.now < t) | none => true) && s.walks.isEmpty && s.cmd.isNone && s.start.run.isNone && s.conf.isEmpty &&
  s.port.evt.isEmpty && s.port.deaths.isEmpty && s.port.dying.isNone && s.fault.sticky.isEmpty && s.mode != 5 &&
  s.stw.thr.all (fun e => match e.2.blk with | .mwait .. => false | .fence => false | _ => true) &&
  s.cab.dr.all (fun e => ! e.2.blindAll && e.2.blind.isEmpty && e.2.retiring.isEmpty) &&
  (List.range 16).all (fun c => ! stwFailed s c) &&
  (List.range 4).all (fun k => s.fld Fld.ADOPT_WIN_A_STATE k == 0 && (s.bulkE k).queue.isEmpty)

/-- Every way that is to be retired and is not empty asks for its eviction (R378). -/
def retirePoll (s : State) : State := (s.cab.dr.filter (fun e => ! e.2.retiring.isEmpty)).foldl (fun u e => retireEvict u e.1) s

/-- Everything that goes on by itself takes its next step. -/
def polls (s : State) : State :=
  let s := (List.range 4).foldl bulkPoke (stwPoll (swapPoll (freezePoll s)))
  startPoll (cmdPoll (retirePoll (censusPoll (agentPoll (drainPoll (sweepPoll s))))))

/-- Rounds of polls, each with the work it gives, until the block rests or the rounds are used up; what is left then goes on
with the next command. -/
def rounds : Nat → State → State
  | 0, s => s
  | n + 1, s => if restful s then s else rounds n (settle (polls s))

/-- What follows the own effect of every command. -/
def finish (s : State) : State := sampleIrq (if restful s then s else rounds 3 (settle s))

/-- The messages sent while a command runs are those of `tx`, `memTx` and `ptTx`. -/
def freshOut (s : State) : State := { s with tx := [], memTx := [], ptTx := [] }

/-- A command's own effect `f`, then what the block does by itself. DFT_MODE = 1 is the one stop (R38). -/
def run (f : State → State) (s : State) : Host.Outcome State Fault Refusal :=
  if s.dft then .refused .dftMode else .next (finish (f (freshOut s)))

/-- What a step does on an empty queue: 1 ns passes on the time bases that run (R17, R18). The slew of a synchronisation adds or
holds back 1 ns each time it has gathered one (R17, R500). An rswap whose time has come ends (R299). -/
def tick (s : State) : State :=
  if ! s.vaux then s else
  let acc := s.lehr.slewAcc + s.lehr.slew
  let (d, acc) : Nat × Int := if 1000000 ≤ acc then (2, acc - 1000000) else if acc ≤ -1000000 then (0, acc + 1000000) else (1, acc)
  swapPoll { s with lehrNow := s.lehrNow + d, now := if s.coreUp then s.now + d else s.now, lehr := { s.lehr with slewAcc := acc } }

/-! ### Accesses of the register port (R48) -/

/-- REG_RDY pulses for an access presented now (R48, R49): without VAUX it never does. -/
def regReady (s : State) : Bool := s.vaux

/-- A read: REG_RDATA is what the register window answers. Where REG_RDY never pulses the integrator ends the access with all
ones (R49). -/
def portRead (s : State) (off : Nat) : State :=
  if ! regReady s then { s with rdata := BitVec.allOnes 32 } else
  let (s, v) := regRead s none off
  { s with rdata := v }

/-- A write of a 32-bit word. -/
def portWrite (s : State) (off : Nat) (v : BitVec 32) : State := regWrite s none off v

/-- A write of a 64-bit register: its low word, then its high word (R8). -/
def portWrite64 (s : State) (off : Nat) (v : BitVec 64) : State :=
  portWrite (portWrite s off (v.setWidth 32)) (off + 4) ((v >>> 32).setWidth 32)

/-- A write of a register word built from fields over the RW bits it holds. -/
def portSet (s : State) (r : RegName) (i : Nat) (l : List (Fld × Nat)) : State :=
  let old := s.reg r i 0 &&& r.accMask (fun a => a == .rw)
  portWrite s (r.addr i 0) ((overlay old l).setWidth 32)

end Sys2Proof.Machine
end

