-- ==== Sys2Proof/Machine/CmdAgent.lean ====
section
/-! DEFINITION. Modes, MNT messages, agents and the census (chapters 01, 07 and 08): the meaning of each command. -/

namespace Sys2Proof.Machine

/-- A census phase with several E answers is repeated (R226): the entry goes back to its snoop, two steps before its NOTE. -/
def censusRepeat (s : State) (n : Nat) : State :=
  match (trkOfSlice s n).find? (fun e => e.2.valid && e.2.cls == 2 && e.2.typ == 0x3D && e.2.deadline != 0) with
  | none => s
  | some (e, t) =>
    (setT (advanceTo s t.deadline) (512 * n + e) (fun t => { t with deadline := 0, step := t.step - 2 })).addWork (.trk (512 * n + e))

/-- MODE_REQ_WRITE (R33): a requested mode transition is accepted, refused as ILLEGAL or BUSY, or, where it falls in the LCLK of
a forced transition that has just been taken (`same`), refused as PREEMPTED (R34). -/
def execModeReqWrite (w : ModeWrite) (s : State) : Host.Outcome State Fault Refusal :=
  run (fun s => if w.same then modeReqSame s w.v.toNat else portWrite s (RegName.MODE_REQ.addr 0 0) w.v) s

/-- SETTLE (R179): an MNT SETTLE entry snoops an O owner and rewrites the line out of O. -/
def execSettle (n : BitVec 7) (s : State) : Host.Outcome State Fault Refusal :=
  run (fun s => mntIssue s n.toNat (fun m => m.typ == 0x3C)) s

/-- AGT_BIND (R210): command that binds an agent, adds it to its group and tenant lists, and makes it LIVE. -/
def execAgtBind (s : State) : Host.Outcome State Fault Refusal :=
  run (fun s => agtBind s) s

/-- BIND_HB_TIMEOUT (R210): no first heartbeat arrives in time, so the agent is bound as plain with DF_DOWNGRADE. -/
def execBindHbTimeout (s : State) : Host.Outcome State Fault Refusal :=
  run (fun s => bindHbTimeout s) s

/-- AGT_RELEASE (R211): command that releases an agent: holds its requests, waits for its records, walks its words, then unbinds it. -/
def execAgtRelease (s : State) : Host.Outcome State Fault Refusal :=
  run (fun s => agtRelease s) s

/-- RELEASE_WAIT_TIMEOUT (R211): the release wait expires, the agent becomes LIVE again and the command gives RELEASE_TMO. -/
def execReleaseWaitTimeout (s : State) : Host.Outcome State Fault Refusal :=
  run (fun s => releaseWaitTimeout s) s

/-- RELEASE (R211): an MNT RELEASE entry invalidates a released agent's copy and removes it from the word. -/
def execRelease (n : BitVec 7) (s : State) : Host.Outcome State Fault Refusal :=
  run (fun s => mntIssue s n.toNat (fun m => m.typ == 0x3E)) s

/-- AGT_KILL (R215): command that declares an agent dead, or queues its death while another reclaim runs. -/
def execAgtKill (s : State) : Host.Outcome State Fault Refusal :=
  run (fun s => agtKill s) s

/-- AGT_PROBE (R214): command that runs one probe round and returns the round-trip time. -/
def execAgtProbe (s : State) : Host.Outcome State Fault Refusal :=
  run (fun s => agtProbe s) s

/-- PROBE (R214): an MNT PROBE entry sends SNP_CUR to the agent on its probe line. -/
def execProbe (n : BitVec 7) (s : State) : Host.Outcome State Fault Refusal :=
  run (fun s => mntIssue s n.toNat (fun m => m.typ == 0x3F)) s

/-- PROBE_TIMEOUT (R214): a probe round gets no answer within PROBE_TMO; the entry retires with its phase open. -/
def execProbeTimeout (agent : BitVec 16) (byCmd : Bool) (s : State) : Host.Outcome State Fault Refusal :=
  run (fun s => probeTimeout s agent.toNat byCmd) s

/-- LINK_GRACE_TIMEOUT (R214): the link stays down through LINK_GRACE and the agent's confirmation fails. -/
def execLinkGraceTimeout (agent : BitVec 16) (s : State) : Host.Outcome State Fault Refusal :=
  run (fun s => linkGraceTimeout s agent.toNat) s

/-- HEARTBEAT_MISS (R84): an HB agent stays silent beyond three heartbeat periods and HBMISS is reported. -/
def execHeartbeatMiss (agent : BitVec 16) (s : State) : Host.Outcome State Fault Refusal :=
  run (fun s => heartbeatMiss s agent.toNat) s

/-- RECLAIM (R220): an MNT RECLAIM entry removes the dead agent from a word, or takes the dead-owner path. -/
def execReclaim (n : BitVec 7) (s : State) : Host.Outcome State Fault Refusal :=
  run (fun s => mntIssue s n.toNat (fun m => m.typ == 0x3D && m.operand != 0)) s

/-- CENSUS (R225): an MNT CENSUS entry snoops a sector tenant-wide and records the answers. -/
def execCensus (n : BitVec 7) (s : State) : Host.Outcome State Fault Refusal :=
  run (fun s => mntIssue s n.toNat (fun m => m.typ == 0x3D && m.operand == 0)) s

/-- CENSUS_REPEAT_TIMEOUT (R226): after a phase with several E answers, the phase is repeated once 10 µs have passed. -/
def execCensusRepeatTimeout (n : BitVec 7) (s : State) : Host.Outcome State Fault Refusal :=
  run (fun s => censusRepeat s n.toNat) s

/-- CENSUS_DONE (R510): command that ends the cold-start census step and begins the transition to SERVICE. -/
def execCensusDone (s : State) : Host.Outcome State Fault Refusal :=
  run (fun s => censusDone s) s

end Sys2Proof.Machine
end

