-- ==== Sys2Proof/Machine/CmdFabric.lean ====
section
/-! DEFINITION. The fabric ports and the Port Complex (chapters 02, 03, 08): the meaning of each command. -/

namespace Sys2Proof.Machine

/-- A request without data or an uncached write arrives on port `p`. FPn_RX_VLD is a wake source (R471). -/
def rxReqRow (s : State) (p : BitVec 6) (typ : Nat) (h : Hdr) (d : Option Line) : State :=
  rxReq (fabricWake s p.toNat) p.toNat typ h d

/-- A writeback arrives: kind 0 I, 1 S, 2 A (R60). -/
def rxWbRow (s : State) (p : BitVec 6) (part : Bool) (kind : BitVec 2) (h : Hdr) (d : Line) : State :=
  if kind = 3 then s else rxWb (fabricWake s p.toNat) p.toNat ((if part then 0x14 else 0x10) + kind.toNat) h d

/-- A BIRsp arrives: 0 I, 1 S, 2 E (R60). -/
def rxBirspRow (s : State) (p : BitVec 6) (st : BitVec 2) (h : Hdr) : State :=
  if st = 3 then s else rxBirsp (fabricWake s p.toNat) p.toNat st.toNat h

/-- TYPE codes that R60 does not map, outside the writebacks' group, which never lacks one. -/
def unmapped (typ : Nat) : Bool := typ == 0 || (0x0A < typ && typ < 0x10) || typ == 0x1B || (0x1D < typ && typ < 0x40)

/-- A header with such a TYPE arrives (R60, R63). -/
def rxUnmappedRow (s : State) (p : BitVec 6) (typ : BitVec 6) (h : Hdr) : State :=
  if unmapped typ.toNat then rxUnmapped (fabricWake s p.toNat) p.toNat typ.toNat h else s

/-- Classes of transmit credits: 0 SNP, 1 RSP, 2 DAT (R65). -/
def txCreditRow (s : State) (p : BitVec 6) (cls : BitVec 2) : State := if cls = 3 then s else txCredit s p.toNat cls.toNat
def txStallRow (s : State) (p : BitVec 6) (cls : BitVec 2) : State := if cls = 3 then s else txStall s p.toNat cls.toNat

/-- FP_LINK_DOWN (R213): FPn_LINK_UP falls and the LINK cause is set for every bound agent behind the port. -/
def execFpLinkDown (p : BitVec 6) (s : State) : Host.Outcome State Fault Refusal :=
  run (fun s => linkDown s p.toNat) s

/-- RD_S (R173): a MemRd with MVAL S is checked at ingress and decided for a shared copy. -/
def execRdS (p : BitVec 6) (h : Hdr) (s : State) : Host.Outcome State Fault Refusal :=
  run (fun s => rxReqRow s p 0x01 h none) s

/-- RD_ANY (R173): a MemRdData is checked at ingress and decided as a read that may grant E. -/
def execRdAny (p : BitVec 6) (h : Hdr) (s : State) : Host.Outcome State Fault Refusal :=
  run (fun s => rxReqRow s p 0x04 h none) s

/-- RD_E (R173): a MemRd with MVAL A is checked at ingress and decided for ownership with data. -/
def execRdE (p : BitVec 6) (h : Hdr) (s : State) : Host.Outcome State Fault Refusal :=
  run (fun s => rxReqRow s p 0x02 h none) s

/-- RD_NA (R195): a non-allocating read is checked and decided; only an owner is snooped. -/
def execRdNa (p : BitVec 6) (h : Hdr) (s : State) : Host.Outcome State Fault Refusal :=
  run (fun s => rxReqRow s p 0x03 h none) s

/-- OWN (R173): a MemInv with MVAL A requests ownership without data. -/
def execOwn (p : BitVec 6) (h : Hdr) (s : State) : Host.Outcome State Fault Refusal :=
  run (fun s => rxReqRow s p 0x05 h none) s

/-- OWN_NT (R173): a MemInvNT with MVAL A is decided as OWN with the non-temporal hint. -/
def execOwnNt (p : BitVec 6) (h : Hdr) (s : State) : Host.Outcome State Fault Refusal :=
  run (fun s => rxReqRow s p 0x06 h none) s

/-- DROP (R174): a MemInv with MVAL I or S removes the requester's copy from the record. -/
def execDrop (p : BitVec 6) (h : Hdr) (s : State) : Host.Outcome State Fault Refusal :=
  run (fun s => rxReqRow s p 0x07 h none) s

/-- SPEC (R63): a MemSpecRd is passed to the slice as a hint, or dropped. -/
def execSpec (p : BitVec 6) (h : Hdr) (s : State) : Host.Outcome State Fault Refusal :=
  run (fun s => rxReqRow s p 0x08 h none) s

/-- CLN_EV (R63): the Port Complex answers a clean eviction with CMP and changes nothing. -/
def execClnEv (p : BitVec 6) (h : Hdr) (s : State) : Host.Outcome State Fault Refusal :=
  run (fun s => rxReqRow s p 0x0A h none) s

/-- BICONF (R202): the Port Complex answers a BIConflict with BI-ConflictAck placed in the agent's NDR order. -/
def execBiconf (p : BitVec 6) (h : Hdr) (s : State) : Host.Outcome State Fault Refusal :=
  run (fun s => rxBiconf (fabricWake s p.toNat) p.toNat h) s

/-- WB (R197): a full-line writeback reaches its slice and is sunk, taken as snoop data or written, by the first row that applies. -/
def execWb (p : BitVec 6) (kind : BitVec 2) (h : Hdr) (d : Line) (s : State) : Host.Outcome State Fault Refusal :=
  run (fun s => rxWbRow s p false kind h d) s

/-- WBP (R198): a partial writeback is decided as a writeback, with its bytes merged under byte enables. -/
def execWbp (p : BitVec 6) (kind : BitVec 2) (h : Hdr) (d : Line) (s : State) : Host.Outcome State Fault Refusal :=
  run (fun s => rxWbRow s p true kind h d) s

/-- WR_NA (R173): an uncached full-line write takes a tracker entry, invalidates holders and writes the line. -/
def execWrNa (p : BitVec 6) (h : Hdr) (d : Line) (s : State) : Host.Outcome State Fault Refusal :=
  run (fun s => rxReqRow s p 0x13 h (some d)) s

/-- WRP_NA (R173): an uncached partial write takes a tracker entry and merges its bytes over memory. -/
def execWrpNa (p : BitVec 6) (h : Hdr) (d : Line) (s : State) : Host.Outcome State Fault Refusal :=
  run (fun s => rxReqRow s p 0x17 h (some d)) s

/-- BIRSP (R81): a back-invalidate response is matched to its fan-out record and merged. -/
def execBirsp (p : BitVec 6) (st : BitVec 2) (h : Hdr) (s : State) : Host.Outcome State Fault Refusal :=
  run (fun s => rxBirspRow s p st h) s

/-- DF_DONE (R170): a forwarder's completion is matched by BI-ID, agent and PA, and merged as its answer. -/
def execDfDone (p : BitVec 6) (h : Hdr) (s : State) : Host.Outcome State Fault Refusal :=
  run (fun s => rxDfDone (fabricWake s p.toNat) p.toNat h) s

/-- DF_HB (R87): a profile heartbeat updates LAST_HEARD and makes the agent eligible as forwarder. -/
def execDfHb (p : BitVec 6) (h : Hdr) (s : State) : Host.Outcome State Fault Refusal :=
  run (fun s => rxDfHb (fabricWake s p.toNat) p.toNat h) s

/-- TX_CREDIT (R65): a credit pulse on FPn_TX_CRD returns one transmit credit of its class. -/
def execTxCredit (p : BitVec 6) (cls : BitVec 2) (s : State) : Host.Outcome State Fault Refusal :=
  run (fun s => txCreditRow s p cls) s

/-- TX_STALL_TIMEOUT (R65): a class stays without transmit credit for 100 µs while a message waits, so PC_TX_STALL is raised. -/
def execTxStallTimeout (p : BitVec 6) (cls : BitVec 2) (s : State) : Host.Outcome State Fault Refusal :=
  run (fun s => txStallRow s p cls) s

/-- HOLD_SLOT_PRESENT (R74): a waiting REQ takes a freed hold slot and is presented to its slice. -/
def execHoldSlotPresent (s : State) : Host.Outcome State Fault Refusal :=
  run (fun s => holdSlotPresent s) s

/-- ACCEPTANCE_NOTICE (R68): the Port Complex copies the request from its hold slot into the acceptance record and sends the release. -/
def execAcceptanceNotice (c : BitVec 4) (s : State) : Host.Outcome State Fault Refusal :=
  run (fun s => noticeRow isAccept s c.toNat) s

/-- REFUSAL_NOTICE (R73): a slice refusal returns the request to its hold slot with NACKS incremented. -/
def execRefusalNotice (c : BitVec 4) (s : State) : Host.Outcome State Fault Refusal :=
  run (fun s => noticeRow isRefuse s c.toNat) s

/-- RETIRE_NOTICE (R72): the Port Complex clears the acceptance record, returns the DAT credit and presents held requests. -/
def execRetireNotice (c : BitVec 4) (s : State) : Host.Outcome State Fault Refusal :=
  run (fun s => retireRow 64 s c.toNat) s

/-- HELD_RETRY_TIMEOUT (R75): a held request reaches RETRY_TMO and is presented again. -/
def execHeldRetryTimeout (slot : BitVec 15) (s : State) : Host.Outcome State Fault Refusal :=
  run (fun s => heldRetry s slot.toNat) s

/-- SNOOP_PHASE (R78): the cluster replicator expands one SNP message into BISnp or DF_FWD messages to the qualifying agents. -/
def execSnoopPhase (c : BitVec 4) (s : State) : Host.Outcome State Fault Refusal :=
  run (fun s => snoopPhase s c.toNat) s

/-- SNOOP_TIMEOUT (R82): a BISnp target expires; SNPTMO is sent and the agent's SNPTMO cause bit is set. -/
def execSnoopTimeout (tid : BitVec 16) (agent : BitVec 16) (s : State) : Host.Outcome State Fault Refusal :=
  run (fun s => snoopTimeout s tid.toNat agent.toNat) s

/-- FP_LINK_UP (R214): FPn_LINK_UP rises for an agent's port during link-down confirmation and probe rounds start then. -/
def execFpLinkUp (p : BitVec 6) (s : State) : Host.Outcome State Fault Refusal :=
  run (fun s => linkUp s p.toNat) s

/-- UNMAPPED_OPCODE (R63): a received header whose opcode R60 does not map is refused as PC_BAD_OPC in the class of its code group and its credit is returned. -/
def execUnmappedOpcode (p : BitVec 6) (typ : BitVec 6) (h : Hdr) (s : State) : Host.Outcome State Fault Refusal :=
  run (fun s => rxUnmappedRow s p typ h) s

end Sys2Proof.Machine
end

