-- ==== Sys2Proof/Machine/CmdIntegrity.lean ====
section
/-! DEFINITION. Storage integrity, the age walker and faults (chapters 06, 13 and 14): the meaning of each command. -/

namespace Sys2Proof.Machine

/-- AGE_WALKER_VISIT (R154): the age walker increments the ages of one set's unpinned ways. -/
def execAgeWalkerVisit (d : BitVec 7) (s : State) : Host.Outcome State Fault Refusal :=
  run (fun s => ageWalk s d.toNat) s

/-- CORRECTION_WRITEBACK (R375): a queued corrected word is written back in an idle Drawer cycle. -/
def execCorrectionWriteback (d : BitVec 7) (s : State) : Host.Outcome State Fault Refusal :=
  run (fun s => correctionWriteback s d.toNat) s

/-- BUCKET_LEAK (R376): every LEAK ms a leaky bucket's level falls by 1. -/
def execBucketLeak (src : BitVec 9) (s : State) : Host.Outcome State Fault Refusal :=
  run (fun s => leakOf s src.toNat) s

/-- CULLET_COPY (R378): a hard word is copied into a free Cullet spare in idle cycles and the remap becomes valid. -/
def execCulletCopy (d : BitVec 7) (s : State) : Host.Outcome State Fault Refusal :=
  run (fun s => culletCopy s d.toNat) s

/-- WAY_RETIRE (R378): once emptied, a hard word's way is written zero and marked retired. -/
def execWayRetire (d : BitVec 7) (s : State) : Host.Outcome State Fault Refusal :=
  run (fun s => wayRetire s d.toNat) s

/-- SCRUB_VISIT (R380): the scrubber reads one page, corrects it and checks P and Q. -/
def execScrubVisit (d : BitVec 7) (s : State) : Host.Outcome State Fault Refusal :=
  run (fun s => scrubVisit s d.toNat) s

/-- SCRUB_LAP_TIMEOUT (R381): a lap passes SCRUB_LAP_MAX, setting SI_ERR.SLOW and raising SCRUB_SLOW. -/
def execScrubLapTimeout (d : BitVec 7) (s : State) : Host.Outcome State Fault Refusal :=
  run (fun s => scrubLapTimeout s d.toNat) s

/-- SCRUB_EN_WRITE (R386): stops the scrubber, or resumes the lap in progress at SCRUB_POS. -/
def execScrubEnWrite (d : BitVec 7) (v : BitVec 32) (s : State) : Host.Outcome State Fault Refusal :=
  run (fun s => portWrite s (RegName.SCRUB_CTL.addr d.toNat 0) v) s

/-- SI_INJ_WRITE (R383): arms the store injector in TEST, or sets REFUSED outside TEST. -/
def execSiInjWrite (d : BitVec 7) (v : BitVec 32) (s : State) : Host.Outcome State Fault Refusal :=
  run (fun s => portWrite s (RegName.SI_INJ.addr d.toNat 0) v) s

/-- FAULT_REPORT (R402): a report reaches the instance collector, which latches or merges it and applies its reactions. -/
def execFaultReport (s : State) : Host.Outcome State Fault Refusal :=
  run (fun s => reportRow s) s

/-- FAULT_WINDOW_END (R401): a source's promotion window ends short of N and its count returns to 0. -/
def execFaultWindowEnd (code : BitVec 8) (s : State) : Host.Outcome State Fault Refusal :=
  run (fun s => windowEnd s code.toNat) s

/-- FAULT_N_PULSE_END (R407): the 66-LCLK FAULT_N pulse ends. -/
def execFaultNPulseEnd (s : State) : Host.Outcome State Fault Refusal :=
  run (fun s => pulseEnd s) s

/-- FC_CLEAR (R404): writing FC_STATUS.FAULT clears the record when it is not live, and otherwise sets DENIED. -/
def execFcClear (s : State) : Host.Outcome State Fault Refusal :=
  run (fun s => portWrite s (RegName.FC_STATUS.addr 0 0) 1#32) s

/-- FC_PIN_RELEASE (R418): writing RELEASE clears HELD on FAULT_N. -/
def execFcPinRelease (s : State) : Host.Outcome State Fault Refusal :=
  run (fun s => portSet s .FC_PIN_CTL 0 [(Fld.FC_PIN_CTL_RELEASE, 1)]) s

/-- FC_INJ_GO (R414): injects a fault report in TEST, or sets REFUSED. -/
def execFcInjGo (code : BitVec 8) (subject : BitVec 16) (s : State) : Host.Outcome State Fault Refusal :=
  run (fun s => portSet s .FC_INJ 0 [(Fld.FC_INJ_CODE, code.toNat), (Fld.FC_INJ_SUBJECT, subject.toNat), (Fld.FC_INJ_GO, 1)]) s

/-- REPEAT_ENTRY_EXPIRY (R377): a repeat-tracker entry expires when RPT_WIN has passed since its first counted correction, lowering SI_RPT.OCC. -/
def execRepeatEntryExpiry (d : BitVec 7) (s : State) : Host.Outcome State Fault Refusal :=
  run (fun s => repeatExpiry s d.toNat) s

end Sys2Proof.Machine
end

