-- ==== Sys2Proof/Machine/CmdLehr.lean ====
section
/-! DEFINITION. The Lehr, the clock monitors and FREEZE_IN (chapters 01, 16 and 19): the meaning of each command. -/

namespace Sys2Proof.Machine

/-- THERM fires where a sensor that is not excluded stands at or above T_WAKE by its filtered reading (R471). -/
def thermWake (s : State) : State :=
  let lim : Rat := ((4 * s.fld Fld.THERM_CTL_T_WAKE : Nat) : Rat)
  if (List.range 32).any (fun k => ! s.lehr.excl.contains k && decide (lim ≤ tempOf s k)) then wakeFire s 4 else s

/-- FREEZE_IN (R534): a rising edge of FREEZE_IN triggers a freeze with cause PIN. -/
def execFreezeIn (level : Bool) (s : State) : Host.Outcome State Fault Refusal :=
  run (fun s => freezeIn s level) s

/-- CTEL_FRAME (R43): every 40 LCLK the Lehr reads the chip's current telemetry frame. -/
def execCtelFrame (core : BitVec 16) (sram : BitVec 16) (s : State) : Host.Outcome State Fault Refusal :=
  run (fun s => ctelFrame s core.toNat sram.toNat) s

/-- THERM_SAMPLE (R463): each thermal sensor is sampled and filtered once per µs. -/
def execThermSample (sensors : List (BitVec 12)) (s : State) : Host.Outcome State Fault Refusal :=
  run (fun s => thermWake (thermSample s sensors)) s

/-- GOV_SLOT_START (R466): at each slot start the Lehr latches, clips and sends that slot's caps and background bits. -/
def execGovSlotStart (s : State) : Host.Outcome State Fault Refusal :=
  run (fun s => slotStart s) s

/-- GOV_COMPUTE (R467): with AUTO set, the governor writes the next slot entry from the peak, average and hot conditions. -/
def execGovCompute (s : State) : Host.Outcome State Fault Refusal :=
  run (fun s => govCompute s) s

/-- MCLK_MONITOR_TIMEOUT (R22): the region's MCLK activity toggle stays unchanged for 10 µs and the monitor reports RG_CLK. -/
def execMclkMonitorTimeout (r : BitVec 2) (s : State) : Host.Outcome State Fault Refusal :=
  run (fun s => mclkTimeout s r.toNat) s

/-- AGEING_MEASUREMENT (R475): a 1 ms count of one ageing-monitor pair ends and gives its slowdown D. -/
def execAgeingMeasurement (nu : BitVec 32) (ns : BitVec 32) (s : State) : Host.Outcome State Fault Refusal :=
  run (fun s => (ageMeasure s nu.toNat ns.toNat).1) s

/-- POWERED_HOUR_TICK (R475): MGN_HOURS advances; crossing a multiple of 1,024 schedules a PERIODIC plan. -/
def execPoweredHourTick (s : State) : Host.Outcome State Fault Refusal :=
  run (fun s => hourTick s) s

/-- SLEEP_CTL_WAKE (R482): writing SLEEP_CTL.WAKE fires the MGMT wake source. -/
def execSleepCtlWake (s : State) : Host.Outcome State Fault Refusal :=
  run (fun s => portSet s .SLEEP_CTL 0 [(Fld.SLEEP_CTL_WAKE, 1)]) s

/-- LDG_PUSH (R487): stages one ledger record. -/
def execLdgPush (s : State) : Host.Outcome State Fault Refusal :=
  run (fun s => portSet s .LDG_CTL 0 [(Fld.LDG_CTL_PUSH, 1)]) s

/-- LDG_COMMIT (R478): accepts a staged or fresh ledger and runs a RESTORE plan, or reports why not. -/
def execLdgCommit (fresh : Bool) (s : State) : Host.Outcome State Fault Refusal :=
  run (fun s => portSet s .LDG_CTL 0 [(Fld.LDG_CTL_COMMIT, 1), (Fld.LDG_CTL_FRESH, b2n fresh)]) s

/-- LDG_CLEAR (R487): empties the ledger staging. -/
def execLdgClear (s : State) : Host.Outcome State Fault Refusal :=
  run (fun s => portSet s .LDG_CTL 0 [(Fld.LDG_CTL_CLEAR, 1)]) s

/-- MGN_GO (R476): starts an ageing pass and a MANUAL plan. -/
def execMgnGo (s : State) : Host.Outcome State Fault Refusal :=
  run (fun s => portSet s .MGN_CTL 0 [(Fld.MGN_CTL_GO, 1)]) s

/-- LEDGER_LOAD (R478): command that pushes and commits a saved ageing ledger. -/
def execLedgerLoad (s : State) : Host.Outcome State Fault Refusal :=
  run (fun s => ledgerLoad s) s

end Sys2Proof.Machine
end

