-- ==== Sys2Proof/Machine/CmdMemory.lean ====
section
/-! DEFINITION. Memory ports, maps and the bulk engine (chapter 12): the meaning of each command. -/

namespace Sys2Proof.Machine

/-- ARB_PRIO words 0 and 1, and ARB_PRIO2 (R365). -/
def arbPrioWrite (s : State) (m k : Nat) (v : BitVec 32) : State :=
  if k < 2 then portWrite s (RegName.ARB_PRIO.addr m k) v
  else if k = 2 then portWrite s (RegName.ARB_PRIO2.addr m 0) v
  else s

/-- MEM_CREDIT (R341): a request or write-data credit pulse arrives from the switch on a memory port. -/
def execMemCredit (m : BitVec 5) (req : Bool) (wd : Bool) (s : State) : Host.Outcome State Fault Refusal :=
  run (fun s => memCredit s m.toNat req wd) s

/-- MEM_COMPLETION (R341): a completion on MPm_RD returns read data or a write completion to its requester. -/
def execMemCompletion (m : BitVec 5) (rtag : BitVec 16) (d : Line) (poison : Bool) (err : Bool) (s : State) : Host.Outcome State Fault Refusal :=
  run (fun s => memCompletion s m.toNat rtag.toNat d poison err) s

/-- MP_TIMEOUT (R350): a memory request stays outstanding beyond MP_CTL.TMO and the port fails. -/
def execMpTimeout (m : BitVec 5) (s : State) : Host.Outcome State Fault Refusal :=
  run (fun s => memTimeout s m.toNat) s

/-- ARB_AGE_GUARD (R344): a requester waits AGE × 64 MCLK without a grant and takes the next grant ahead of all priorities. -/
def execArbAgeGuard (m : BitVec 5) (r : BitVec 5) (s : State) : Host.Outcome State Fault Refusal :=
  run (fun s => ageGuard s m.toNat r.toNat) s

/-- ARB_PRIO_WRITE (R347): new arbiter priorities apply from the next MCLK and may preempt the holder. -/
def execArbPrioWrite (m : BitVec 5) (k : BitVec 2) (v : BitVec 32) (s : State) : Host.Outcome State Fault Refusal :=
  run (fun s => arbPrioWrite s m.toNat k.toNat v) s

/-- ARB_MODE_WRITE (R345): changes the grant mode and transfer limit at the next arbitration or when the locked sequence closes. -/
def execArbModeWrite (m : BitVec 5) (v : BitVec 32) (s : State) : Host.Outcome State Fault Refusal :=
  run (fun s => portWrite s (RegName.ARB_MODE.addr m.toNat 0) v) s

/-- AMAP_WRITE (R337): an address map entry write is checked and taken on its high word, or refused with AMAP_ERR.BAD_ENTRY set. -/
def execAmapWrite (e : BitVec 14) (v : BitVec 64) (s : State) : Host.Outcome State Fault Refusal :=
  run (fun s => portWrite64 s (RegName.AMAP.addr e.toNat 0) v) s

/-- HMAP_WRITE (R358): a system home map window is written, with a handoff in the same FCLK applied second. -/
def execHmapWrite (w : BitVec 12) (v : BitVec 32) (s : State) : Host.Outcome State Fault Refusal :=
  run (fun s => portWrite s (RegName.HMAP.addr w.toNat 0) v) s

/-- MEM_RESILVER (R352): command that sets a FAILED port to RESILVER and starts the copy from its partner. -/
def execMemResilver (s : State) : Host.Outcome State Fault Refusal :=
  run (fun s => memResilverRow s) s

/-- BULK_GO (R354): queues a bulk-engine descriptor, which the engine then reads through the Hutch. -/
def execBulkGo (t : BitVec 6) (r : BitVec 2) (desc : BitVec 32) (s : State) : Host.Outcome State Fault Refusal :=
  run (fun s => regWrite s (some t.toNat) (RegName.BULK_GO.addr r.toNat 0) desc) s

/-- BULK_CHUNK (R355): when background work is permitted, the bulk engine starts and runs one 64-line chunk. -/
def execBulkChunk (r : BitVec 2) (s : State) : Host.Outcome State Fault Refusal :=
  run (fun s => bulkChunk s r.toNat) s

end Sys2Proof.Machine
end

