-- ==== Sys2Proof/Machine/CmdPunty.lean ====
section
/-! DEFINITION. The Punty links and federation (chapter 17): the meaning of each command. -/

namespace Sys2Proof.Machine

/-- The lane 0 detector of a port sees its partner leave electrical idle: the wait ends (R491), and the wake source PUNTY fires
for an enabled port (R471). -/
def ptIdleRow (s : State) (p : Nat) : State :=
  let s := if s.fld Fld.PT_CTL_EN p = 1 then wakeFire s 1 else s
  ptIdleExit s p

/-- PT_ENABLE (R490): writing PT_CTL.EN starts attempt 1 of Punty bring-up, or disables the port. -/
def execPtEnable (p : BitVec 2) (v : BitVec 32) (s : State) : Host.Outcome State Fault Refusal :=
  run (fun s => portWrite s (RegName.PT_CTL.addr p.toNat 0) v) s

/-- PT_ATTEMPT_TIMEOUT (R490): an attempt gets no CAP in 100 µs and backs off, or the port becomes ABSENT. -/
def execPtAttemptTimeout (p : BitVec 2) (s : State) : Host.Outcome State Fault Refusal :=
  run (fun s => ptAttemptTimeout s p.toNat) s

/-- PT_BACKOFF_END (R490): the backoff ends and the next attempt starts. -/
def execPtBackoffEnd (p : BitVec 2) (s : State) : Host.Outcome State Fault Refusal :=
  run (fun s => ptBackoffEnd s p.toNat) s

/-- PT_BG_RETRY (R490): the one-second retry of an ABSENT port starts a fresh sequence. -/
def execPtBgRetry (p : BitVec 2) (s : State) : Host.Outcome State Fault Refusal :=
  run (fun s => ptBgRetry s p.toNat) s

/-- PT_IDLE_EXIT (R491): the lane 0 detector sees the partner leave idle and ends the wait. -/
def execPtIdleExit (p : BitVec 2) (s : State) : Host.Outcome State Fault Refusal :=
  run (fun s => ptIdleRow s p.toNat) s

/-- PT_LOCK_LOSS (R492): a lane loses lock, giving UP_1LANE, DOWN or a failed attempt. -/
def execPtLockLoss (p : BitVec 2) (lanes : BitVec 2) (s : State) : Host.Outcome State Fault Refusal :=
  run (fun s => ptLockLoss s p.toNat lanes.toNat) s

/-- PT_LANE_RELOCK (R492): a lost lane relocks and the port returns to UP. -/
def execPtLaneRelock (p : BitVec 2) (s : State) : Host.Outcome State Fault Refusal :=
  run (fun s => ptRelock s p.toNat) s

/-- PT_REPLAY_TIMEOUT (R494): an ACK that fails to advance for 2 µs resends the unacknowledged frames. -/
def execPtReplayTimeout (p : BitVec 2) (s : State) : Host.Outcome State Fault Refusal :=
  run (fun s => ptReplayTimeout s p.toNat) s

/-- CAP (R495): a received CAP frame brings the port UP. -/
def execCap (p : BitVec 2) (h : PtHdr) (inst : BitVec 8) (ver : BitVec 8) (lanes : BitVec 2) (types : BitVec 16) (s : State) : Host.Outcome State Fault Refusal :=
  run (fun s => ptCap s p.toNat h inst.toNat ver.toNat lanes.toNat types.toNat) s

/-- HB (R498): a received heartbeat refreshes the partner and its DIST. -/
def execHb (p : BitVec 2) (h : PtHdr) (inst : BitVec 8) (dist : BitVec 8) (s : State) : Host.Outcome State Fault Refusal :=
  run (fun s => ptHb s p.toNat h inst.toNat dist.toNat) s

/-- HB_SEND (R498): every 10 µs each UP port sends an HB. -/
def execHbSend (s : State) : Host.Outcome State Fault Refusal :=
  run (fun s => hbSend s) s

/-- PEER_HB_LOSS (R498): a direct partner is silent for 30 µs, is declared lost, and a LOST frame is flooded. -/
def execPeerHbLoss (inst : BitVec 8) (s : State) : Host.Outcome State Fault Refusal :=
  run (fun s => peerHbLoss s inst.toNat) s

/-- FAULT_FRAME (R497): a flooded FAULT frame raises PEER_FAULT and is forwarded. -/
def execFaultFrame (p : BitVec 2) (h : PtHdr) (f : Flood) (code : BitVec 8) (subject : BitVec 16) (sev : BitVec 2) (inj : Bool) (s : State) : Host.Outcome State Fault Refusal :=
  run (fun s => ptFault s p.toNat h f code.toNat subject.toNat sev.toNat inj) s

/-- FREEZE_FRAME (R497): a flooded FREEZE frame triggers the local freeze with cause PEER. -/
def execFreezeFrame (p : BitVec 2) (h : PtHdr) (f : Flood) (cause : BitVec 8) (s : State) : Host.Outcome State Fault Refusal :=
  run (fun s => ptFreeze s p.toNat h f cause.toNat) s

/-- TSYNC_PERIOD (R500): every PERIOD ms the instance sends TSYNC_REQ upstream. -/
def execTsyncPeriod (s : State) : Host.Outcome State Fault Refusal :=
  run (fun s => tsyncPeriod s) s

/-- TSYNC_REQ (R500): the partner stamps the request and answers TSYNC_RSP. -/
def execTsyncReq (p : BitVec 2) (h : PtHdr) (t1 : BitVec 64) (s : State) : Host.Outcome State Fault Refusal :=
  run (fun s => ptTsyncReq s p.toNat h t1.toNat) s

/-- TSYNC_RSP (R500): the offset is computed and the time base is slewed or stepped forward. -/
def execTsyncRsp (p : BitVec 2) (h : PtHdr) (t1 : BitVec 64) (t2 : BitVec 64) (t3 : BitVec 64) (s : State) : Host.Outcome State Fault Refusal :=
  run (fun s => ptTsyncRsp s p.toNat h t1.toNat t2.toNat t3.toNat) s

/-- PWR_SEND (R501): every 100 µs a PWR frame is sent to package partners and the share is recomputed. -/
def execPwrSend (s : State) : Host.Outcome State Fault Refusal :=
  run (fun s => pwrSend s) s

/-- PWR (R501): a received PWR frame updates a partner's demand and budget. -/
def execPwr (p : BitVec 2) (h : PtHdr) (inst : BitVec 8) (demand : BitVec 16) (budget : BitVec 16) (s : State) : Host.Outcome State Fault Refusal :=
  run (fun s => ptPwr s p.toNat h inst.toNat demand.toNat budget.toNat) s

/-- HMAP_SET (R502): a flooded handoff rewrites HOME, STANDBY and SB_EN if its GEN is newer. -/
def execHmapSet (p : BitVec 2) (h : PtHdr) (f : Flood) (w : BitVec 12) (home : BitVec 8) (standby : BitVec 8) (sbEn : Bool) (gen : BitVec 8) (s : State) : Host.Outcome State Fault Refusal :=
  run (fun s => ptHmapSet s p.toNat h f w.toNat home.toNat standby.toNat (b2n sbEn) gen.toNat) s

/-- DEAD_FRAME (R216): a flooded DEAD frame starts a local reclaim with cause PEER. -/
def execDeadFrame (p : BitVec 2) (h : PtHdr) (f : Flood) (agent : BitVec 16) (cause : BitVec 8) (s : State) : Host.Outcome State Fault Refusal :=
  run (fun s => ptDead s p.toNat h f agent.toNat cause.toNat) s

/-- LOST_FRAME (R498): a flooded LOST frame marks the named instance lost. -/
def execLostFrame (p : BitVec 2) (h : PtHdr) (f : Flood) (inst : BitVec 8) (s : State) : Host.Outcome State Fault Refusal :=
  run (fun s => ptLost s p.toNat h f inst.toNat) s

/-- HMAP_MOVE (R502): command that makes this instance home of a window and floods HMAP_SET. -/
def execHmapMove (s : State) : Host.Outcome State Fault Refusal :=
  run (fun s => hmapMoveRow s) s

end Sys2Proof.Machine
end

