-- ==== Sys2Proof/Machine/CmdQueue.lean ====
section
/-! DEFINITION. The Notification Queue, the interrupt controller and the command window (chapter 15): the meaning of each command. -/

namespace Sys2Proof.Machine

/-- A thread writes CMD_POST_VAL and CMD_POST (R446). -/
def cmdPostRow (s : State) (t : Nat) (code : BitVec 8) (seq : BitVec 16) (val : BitVec 32) : State :=
  let s := regWrite s (some t) (RegName.CMD_POST_VAL.addr 0 0) val
  regWrite s (some t) (RegName.CMD_POST.addr 0 0) (seq ++ 0#8 ++ code)

/-- PACKET_COMMIT (R428): the queue writes a ready packet into its ring and makes it visible, or drops it. -/
def execPacketCommit (s : State) : Host.Outcome State Fault Refusal :=
  run (fun s => nqServe s) s

/-- NQ_POP (R432): reading NQ_RD0 pops the next record under ring priority. -/
def execNqPop (s : State) : Host.Outcome State Fault Refusal :=
  run (fun s => portRead s (RegName.NQ_RD0.addr 0 0)) s

/-- NQ_DROP_PKT (R434): discards the rest of the packet that the reader is inside. -/
def execNqDropPkt (s : State) : Host.Outcome State Fault Refusal :=
  run (fun s => portSet s .NQ_DROP_PKT 0 [(Fld.NQ_DROP_PKT_GO, 1)]) s

/-- NQ_MARK (R436): records a ring's read position as its mark. -/
def execNqMark (r : BitVec 3) (s : State) : Host.Outcome State Fault Refusal :=
  run (fun s => portSet s .NQ_MARK 0 [(Fld.NQ_MARK_RING, r.toNat), (Fld.NQ_MARK_GO, 1)]) s

/-- NQ_REWIND (R436): returns a ring's read pointer to its mark when the mark is still valid. -/
def execNqRewind (r : BitVec 3) (s : State) : Host.Outcome State Fault Refusal :=
  run (fun s => portSet s .NQ_REWIND 0 [(Fld.NQ_REWIND_RING, r.toNat), (Fld.NQ_REWIND_GO, 1)]) s

/-- NQ_EN_WRITE (R449): checks the ring layout and empties the rings, or disables the queue. -/
def execNqEnWrite (en : Bool) (s : State) : Host.Outcome State Fault Refusal :=
  run (fun s => portSet s .NQ_CTL 0 [(Fld.NQ_CTL_EN, b2n en)]) s

/-- LEHR_MESSAGE (R438): a Lehr message goes to the queue, or to the packed fall-back while the sorter is off. -/
def execLehrMessage (s : State) : Host.Outcome State Fault Refusal :=
  run (fun s => lehrDeliver s) s

/-- NQ_FB_POP (R439): reading NQ_FB_RD0 pops the oldest fall-back record. -/
def execNqFbPop (s : State) : Host.Outcome State Fault Refusal :=
  run (fun s => portRead s (RegName.NQ_FB_RD0.addr 0 0)) s

/-- IC_PEND_WRITE (R456): software sets pending bits. -/
def execIcPendWrite (k : BitVec 4) (v : BitVec 32) (s : State) : Host.Outcome State Fault Refusal :=
  run (fun s => portWrite s (RegName.IC_PEND.addr k.toNat 0) v) s

/-- IC_PCLR_WRITE (R456): software clears pending bits. -/
def execIcPclrWrite (k : BitVec 4) (v : BitVec 32) (s : State) : Host.Outcome State Fault Refusal :=
  run (fun s => portWrite s (RegName.IC_PCLR.addr k.toNat 0) v) s

/-- IC_CLAIM (R443): reading claims the highest eligible source for a target and clears it. -/
def execIcClaim (t : BitVec 5) (s : State) : Host.Outcome State Fault Refusal :=
  run (fun s => portRead s (RegName.IC_CLAIMT.addr t.toNat 0)) s

/-- CMD_GO (R445): accepts a command, raising SEQ and setting source 6, or refuses it. -/
def execCmdGo (s : State) : Host.Outcome State Fault Refusal :=
  run (fun s => portWrite s (RegName.CMD_GO.addr 0 0) 1#32) s

/-- CMD_POST (R446): the executing thread posts a command result and source 3 pulses. -/
def execCmdPost (t : BitVec 6) (code : BitVec 8) (seq : BitVec 16) (val : BitVec 32) (s : State) : Host.Outcome State Fault Refusal :=
  run (fun s => cmdPostRow s t.toNat code seq val) s

end Sys2Proof.Machine
end

