-- ==== Sys2Proof/Machine/CmdRegs.lean ====
section
/-! DEFINITION. Telemetry, freezes and the register port (chapters 00, 19 and 20): the meaning of each command. -/

namespace Sys2Proof.Machine

/-- A counter's register is written whole (R529, R540): VALUE, and OVF clears where 1. -/
def telCntWrite (s : State) (id : Nat) (v : BitVec 64) : State :=
  if 1664 ≤ id then s else
  let (_, _, r, _, i, j) := cntOf id
  portWrite64 s (r.addr i j) v

/-- TEL_SWEEP (R532): every PERIOD the telemetry reader writes all counters as packets, or counts a skip. -/
def execTelSweep (s : State) : Host.Outcome State Fault Refusal :=
  run (fun s => telSweep s) s

/-- FRZ_TRIG (R534): writing FRZ_CTL.TRIG triggers a freeze with cause SW. -/
def execFrzTrig (s : State) : Host.Outcome State Fault Refusal :=
  run (fun s => portSet s .FRZ_CTL 0 [(Fld.FRZ_CTL_TRIG, 1)]) s

/-- FRZ_REARM (R536): clears the freeze state and lowers FREEZE_OUT. -/
def execFrzRearm (s : State) : Host.Outcome State Fault Refusal :=
  run (fun s => portSet s .FRZ_CTL 0 [(Fld.FRZ_CTL_REARM, 1)]) s

/-- TEL_CNT_WRITE (R529): a write sets a counter's value and wins over that cycle's increment. -/
def execTelCntWrite (id : BitVec 11) (v : BitVec 64) (s : State) : Host.Outcome State Fault Refusal :=
  run (fun s => telCntWrite s id.toNat v) s

/-- HOME_CTL_WRITE (R53): FORCE_OFF holds or releases HOME_READY. -/
def execHomeCtlWrite (v : BitVec 32) (s : State) : Host.Outcome State Fault Refusal :=
  run (fun s => portWrite s (RegName.HOME_CTL.addr 0 0) v) s

/-- FP_EN_WRITE (R88): stops new credit grants, or grants the pool entries not already credited. -/
def execFpEnWrite (p : BitVec 6) (v : BitVec 32) (s : State) : Host.Outcome State Fault Refusal :=
  run (fun s => portWrite s (RegName.FP_CTL.addr p.toNat 0) v) s

/-- DIAG_READ (R548): a diagnostic window read returns the raw stored bits of an array word. -/
def execDiagRead (off : BitVec 24) (s : State) : Host.Outcome State Fault Refusal :=
  run (fun s => portRead s off.toNat) s

/-- REG64_LOW_READ (R7): reading the low word of a 64-bit register latches its high word. -/
def execReg64LowRead (off : BitVec 24) (s : State) : Host.Outcome State Fault Refusal :=
  run (fun s => portRead s off.toNat) s

/-- REG64_LOW_WRITE (R8): writing the low word of a 64-bit register arms its write holding register. -/
def execReg64LowWrite (off : BitVec 24) (v : BitVec 32) (s : State) : Host.Outcome State Fault Refusal :=
  run (fun s => portWrite s off.toNat v) s

/-- REG64_HIGH_WRITE (R8): writing the high word of an armed 64-bit register takes both words together. -/
def execReg64HighWrite (off : BitVec 24) (v : BitVec 32) (s : State) : Host.Outcome State Fault Refusal :=
  run (fun s => portWrite s off.toNat v) s

/-- RC_READ (R3): reading an RC field returns its value and clears it. -/
def execRcRead (off : BitVec 24) (s : State) : Host.Outcome State Fault Refusal :=
  run (fun s => portRead s off.toNat) s

/-- REGISTER_WRITE (R3): a write to any register without a row of its own, under the access codes. -/
def execRegisterWrite (off : BitVec 24) (v : BitVec 32) (s : State) : Host.Outcome State Fault Refusal :=
  run (fun s => portWrite s off.toNat v) s

end Sys2Proof.Machine
end

