-- ==== Sys2Proof/Machine/CmdRules.lean ====
section
/-! DEFINITION. Rule banks, the boot mailbox and the Hutch (chapters 10 and 11): the meaning of each command. -/

namespace Sys2Proof.Machine

/-- A completion comes for every request outstanding for an origin: on its one port, or on both ports of a mirrored write
(R341). -/
def arriveFor (s : State) (p : MemOrg → Bool) (d : Line) (poison err : Bool) : State :=
  (List.range 32).foldl (fun u m => (u.mport m).out.foldl (fun v q =>
    match opOf v q.op with
    | some o => if p o.org then memCompletion v m q.rtag d poison err else v
    | none => v) u) s

/-- A maintenance operation is written by management software (`t` none) or by a thread's cw (R325, R334): HUTCH_MAINT_PA for an
operation by address, then HUTCH_MAINT with GO. -/
def maintRow (s : State) (c : Nat) (t : Option (BitVec 6)) (op : Nat) (tgt : MaintTgt) (req : Nat) : State :=
  let src := t.map (·.toNat)
  let word := overlay 0 [(Fld.HUTCH_MAINT_OP, op), (Fld.HUTCH_MAINT_REQ, req), (Fld.HUTCH_MAINT_GO, 1)]
  let (s, word) := match tgt with
    | .addr pa =>
      let a := RegName.HUTCH_MAINT_PA.addr c 0
      let v : BitVec 64 := 0#16 ++ pa ++ 0#6
      (regWrite (regWrite s src a (v.setWidth 32)) src (a + 4) ((v >>> 32).setWidth 32), word)
    | .idx i => (s, overlay word [(Fld.HUTCH_MAINT_BYIDX, 1), (Fld.HUTCH_MAINT_IDX, i.toNat)])
  regWrite s src (RegName.HUTCH_MAINT.addr c 0) (word.setWidth 32)

/-- RB_LOAD (R305): command that checks a bank image, loads it by rload and optionally swaps. -/
def execRbLoad (s : State) : Host.Outcome State Fault Refusal :=
  run (fun s => rbLoad s) s

/-- RB_SWAP (R305): command that issues rswap and returns the new active profile. -/
def execRbSwap (s : State) : Host.Outcome State Fault Refusal :=
  run (fun s => rbSwap s) s

/-- MBOX_TMO (R307): a gap of more than 100 ms between mailbox words fails the fetch. -/
def execMboxTmo (s : State) : Host.Outcome State Fault Refusal :=
  run (fun s => mboxTimeout s) s

/-- BOOT_MBOX (R313): pushes one word onto the boot mailbox FIFO, or drops it and sets OVF. -/
def execBootMbox (w : BitVec 32) (s : State) : Host.Outcome State Fault Refusal :=
  run (fun s => portWrite s (RegName.BOOT_MBOX.addr 0 0) w) s

/-- BOOT_MBOX_POP (R313): reading pops the mailbox FIFO head. -/
def execBootMboxPop (s : State) : Host.Outcome State Fault Refusal :=
  run (fun s => portRead s (RegName.BOOT_MBOX_POP.addr 0 0)) s

/-- HUTCH_FILL (R318): a Hutch miss's line arrives and is installed, ending the block. -/
def execHutchFill (c : BitVec 4) (d : Line) (poison : Bool) (err : Bool) (s : State) : Host.Outcome State Fault Refusal :=
  run (fun s => arriveFor s (fun o => o == .hutchFill c.toNat) d poison err) s

/-- HUTCH_PREFETCH_FILL (R323): a next-line prefetch returns and is installed at age 2. -/
def execHutchPrefetchFill (c : BitVec 4) (d : Line) (poison : Bool) (err : Bool) (s : State) : Host.Outcome State Fault Refusal :=
  run (fun s => arriveFor s (fun o => o == .hutchPf c.toNat) d poison err) s

/-- HUTCH_TICK (R321): every TICK × 256 CCLK the ages of the valid Hutch entries advance. -/
def execHutchTick (c : BitVec 4) (s : State) : Host.Outcome State Fault Refusal :=
  run (fun s => hutTick s c.toNat) s

/-- HUTCH_EVICT_WRITE_DONE (R324): a dirty line's write from the eviction buffer completes and frees its buffer entry. -/
def execHutchEvictWriteDone (c : BitVec 4) (k : BitVec 3) (s : State) : Host.Outcome State Fault Refusal :=
  run (fun s => arriveFor s (fun o => o == .hutchEv c.toNat k.toNat) 0 false false) s

/-- HUTCH_ZERO (R325): maintenance that allocates a zeroed dirty line without fetching it. -/
def execHutchZero (c : BitVec 4) (t : Option (BitVec 6)) (pa : BitVec 42) (req : BitVec 3) (s : State) : Host.Outcome State Fault Refusal :=
  run (fun s => maintRow s c.toNat t 1 (.addr pa) req.toNat) s

/-- HUTCH_CLEAN (R325): maintenance that writes a dirty line to memory and keeps it. -/
def execHutchClean (c : BitVec 4) (t : Option (BitVec 6)) (tgt : MaintTgt) (s : State) : Host.Outcome State Fault Refusal :=
  run (fun s => maintRow s c.toNat t 2 tgt 0) s

/-- HUTCH_INVAL (R325): maintenance that drops a line and discards its dirty data. -/
def execHutchInval (c : BitVec 4) (t : Option (BitVec 6)) (tgt : MaintTgt) (s : State) : Host.Outcome State Fault Refusal :=
  run (fun s => maintRow s c.toNat t 3 tgt 0) s

/-- HUTCH_CLEAN_INVAL (R325): maintenance that cleans and then invalidates a line. -/
def execHutchCleanInval (c : BitVec 4) (t : Option (BitVec 6)) (tgt : MaintTgt) (s : State) : Host.Outcome State Fault Refusal :=
  run (fun s => maintRow s c.toNat t 4 tgt 0) s

/-- HUTCH_EN_WRITE (R327): enables or disables the Hutch, setting DIRTY_OFF when dirty lines remain. -/
def execHutchEnWrite (c : BitVec 4) (v : BitVec 32) (s : State) : Host.Outcome State Fault Refusal :=
  run (fun s => portWrite s (RegName.HUTCH_CTL.addr c.toNat 0) v) s

end Sys2Proof.Machine
end

