-- ==== Sys2Proof/Machine/CmdSlice.lean ====
section
/-! DEFINITION. The home slices (chapters 04 and 10): the meaning of each command. -/

namespace Sys2Proof.Machine

/-- The oldest SNPDONE of a slice reaches its entry (R62, R81). -/
def snpDoneRow (s : State) (n : Nat) : State :=
  match SMap.getD (fun _ => []) s.port.snpDone n with
  | [] => s
  | d :: l =>
    if ! rspElig s n ∨ ! mayIssue s n 1 then s
    else
      let s := (slFixed (slIssued s n 1) (logicOf s n) 4).addWork .daten
      takeDone { s with port := { s.port with snpDone := SMap.set (fun _ => []) s.port.snpDone n l } } d

/-- SLICE_REQ_ISSUE (R109): the slice's conflict check allocates a tracker entry for a REQ or refuses it. -/
def execSliceReqIssue (n : BitVec 7) (s : State) : Host.Outcome State Fault Refusal :=
  run (fun s => sliceReqIssue s n.toNat) s

/-- RETRY_RELEASE (R68): the release for a tracker ID reaches the slice and sets REL. -/
def execRetryRelease (c : BitVec 4) (s : State) : Host.Outcome State Fault Refusal :=
  run (fun s => retryRelease s c.toNat) s

/-- CQ_GUARD_TIMEOUT (R116): the reservation guard expires before the head is presented, so the reservation is dropped and SL_CQ_TMO is raised. -/
def execCqGuardTimeout (n : BitVec 7) (line : BitVec 42) (s : State) : Host.Outcome State Fault Refusal :=
  run (fun s => cqGuard s n.toNat line.toNat) s

/-- SNPDONE (R81): the merged snoop answer reaches the slice and the entry's action sequence continues. -/
def execSnpdone (n : BitVec 7) (s : State) : Host.Outcome State Fault Refusal :=
  run (fun s => snpDoneRow s n.toNat) s

/-- DIRECTORY_EVICTION (R155): an SNP entry evicts a victim Cabinet word by snooping its sharers and then writing it empty. -/
def execDirectoryEviction (n : BitVec 7) (s : State) : Host.Outcome State Fault Refusal :=
  run (fun s => dirEvict s n.toNat) s

/-- SL_WDOG_TIMEOUT (R119): a message waits at the slice ingress for SL_WDOG.TMO with no issue, and the slice logic fails. -/
def execSlWdogTimeout (n : BitVec 7) (s : State) : Host.Outcome State Fault Refusal :=
  run (fun s => slWdog s n.toNat) s

/-- CL_ADOPT_GO (R132): in TEST, forces the adoption of a serving slice logic. -/
def execClAdoptGo (c : BitVec 4) (pos : BitVec 3) (s : State) : Host.Outcome State Fault Refusal :=
  run (fun s => portWrite s (RegName.CL_ADOPT.addr c.toNat 0) (0#28 ++ 1#1 ++ pos)) s

/-- SL_TRK_IDX_WRITE (R129): copies one tracker entry into SL_TRK_DATA0–3. -/
def execSlTrkIdxWrite (l : BitVec 8) (e : BitVec 9) (s : State) : Host.Outcome State Fault Refusal :=
  run (fun s => portWrite s (RegName.SL_TRK_IDX.addr l.toNat 0) (e.setWidth 32)) s

/-- LOGIC_PAR_ERROR (R119): a parity error in a slice logic's pipeline control fails the logic, raises SL_LOGIC and starts adoption. -/
def execLogicParError (l : BitVec 8) (s : State) : Host.Outcome State Fault Refusal :=
  run (fun s => logicParError s l.toNat) s

end Sys2Proof.Machine
end

