-- ==== Sys2Proof/Machine/CmdStart.lean ====
section
/-! DEFINITION. Power, resets and starts (chapters 01 and 18): the meaning of each command. -/

namespace Sys2Proof.Machine

/-- Wake sources fire together (R471): `srcs` has a bit for each of FABRIC, PUNTY, TIMER and THERM (bit 2, MGMT, is the write
of SLEEP_CTL), and `pins` the new levels of WAKE_IN, whose rising edges are PIN0 and PIN1. TIMER takes time to WAKE_TIME. -/
def wakeSources (s : State) (srcs : BitVec 5) (pins : BitVec 2) : State :=
  let up := (List.range 2).filter (fun k => pins.getLsbD k && ! s.wakeIn.getLsbD k)
  let s := { s with wakeIn := pins }
  let s := if srcs.getLsbD 3 then advanceTo s (s.fld Fld.WAKE_TIME_TIME) else s
  wakeFires s ((List.range 5).filter (fun k => k ≠ 2 && srcs.getLsbD k) ++ up.map (· + 5))

/-- START_CTL.RETRY is written (R512). -/
def startCtlRow (s : State) (test : SelfTest) : State :=
  if s.vaux then startCtlWrite s ((s.reg .START_CTL).toNat ||| 32) test else s

/-- VAUX_RISE (R30): VAUX comes into range and the instance moves from OFF to LEHR. -/
def execVauxRise (inst : BitVec 8) (src : BitVec 2) (sensors : List (BitVec 12)) (ok : Bool) (lref : Bool) (s : State) : Host.Outcome State Fault Refusal :=
  run (fun s => vauxRise s inst.toNat src.toNat sensors ok lref) s

/-- VAUX_LOSS (R30): VAUX is lost and the instance goes to OFF from any mode. -/
def execVauxLoss (s : State) : Host.Outcome State Fault Refusal :=
  run (fun s => vauxLoss s) s

/-- COLD_RESET_ASSERT (R26): assertion of COLD_RST_N resets PORT and CORE together and overrides any warm reset. -/
def execColdResetAssert (s : State) : Host.Outcome State Fault Refusal :=
  run (fun s => coldAssert s) s

/-- COLD_START (R507): release of COLD_RST_N begins the ten-step cold start sequence. -/
def execColdStart (inst : BitVec 8) (src : BitVec 2) (test : SelfTest) (s : State) : Host.Outcome State Fault Refusal :=
  run (fun s => coldRelease s inst.toNat src.toNat test) s

/-- WARM_RESET_ASSERT (R46): assertion of WARM_RST_N puts CORE in reset, closes the fan-out records that are not kept, and moves MODE to WARM_START. -/
def execWarmResetAssert (s : State) : Host.Outcome State Fault Refusal :=
  run (fun s => warmAssert s) s

/-- WARM_START (R507): release of WARM_RST_N begins the warm start sequence with replay. -/
def execWarmStart (s : State) : Host.Outcome State Fault Refusal :=
  run (fun s => warmRelease s) s

/-- WAKE_SOURCE_FIRE (R474): an enabled wake source fires and the Lehr begins restoring CORE power. -/
def execWakeSourceFire (srcs : BitVec 5) (pins : BitVec 2) (s : State) : Host.Outcome State Fault Refusal :=
  run (fun s => wakeSources s srcs pins) s

/-- WAKE_START (R508): after CORE reset is released on a wake with retention, the short start runs and MODE becomes SERVICE. -/
def execWakeStart (s : State) : Host.Outcome State Fault Refusal :=
  run (fun s => wakeStart s) s

/-- SLEEP_COMMIT (R472): CORE signals sleep-ready; the Lehr commits and power-gates CORE or drops the rails. -/
def execSleepCommit (s : State) : Host.Outcome State Fault Refusal :=
  run (fun s => sleepCommit s) s

/-- START_STEP_TIMEOUT (R507): a start step exceeds STEP_TMO and the start fails. -/
def execStartStepTimeout (s : State) : Host.Outcome State Fault Refusal :=
  run (fun s => stepTimeout s) s

/-- START_RETRY (R511): after RETRY_DLY the Lehr begins the next warm or cold start itself. -/
def execStartRetry (test : SelfTest) (s : State) : Host.Outcome State Fault Refusal :=
  run (fun s => startRetry s test) s

/-- START_CTL_RETRY (R512): writing RETRY leaves exhaustion, clears both counters and begins a cold start. -/
def execStartCtlRetry (test : SelfTest) (s : State) : Host.Outcome State Fault Refusal :=
  run (fun s => startCtlRow s test) s

/-- MAPS_READY_WRITE (R525): signals that both maps are loaded, releasing step 7 of a cold start. -/
def execMapsReadyWrite (s : State) : Host.Outcome State Fault Refusal :=
  run (fun s => portSet s .START_CTL 0 [(Fld.START_CTL_MAPS_READY, 1)]) s

end Sys2Proof.Machine
end

