-- ==== Sys2Proof/Machine/CmdYelgar.lean ====
section
/-! DEFINITION. The Yelgar instructions and the events of steward threads (chapter 09): the meaning of each command. -/

namespace Sys2Proof.Machine

/-- A word that traps ILLEGAL by its major opcode, or by its func under the ALU majors (R246, R247). -/
def illegalWord (w : BitVec 32) : Bool :=
  let m := w.toNat / 2 ^ 26
  let f := w.toNat % 2 ^ 11
  ! (([1, 2, 3, 4, 5, 8, 9, 10, 11, 12, 13, 14, 15, 0x10, 0x11, 0x12, 0x13, 0x18, 0x19, 0x1A, 0x1B, 0x1C, 0x20, 0x21, 0x24, 0x25,
    0x26, 0x27, 0x28, 0x2C, 0x2D, 0x30, 0x31, 0x38, 0x39, 0x3A, 0x3B, 0x3C, 0x3D] : List Nat).contains m) ||
  ((m == 1 || m == 2) && 0x12 < f)

/-- A thread issues such a word (R246, R275): it traps with cause ILLEGAL and the word in TINFO. -/
def illegal (s : State) (t : Nat) (w : BitVec 32) : State :=
  if illegalWord w then issue s t (if w.toNat / 2 ^ 26 = 2 then 8 else 4) true w.toNat id else s

/-- ADD (R247): writes ga + op2 to gd. -/
def execAdd (t : BitVec 6) (ins : Ins) (s : State) : Host.Outcome State Fault Refusal :=
  run (fun s => alu s t.toNat (funcIns 0x00 ins) false (fun a b _ => a + b)) s

/-- SUB (R247): writes ga − op2 to gd. -/
def execSub (t : BitVec 6) (ins : Ins) (s : State) : Host.Outcome State Fault Refusal :=
  run (fun s => alu s t.toNat (funcIns 0x01 ins) false (fun a b _ => a - b)) s

/-- AND (R247): writes the bitwise AND of ga and op2 to gd. -/
def execAnd (t : BitVec 6) (ins : Ins) (s : State) : Host.Outcome State Fault Refusal :=
  run (fun s => alu s t.toNat (funcIns 0x02 ins) false (fun a b _ => a &&& b)) s

/-- OR (R247): writes the bitwise OR of ga and op2 to gd. -/
def execOr (t : BitVec 6) (ins : Ins) (s : State) : Host.Outcome State Fault Refusal :=
  run (fun s => alu s t.toNat (funcIns 0x03 ins) false (fun a b _ => a ||| b)) s

/-- XOR (R247): writes the bitwise XOR of ga and op2 to gd. -/
def execXor (t : BitVec 6) (ins : Ins) (s : State) : Host.Outcome State Fault Refusal :=
  run (fun s => alu s t.toNat (funcIns 0x04 ins) false (fun a b _ => a ^^^ b)) s

/-- SHL (R247): shifts ga left by op2[5:0]. -/
def execShl (t : BitVec 6) (ins : Ins) (s : State) : Host.Outcome State Fault Refusal :=
  run (fun s => alu s t.toNat (funcIns 0x05 ins) false (fun a b _ => a <<< (b.setWidth 6).toNat)) s

/-- SHR (R247): shifts ga right by op2[5:0], with zeros in. -/
def execShr (t : BitVec 6) (ins : Ins) (s : State) : Host.Outcome State Fault Refusal :=
  run (fun s => alu s t.toNat (funcIns 0x06 ins) false (fun a b _ => a >>> (b.setWidth 6).toNat)) s

/-- SAR (R247): shifts ga right by op2[5:0], with the sign in. -/
def execSar (t : BitVec 6) (ins : Ins) (s : State) : Host.Outcome State Fault Refusal :=
  run (fun s => alu s t.toNat (funcIns 0x07 ins) false (fun a b _ => a.sshiftRight (b.setWidth 6).toNat)) s

/-- MUL (R247): writes the low 64 bits of ga × op2 to gd. -/
def execMul (t : BitVec 6) (ins : Ins) (s : State) : Host.Outcome State Fault Refusal :=
  run (fun s => alu s t.toNat (funcIns 0x08 ins) false (fun a b _ => a * b)) s

/-- POPC (R247): counts the 1 bits of ga. -/
def execPopc (t : BitVec 6) (ins : Ins) (s : State) : Host.Outcome State Fault Refusal :=
  run (fun s => alu s t.toNat (funcIns 0x09 ins) true (fun a _ _ => BitVec.ofNat 64 (popCount a))) s

/-- CLZ (R247): counts the leading zeros of ga. -/
def execClz (t : BitVec 6) (ins : Ins) (s : State) : Host.Outcome State Fault Refusal :=
  run (fun s => alu s t.toNat (funcIns 0x0A ins) true (fun a _ _ => BitVec.ofNat 64 (leadingZeros a))) s

/-- MIN (R247): writes the smaller of ga and op2, signed. -/
def execMin (t : BitVec 6) (ins : Ins) (s : State) : Host.Outcome State Fault Refusal :=
  run (fun s => alu s t.toNat (funcIns 0x0B ins) false (fun a b _ => if a.slt b then a else b)) s

/-- MAX (R247): writes the larger of ga and op2, signed. -/
def execMax (t : BitVec 6) (ins : Ins) (s : State) : Host.Outcome State Fault Refusal :=
  run (fun s => alu s t.toNat (funcIns 0x0C ins) false (fun a b _ => if a.slt b then b else a)) s

/-- MINU (R247): writes the smaller of ga and op2, unsigned. -/
def execMinu (t : BitVec 6) (ins : Ins) (s : State) : Host.Outcome State Fault Refusal :=
  run (fun s => alu s t.toNat (funcIns 0x0D ins) false (fun a b _ => if a < b then a else b)) s

/-- MAXU (R247): writes the larger of ga and op2, unsigned. -/
def execMaxu (t : BitVec 6) (ins : Ins) (s : State) : Host.Outcome State Fault Refusal :=
  run (fun s => alu s t.toNat (funcIns 0x0E ins) false (fun a b _ => if a < b then b else a)) s

/-- INS (R248): inserts ga's low bits into field F of gd. -/
def execIns (t : BitVec 6) (ins : Ins) (s : State) : Host.Outcome State Fault Refusal :=
  run (fun s => alu s t.toNat (funcIns 0x0F ins) false (fun a b old => insField old a b)) s

/-- EXT (R248): extracts field F of ga, zero-extended. -/
def execExt (t : BitVec 6) (ins : Ins) (s : State) : Host.Outcome State Fault Refusal :=
  run (fun s => alu s t.toNat (funcIns 0x10 ins) false (fun a b _ => extField a b)) s

/-- EXTS (R248): extracts field F of ga, sign-extended. -/
def execExts (t : BitVec 6) (ins : Ins) (s : State) : Host.Outcome State Fault Refusal :=
  run (fun s => alu s t.toNat (funcIns 0x11 ins) false (fun a b _ => extsField a b)) s

/-- HI (R247): writes {op2[31:0], ga[31:0]} to gd. -/
def execHi (t : BitVec 6) (ins : Ins) (s : State) : Host.Outcome State Fault Refusal :=
  run (fun s => alu s t.toNat (funcIns 0x12 ins) false (fun a b _ => b.setWidth 32 ++ a.setWidth 32)) s

/-- ADDI (R249): writes ga plus the sign-extended imm11 to gd. -/
def execAddi (t : BitVec 6) (ins : Ins) (s : State) : Host.Outcome State Fault Refusal :=
  run (fun s => addi s t.toNat (oneWord ins)) s

/-- CMP (R250): compares ga with gb and sets or combines predicate pd. -/
def execCmp (t : BitVec 6) (ins : Ins) (s : State) : Host.Outcome State Fault Refusal :=
  run (fun s => cmp s t.toNat (oneWord ins)) s

/-- CMP_X (R250): compares ga with imm32 and sets or combines predicate pd. -/
def execCmpX (t : BitVec 6) (ins : Ins) (s : State) : Host.Outcome State Fault Refusal :=
  run (fun s => cmp s t.toNat (twoWord ins)) s

/-- LD8U (R251): loads 1 byte, zero-extended. -/
def execLd8u (t : BitVec 6) (ins : Ins) (s : State) : Host.Outcome State Fault Refusal :=
  run (fun s => load s t.toNat 0x08 1 false (oneWord ins)) s

/-- LD16U (R251): loads 2 bytes, zero-extended. -/
def execLd16u (t : BitVec 6) (ins : Ins) (s : State) : Host.Outcome State Fault Refusal :=
  run (fun s => load s t.toNat 0x09 2 false (oneWord ins)) s

/-- LD32U (R251): loads 4 bytes, zero-extended. -/
def execLd32u (t : BitVec 6) (ins : Ins) (s : State) : Host.Outcome State Fault Refusal :=
  run (fun s => load s t.toNat 0x0A 4 false (oneWord ins)) s

/-- LD64 (R251): loads 8 bytes. -/
def execLd64 (t : BitVec 6) (ins : Ins) (s : State) : Host.Outcome State Fault Refusal :=
  run (fun s => load s t.toNat 0x0B 8 false (oneWord ins)) s

/-- LD8S (R251): loads 1 byte, sign-extended. -/
def execLd8s (t : BitVec 6) (ins : Ins) (s : State) : Host.Outcome State Fault Refusal :=
  run (fun s => load s t.toNat 0x0C 1 true (oneWord ins)) s

/-- LD16S (R251): loads 2 bytes, sign-extended. -/
def execLd16s (t : BitVec 6) (ins : Ins) (s : State) : Host.Outcome State Fault Refusal :=
  run (fun s => load s t.toNat 0x0D 2 true (oneWord ins)) s

/-- LD32S (R251): loads 4 bytes, sign-extended. -/
def execLd32s (t : BitVec 6) (ins : Ins) (s : State) : Host.Outcome State Fault Refusal :=
  run (fun s => load s t.toNat 0x0E 4 true (oneWord ins)) s

/-- ST64 (R252): stores a whole 64-bit word with fresh check bits. -/
def execSt64 (t : BitVec 6) (ins : Ins) (s : State) : Host.Outcome State Fault Refusal :=
  run (fun s => st64 s t.toNat (oneWord ins)) s

/-- B (R253): branches by a signed 26-bit word offset. -/
def execB (t : BitVec 6) (off : BitVec 26) (s : State) : Host.Outcome State Fault Refusal :=
  run (fun s => branch s t.toNat 0x10 off false) s

/-- BP (R253): branches when a predicate equals the sense bit. -/
def execBp (t : BitVec 6) (p : BitVec 3) (sense : Bool) (off : BitVec 22) (s : State) : Host.Outcome State Fault Refusal :=
  run (fun s => branchP s t.toNat p sense off) s

/-- CALL (R253): branches and writes the return address to g31. -/
def execCall (t : BitVec 6) (off : BitVec 26) (s : State) : Host.Outcome State Fault Refusal :=
  run (fun s => branch s t.toNat 0x12 off true) s

/-- JMPR (R254): branches to ga, optionally linking and leaving trap state. -/
def execJmpr (t : BitVec 6) (ins : Ins) (s : State) : Host.Outcome State Fault Refusal :=
  run (fun s => jmpr s t.toNat (oneWord ins)) s

/-- DLOOK (R256): reads one Cabinet word by locator or by PA. -/
def execDlook (t : BitVec 6) (ins : Ins) (s : State) : Host.Outcome State Fault Refusal :=
  run (fun s => dlook s t.toNat (oneWord ins)) s

/-- DPUT (R258): writes one Cabinet word after its checks, or rewrites a blind page with PAGE set. -/
def execDput (t : BitVec 6) (ins : Ins) (s : State) : Host.Outcome State Fault Refusal :=
  run (fun s => dput s t.toNat (oneWord ins)) s

/-- DEVICT (R259): starts a directory eviction of a way and returns at once. -/
def execDevict (t : BitVec 6) (ins : Ins) (s : State) : Host.Outcome State Fault Refusal :=
  run (fun s => devict s t.toNat (oneWord ins)) s

/-- DLOCK (R257): requests an MNT entry that locks a line or sector and blocks the thread. -/
def execDlock (t : BitVec 6) (ins : Ins) (s : State) : Host.Outcome State Fault Refusal :=
  run (fun s => dlock s t.toNat (oneWord ins)) s

/-- DLOCK_GRANT (R257): the blocked dlock's MNT entry is allocated and the thread continues. -/
def execDlockGrant (n : BitVec 7) (s : State) : Host.Outcome State Fault Refusal :=
  run (fun s => dlockGrant s n.toNat) s

/-- DUNLOCK (R257): retires the thread's lock entry. -/
def execDunlock (t : BitVec 6) (ins : Ins) (s : State) : Host.Outcome State Fault Refusal :=
  run (fun s => dunlock s t.toNat (oneWord ins)) s

/-- MSEND (R261): sends an MNT message to a slice, or a mailbox message to a thread. -/
def execMsend (t : BitVec 6) (ins : Ins) (s : State) : Host.Outcome State Fault Refusal :=
  run (fun s => msend s t.toNat (oneWord ins)) s

/-- MWAIT (R262): takes the oldest inbox message, or waits for one up to a timeout. -/
def execMwait (t : BitVec 6) (ins : Ins) (s : State) : Host.Outcome State Fault Refusal :=
  run (fun s => mwait s t.toNat (oneWord ins)) s

/-- MWAIT_TIMEOUT (R262): mwait's timeout expires with no message and pd becomes 0. -/
def execMwaitTimeout (t : BitVec 6) (s : State) : Host.Outcome State Fault Refusal :=
  run (fun s => mwaitTimeout s t.toNat) s

/-- MRD (R263): reads a memory line into local memory through the arbiter. -/
def execMrd (t : BitVec 6) (ins : Ins) (s : State) : Host.Outcome State Fault Refusal :=
  run (fun s => mrd s t.toNat (oneWord ins)) s

/-- MWR (R263): writes a line from local memory to memory, on both mirror targets. -/
def execMwr (t : BitVec 6) (ins : Ins) (s : State) : Host.Outcome State Fault Refusal :=
  run (fun s => mwr s t.toNat (oneWord ins)) s

/-- MPOISON (R263): writes poison to a memory line. -/
def execMpoison (t : BitVec 6) (ins : Ins) (s : State) : Host.Outcome State Fault Refusal :=
  run (fun s => mpoison s t.toNat (oneWord ins)) s

/-- MLOCK (R264): opens a locked sequence on a memory port. -/
def execMlock (t : BitVec 6) (ins : Ins) (s : State) : Host.Outcome State Fault Refusal :=
  run (fun s => mlock s t.toNat (oneWord ins)) s

/-- MUNLOCK (R264): closes the open locked sequence. -/
def execMunlock (t : BitVec 6) (ins : Ins) (s : State) : Host.Outcome State Fault Refusal :=
  run (fun s => munlock s t.toNat (oneWord ins)) s

/-- BLK_TMO_EXPIRY (R263): a blocking memory or lock operation passes BLK_TMO, and it traps or returns TIMEOUT. -/
def execBlkTmoExpiry (t : BitVec 6) (s : State) : Host.Outcome State Fault Refusal :=
  run (fun s => blkExpiry s t.toNat) s

/-- NQPUT (R265): appends a record to the thread's packet buffer, and commits the packet on END. -/
def execNqput (t : BitVec 6) (ins : Ins) (s : State) : Host.Outcome State Fault Refusal :=
  run (fun s => nqput s t.toNat (oneWord ins)) s

/-- IRQ (R266): sets the pending bit of an interrupt source. -/
def execIrq (t : BitVec 6) (ins : Ins) (s : State) : Host.Outcome State Fault Refusal :=
  run (fun s => irqIns s t.toNat (oneWord ins)) s

/-- CR (R267): reads a register-window or thread control register. -/
def execCr (t : BitVec 6) (ins : Ins) (s : State) : Host.Outcome State Fault Refusal :=
  run (fun s => crIns s t.toNat (twoWord ins)) s

/-- CW (R267): writes a register-window or thread control register. -/
def execCw (t : BitVec 6) (ins : Ins) (s : State) : Host.Outcome State Fault Refusal :=
  run (fun s => cwIns s t.toNat (twoWord ins)) s

/-- FENCE (R270): blocks until the thread's earlier stores and commits have taken effect. -/
def execFence (t : BitVec 6) (ins : Ins) (s : State) : Host.Outcome State Fault Refusal :=
  run (fun s => fence s t.toNat (oneWord ins)) s

/-- YIELD (R271): makes the thread WAITING until a message, interrupt, time or background bit arrives. -/
def execYield (t : BitVec 6) (ins : Ins) (s : State) : Host.Outcome State Fault Refusal :=
  run (fun s => yieldIns s t.toNat (oneWord ins)) s

/-- YIELD_WAKE (R271): a waiting thread becomes ready again. -/
def execYieldWake (t : BitVec 6) (s : State) : Host.Outcome State Fault Refusal :=
  run (fun s => yieldWake s t.toNat) s

/-- TRAP (R272): traps with cause SW. -/
def execTrap (t : BitVec 6) (ins : Ins) (s : State) : Host.Outcome State Fault Refusal :=
  run (fun s => trapIns s t.toNat (oneWord ins)) s

/-- HALT (R272): halts the thread, ending its locks and any open locked sequence. -/
def execHalt (t : BitVec 6) (ins : Ins) (s : State) : Host.Outcome State Fault Refusal :=
  run (fun s => haltIns s t.toNat (oneWord ins)) s

/-- RLOAD (R278): writes one rule or action step into the inactive bank of every slice logic. -/
def execRload (t : BitVec 6) (ins : Ins) (s : State) : Host.Outcome State Fault Refusal :=
  run (fun s => rload s t.toNat (oneWord ins)) s

/-- RLOAD_UNBLOCK (R298): a blocked rload is applied once DRAINING returns to 0. -/
def execRloadUnblock (t : BitVec 6) (s : State) : Host.Outcome State Fault Refusal :=
  run (fun s => rloadUnblock s t.toNat) s

/-- RSWAP (R299): makes the inactive bank active in every slice logic. -/
def execRswap (t : BitVec 6) (ins : Ins) (s : State) : Host.Outcome State Fault Refusal :=
  run (fun s => rswap s t.toNat (oneWord ins)) s

/-- STEWARD_FAILURE (R280): a steward core fails on parity; its threads stop and its work moves to the next steward. -/
def execStewardFailure (c : BitVec 4) (s : State) : Host.Outcome State Fault Refusal :=
  run (fun s => stewardFailure s c.toNat) s

/-- STW_START (R283): starts a HALTED or FAULTED thread at its PC. -/
def execStwStart (t : BitVec 6) (s : State) : Host.Outcome State Fault Refusal :=
  run (fun s => portSet s .STW_CTL (t.toNat / 4) [(Fld.STW_CTL_START, 2 ^ (t.toNat % 4))]) s

/-- STW_STOP (R283): halts a thread at its next instruction boundary. -/
def execStwStop (t : BitVec 6) (s : State) : Host.Outcome State Fault Refusal :=
  run (fun s => portSet s .STW_CTL (t.toNat / 4) [(Fld.STW_CTL_STOP, 2 ^ (t.toNat % 4))]) s

/-- STW_PC_WRITE (R285): sets the PC of a HALTED or FAULTED thread. -/
def execStwPcWrite (t : BitVec 6) (pc : BitVec 64) (s : State) : Host.Outcome State Fault Refusal :=
  run (fun s => portWrite64 s (RegName.STW_PC.addr (t.toNat / 4) (t.toNat % 4)) pc) s

/-- ILLEGAL_INSTRUCTION (R246): a thread issues a word with an undefined major opcode, such as 0x00 or an extension word branched into, and traps ILLEGAL. -/
def execIllegalInstruction (t : BitVec 6) (w : BitVec 32) (s : State) : Host.Outcome State Fault Refusal :=
  run (fun s => illegal s t.toNat w) s

end Sys2Proof.Machine
end

