-- ==== Sys2Proof/Machine/Dispatch.lean ====
section
/-! DEFINITION. The dispatch of commands to their meanings, one arm for each constructor of Instr. -/

namespace Sys2Proof.Machine

def exec (i : Instr) (s : State) : Host.Outcome State Fault Refusal :=
  match i with
  | .vauxRise inst src sensors ok lref => Sys2Proof.Machine.execVauxRise inst src sensors ok lref s
  | .vauxLoss => Sys2Proof.Machine.execVauxLoss s
  | .coldResetAssert => Sys2Proof.Machine.execColdResetAssert s
  | .coldStart inst src test => Sys2Proof.Machine.execColdStart inst src test s
  | .warmResetAssert => Sys2Proof.Machine.execWarmResetAssert s
  | .warmStart => Sys2Proof.Machine.execWarmStart s
  | .wakeSourceFire srcs pins => Sys2Proof.Machine.execWakeSourceFire srcs pins s
  | .wakeStart => Sys2Proof.Machine.execWakeStart s
  | .sleepCommit => Sys2Proof.Machine.execSleepCommit s
  | .freezeIn level => Sys2Proof.Machine.execFreezeIn level s
  | .fpLinkDown p => Sys2Proof.Machine.execFpLinkDown p s
  | .ctelFrame core sram => Sys2Proof.Machine.execCtelFrame core sram s
  | .thermSample sensors => Sys2Proof.Machine.execThermSample sensors s
  | .govSlotStart => Sys2Proof.Machine.execGovSlotStart s
  | .govCompute => Sys2Proof.Machine.execGovCompute s
  | .mclkMonitorTimeout r => Sys2Proof.Machine.execMclkMonitorTimeout r s
  | .ageingMeasurement nu ns => Sys2Proof.Machine.execAgeingMeasurement nu ns s
  | .poweredHourTick => Sys2Proof.Machine.execPoweredHourTick s
  | .rdS p h => Sys2Proof.Machine.execRdS p h s
  | .rdAny p h => Sys2Proof.Machine.execRdAny p h s
  | .rdE p h => Sys2Proof.Machine.execRdE p h s
  | .rdNa p h => Sys2Proof.Machine.execRdNa p h s
  | .own p h => Sys2Proof.Machine.execOwn p h s
  | .ownNt p h => Sys2Proof.Machine.execOwnNt p h s
  | .drop p h => Sys2Proof.Machine.execDrop p h s
  | .spec p h => Sys2Proof.Machine.execSpec p h s
  | .clnEv p h => Sys2Proof.Machine.execClnEv p h s
  | .biconf p h => Sys2Proof.Machine.execBiconf p h s
  | .wb p kind h d => Sys2Proof.Machine.execWb p kind h d s
  | .wbp p kind h d => Sys2Proof.Machine.execWbp p kind h d s
  | .wrNa p h d => Sys2Proof.Machine.execWrNa p h d s
  | .wrpNa p h d => Sys2Proof.Machine.execWrpNa p h d s
  | .birsp p st h => Sys2Proof.Machine.execBirsp p st h s
  | .dfDone p h => Sys2Proof.Machine.execDfDone p h s
  | .dfHb p h => Sys2Proof.Machine.execDfHb p h s
  | .txCredit p cls => Sys2Proof.Machine.execTxCredit p cls s
  | .txStallTimeout p cls => Sys2Proof.Machine.execTxStallTimeout p cls s
  | .holdSlotPresent => Sys2Proof.Machine.execHoldSlotPresent s
  | .sliceReqIssue n => Sys2Proof.Machine.execSliceReqIssue n s
  | .acceptanceNotice c => Sys2Proof.Machine.execAcceptanceNotice c s
  | .retryRelease c => Sys2Proof.Machine.execRetryRelease c s
  | .refusalNotice c => Sys2Proof.Machine.execRefusalNotice c s
  | .retireNotice c => Sys2Proof.Machine.execRetireNotice c s
  | .heldRetryTimeout slot => Sys2Proof.Machine.execHeldRetryTimeout slot s
  | .cqGuardTimeout n line => Sys2Proof.Machine.execCqGuardTimeout n line s
  | .snoopPhase c => Sys2Proof.Machine.execSnoopPhase c s
  | .snpdone n => Sys2Proof.Machine.execSnpdone n s
  | .snoopTimeout tid agent => Sys2Proof.Machine.execSnoopTimeout tid agent s
  | .directoryEviction n => Sys2Proof.Machine.execDirectoryEviction n s
  | .memCredit m req wd => Sys2Proof.Machine.execMemCredit m req wd s
  | .memCompletion m rtag d poison err => Sys2Proof.Machine.execMemCompletion m rtag d poison err s
  | .mpTimeout m => Sys2Proof.Machine.execMpTimeout m s
  | .arbAgeGuard m r => Sys2Proof.Machine.execArbAgeGuard m r s
  | .arbPrioWrite m k v => Sys2Proof.Machine.execArbPrioWrite m k v s
  | .arbModeWrite m v => Sys2Proof.Machine.execArbModeWrite m v s
  | .amapWrite e v => Sys2Proof.Machine.execAmapWrite e v s
  | .hmapWrite w v => Sys2Proof.Machine.execHmapWrite w v s
  | .memResilver => Sys2Proof.Machine.execMemResilver s
  | .bulkGo t r desc => Sys2Proof.Machine.execBulkGo t r desc s
  | .bulkChunk r => Sys2Proof.Machine.execBulkChunk r s
  | .ageWalkerVisit d => Sys2Proof.Machine.execAgeWalkerVisit d s
  | .slWdogTimeout n => Sys2Proof.Machine.execSlWdogTimeout n s
  | .clAdoptGo c pos => Sys2Proof.Machine.execClAdoptGo c pos s
  | .slTrkIdxWrite l e => Sys2Proof.Machine.execSlTrkIdxWrite l e s
  | .modeReqWrite v => Sys2Proof.Machine.execModeReqWrite v s
  | .settle n => Sys2Proof.Machine.execSettle n s
  | .agtBind => Sys2Proof.Machine.execAgtBind s
  | .bindHbTimeout => Sys2Proof.Machine.execBindHbTimeout s
  | .agtRelease => Sys2Proof.Machine.execAgtRelease s
  | .releaseWaitTimeout => Sys2Proof.Machine.execReleaseWaitTimeout s
  | .release n => Sys2Proof.Machine.execRelease n s
  | .agtKill => Sys2Proof.Machine.execAgtKill s
  | .agtProbe => Sys2Proof.Machine.execAgtProbe s
  | .probe n => Sys2Proof.Machine.execProbe n s
  | .probeTimeout agent byCmd => Sys2Proof.Machine.execProbeTimeout agent byCmd s
  | .linkGraceTimeout agent => Sys2Proof.Machine.execLinkGraceTimeout agent s
  | .heartbeatMiss agent => Sys2Proof.Machine.execHeartbeatMiss agent s
  | .reclaim n => Sys2Proof.Machine.execReclaim n s
  | .census n => Sys2Proof.Machine.execCensus n s
  | .censusRepeatTimeout n => Sys2Proof.Machine.execCensusRepeatTimeout n s
  | .censusDone => Sys2Proof.Machine.execCensusDone s
  | .add t ins => Sys2Proof.Machine.execAdd t ins s
  | .sub t ins => Sys2Proof.Machine.execSub t ins s
  | .and t ins => Sys2Proof.Machine.execAnd t ins s
  | .or t ins => Sys2Proof.Machine.execOr t ins s
  | .xor t ins => Sys2Proof.Machine.execXor t ins s
  | .shl t ins => Sys2Proof.Machine.execShl t ins s
  | .shr t ins => Sys2Proof.Machine.execShr t ins s
  | .sar t ins => Sys2Proof.Machine.execSar t ins s
  | .mul t ins => Sys2Proof.Machine.execMul t ins s
  | .popc t ins => Sys2Proof.Machine.execPopc t ins s
  | .clz t ins => Sys2Proof.Machine.execClz t ins s
  | .min t ins => Sys2Proof.Machine.execMin t ins s
  | .max t ins => Sys2Proof.Machine.execMax t ins s
  | .minu t ins => Sys2Proof.Machine.execMinu t ins s
  | .maxu t ins => Sys2Proof.Machine.execMaxu t ins s
  | .ins t ins => Sys2Proof.Machine.execIns t ins s
  | .ext t ins => Sys2Proof.Machine.execExt t ins s
  | .exts t ins => Sys2Proof.Machine.execExts t ins s
  | .hi t ins => Sys2Proof.Machine.execHi t ins s
  | .addi t ins => Sys2Proof.Machine.execAddi t ins s
  | .cmp t ins => Sys2Proof.Machine.execCmp t ins s
  | .cmpX t ins => Sys2Proof.Machine.execCmpX t ins s
  | .ld8u t ins => Sys2Proof.Machine.execLd8u t ins s
  | .ld16u t ins => Sys2Proof.Machine.execLd16u t ins s
  | .ld32u t ins => Sys2Proof.Machine.execLd32u t ins s
  | .ld64 t ins => Sys2Proof.Machine.execLd64 t ins s
  | .ld8s t ins => Sys2Proof.Machine.execLd8s t ins s
  | .ld16s t ins => Sys2Proof.Machine.execLd16s t ins s
  | .ld32s t ins => Sys2Proof.Machine.execLd32s t ins s
  | .st64 t ins => Sys2Proof.Machine.execSt64 t ins s
  | .b t off => Sys2Proof.Machine.execB t off s
  | .bp t p sense off => Sys2Proof.Machine.execBp t p sense off s
  | .call t off => Sys2Proof.Machine.execCall t off s
  | .jmpr t ins => Sys2Proof.Machine.execJmpr t ins s
  | .dlook t ins => Sys2Proof.Machine.execDlook t ins s
  | .dput t ins => Sys2Proof.Machine.execDput t ins s
  | .devict t ins => Sys2Proof.Machine.execDevict t ins s
  | .dlock t ins => Sys2Proof.Machine.execDlock t ins s
  | .dlockGrant n => Sys2Proof.Machine.execDlockGrant n s
  | .dunlock t ins => Sys2Proof.Machine.execDunlock t ins s
  | .msend t ins => Sys2Proof.Machine.execMsend t ins s
  | .mwait t ins => Sys2Proof.Machine.execMwait t ins s
  | .mwaitTimeout t => Sys2Proof.Machine.execMwaitTimeout t s
  | .mrd t ins => Sys2Proof.Machine.execMrd t ins s
  | .mwr t ins => Sys2Proof.Machine.execMwr t ins s
  | .mpoison t ins => Sys2Proof.Machine.execMpoison t ins s
  | .mlock t ins => Sys2Proof.Machine.execMlock t ins s
  | .munlock t ins => Sys2Proof.Machine.execMunlock t ins s
  | .blkTmoExpiry t => Sys2Proof.Machine.execBlkTmoExpiry t s
  | .nqput t ins => Sys2Proof.Machine.execNqput t ins s
  | .irq t ins => Sys2Proof.Machine.execIrq t ins s
  | .cr t ins => Sys2Proof.Machine.execCr t ins s
  | .cw t ins => Sys2Proof.Machine.execCw t ins s
  | .fence t ins => Sys2Proof.Machine.execFence t ins s
  | .yield t ins => Sys2Proof.Machine.execYield t ins s
  | .yieldWake t => Sys2Proof.Machine.execYieldWake t s
  | .trap t ins => Sys2Proof.Machine.execTrap t ins s
  | .halt t ins => Sys2Proof.Machine.execHalt t ins s
  | .rload t ins => Sys2Proof.Machine.execRload t ins s
  | .rloadUnblock t => Sys2Proof.Machine.execRloadUnblock t s
  | .rswap t ins => Sys2Proof.Machine.execRswap t ins s
  | .stewardFailure c => Sys2Proof.Machine.execStewardFailure c s
  | .stwStart t => Sys2Proof.Machine.execStwStart t s
  | .stwStop t => Sys2Proof.Machine.execStwStop t s
  | .stwPcWrite t pc => Sys2Proof.Machine.execStwPcWrite t pc s
  | .rbLoad => Sys2Proof.Machine.execRbLoad s
  | .rbSwap => Sys2Proof.Machine.execRbSwap s
  | .mboxTmo => Sys2Proof.Machine.execMboxTmo s
  | .bootMbox w => Sys2Proof.Machine.execBootMbox w s
  | .bootMboxPop => Sys2Proof.Machine.execBootMboxPop s
  | .hutchFill c d poison err => Sys2Proof.Machine.execHutchFill c d poison err s
  | .hutchPrefetchFill c d poison err => Sys2Proof.Machine.execHutchPrefetchFill c d poison err s
  | .hutchTick c => Sys2Proof.Machine.execHutchTick c s
  | .hutchEvictWriteDone c k => Sys2Proof.Machine.execHutchEvictWriteDone c k s
  | .hutchZero c t pa req => Sys2Proof.Machine.execHutchZero c t pa req s
  | .hutchClean c t tgt => Sys2Proof.Machine.execHutchClean c t tgt s
  | .hutchInval c t tgt => Sys2Proof.Machine.execHutchInval c t tgt s
  | .hutchCleanInval c t tgt => Sys2Proof.Machine.execHutchCleanInval c t tgt s
  | .hutchEnWrite c v => Sys2Proof.Machine.execHutchEnWrite c v s
  | .correctionWriteback d => Sys2Proof.Machine.execCorrectionWriteback d s
  | .bucketLeak src => Sys2Proof.Machine.execBucketLeak src s
  | .culletCopy d => Sys2Proof.Machine.execCulletCopy d s
  | .wayRetire d => Sys2Proof.Machine.execWayRetire d s
  | .scrubVisit d => Sys2Proof.Machine.execScrubVisit d s
  | .scrubLapTimeout d => Sys2Proof.Machine.execScrubLapTimeout d s
  | .scrubEnWrite d v => Sys2Proof.Machine.execScrubEnWrite d v s
  | .siInjWrite d v => Sys2Proof.Machine.execSiInjWrite d v s
  | .faultReport => Sys2Proof.Machine.execFaultReport s
  | .faultWindowEnd code => Sys2Proof.Machine.execFaultWindowEnd code s
  | .faultNPulseEnd => Sys2Proof.Machine.execFaultNPulseEnd s
  | .fcClear => Sys2Proof.Machine.execFcClear s
  | .fcPinRelease => Sys2Proof.Machine.execFcPinRelease s
  | .fcInjGo code subject => Sys2Proof.Machine.execFcInjGo code subject s
  | .packetCommit => Sys2Proof.Machine.execPacketCommit s
  | .nqPop => Sys2Proof.Machine.execNqPop s
  | .nqDropPkt => Sys2Proof.Machine.execNqDropPkt s
  | .nqMark r => Sys2Proof.Machine.execNqMark r s
  | .nqRewind r => Sys2Proof.Machine.execNqRewind r s
  | .nqEnWrite en => Sys2Proof.Machine.execNqEnWrite en s
  | .lehrMessage => Sys2Proof.Machine.execLehrMessage s
  | .nqFbPop => Sys2Proof.Machine.execNqFbPop s
  | .icPendWrite k v => Sys2Proof.Machine.execIcPendWrite k v s
  | .icPclrWrite k v => Sys2Proof.Machine.execIcPclrWrite k v s
  | .icClaim t => Sys2Proof.Machine.execIcClaim t s
  | .cmdGo => Sys2Proof.Machine.execCmdGo s
  | .cmdPost t code seq val => Sys2Proof.Machine.execCmdPost t code seq val s
  | .sleepCtlWake => Sys2Proof.Machine.execSleepCtlWake s
  | .ldgPush => Sys2Proof.Machine.execLdgPush s
  | .ldgCommit fresh => Sys2Proof.Machine.execLdgCommit fresh s
  | .ldgClear => Sys2Proof.Machine.execLdgClear s
  | .mgnGo => Sys2Proof.Machine.execMgnGo s
  | .ledgerLoad => Sys2Proof.Machine.execLedgerLoad s
  | .ptEnable p v => Sys2Proof.Machine.execPtEnable p v s
  | .ptAttemptTimeout p => Sys2Proof.Machine.execPtAttemptTimeout p s
  | .ptBackoffEnd p => Sys2Proof.Machine.execPtBackoffEnd p s
  | .ptBgRetry p => Sys2Proof.Machine.execPtBgRetry p s
  | .ptIdleExit p => Sys2Proof.Machine.execPtIdleExit p s
  | .ptLockLoss p lanes => Sys2Proof.Machine.execPtLockLoss p lanes s
  | .ptLaneRelock p => Sys2Proof.Machine.execPtLaneRelock p s
  | .ptReplayTimeout p => Sys2Proof.Machine.execPtReplayTimeout p s
  | .cap p h inst ver lanes types => Sys2Proof.Machine.execCap p h inst ver lanes types s
  | .hb p h inst dist => Sys2Proof.Machine.execHb p h inst dist s
  | .hbSend => Sys2Proof.Machine.execHbSend s
  | .peerHbLoss inst => Sys2Proof.Machine.execPeerHbLoss inst s
  | .faultFrame p h f code subject sev inj => Sys2Proof.Machine.execFaultFrame p h f code subject sev inj s
  | .freezeFrame p h f cause => Sys2Proof.Machine.execFreezeFrame p h f cause s
  | .tsyncPeriod => Sys2Proof.Machine.execTsyncPeriod s
  | .tsyncReq p h t1 => Sys2Proof.Machine.execTsyncReq p h t1 s
  | .tsyncRsp p h t1 t2 t3 => Sys2Proof.Machine.execTsyncRsp p h t1 t2 t3 s
  | .pwrSend => Sys2Proof.Machine.execPwrSend s
  | .pwr p h inst demand budget => Sys2Proof.Machine.execPwr p h inst demand budget s
  | .hmapSet p h f w home standby sbEn gen => Sys2Proof.Machine.execHmapSet p h f w home standby sbEn gen s
  | .deadFrame p h f agent cause => Sys2Proof.Machine.execDeadFrame p h f agent cause s
  | .lostFrame p h f inst => Sys2Proof.Machine.execLostFrame p h f inst s
  | .hmapMove => Sys2Proof.Machine.execHmapMove s
  | .startStepTimeout => Sys2Proof.Machine.execStartStepTimeout s
  | .startRetry test => Sys2Proof.Machine.execStartRetry test s
  | .startCtlRetry test => Sys2Proof.Machine.execStartCtlRetry test s
  | .mapsReadyWrite => Sys2Proof.Machine.execMapsReadyWrite s
  | .telSweep => Sys2Proof.Machine.execTelSweep s
  | .frzTrig => Sys2Proof.Machine.execFrzTrig s
  | .frzRearm => Sys2Proof.Machine.execFrzRearm s
  | .telCntWrite id v => Sys2Proof.Machine.execTelCntWrite id v s
  | .homeCtlWrite v => Sys2Proof.Machine.execHomeCtlWrite v s
  | .fpEnWrite p v => Sys2Proof.Machine.execFpEnWrite p v s
  | .diagRead off => Sys2Proof.Machine.execDiagRead off s
  | .reg64LowRead off => Sys2Proof.Machine.execReg64LowRead off s
  | .reg64LowWrite off v => Sys2Proof.Machine.execReg64LowWrite off v s
  | .reg64HighWrite off v => Sys2Proof.Machine.execReg64HighWrite off v s
  | .rcRead off => Sys2Proof.Machine.execRcRead off s
  | .registerWrite off v => Sys2Proof.Machine.execRegisterWrite off v s
  | .fpLinkUp p => Sys2Proof.Machine.execFpLinkUp p s
  | .unmappedOpcode p typ h => Sys2Proof.Machine.execUnmappedOpcode p typ h s
  | .logicParError l => Sys2Proof.Machine.execLogicParError l s
  | .illegalInstruction t w => Sys2Proof.Machine.execIllegalInstruction t w s
  | .repeatEntryExpiry d => Sys2Proof.Machine.execRepeatEntryExpiry d s

end Sys2Proof.Machine
end

