-- ==== Sys2Proof/Safety.lean ====
section
/-! DEFINITION. The terms in which claims about a run are stated: when a command completes, the canonical form of the memories,
and the invariants of a step. -/

namespace Sys2Proof.Machine

/-- The command completes: it answers a next state, which is what `P` says of its own effect, followed by what the block
does by itself (`finish`). -/
def Completes (c : Instr) (s : State) (P : State → Prop) : Prop := ∃ u, exec c s = .next (finish u) ∧ P u

/-- The canonical form of the addressed memories: local memory words, Drawer words and Cullet spares, the agent table. -/
abbrev Memory.wf (s : State) : Prop :=
  SMap.wf (fun _ => 0) s.stw.lmem = true ∧ SMap.wf (fun _ => 0) s.cab.words = true ∧
  SMap.wf (fun _ => 0) s.cab.spare = true ∧ SMap.wf (fun _ => 0) s.agt = true

/-- While CORE runs, the edge detectors of the interrupt controller hold the present levels of their sources (R441). -/
def EdgesHeld (s : State) : Prop := s.coreUp = true → s.irq.prev = levelSrcs s

/-- A step never stops: it answers a next state unless DFT_MODE = 1 (R38). -/
def NeverStops (s : State) : Prop := s.dft = false → ∃ t, step s = .next t

/-! ### Frames of commands -/

/-- The state in which a command's own effect begins: the messages of the last command are gone. -/
abbrev Begun (s : State) : State := freshOut s

/-- Every register outside the telemetry counters (R540) holds what it held. -/
def RegsKept (s u : State) : Prop :=
  ∀ (d : Nat → BitVec 64) (k : Nat), isCntOff k = false → SMap.getD d u.regs k = SMap.getD d s.regs k

/-- Nothing changes but the stewards' threads and local memories and, by telemetry, counters. -/
def StwOnly (s u : State) : Prop :=
  u = { s with tx := [], memTx := [], ptTx := [], regs := u.regs, frzReq := u.frzReq, stw := u.stw } ∧ RegsKept s u

/-- Nothing changes but thread `t`'s own registers and state: no other thread, no local memory. -/
def ThrOnly (s u : State) (t : Nat) : Prop :=
  StwOnly s u ∧ u.stw.lmem = s.stw.lmem ∧ ∀ k, k ≠ t → u.thr k = s.thr k

/-! ### Steward instructions -/

/-- Thread `t` can issue an instruction of `n` bytes (R238, R241, R275): CORE is out of reset, its steward works, it is
RUNNING and not blocked, and the words at its PC are aligned, in its local memory and without a stored error. -/
def Issues (s : State) (t n : Nat) : Prop :=
  canIssue s t = true ∧ (s.thr t).pc.toNat % 4 = 0 ∧ (s.thr t).pc.toNat + n ≤ 0x10000 ∧
  maskOf s .stw t ((s.thr t).pc.toNat / 8) = 0 ∧ maskOf s .stw t (((s.thr t).pc.toNat + n - 4) / 8) = 0

/-- The instruction ends with `v` written to general register `gd` (a write of g0 is discarded), PC behind it, and nothing
else of the thread or the block changed. -/
def Returns (s : State) (t gd n : Nat) (v : BitVec 64) (u : State) : Prop :=
  ThrOnly s u t ∧ (∀ k, u.greg t k = if k = gd ∧ k ≠ 0 then v else s.greg t k) ∧
  u.thr t = { s.thr t with
    g := (u.thr t).g, pc := (s.thr t).pc + BitVec.ofNat 64 n, last := (s.thr t).pc, fetched := [] }

/-- The instruction of `n` bytes ends: PC stands behind it, and nothing else of the thread or the block changed. -/
def Ends (s : State) (t n : Nat) (u : State) : Prop :=
  ThrOnly s u t ∧ u.thr t = { s.thr t with pc := (s.thr t).pc + BitVec.ofNat 64 n, last := (s.thr t).pc, fetched := [] }

/-- The thread has a handler for its next trap (R277), no locked sequence that the trap would close, and no STOP waits. -/
def CanHandle (s : State) (t : Nat) : Prop :=
  (s.thr t).tvec ≠ 0 ∧ (s.thr t).inTrap = false ∧ (s.thr t).lockSeq = none ∧ (s.thr t).stopReq = false

/-- The thread has trapped into its handler (R275 to R277): EPC, TCAUSE, TINFO and IN_TRAP are written, PC is TVEC, and
nothing else of the thread or the block changed. -/
def Traps (s : State) (t cause : Nat) (info : BitVec 64) (u : State) : Prop :=
  ThrOnly s u t ∧ u.thr t = { s.thr t with
    pc := (s.thr t).tvec, last := (s.thr t).pc, epc := (s.thr t).pc, tcause := cause, tinfo := info, inTrap := true, fetched := [] }

/-- The thread has become FAULTED (R277): as `Traps`, but PC stays, STW_Tt_TRAP records the trap, every lock has ended, and
fault STW_THREAD is reported with the tid. -/
def Faults (s : State) (t cause : Nat) (info : BitVec 64) (u : State) : Prop :=
  let th := s.thr t
  let ut := u.thr t
  ut.run = 3 ∧ ut.pc = th.pc ∧ ut.epc = th.pc ∧ ut.tcause = cause ∧ ut.tinfo = info ∧ ut.inTrap = true ∧
  (∀ k, u.greg t k = s.greg t k) ∧ ut.p = th.p ∧ (∀ l ∈ ut.locks, l.lost = true) ∧
  u.fld Fld.STW_TRAP_CAUSE (t / 4) (t % 4) = cause ∧ u.fld Fld.STW_TRAP_NESTED (t / 4) (t % 4) = b2n th.inTrap ∧
  (∃ r ∈ u.fault.held, r.code = 0x40 ∧ r.subject = t) ∧ u.stw.lmem = s.stw.lmem ∧ u.cab = s.cab

/-- No stored word deviates from its encoding and no injector is armed (R369, R383). -/
def Intact (s : State) : Prop :=
  s.integ.mask = [] ∧ s.integ.pq = [] ∧ (∀ d, d < 128 → s.fld Fld.SI_INJ_ARM d = 0) ∧
  (∀ c x, c < 16 → x < 5 → s.fld Fld.CL_INJ_ARM c x = 0) ∧ (∀ x, x < 4 → s.fld Fld.DIE_INJ_P_ARM x = 0) ∧
  s.fld Fld.DIE_INJ_NQ_ARM = 0 ∧ s.fld Fld.DIE_INJ_L_ARM = 0

/-- The instance runs: supply, PORT and CORE are up, and it is not in LEHR mode. -/
def Awake (s : State) : Prop := s.vaux = true ∧ s.portUp = true ∧ s.coreUp = true ∧ s.mode ≠ 1

/-- A header passes checks 1 to 4 of R67. -/
def PassesIngress (s : State) (h : Hdr) : Prop :=
  h.mfield ≠ 1 ∧ h.mfield ≠ 2 ∧ h.mval ≠ 1 ∧ homed s h.pa.toNat = true ∧
  (s.agtState h.agent.toNat = 1 ∨ s.agtState h.agent.toNat = 2 ∨ s.agtState h.agent.toNat = 3) ∧
  s.agtTenant h.agent.toNat = tenantOf s h.pa.toNat

/-- LAST_HEARD of agent `a` is now, and nothing else of the agent table changed (R84). -/
def HeardOnly (s u : State) (a : Nat) : Prop :=
  u.agtW a = s.agtW a % 2 ^ 32 + s.now / 1024 % 2 ^ 32 * 2 ^ 32 ∧ ∀ b, b ≠ a → u.agtW b = s.agtW b

/-- Stewards, Cabinet, memory side, repair record, queue and interrupt controller are as they were. -/
def QuietCore (s u : State) : Prop :=
  u.stw = s.stw ∧ u.cab = s.cab ∧ u.mem = s.mem ∧ u.repair = s.repair ∧ u.nq = s.nq ∧ u.irq = s.irq ∧ u.hutch = s.hutch ∧
  u.lehr = s.lehr ∧ u.pt = s.pt ∧ u.cmd = s.cmd

/-- Every register but those at the offsets of a list holds what it held. -/
def RegsBut (s u : State) (l : List Nat) : Prop :=
  ∀ (d : Nat → BitVec 64) (k : Nat), k ∉ l → SMap.getD d u.regs k = SMap.getD d s.regs k

/-- The same outside the telemetry counters (R540). -/
def RegsEvt (s u : State) (l : List Nat) : Prop :=
  ∀ (d : Nat → BitVec 64) (k : Nat), k ∉ l → isCntOff k = false → SMap.getD d u.regs k = SMap.getD d s.regs k

/-- The registers of the local collectors that a report of a region, a cluster, a slice logic passes (R394, R424). -/
def RegionLc (r : Nat) : List Nat := [RegName.RLC_FIRST.addr r 0, RegName.RLC_TIME.addr r 0]
def ClusterLc (c : Nat) : List Nat := [RegName.CLC_FIRST.addr c 0, RegName.CLC_TIME.addr c 0] ++ RegionLc (c / 4)
def SliceLc (l : Nat) : List Nat := [RegName.SLC_FIRST.addr l 0, RegName.SLC_TIME.addr l 0] ++ ClusterLc (l / 9)

/-- A report of fault `code` with its subject is held for the instance collector (R395). -/
def Reported (u : State) (code subject : Nat) : Prop := ∃ r ∈ u.fault.held, r.code = code ∧ r.subject = subject

/-- Nothing but the registers at the offsets of a list changed. -/
def OnlyRegs (s u : State) (l : List Nat) : Prop := u = { Begun s with regs := u.regs } ∧ RegsBut s u l

/-- The offset of the register that holds a field, in instance `(i, j)`. -/
def fldAt (f : Fld) (i : Nat := 0) (j : Nat := 0) : Nat := f.reg.addr i j

/-- The register `r` has an instance `(i, j)` in the window. -/
def IsReg (r : RegName) (i j : Nat) : Prop := locate (r.addr i j) = some (r, i, j, 0)

/-- Every register of the domains `p` is at its reset value, and every other LEHR register but those of a list holds what it
held (R25). -/
def DomainsReset (s u : State) (p : Dom → Prop) (l : List Nat) : Prop :=
  ∀ (r : RegName) (i j : Nat), IsReg r i j → (p r.desc.dom → u.reg r i j = r.resetWord i j) ∧
    (¬ p r.desc.dom → r.addr i j ∉ l → u.reg r i j = s.reg r i j)

/-- A frame of a type other than CAP is received in order on a port that carries frames, asks for no resend, and no frame waits
there to be sent (R494). -/
def Hears (s : State) (p : Nat) (h : PtHdr) : Prop :=
  ptRuns s = true ∧ ptUp s p = true ∧ h.crcOk = true ∧ h.nak = false ∧ h.seq.toNat = ((s.ptp p).rx + 1) % 64 ∧
  (s.ptp p).waitq = []

/-- The port after such a frame: its ACK removed the frames it names, and its SEQ is the last in order (R494). -/
def heardPort (q : PtPort) (h : PtHdr) : PtPort := { ptAck q h.ack.toNat with rx := h.seq.toNat }

/-- A frame of type `typ` can leave at once: none waits, fewer than 32 are unacknowledged, the partner understands the type. -/
def CanSend (q : PtPort) (typ : Nat) : Prop := q.waitq = [] ∧ q.replay.length < 32 ∧ bit1 q.types typ = true

/-- The frame that leaves, and the port after it (R494). -/
def frameOf (q : PtPort) (typ : Nat) (pay : BitVec 256) : PtFrame := ⟨typ, q.seq, q.nak, q.rx, pay⟩
def afterSend (q : PtPort) (typ : Nat) (pay : BitVec 256) : PtPort :=
  { q with seq := (q.seq + 1) % 64, nak := false, replay := q.replay ++ [frameOf q typ pay] }

/-- A flooded frame is new to the receiver (R496): not its own, not marked, not 32 or more below the highest. -/
def NewFlood (s : State) (f : Flood) : Prop :=
  let e := seenOfOrg s f.origin.toNat
  let ahead := (f.oseq.toNat + 65536 - e.1) % 65536
  let back := (e.1 + 65536 - f.oseq.toNat) % 65536
  f.origin.toNat ≠ s.instId ∧
  (e.1 = 65536 ∨ (ahead ≠ 0 ∧ (ahead < 32768 ∨ (back < 32 ∧ e.2.getLsbD (back - 1) = false))))

/-- A flooded frame of type `typ` with the bytes `body` came in on `p` and was new: it is marked, the link layer of `p` has taken
it, and with TTL above 1 it went on with TTL − 1 to every other UP port that can send it at once (R496). -/
def Flooded (s u : State) (p typ : Nat) (h : PtHdr) (f : Flood) (body : List (Nat × Nat × Nat)) : Prop :=
  let pay := payOf (floodHdr f.origin.toNat f.oseq.toNat (f.ttl.toNat - 1) ++ body)
  ¬ NewFlood u f ∧ (∀ o, o ≠ f.origin.toNat → seenOfOrg u o = seenOfOrg s o) ∧ u.ptp p = heardPort (s.ptp p) h ∧
  (∀ k, ptUp s k = false → u.ptp k = s.ptp k) ∧ (f.ttl.toNat ≤ 1 → u.ptTx = [] ∧ ∀ k, k ≠ p → u.ptp k = s.ptp k) ∧
  (∀ x ∈ u.ptTx, x.1 ≠ p) ∧
  (1 < f.ttl.toNat → ∀ k, k < 4 → k ≠ p → ptUp s k = true → CanSend (s.ptp k) typ →
    (k, frameOf (s.ptp k) typ pay) ∈ u.ptTx ∧ u.ptp k = afterSend (s.ptp k) typ pay)

/-- This instance floods a frame of its own on every UP port that can send it at once, with the next OSEQ (R496). -/
def Floods (s u : State) (typ : Nat) (body : List (Nat × Nat × Nat)) : Prop :=
  let pay := payOf (floodHdr s.instId s.pt.oseq (max 1 (s.fld Fld.PT_GCTL_TTL)) ++ body)
  u.pt.oseq = (s.pt.oseq + 1) % 65536 ∧ u.pt.seen = s.pt.seen ∧ (∀ k, ptUp s k = false → u.ptp k = s.ptp k) ∧
  (∀ k, k < 4 → ptUp s k = true → CanSend (s.ptp k) typ →
    (k, frameOf (s.ptp k) typ pay) ∈ u.ptTx ∧ u.ptp k = afterSend (s.ptp k) typ pay)

/-- A one-record packet with payload `fs` is ready for the ring of the Parison (R503), and an interrupt source is set. -/
def Notes (s u : State) (src : Nat) (fs : List (Nat × Nat × Nat)) : Prop :=
  u.irq = { s.irq with pend := insertSorted src s.irq.pend } ∧
  u.nq = { s.nq with readyPar := s.nq.readyPar ++ [[recOf (fs ++ recTail u.now)]] }

end Sys2Proof.Machine
end

