-- ==== Sys2Proof/Certificates/Slice0/Obligations.lean ====
section
/-! DEFINITION. The statements for the provers, by chapter. `Completes c s P` says that command `c` answers a next state in `s`
and that `P` holds of its own effect, before what the block does by itself. -/

section

open Sys2Proof Sys2Proof.Machine

/-- A step runs the command at the front of the queue on the state with the rest of the queue. R17, R18: on an empty queue a
step passes 1 ns on the time bases that run, a slewed correction apart (the model's choice, log 1). -/
def Obligations.StepRunsFrontOrTicks : Prop :=
  (∀ (c : Instr) (l : List Instr) (s : State), step { s with pending := c :: l } = exec c { s with pending := l }) ∧
  (∀ s : State, s.pending = [] →
    (s.vaux = false → step s = .next s) ∧
    (s.vaux = true → s.sl.banks.swap = none →
      ∃ (d : Nat) (a : Int), (d = 0 ∨ d = 1 ∨ d = 2) ∧ 1000000 * d + a = 1000000 + s.lehr.slewAcc + s.lehr.slew ∧
        (s.lehr.slewAcc + s.lehr.slew < 1000000 → -1000000 < s.lehr.slewAcc + s.lehr.slew → d = 1) ∧
        step s = .next { s with
          lehrNow := s.lehrNow + d, now := if s.coreUp then s.now + d else s.now, lehr := { s.lehr with slewAcc := a } }))

/-- R38: DFT_MODE = 1 is the one stop: every command is refused in that configuration, and no command stops outside it. -/
def Obligations.DftIsTheOnlyStop : Prop :=
  (∀ (c : Instr) (s : State), s.dft = true → exec c s = .refused .dftMode) ∧
  (∀ (c : Instr) (s : State), s.dft = false → ∃ t, exec c s = .next t) ∧ ∀ s : State, NeverStops s

/-- R440, R441: at every step the edge detectors of the interrupt controller come to hold the present levels of their sources,
and a source whose level rose is pending. -/
def Obligations.EdgesHeldKept : Prop :=
  (∀ s t : State, EdgesHeld s → step s = .next t → EdgesHeld t) ∧
  (∀ (c : Instr) (l : List Instr) (s t : State), s.pending = c :: l → step s = .next t → t.coreUp = true →
    ∃ u : State, u.coreUp = true ∧ levelSrcs t = levelSrcs u ∧ t = { u with irq := t.irq } ∧
      ∀ n, n ∈ t.irq.pend ↔ n ∈ u.irq.pend ∨ (n ∈ levelSrcs u ∧ n ∉ u.irq.prev))

/-- R369: the word code corrects every single bad bit of a word and flags every two. -/
def Obligations.WordCode : Prop :=
  ∀ n ∈ [32, 64, 120, 128], verdict n 0 = .clean 0 ∧
    (∀ k, k < n + codeR n + 1 → verdict n (2 ^ k) = .corrected 0) ∧
    (∀ k l, k < l → l < n + codeR n + 1 → verdict n (2 ^ k + 2 ^ l) = .flagged)

/-- R25, R32, R50, R53, R408, R427, R442 to R459, R504: what State.reset holds of the values the spec gives. -/
def Obligations.ResetValues : Prop :=
  let s := State.reset
  s.vaux = false ∧ s.coreUp = false ∧ s.portUp = false ∧ s.pending = [] ∧ s.regs = [] ∧ s.dft = false ∧ Memory.wf s ∧ EdgesHeld s ∧
  (∀ (r : RegName) (i j : Nat), s.reg r i j = r.resetWord i j) ∧
  s.fld Fld.MODE_CUR = 1 ∧ s.fld Fld.HOME_CTL_FORCE_OFF = 0 ∧ s.fld Fld.RB_STATUS_ACTIVE = 1 ∧ s.fld Fld.FC_CTL_LATCH_SEV = 1 ∧
  s.fld Fld.NQ_CTL_EN = 1 ∧ s.fld Fld.CMD_RES_DONE = 1 ∧ (∀ p, p < 4 → s.fld Fld.PT_CTL_BG_RETRY p = 1 ∧ s.fld Fld.PT_CTL_EN p = 0) ∧
  (∀ d, d < 128 → s.fld Fld.SCRUB_CTL_INTVL d = 2048 ∧ s.fld Fld.SCRUB_CTL_EN d = 1) ∧ layoutOk s = true

/-- R3 to R8, R48, R49, R53: reads and writes of the register window: the absent supply, unassigned offsets, a domain that is
down, access codes, the holding registers of 64-bit registers. The registers named in the lists have an action of their own,
which their rows state. -/
def Obligations.RegisterWindow : Prop :=
  ∀ (s : State), s.dft = false →
    (∀ (off : BitVec 24) (v : BitVec 32), exec (.registerWrite off v) s = exec (.reg64LowWrite off v) s ∧
      exec (.registerWrite off v) s = exec (.reg64HighWrite off v) s ∧ exec (.rcRead off) s = exec (.reg64LowRead off) s ∧
      exec (.rcRead off) s = exec (.diagRead off) s) ∧
    (∀ (off : BitVec 24) (v : BitVec 32), s.vaux = false →
      Completes (.rcRead off) s (fun u => u = { Begun s with rdata := 0xFFFFFFFF }) ∧
      Completes (.registerWrite off v) s (fun u => u = Begun s)) ∧
    (∀ (off : BitVec 24) (v : BitVec 32), s.vaux = true → off.toNat < 0x800000 →
      locate off.toNat = none ∨ (∃ r i j h, locate off.toNat = some (r, i, j, h) ∧ domUp s r.desc.dom = false) →
      Completes (.registerWrite off v) s (fun u => u = Begun s) ∧
      Completes (.rcRead off) s (fun u => u = { Begun s with rdata := 0 })) ∧
    (∀ (off : BitVec 24) (v : BitVec 32), 0x800000 ≤ off.toNat → Completes (.registerWrite off v) s (fun u => u = Begun s)) ∧
    (∀ (off : BitVec 24) (r : RegName) (i j h : Nat), off.toNat < 0x800000 → locate off.toNat = some (r, i, j, h) →
      domUp s r.desc.dom = true →
      let a := r.addr i j
      let shown := r.shown (liveWord s r i j)
      let held := SMap.getD (fun _ => none) s.wrHold a
      (r.desc.words = 2 → h = 0 → Completes (.reg64LowRead off) s (fun u =>
        u = { Begun s with rdata := shown.setWidth 32, hiLatch := u.hiLatch } ∧
        SMap.getD (fun _ => none) u.hiLatch a = some ((shown >>> 32).setWidth 32) ∧
        ∀ k, k ≠ a → SMap.getD (fun _ => none) u.hiLatch k = SMap.getD (fun _ => none) s.hiLatch k)) ∧
      (r.desc.words = 2 → h = 1 →
        let word := (SMap.getD (fun _ => none) s.hiLatch a).getD ((shown >>> 32).setWidth 32)
        Completes (.rcRead off) s (fun u => u = { Begun s with rdata := word })) ∧
      (∀ v : BitVec 32,
        (r.desc.words = 2 → h = 0 → Completes (.reg64LowWrite off v) s (fun u => u = { Begun s with wrHold := u.wrHold } ∧
          SMap.getD (fun _ => none) u.wrHold a = some v ∧
          ∀ k, k ≠ a → SMap.getD (fun _ => none) u.wrHold k = SMap.getD (fun _ => none) s.wrHold k)) ∧
        (r.desc.words = 2 → h = 1 → held = none → Completes (.reg64HighWrite off v) s (fun u => u = Begun s)) ∧
        (∀ lo : BitVec 32, r.desc.words = 2 → h = 1 → held = some lo → r ∉ [.AMAP, .AGT_DATA, .STW_PC, .GOV_CEIL] →
          Completes (.reg64HighWrite off v) s (fun u => u = { Begun s with regs := u.regs, wrHold := u.wrHold } ∧
            SMap.getD (fun _ => none) u.wrHold a = none ∧ RegsBut s u [a] ∧
            ∀ f ∈ r.fields, (f.acc = .rw → u.fld f i j = bits ((v ++ lo).toNat) f.lo (f.hi + 1 - f.lo)) ∧
              (f.acc = .ro → u.fld f i j = s.fld f i j)))) ∧
      (r.desc.words = 1 → r ∉ [.NQ_RD0, .NQ_FB_RD0, .BOOT_MBOX_POP, .IC_CLAIMT, .IC_CLAIM, .HOLD_STATUS] →
        Completes (.rcRead off) s (fun u =>
        u = { Begun s with rdata := shown.setWidth 32, regs := u.regs } ∧ RegsBut s u [a] ∧
        ∀ f ∈ r.fields, u.fld f i j = if f.acc = .rc then 0 else s.fld f i j)) ∧
      (∀ v : BitVec 32, r.desc.words = 1 → r ∉ [.MODE_REQ, .SLEEP_CTL, .THERM_CTL, .GOV_CTL, .GOV_ILIM, .MGN_CTL, .LDG_CTL,
          .START_CTL, .FC_STATUS, .FC_PIN_CTL, .FC_INJ, .FC_SRC, .CMD_GO, .CMD_POST, .CMD_POST_VAL, .DIE_INJ_L, .FP_CTL, .PC_BIID,
          .HMAP, .ADOPT_WIN_A, .ADOPT_WIN_B, .DIE_INJ_P, .BOOT_MBOX, .RLC_FIRST, .IC_PEND, .IC_PCLR, .NQ_CTL, .NQ_RING,
          .NQ_DROP_PKT, .NQ_MARK, .NQ_REWIND, .PT_CTL, .FRZ_CTL, .MP_STATE, .ARB_MODE, .ARB_PRIO, .ARB_PRIO2, .BULK_GO,
          .DIE_INJ_NQ, .CL_ADOPT, .SL_WDOG, .STW_CTL, .STW_STATUS, .HUTCH_CTL, .HUTCH_MAINT, .CL_INJ, .CLC_FIRST, .SLC_FIRST, .SL_TRK_IDX,
          .SI_INJ, .CAB_BLIND_A, .CAB_BLIND_B] →
        Completes (.registerWrite off v) s (fun u => OnlyRegs s u [a] ∧ ∀ f ∈ r.fields,
          let w := bits v.toNat f.lo (f.hi + 1 - f.lo)
          (f.acc = .rw → u.fld f i j = w) ∧
          (f.acc = .w1c → ∀ b, bit1 (u.fld f i j) b = (bit1 (s.fld f i j) b && ! bit1 w b)) ∧
          (f.acc = .ro ∨ f.acc = .rc → u.fld f i j = s.fld f i j)))) ∧
    (s.vaux = true → ∀ v : BitVec 32, Completes (.homeCtlWrite v) s (fun u => OnlyRegs s u [RegName.HOME_CTL.addr 0 0] ∧
      u.fld Fld.HOME_CTL_FORCE_OFF = v.toNat % 2))

/-- R529, R532, R539, R546 to R548: telemetry sweeps, writes of counters, and the diagnostic window. -/
def Obligations.TelemetryAndDiagnostics : Prop :=
  ∀ (s : State), s.dft = false → s.vaux = true → s.portUp = true → s.coreUp = true →
    (s.fld Fld.TEL_CTL_EN = 0 → Completes .telSweep s (fun u => u = Begun s)) ∧
    (s.fld Fld.TEL_CTL_EN = 1 → telBusy s = true → Completes .telSweep s (fun u =>
      u = { Begun s with regs := u.regs, irq := { s.irq with pend := insertSorted 43 s.irq.pend } } ∧
      RegsBut s u [fldAt Fld.TEL_STATUS_SKIPS] ∧ u.fld Fld.TEL_STATUS_SKIPS = min (s.fld Fld.TEL_STATUS_SKIPS + 1) 32767)) ∧
    (s.fld Fld.TEL_CTL_EN = 1 → telBusy s = false → Completes .telSweep s (fun u =>
      let n := (s.fld Fld.TEL_STATUS_SWEEP + 1) % 65536
      u = { Begun s with regs := u.regs, nq := { s.nq with readyTel := u.nq.readyTel } } ∧
      RegsBut s u [fldAt Fld.TEL_STATUS_SWEEP] ∧ u.fld Fld.TEL_STATUS_SWEEP = n ∧
      ∃ ps : List (List (BitVec 128)), ps.length = 208 ∧
        u.nq.readyTel = s.nq.readyTel ++ [[recOf ([(0x68, 0, 8), (n, 8, 16), (1664, 24, 12)] ++ recTail s.now)]] ++ ps ++
          [[recOf ([(0x6A, 0, 8), (n, 8, 16)] ++ recTail s.now)]] ∧
        ∀ p, p < 208 → (ps.getD p []).length = 8 ∧ ∀ k, k < 8 →
          let w := ((ps.getD p []).getD k 0).toNat
          bits w 0 8 = 0x69 ∧ bits w 8 12 = 8 * p + k ∧ bits w 127 1 = (if k = 7 then 1 else 0) ∧
          bits w 24 48 = (cntNow s (8 * p + k)).1 ∧ bits w 20 1 = (cntNow s (8 * p + k)).2)) ∧
    (∀ (id : BitVec 11) (v : BitVec 64), id.toNat < 1664 → Completes (.telCntWrite id v) s (fun u =>
      let c := cntOf id.toNat
      let a := c.2.2.1.addr c.2.2.2.2.1 c.2.2.2.2.2
      u = { Begun s with regs := u.regs, wrHold := u.wrHold } ∧ RegsBut s u [a] ∧ SMap.getD (fun _ => none) u.wrHold a = none ∧
      (cntNow u id.toNat).1 = v.toNat % 2 ^ 48 ∧
      (cntNow u id.toNat).2 = if bit1 v.toNat 48 then 0 else (cntNow s id.toNat).2)) ∧
    (∀ off : BitVec 24, 0x800000 ≤ off.toNat →
      (s.mode ≠ 7 ∨ s.fld Fld.DIAG_CTL_EN = 0 → Completes (.diagRead off) s (fun u => u = { Begun s with rdata := 0 })) ∧
      (∀ w k, s.mode = 7 → s.fld Fld.DIAG_CTL_EN = 1 → s.fld Fld.DIAG_CTL_ARRAY = 0 → s.fld Fld.DIAG_CTL_UNIT < 128 →
        w < 65536 → k < 4 → off.toNat = 0x800000 + 32 * w + 4 * k → maskOf s .drawer (s.fld Fld.DIAG_CTL_UNIT) w = 0 →
        let word := SMap.getD (fun _ => (0 : BitVec 120)) s.cab.words (s.fld Fld.DIAG_CTL_UNIT * 65536 + w)
        Completes (.diagRead off) s (fun u => u = { Begun s with rdata := BitVec.ofNat 32 (bits word.toNat (32 * k) 32) })))

/-- R26, R30, R41, R46, R461, R507, R511, R512: VAUX rises and is lost, a cold reset is asserted and released. What rests on a
choice or an inference of the model: log 6, 37, 70, 102. -/
def Obligations.SupplyAndColdReset : Prop :=
  ∀ (s : State), s.dft = false →
    (∀ (inst : BitVec 8) (src : BitVec 2) (xs : List (BitVec 12)) (ok lref : Bool),
      (s.vaux = true → Completes (.vauxRise inst src xs ok lref) s (fun u => u = Begun s)) ∧
      (s.vaux = false → Completes (.vauxRise inst src xs ok lref) s (fun u =>
        u = { Begun s with vaux := true, coldRst := true, lehr := u.lehr, regs := u.regs, fault := u.fault } ∧
        u.lehr = { s.lehr with railReq := true, lref := lref, excl := u.lehr.excl } ∧ u.fld Fld.STRAP_INST_ID = inst.toNat ∧
        u.fld Fld.STRAP_PARISON_SRC = src.toNat ∧
        (s.regs = [] → u.mode = 1) ∧ (∀ k, k ∈ u.lehr.excl ↔ k < 32 ∧ ∃ x, xs[k]? = some x ∧ (x.toInt < -160 ∨ 600 < x.toInt)) ∧
        (ok = true → u.fld Fld.LEHR_STATUS_SELFCHK = 1 ∧ u.fault = s.fault) ∧
        (ok = false → u.fld Fld.LEHR_STATUS_SELFCHK = s.fld Fld.LEHR_STATUS_SELFCHK ∧ Reported u 0x60 1) ∧
        RegsBut s u [fldAt Fld.STRAP_INST_ID, fldAt Fld.STRAP_PARISON_SRC, fldAt Fld.LEHR_STATUS_SELFCHK]))) ∧
    (SMap.sorted s.port.fp = true → Completes .vauxLoss s (fun u =>
      u = { State.reset with
        dft := s.dft, freezeIn := s.freezeIn, wakeIn := s.wakeIn, warmRst := s.warmRst, free := s.free, pending := s.pending
        port := { port0 with fp := u.port.fp } } ∧
      ∀ p, u.fport p = if (s.fport p).link then { fp0 with link := true } else fp0)) ∧
    (s.vaux = false ∨ s.coldRst = true → Completes .coldResetAssert s (fun u => u = Begun s)) ∧
    (s.vaux = true → s.coldRst = false → s.start.run = none → Completes .coldResetAssert s (fun u =>
      u.coldRst = true ∧ u.portUp = false ∧ u.coreUp = false ∧ u.start.retry = none ∧
      u.lehr = { s.lehr with pass := none, planDue := u.lehr.planDue } ∧
      (u.lehr.planDue = true ↔ s.lehr.planDue = true ∨ ∃ p, s.lehr.pass = some p ∧ p.reason = 1) ∧
      u.agt = [] ∧ u.cab = ⟨[], [], [], 0⟩ ∧ u.stw = ⟨[], []⟩ ∧ u.hutch = [] ∧ u.nq = nq0 ∧ u.irq = ⟨[], []⟩ ∧ u.sl = slice0 ∧
      u.port = { port0 with fp := u.port.fp } ∧ u.repair = s.repair ∧ u.now = s.now ∧ u.lehrNow = s.lehrNow ∧
      u.mode = (if 2 ≤ s.mode then 2 else s.mode) ∧ (2 ≤ s.mode → u.fld Fld.MODE_FORCED = 1 ∧ u.fld Fld.MODE_PREV = s.mode) ∧ (s.mode < 2 → u.fld Fld.MODE_RETAINED = 0) ∧
      DomainsReset s u (· ≠ .lehr) [fldAt Fld.MODE_CUR, fldAt Fld.MODE_REQ_REQ, fldAt Fld.FC_STATUS_FATAL])) ∧
    (s.vaux = true → s.coldRst = false → s.start.run ≠ none → Completes .coldResetAssert s (fun u =>
      u.coldRst = true ∧ u.portUp = false ∧ u.coreUp = false ∧ u.start.run = none ∧ u.start.retry = none ∧
      u.fld Fld.START_STATUS_CODE = 8 ∧ u.mode = (if 2 ≤ s.mode then 2 else s.mode))) ∧
    (∀ (inst : BitVec 8) (src : BitVec 2) (test : SelfTest),
      (s.vaux = false ∨ s.coldRst = false → Completes (.coldStart inst src test) s (fun u => u = Begun s)) ∧
      (s.vaux = true → s.coldRst = true → s.fld Fld.LEHR_STATUS_SELFCHK = 0 ∨ s.fld Fld.START_STATUS_EXHAUSTED = 1 →
        Completes (.coldStart inst src test) s (fun u => u = { Begun s with coldRst := false, regs := u.regs } ∧
          u.fld Fld.STRAP_INST_ID = inst.toNat ∧ u.fld Fld.STRAP_PARISON_SRC = src.toNat ∧
          RegsBut s u [fldAt Fld.STRAP_INST_ID, fldAt Fld.STRAP_PARISON_SRC])) ∧
      (s.vaux = true → s.coldRst = true → s.fld Fld.LEHR_STATUS_SELFCHK = 1 → s.fld Fld.START_STATUS_EXHAUSTED = 0 →
        Completes (.coldStart inst src test) s (fun u =>
          u.coldRst = false ∧ u.portUp = true ∧ u.coreUp = true ∧ u.now = s.lehrNow ∧ u.lehrNow = s.lehrNow ∧
          u.sleepReady = false ∧ u.fld Fld.STRAP_INST_ID = inst.toNat ∧ u.fld Fld.STRAP_PARISON_SRC = src.toNat ∧ u.mode = 2 ∧
          u.fld Fld.START_STATUS_STEP = 2 ∧ u.fld Fld.START_STATUS_KIND = 0 ∧ u.fld Fld.START_STATUS_CODE = 0 ∧
          u.fld Fld.START_CTL_MAPS_READY = 0 ∧ u.fld Fld.SLEEP_STATUS_STATE = 0 ∧
          u.lehr.railReq = true ∧ u.lehr.pass = some ⟨0, 0, false⟩ ∧
          (∃ r, u.start.run = some r ∧ r.kind = 0 ∧ r.began = s.lehrNow ∧ r.test = test) ∧
          (∀ p, p < 64 → s.fld Fld.FP_CTL_EN p = 1 → (u.fport p).reqCred = 32 - (s.fport p).reqQ.length ∧ (u.fport p).rspCred = 64) ∧
          (maskOf s .lehr 0 1664 = 0 → s.fld Fld.DIE_INJ_L_ARM = 0 →
            u = { Begun s with
              coldRst := false, portUp := true, coreUp := true, now := s.lehrNow, sleepReady := false, start := u.start, pt := u.pt
              regs := u.regs, cmd := u.cmd, irq := u.irq, fb := u.fb, lehr := u.lehr, port := { s.port with fp := u.port.fp }
              shadow := u.shadow, integ := u.integ, fault := { s.fault with pulse := false, heldPin := false } } ∧
            u.fld Fld.START_CNT_STARTS = min (s.fld Fld.START_CNT_STARTS + 1) 65535 ∧ u.pt.port = s.pt.port ∧
            u.fb.msgs.length = s.fb.msgs.length + 1 ∧ RegsBut s u [fldAt Fld.FC_STATUS_FATAL, fldAt Fld.STRAP_INST_ID, fldAt Fld.STRAP_PARISON_SRC, fldAt Fld.START_STATUS_STEP, fldAt Fld.START_CTL_RETRY,
            fldAt Fld.START_CNT_STARTS, fldAt Fld.MODE_CUR, fldAt Fld.MODE_REQ_REQ, fldAt Fld.SLEEP_STATUS_STATE,
            fldAt Fld.LEHR_IRQ_SRC, fldAt Fld.CMD_RES_DONE, fldAt Fld.CMD_VAL_VALUE]))))

/-- R23, R26, R27, R46, R507, R513, R515: a warm reset is asserted and released. What rests on a choice or an inference of the
model: log 69. -/
def Obligations.WarmReset : Prop :=
  ∀ (s : State), s.dft = false →
    (s.vaux = false ∨ s.warmRst = true → Completes .warmResetAssert s (fun u => u = Begun s)) ∧
    (s.vaux = true → s.warmRst = false → s.coldRst = true → 3 ≤ s.mode → Completes .warmResetAssert s (fun u =>
      u = { Begun s with warmRst := true })) ∧
    (s.vaux = true → s.warmRst = false → s.mode < 3 → Completes .warmResetAssert s (fun u =>
      u = { Begun s with warmRst := true, regs := u.regs } ∧ u.fld Fld.PIN_STATUS_WARM_IGN = 1 ∧
      RegsBut s u [fldAt Fld.PIN_STATUS_WARM_IGN])) ∧
    (s.vaux = true → s.warmRst = false → s.coldRst = false → 3 ≤ s.mode → s.start.run = none →
      Completes .warmResetAssert s (fun u =>
        u.warmRst = true ∧ u.mode = 3 ∧ u.fld Fld.MODE_FORCED = 1 ∧ u.fld Fld.MODE_PREV = s.mode ∧ u.coreUp = false ∧
        u.portUp = s.portUp ∧ u.agt = s.agt ∧ u.cab.words = s.cab.words ∧ u.cab.spare = s.cab.spare ∧ u.port.recs = s.port.recs ∧
        u.stw = { s.stw with thr := [] } ∧ u.hutch = [] ∧ u.nq = nq0 ∧ u.irq = ⟨[], []⟩ ∧ u.sl = slice0 ∧ u.repair = s.repair ∧
        u.lehr = s.lehr ∧ (∀ c, c < 16 → u.fld Fld.STW_STATUS_FAILED c = s.fld Fld.STW_STATUS_FAILED c) ∧
        u.now = s.now ∧ u.lehrNow = s.lehrNow ∧ u.walks = [] ∧ u.port.notices = [] ∧
        (∀ k, (s.holdE k).used = true → u.holdE k = { s.holdE k with
          wait := if (s.holdE k).wait = .binding ∨ (s.holdE k).wait = .behind then (s.holdE k).wait else .parked }) ∧
        ((∀ c, c < 16 → s.fld Fld.STW_STATUS_FAILED c = 0) → DomainsReset s u (· = .core) [fldAt Fld.MODE_CUR, fldAt Fld.MODE_REQ_REQ]))) ∧
    (s.vaux = true → s.warmRst = false → s.coldRst = false → 3 ≤ s.mode → s.start.run ≠ none →
      Completes .warmResetAssert s (fun u => u.warmRst = true ∧ u.mode = 3 ∧ u.coreUp = false ∧ u.start.run = none ∧
        u.fld Fld.START_STATUS_CODE = 8)) ∧
    (s.vaux = false ∨ s.warmRst = false → Completes .warmStart s (fun u => u = Begun s)) ∧
    (s.vaux = true → s.warmRst = true → s.mode ≠ 3 ∨ s.coreUp = true ∨ s.coldRst = true → Completes .warmStart s (fun u =>
      u = { Begun s with warmRst := false })) ∧
    (s.vaux = true → s.warmRst = true → s.mode = 3 → s.coreUp = false → s.coldRst = false → s.fld Fld.LEHR_STATUS_SELFCHK = 1 →
      Completes .warmStart s (fun u =>
        u.warmRst = false ∧ u.portUp = true ∧ u.coreUp = true ∧ u.now = s.lehrNow ∧ u.lehrNow = s.lehrNow ∧ u.sleepReady = false ∧
        u.port = { s.port with replay := [], replaying := true } ∧ u.agt = s.agt ∧ u.cab = s.cab ∧ u.repair = s.repair ∧
        u.mode = 3 ∧ u.fld Fld.START_STATUS_STEP = 2 ∧ u.fld Fld.START_STATUS_KIND = 1 ∧ u.fld Fld.START_STATUS_CODE = 0 ∧
        (∃ r, u.start.run = some r ∧ r.kind = 1 ∧ r.began = s.lehrNow) ∧
        (maskOf s .lehr 0 1664 = 0 → s.fld Fld.DIE_INJ_L_ARM = 0 →
          u = { Begun s with
            warmRst := false, portUp := true, coreUp := true, now := s.lehrNow, sleepReady := false, start := u.start, pt := u.pt
            regs := u.regs, cmd := u.cmd, irq := u.irq, fb := u.fb, port := u.port, shadow := u.shadow, integ := u.integ
            lehr := u.lehr } ∧
          u.fld Fld.START_CNT_STARTS = min (s.fld Fld.START_CNT_STARTS + 1) 65535 ∧ u.fb.msgs.length = s.fb.msgs.length + 1 ∧
          RegsBut s u [fldAt Fld.START_STATUS_STEP, fldAt Fld.START_CNT_STARTS, fldAt Fld.CMD_RES_DONE, fldAt Fld.CMD_VAL_VALUE])))

/-- R41, R470 to R474, R482, R508: wake sources, the commit or abandonment of a sleep, and a wake with retention. What rests
on a choice or an inference of the model: log 10, 27, 75. -/
def Obligations.SleepAndWake : Prop :=
  ∀ (s : State), s.dft = false →
    let st := s.fld Fld.SLEEP_STATUS_STATE
    (∀ (srcs : BitVec 5) (pins : BitVec 2),
      let fires := fun (k : Nat) => (decide (k < 5) && decide (k ≠ 2) && srcs.getLsbD k ||
        decide (5 ≤ k) && pins.getLsbD (k - 5) && ! s.wakeIn.getLsbD (k - 5)) && wakeEnabled s k
      let some_ := ∃ k, k < 7 ∧ fires k = true
      let t := if srcs.getLsbD 3 then s.fld Fld.WAKE_TIME_TIME else 0
      let frame := fun (u : State) => u = { Begun s with
          wakeIn := pins, now := max s.now t, lehrNow := max s.lehrNow t, regs := u.regs, fb := u.fb, lehr := u.lehr } ∧
        RegsBut s u [fldAt Fld.SLEEP_STATUS_STATE]
      (¬ some_ ∨ (st ≠ 1 ∧ st ≠ 2 ∧ st ≠ 3) → Completes (.wakeSourceFire srcs pins) s (fun u =>
        frame u ∧ u.regs = s.regs ∧ u.fb = s.fb ∧ u.lehr = s.lehr)) ∧
      (some_ → st = 1 → Completes (.wakeSourceFire srcs pins) s (fun u => frame u ∧ u.regs = s.regs ∧ u.fb = s.fb ∧
        u.lehr = { s.lehr with fired := u.lehr.fired } ∧
        ∀ k, k < 7 → bit1 u.lehr.fired k = (bit1 s.lehr.fired k || fires k))) ∧
      (some_ → st = 2 ∨ st = 3 → Completes (.wakeSourceFire srcs pins) s (fun u => frame u ∧
        u.fld Fld.SLEEP_STATUS_STATE = 4 ∧ (∀ k, k < 7 → bit1 (u.fld Fld.SLEEP_STATUS_SRC) k = fires k) ∧
        u.fb.msgs.length = s.fb.msgs.length + 1 ∧ u.lehr = if st = 3 then { s.lehr with railReq := true } else s.lehr))) ∧
    (s.vaux = true → s.fld Fld.START_STATUS_EXHAUSTED = 0 → st = 2 ∨ st = 3 → Completes .sleepCtlWake s (fun u =>
      u = { Begun s with regs := u.regs, fb := u.fb, lehr := u.lehr } ∧ u.fld Fld.SLEEP_STATUS_STATE = 4 ∧
      u.fld Fld.SLEEP_STATUS_SRC = 4 ∧ RegsBut s u [fldAt Fld.SLEEP_STATUS_STATE, fldAt Fld.SLEEP_CTL_WAKE] ∧
      u.reg .SLEEP_CTL = s.reg .SLEEP_CTL ∧
      u.lehr = if st = 3 then { s.lehr with railReq := true } else s.lehr)) ∧
    (s.vaux = true → s.fld Fld.START_STATUS_EXHAUSTED = 0 → st = 1 → Completes .sleepCtlWake s (fun u =>
      u = { Begun s with regs := u.regs, lehr := { s.lehr with fired := s.lehr.fired ||| 4 } } ∧
      RegsBut s u [fldAt Fld.SLEEP_CTL_WAKE] ∧ u.reg .SLEEP_CTL = s.reg .SLEEP_CTL)) ∧
    (s.vaux = true → s.fld Fld.START_STATUS_EXHAUSTED = 1 ∨ (st ≠ 1 ∧ st ≠ 2 ∧ st ≠ 3) →
      Completes .sleepCtlWake s (fun u => OnlyRegs s u [fldAt Fld.SLEEP_CTL_WAKE] ∧ u.reg .SLEEP_CTL = s.reg .SLEEP_CTL)) ∧
    (s.sleepReady = false ∨ st ≠ 1 → Completes .sleepCommit s (fun u => u = Begun s)) ∧
    (s.sleepReady = true → st = 1 → s.vaux = true →
      (s.lehr.fired ≠ 0 → Completes .sleepCommit s (fun u =>
        u = { Begun s with sleepReady := false, regs := u.regs, fb := u.fb } ∧ u.mode = 4 ∧ u.fld Fld.MODE_FORCED = 1 ∧
        u.fld Fld.MODE_PREV = s.mode ∧ u.fld Fld.SLEEP_STATUS_RESULT = 2 ∧ u.fld Fld.SLEEP_STATUS_SRC = s.lehr.fired % 128 ∧
        u.fld Fld.SLEEP_STATUS_STATE = 0 ∧ u.fld Fld.MODE_REQ_STATUS = 4 ∧ bit1 (u.fld Fld.LEHR_IRQ_SRC) 4 = true ∧
        u.fb.msgs.length = s.fb.msgs.length + 1 ∧ RegsBut s u [fldAt Fld.MODE_CUR, fldAt Fld.MODE_REQ_REQ,
          fldAt Fld.SLEEP_STATUS_STATE, fldAt Fld.LEHR_IRQ_SRC])) ∧
      (s.lehr.fired = 0 → s.fld Fld.MODE_RETAINED = 1 → Completes .sleepCommit s (fun u =>
        u.fld Fld.SLEEP_STATUS_STATE = 2 ∧ u.fld Fld.SLEEP_STATUS_RESULT = 1 ∧ u.coreUp = false ∧ u.portUp = s.portUp ∧
        u.mode = s.mode ∧ u.agt = s.agt ∧ u.cab.words = s.cab.words ∧ u.cab.spare = s.cab.spare ∧ u.stw.lmem = s.stw.lmem ∧
        u.sl.banks = { s.sl.banks with blocked := [], swap := none } ∧ u.port.recs = s.port.recs ∧ u.lehr = s.lehr ∧ u.fb.msgs.length = s.fb.msgs.length + 1 ∧
        (s.fld Fld.MODE_REQ_STATUS = 1 → u.fld Fld.MODE_REQ_STATUS = 5))) ∧
      (s.lehr.fired = 0 → s.fld Fld.MODE_RETAINED = 0 → Completes .sleepCommit s (fun u =>
        u.fld Fld.SLEEP_STATUS_STATE = 3 ∧ u.fld Fld.SLEEP_STATUS_RESULT = 1 ∧ u.coreUp = false ∧ u.portUp = false ∧
        u.mode = s.mode ∧ u.agt = [] ∧ u.cab.words = [] ∧ u.lehr = { s.lehr with railReq := false } ∧
        u.fb.msgs.length = s.fb.msgs.length + 1))) ∧
    (s.vaux = false ∨ s.portUp = false ∨ s.coreUp = true ∨ s.coldRst = true ∨ st ≠ 4 ∨ s.fld Fld.MODE_RETAINED = 0 →
      Completes .wakeStart s (fun u => u = Begun s)) ∧
    (∀ v, s.vaux = true → s.portUp = true → s.coreUp = false → s.coldRst = false → st = 4 → s.fld Fld.MODE_RETAINED = 1 →
      s.fld Fld.LEHR_STATUS_SELFCHK = 1 → Intact s → s.lword 0 8191 = v → 0 < v.toNat → v.toNat < 0x10000 →
      Completes .wakeStart s (fun u =>
        u.mode = 4 ∧ u.fld Fld.MODE_FORCED = 1 ∧ u.coreUp = true ∧ u.now = s.lehrNow ∧ u.fld Fld.SLEEP_STATUS_STATE = 0 ∧
        u.fld Fld.START_STATUS_STEP = 10 ∧ u.fld Fld.START_STATUS_KIND = 2 ∧ u.start.run = none ∧
        u.fld Fld.START_CNT_WARM_FAIL = 0 ∧ u.fld Fld.START_CNT_COLD_FAIL = 0 ∧ u.fld Fld.BOOT_STATUS_CODE = 2 ∧
        u.thr 0 = { thr0 with run := 1, pc := v, last := 0x10000 } ∧ bit1 (u.fld Fld.LEHR_IRQ_SRC) 3 = true ∧ u.cab.words = s.cab.words ∧
        u.agt = s.agt ∧ u.stw.lmem = s.stw.lmem ∧ u.port.recs = s.port.recs ∧ u.sl.banks = s.sl.banks))

/-- R507, R510 to R512, R525: a step that exceeds its limit, the start that follows a failed one, START_CTL, CENSUS_DONE. What
rests on a choice or an inference of the model: log 34, 36. -/
def Obligations.StartControl : Prop :=
  ∀ (s : State), s.dft = false → s.vaux = true →
    let good := maskOf s .lehr 0 1664 = 0 ∧ s.fld Fld.DIE_INJ_L_ARM = 0
    let began := fun (kind now : Nat) (u : State) => u.coreUp = true ∧ u.portUp = true ∧ u.now = now ∧ u.start.retry = none ∧
      u.fld Fld.START_STATUS_KIND = kind ∧ u.fld Fld.START_STATUS_STEP = 2 ∧ u.fld Fld.START_STATUS_CODE = 0 ∧
      (good → u.fld Fld.START_CNT_STARTS = min (s.fld Fld.START_CNT_STARTS + 1) 65535) ∧
      (∃ r, u.start.run = some r ∧ r.kind = kind ∧ r.began = now) ∧ u.repair = s.repair
    (s.start.run = none → Completes .startStepTimeout s (fun u => u = Begun s)) ∧
    (∀ r, s.start.run = some r →
      let k := s.fld Fld.START_STATUS_STEP
      let waits := (k = 7 ∧ r.phase = 0 ∧ r.kind = 0) ∨
        (s.start.boot.active = true ∧ s.start.boot.src = 0 ∧ s.start.boot.wait = true)
      let fails := fun (u : State) => u.mode = 1 ∧ (s.mode ≠ 1 → u.fld Fld.MODE_FORCED = 1 ∧ u.fld Fld.MODE_PREV = s.mode) ∧
        (s.mode = 1 → u.fld Fld.MODE_PREV = s.fld Fld.MODE_PREV) ∧ u.fld Fld.START_STATUS_CODE = 6 ∧
        u.start.run = none ∧ u.coreUp = false ∧ u.fld Fld.MODE_RETAINED = 0 ∧ u.fld Fld.SLEEP_STATUS_STATE = 0 ∧
        u.lehrNow = max s.lehrNow (r.limit + 1) ∧ u.repair = s.repair ∧ s.fb.msgs.length < u.fb.msgs.length ∧
        (u.start.retry ≠ none → u.start.retryAt = u.lehrNow + max 1 (s.fld Fld.START_CTL_RETRY_DLY) * 1000000)
      (8 < k ∨ waits → Completes .startStepTimeout s (fun u => u = Begun s)) ∧
      (k ≤ 8 → ¬ waits → r.kind ≠ 0 → good → Completes .startStepTimeout s (fun u => fails u ∧ u.portUp = s.portUp ∧ u.agt = s.agt ∧
        u.cab.words = s.cab.words ∧ u.port.recs = s.port.recs ∧
        u.fld Fld.START_CNT_WARM_FAIL = min 3 (s.fld Fld.START_CNT_WARM_FAIL + 1) ∧
        u.start.retry = some (if 2 ≤ s.fld Fld.START_CNT_WARM_FAIL then 0 else 1))) ∧
      (k ≤ 8 → ¬ waits → r.kind = 0 → good → Completes .startStepTimeout s (fun u => fails u ∧ u.portUp = false ∧ u.agt = [] ∧
        u.cab.words = [] ∧ u.fld Fld.START_CNT_COLD_FAIL = min 3 (s.fld Fld.START_CNT_COLD_FAIL + 1) ∧
        (s.fld Fld.START_CNT_COLD_FAIL < 2 → u.start.retry = some 0) ∧
        (2 ≤ s.fld Fld.START_CNT_COLD_FAIL → u.start.retry = none ∧ u.fld Fld.START_STATUS_EXHAUSTED = 1 ∧
          Reported u 0x61 0)))) ∧
    (∀ test : SelfTest,
      (s.start.retry = none ∨ s.coldRst = true → Completes (.startRetry test) s (fun u => u = Begun s)) ∧
      (s.start.retry = some 1 → s.coldRst = false → s.fld Fld.LEHR_STATUS_SELFCHK = 1 → Completes (.startRetry test) s (fun u =>
        began 1 (max s.lehrNow s.start.retryAt) u ∧ u.mode = 3 ∧ u.port.replaying = true ∧ u.agt = s.agt ∧
        u.cab = s.cab ∧ u.port.recs = s.port.recs)) ∧
      (s.start.retry = some 0 → s.coldRst = false → s.fld Fld.LEHR_STATUS_SELFCHK = 1 → Completes (.startRetry test) s (fun u =>
        began 0 (max s.lehrNow s.start.retryAt) u ∧ u.mode = 2 ∧ u.lehr.pass = some ⟨0, 0, false⟩ ∧ u.agt = [] ∧
        u.cab.words = [])) ∧
      (s.fld Fld.START_STATUS_EXHAUSTED = 0 ∨ s.coldRst = true → Completes (.startCtlRetry test) s (fun u =>
        OnlyRegs s u [fldAt Fld.START_CTL_RETRY] ∧ u.reg .START_CTL = s.reg .START_CTL)) ∧
      (s.fld Fld.START_STATUS_EXHAUSTED = 1 → s.coldRst = false → s.fld Fld.LEHR_STATUS_SELFCHK = 1 →
        Completes (.startCtlRetry test) s (fun u => began 0 s.lehrNow u ∧ u.mode = 2 ∧ u.fld Fld.START_STATUS_EXHAUSTED = 0 ∧
          u.fld Fld.START_CNT_WARM_FAIL = 0 ∧ u.fld Fld.START_CNT_COLD_FAIL = 0 ∧ u.agt = [] ∧ u.cab.words = []))) ∧
    Completes .mapsReadyWrite s (fun u => OnlyRegs s u [fldAt Fld.START_CTL_MAPS_READY] ∧ u.fld Fld.START_CTL_MAPS_READY = 1 ∧
      ∀ f ∈ [Fld.START_CTL_PT_EN, Fld.START_CTL_STEP_TMO, Fld.START_CTL_RETRY_DLY], u.fld f = s.fld f) ∧
    (∀ c, s.cmd = some c → c.code = 0x40 → progsUp s = true →
      let ended := fun (code : Nat) (u : State) => u.cmd = none ∧ u.fld Fld.CMD_RES_DONE = 1 ∧ u.fld Fld.CMD_RES_CODE = code ∧
        3 ∈ u.irq.pend
      (∀ r, s.start.run = some r → s.mode = 2 → s.fld Fld.START_STATUS_STEP = 9 → Completes .censusDone s (fun u =>
        ended 0 u ∧ u.fld Fld.CMD_VAL_VALUE = (s.agents.filter (fun a => s.agtState a = 2)).length % 2 ^ 32 ∧ u.mode = 4 ∧
        u.fld Fld.MODE_FORCED = 1 ∧ u.fld Fld.START_STATUS_STEP = 10 ∧ u.start.run = none ∧ u.fld Fld.START_CNT_COLD_FAIL = 0 ∧
        u.fld Fld.START_CNT_WARM_FAIL = 0 ∧ (∀ c, c < 16 → (⟨1, 0, c⟩ : Walk) ∈ u.walks) ∧ u.fld Fld.SWEEP_STATUS_KIND = 1 ∧ u.agt = s.agt ∧
        u.cab.words = s.cab.words)) ∧
      (s.start.run = none ∨ s.mode ≠ 2 ∨ s.fld Fld.START_STATUS_STEP ≠ 9 → Completes .censusDone s (fun u =>
        u = { Begun s with regs := u.regs, irq := u.irq, cmd := none } ∧ ended 0x34 u ∧ u.fld Fld.CMD_VAL_VALUE = 0 ∧
        RegsBut s u [fldAt Fld.CMD_RES_DONE, fldAt Fld.CMD_VAL_VALUE])))

/-- R29 to R34, R185, R472, R512: MODE_REQ refuses what R30 does not list, refuses while a sweep runs, is refused PREEMPTED in
the LCLK of a forced transition, and begins the rest with its sweep. What rests on a choice or an inference of the model: log
103. -/
def Obligations.ModeRequests : Prop :=
  ∀ (v : BitVec 32) (s : State), s.dft = false → s.vaux = true →
    let m := v.toNat % 8
    let legal := (s.mode, m) ∈ [(4, 5), (4, 6), (4, 7), (4, 1), (5, 4), (5, 6), (6, 4), (7, 4)]
    let busy := (∃ w ∈ s.walks, w.kind ∈ [1, 4, 5, 6]) ∨ s.fld Fld.SLEEP_STATUS_STATE = 1
    let req := fun (st : Nat) (u : State) => u.fld Fld.MODE_REQ_REQ = m ∧ u.fld Fld.MODE_REQ_RETAIN = bits v.toNat 3 1 ∧
      u.fld Fld.MODE_REQ_STATUS = st
    let entered := fun (u : State) => u.mode = m ∧ u.fld Fld.MODE_PREV = s.mode ∧ u.fld Fld.MODE_FORCED = 0
    let sweep := fun (kind : Nat) (ws : List Walk) (u : State) => u.walks = s.walks ++ ws ∧ u.fld Fld.SWEEP_STATUS_DRAWERS = 0 ∧ u.fld Fld.SWEEP_STATUS_KIND = kind ∧
      u.fld Fld.SWEEP_STATUS_SETTLED = 0
    let regs := [fldAt Fld.MODE_REQ_REQ, fldAt Fld.MODE_CUR]
    (s.fld Fld.START_STATUS_EXHAUSTED = 1 → ∀ same, Completes (.modeReqWrite ⟨v, same⟩) s (fun u => u = Begun s)) ∧
    (s.fld Fld.START_STATUS_EXHAUSTED = 0 → Completes (.modeReqWrite ⟨v, true⟩) s (fun u =>
      OnlyRegs s u [fldAt Fld.MODE_REQ_REQ] ∧ req 4 u)) ∧
    (s.fld Fld.START_STATUS_EXHAUSTED = 0 →
      (¬ legal → Completes (.modeReqWrite ⟨v, false⟩) s (fun u => OnlyRegs s u [fldAt Fld.MODE_REQ_REQ] ∧ req 2 u)) ∧
      (legal → busy → Completes (.modeReqWrite ⟨v, false⟩) s (fun u => OnlyRegs s u [fldAt Fld.MODE_REQ_REQ] ∧ req 3 u)) ∧
      (¬ busy →
        ((s.mode, m) ∈ [(4, 6), (4, 7), (5, 4), (5, 6)] → Completes (.modeReqWrite ⟨v, false⟩) s (fun u =>
          OnlyRegs s u regs ∧ req 5 u ∧ entered u)) ∧
        ((s.mode, m) = (4, 5) → Completes (.modeReqWrite ⟨v, false⟩) s (fun u => u = { Begun s with regs := u.regs, walks := u.walks } ∧
          RegsBut s u (fldAt Fld.SWEEP_STATUS_KIND :: regs) ∧ req 1 u ∧ entered u ∧ sweep 4 [⟨6, 0, 0⟩] u)) ∧
        ((s.mode, m) ∈ [(6, 4), (7, 4)] → Completes (.modeReqWrite ⟨v, false⟩) s (fun u =>
          u = { Begun s with regs := u.regs, walks := u.walks, sl := u.sl } ∧
          RegsBut s u (fldAt Fld.SWEEP_STATUS_KIND :: regs) ∧ req 1 u ∧ entered u ∧ sweep 1 ((List.range 16).map (fun c => ⟨1, 0, c⟩)) u ∧
          ∀ k, u.trkE k = { s.trkE k with pre := (s.trkE k).valid })) ∧
        ((s.mode, m) = (4, 1) → Completes (.modeReqWrite ⟨v, false⟩) s (fun u =>
          u = { Begun s with regs := u.regs, walks := u.walks, govSlot := 64, lehr := { s.lehr with fired := 0 } } ∧
          RegsBut s u (fldAt Fld.SWEEP_STATUS_KIND :: fldAt Fld.SLEEP_STATUS_STATE :: regs) ∧ req 1 u ∧ entered u ∧
          u.fld Fld.SLEEP_STATUS_STATE = 1 ∧ u.fld Fld.MODE_RETAINED = bits v.toNat 3 1 ∧
          (v.getLsbD 3 = true → sweep 3 [⟨5, 0, 0⟩] u) ∧ (v.getLsbD 3 = false → sweep 2 [⟨4, 0, 0⟩] u)))))

/-- R22, R43, R461, R463, R464, R468, R470, R471: telemetry frames and temperature samples with the conditions formed from
them, and the clock monitor of a region. R465 to R468, R470: a slot's caps and background bits, and the entry the governor
writes for the next slot. What rests on a choice or an inference of the model: log 58, 59, 63. -/
def Obligations.LehrSamplesAndSlots : Prop :=
  (∀ (s : State), s.dft = false → s.vaux = true →
    let conds := fun (u : State) => (u.fld Fld.GOV_STATUS_PK = 1 ↔ condPk u = true) ∧
      (u.fld Fld.GOV_STATUS_AVG = 1 ↔ condAvg u = true) ∧ ∀ r, r < 4 →
        bit1 (u.fld Fld.GOV_STATUS_HOT) r = regionHot u r ∧ bit1 (u.fld Fld.GOV_STATUS_TRIP) r = regionTrip u r
    (∀ core sram : BitVec 16,
      (s.lehr.railReq = false → Completes (.ctelFrame core sram) s (fun u => u = Begun s)) ∧
      (s.lehr.railReq = true → core = 0xFFFF → sram = 0xFFFF → Completes (.ctelFrame core sram) s (fun u =>
        u = { Begun s with regs := u.regs, fb := u.fb } ∧ conds u ∧ u.fld Fld.PIN_STATUS_CTEL_ABSENT = 1 ∧
        (s.fld Fld.PIN_STATUS_CTEL_ABSENT = 0 → bit1 (u.fld Fld.LEHR_IRQ_SRC) 8 = true ∧ s.fb.msgs.length < u.fb.msgs.length) ∧
        RegsBut s u [fldAt Fld.PIN_STATUS_CTEL_ABSENT, fldAt Fld.GOV_STATUS_PK, fldAt Fld.LEHR_IRQ_SRC])) ∧
      (s.lehr.railReq = true → core ≠ 0xFFFF ∨ sram ≠ 0xFFFF → Completes (.ctelFrame core sram) s (fun u =>
        u = { Begun s with regs := u.regs, fb := u.fb, lehr := u.lehr } ∧ conds u ∧
        u.lehr = { s.lehr with iNow := core.toNat + sram.toNat, iHist := u.lehr.iHist } ∧
        iSum u = iSum s + core.toNat + sram.toNat ∧ iCnt u = iCnt s + 1 ∧
        u.fld Fld.GOV_IMEAS_CORE = core.toNat ∧ u.fld Fld.GOV_IMEAS_SRAM = sram.toNat ∧
        RegsBut s u [fldAt Fld.GOV_IMEAS_CORE, fldAt Fld.GOV_IMEAS_SRAM, fldAt Fld.GOV_STATUS_PK, fldAt Fld.LEHR_IRQ_SRC]))) ∧
    (∀ xs : List (BitVec 12),
      let out := fun (k : Nat) => ∃ x, xs[k]? = some x ∧ (x.toInt < -160 ∨ 600 < x.toInt)
      let samples := fun (u : State) => conds u ∧ u.lehr = { s.lehr with temp := u.lehr.temp, excl := u.lehr.excl } ∧
        (∀ k, k ∈ u.lehr.excl ↔ k ∈ s.lehr.excl ∨ (k < 32 ∧ out k)) ∧
        ∀ k, tempOf u k = match xs[k]? with
          | some x => if k < 32 ∧ k ∉ u.lehr.excl then tempOf s k + ((x.toInt : Rat) - tempOf s k) / 8 else tempOf s k
          | none => tempOf s k
      (s.fld Fld.SLEEP_STATUS_STATE = 0 → Completes (.thermSample xs) s (fun u =>
        u = { Begun s with regs := u.regs, fb := u.fb, lehr := u.lehr } ∧ samples u ∧
        RegsBut s u [fldAt Fld.GOV_STATUS_PK, fldAt Fld.LEHR_IRQ_SRC])) ∧
      (s.fld Fld.SLEEP_STATUS_STATE = 2 → s.fld Fld.START_STATUS_EXHAUSTED = 0 → bit1 (s.fld Fld.SLEEP_CTL_EN_HI) 1 = true →
        Completes (.thermSample xs) s (fun u =>
          u = { Begun s with regs := u.regs, fb := u.fb, lehr := u.lehr } ∧ samples u ∧
          let fired := ∃ k, k < 32 ∧ k ∉ u.lehr.excl ∧ ((4 * s.fld Fld.THERM_CTL_T_WAKE : Nat) : Rat) ≤ tempOf u k
          (fired → u.fld Fld.SLEEP_STATUS_STATE = 4 ∧ u.fld Fld.SLEEP_STATUS_SRC = 16) ∧
          (¬ fired → u.fld Fld.SLEEP_STATUS_STATE = 2) ∧
          RegsBut s u [fldAt Fld.GOV_STATUS_PK, fldAt Fld.LEHR_IRQ_SRC, fldAt Fld.SLEEP_STATUS_STATE]))) ∧
    (∀ r : BitVec 2,
      (s.coreUp = false ∨ s.mode = 1 → Completes (.mclkMonitorTimeout r) s (fun u => u = Begun s)) ∧
      (s.coreUp = true → s.mode ≠ 1 → Completes (.mclkMonitorTimeout r) s (fun u =>
        u = { Begun s with regs := u.regs, fault := u.fault } ∧ Reported u 0x82 r.toNat ∧ RegsBut s u (RegionLc r.toNat))))) ∧
  (∀ (s : State), s.dft = false →
    let runs := s.vaux = true ∧ s.mode ≠ 1
    (¬ runs → Completes .govSlotStart s (fun u => u = Begun s)) ∧
    (runs → Completes .govSlotStart s (fun u =>
      let n := if s.govSlot = 64 then 0 else (s.govSlot + 1) % 64
      u = { Begun s with
        govSlot := n, govCap := u.govCap, govBg := u.govBg
        lehr := { s.lehr with iHist := ((0, 0) :: s.lehr.iHist).take 64, cap := u.govCap, bg := u.govBg } } ∧
      ∀ c, c < 16 →
        bits u.govCap.toNat (4 * c) 4 = (if regionTrip s (c / 4) then 0 else min (slotCap s n c) (ceilOf s c)) ∧
        u.govBg.getLsbD c = (slotBg s n c && bit1 (s.fld Fld.GOV_BG_BG_EN) c && ! regionTrip s (c / 4)))) ∧
    (¬ runs ∨ s.fld Fld.GOV_CTL_AUTO = 0 → Completes .govCompute s (fun u => u = Begun s)) ∧
    (runs → s.fld Fld.GOV_CTL_AUTO = 1 → Completes .govCompute s (fun u =>
      let n := (s.govSlot % 64 + 1) % 64
      OnlyRegs s u [fldAt Fld.GOV_SLOT_CAPL_CAP n, fldAt Fld.GOV_SLOT_CAPH_CAP n, fldAt Fld.GOV_SLOT_BG_BG n] ∧
      ∀ c, c < 16 →
        let d := (if condPk s then 4 else 0) + (if condAvg s then 1 else 0) + (if regionHot s (c / 4) then 2 else 0)
        let cap := bits s.lehr.cap.toNat (4 * c) 4
        slotCap u n c = (if d = 0 then min (ceilOf s c) (cap + 1) else cap - d) ∧
        slotBg u n c = (! condPk s && marginOk s && decide (regionTemp s (c / 4) < 4 * (s.fld Fld.THERM_CTL_T_TARGET : Rat))))))

/-- R475, R476, R485, R486: a measurement gives D and goes on to the next pair; the last one makes the plan; hours,
MGN_CTL.GO. What rests on a choice or an inference of the model: log 61, 108. -/
def Obligations.AgeingPasses : Prop :=
  ∀ (s : State), s.dft = false → s.vaux = true →
    let powered := s.lehr.railReq = true ∧ s.coldRst = false
    let ledgerGood := s.integ.mask = [] ∧ s.fld Fld.DIE_INJ_L_ARM = 0
    let may := powered ∧ s.mode ≠ 1
    (∀ nu ns : BitVec 32,
      (s.lehr.pass = none ∨ ¬ may → Completes (.ageingMeasurement nu ns) s (fun u => u = Begun s)) ∧
      (∀ p, s.lehr.pass = some p → may → p.pair < 32 →
        let d := if nu = 0 then (Config.free s.free).toNat % 65536
          else ((((nu.toNat : Int) - ns.toNat) * 10000) / nu.toNat % (2 ^ 16 : Int)).toNat
        let measured := fun (u : State) => u.fld Fld.AGE_MON_NOW p.pair = d ∧
          u.fld Fld.AGE_MON_BASE p.pair = (if p.fresh then d else s.fld Fld.AGE_MON_BASE p.pair) ∧
          u.free = if nu = 0 then s.free + 1 else s.free
        (p.pair < 31 → Completes (.ageingMeasurement nu ns) s (fun u =>
          u = { Begun s with
            regs := u.regs, free := u.free, integ := u.integ, lehr := { s.lehr with pass := some { p with pair := p.pair + 1 } } } ∧
          measured u ∧ RegsBut s u [fldAt Fld.AGE_MON_NOW p.pair, fldAt Fld.AGE_MON_BASE p.pair, fldAt Fld.DIE_INJ_L_ARM])) ∧
        (p.pair = 31 → Completes (.ageingMeasurement nu ns) s (fun u => measured u ∧ u.lehr.mgnUpd = (! s.lehr.mgnUpd) ∧
          u.fld Fld.MGN_GEN_GEN = min (s.fld Fld.MGN_GEN_GEN + 1) 65535 ∧
          u.lehr.pass = (if s.lehr.planDue then some ⟨0, 1, false⟩ else none) ∧ u.lehr.planDue = false)) ∧
        (p.pair = 31 → ledgerGood → Completes (.ageingMeasurement nu ns) s (fun u =>
          let plan := clampPlan s p.reason (newPlan u)
          u = { Begun s with regs := u.regs, free := u.free, fb := u.fb, lehr := u.lehr, integ := u.integ } ∧
          (∀ r, r < 4 → planV u r = plan.v.getD r 0) ∧ u.fld Fld.MGN_PLAN_CEIL = plan.ceil ∧
          u.fld Fld.MGN_PLAN_ASSIST = plan.assist ∧ u.fld Fld.MGN_PLAN_REASON = p.reason % 4 ∧
          bit1 (u.fld Fld.LEHR_IRQ_SRC) 5 = true ∧
          u.fld Fld.LEHR_STATUS_GUARD = 1 - s.fld Fld.LEHR_STATUS_LDG_VALID ∧
          (s.fld Fld.LEHR_STATUS_LDG_VALID = 0 → p.reason ∈ [0, 2] → ∀ r, r < 4 →
            planV u r = signedOf 5 (s.fld Fld.MGN_CTL_GUARD) ∧ u.fld Fld.MGN_PLAN_CEIL = 60 ∧ u.fld Fld.MGN_PLAN_ASSIST = 4) ∧
          u.fb.msgs.length = s.fb.msgs.length + 34 ∧
          RegsBut s u [fldAt Fld.DIE_INJ_L_ARM, fldAt Fld.AGE_MON_NOW p.pair, fldAt Fld.AGE_MON_BASE p.pair, fldAt Fld.MGN_PLAN_VOFS, fldAt Fld.MGN_GEN_GEN,
            fldAt Fld.LEHR_STATUS_GUARD, fldAt Fld.LEHR_IRQ_SRC])))) ∧
    (¬ powered → Completes .poweredHourTick s (fun u => u = Begun s)) ∧
    (powered → Completes .poweredHourTick s (fun u =>
      let h := min (s.fld Fld.MGN_HOURS_HOURS + 1) (2 ^ 32 - 1)
      let due := h % 1024 = 0
      u = { Begun s with regs := u.regs, lehr := u.lehr, integ := u.integ } ∧ u.fld Fld.MGN_HOURS_HOURS = h ∧
      RegsBut s u [fldAt Fld.MGN_HOURS_HOURS, fldAt Fld.DIE_INJ_L_ARM] ∧
      u.lehr = if ¬ due then s.lehr else if s.mode = 1 ∨ s.lehr.pass.isSome = true then { s.lehr with planDue := true }
        else { s.lehr with pass := some ⟨0, 1, false⟩ })) ∧
    Completes .mgnGo s (fun u => u = { Begun s with regs := u.regs, lehr := u.lehr } ∧
      RegsBut s u [fldAt Fld.MGN_CTL_GO] ∧ u.reg .MGN_CTL = s.reg .MGN_CTL ∧
      ((s.lehr.pass ≠ none ∨ ¬ may) → u.lehr = s.lehr) ∧
      (s.lehr.pass = none → may → u.lehr = { s.lehr with pass := some ⟨0, 3, false⟩ }))

/-- R478, R487: the staging of the ageing ledger, its commit, and LEDGER_LOAD. What rests on a choice or an inference of the
model: log 60, 62. -/
def Obligations.AgeingLedger : Prop :=
  ∀ (s : State), s.dft = false → s.vaux = true →
    let rec_ := BitVec.ofNat 128 (s.fld Fld.LDG_REC_BITS 0 + s.fld Fld.LDG_REC_BITS 1 * 2 ^ 32 +
      s.fld Fld.LDG_REC_BITS 2 * 2 ^ 64 + s.fld Fld.LDG_REC_BITS 3 * 2 ^ 96)
    let ctl := fun (u : State) => RegsBut s u [fldAt Fld.LDG_CTL_PUSH] ∧ u.reg .LDG_CTL = s.reg .LDG_CTL
    let fields := [fldAt Fld.DIE_INJ_L_ARM, fldAt Fld.LDG_CTL_RESULT, fldAt Fld.MGN_GEN_GEN, fldAt Fld.MGN_HOURS_HOURS, fldAt Fld.LEHR_STATUS_LDG_VALID]
    let bases := (List.range 32).map (fun k => fldAt Fld.AGE_MON_BASE k)
    let valid := s.fld Fld.LEHR_STATUS_LDG_VALID
    Completes .ldgPush s (fun u => u = { Begun s with regs := u.regs, lehr := { s.lehr with staged := s.lehr.staged ++ [rec_] } } ∧
      ctl u) ∧
    Completes .ldgClear s (fun u => u = { Begun s with regs := u.regs, lehr := { s.lehr with staged := [] } } ∧ ctl u) ∧
    (∀ fresh : Bool,
      (ldgVerdict s fresh ≠ 1 → Completes (.ldgCommit fresh) s (fun u => OnlyRegs s u [fldAt Fld.LDG_CTL_RESULT] ∧
        u.fld Fld.LDG_CTL_RESULT = ldgVerdict s fresh ∧
        (s.lehr.staged = [] → u.fld Fld.LDG_CTL_RESULT = if fresh = true then 4 else 2))) ∧
      (s.lehr.staged = [] → fresh = true → valid = 0 → Completes (.ldgCommit fresh) s (fun u =>
        u = { Begun s with regs := u.regs, integ := u.integ, lehr := { s.lehr with pass := some ⟨0, 2, true⟩, planDue := u.lehr.planDue } } ∧
        RegsBut s u fields ∧
        u.fld Fld.LDG_CTL_RESULT = 1 ∧ u.fld Fld.MGN_GEN_GEN = 1 ∧ u.fld Fld.MGN_HOURS_HOURS = 0 ∧
        u.fld Fld.LEHR_STATUS_LDG_VALID = 1)) ∧
      (s.lehr.staged ≠ [] → ldgVerdict s fresh = 1 → Completes (.ldgCommit fresh) s (fun u =>
        u = { Begun s with
          regs := u.regs, integ := u.integ, lehr := { s.lehr with staged := [], pass := some ⟨0, 2, false⟩, planDue := u.lehr.planDue } } ∧
        RegsBut s u (fields ++ bases) ∧ u.fld Fld.LDG_CTL_RESULT = 1 ∧ u.fld Fld.LEHR_STATUS_LDG_VALID = 1 ∧
        (∀ h, stagedOf s 0x62 = [h] → u.fld Fld.MGN_GEN_GEN = bits h 16 16 ∧ u.fld Fld.MGN_HOURS_HOURS = bits h 32 32) ∧
        ∀ m ∈ stagedOf s 0x60, u.fld Fld.AGE_MON_BASE (bits m 8 5) = bits m 16 16))) ∧
    (∀ c, s.cmd = some c → c.code = 0x60 → progsUp s = true →
      let ended := fun (code val : Nat) (u : State) => u.cmd = none ∧ u.fld Fld.CMD_RES_DONE = 1 ∧
        u.fld Fld.CMD_RES_CODE = code ∧ u.fld Fld.CMD_VAL_VALUE = val ∧ u.irq = { s.irq with pend := insertSorted 3 s.irq.pend }
      let res := [fldAt Fld.CMD_RES_DONE, fldAt Fld.CMD_VAL_VALUE]
      (c.phase ≠ 0 → Completes .ledgerLoad s (fun u => u = Begun s)) ∧
      (c.phase = 0 → cmdArg c 2 % 2 = 1 → valid = 0 → Completes .ledgerLoad s (fun u => ended 0 1 u ∧
        u = { Begun s with
          regs := u.regs, cmd := none, irq := u.irq, integ := u.integ
          lehr := { s.lehr with staged := [], pass := some ⟨0, 2, true⟩, planDue := u.lehr.planDue } } ∧
        RegsBut s u (fields ++ res) ∧ u.fld Fld.MGN_GEN_GEN = 1 ∧ u.fld Fld.LEHR_STATUS_LDG_VALID = 1)) ∧
      (c.phase = 0 → cmdArg c 2 % 2 = 1 → valid = 1 → Completes .ledgerLoad s (fun u => ended 0x2F 0 u ∧
        u = { Begun s with regs := u.regs, cmd := none, irq := u.irq, lehr := { s.lehr with staged := [] } } ∧
        RegsBut s u (fldAt Fld.LDG_CTL_RESULT :: res))) ∧
      (c.phase = 0 → cmdArg c 2 % 2 = 0 → namedLines s (cmdPa c / 64) (ledgerLines c) = false →
        Completes .ledgerLoad s (fun u => ended 0x2E 0 u ∧ u = { Begun s with regs := u.regs, cmd := none, irq := u.irq } ∧
          RegsBut s u res)) ∧
      (c.phase = 0 → cmdArg c 2 % 2 = 0 → namedLines s (cmdPa c / 64) (ledgerLines c) = true → c.lines = [] →
        Completes .ledgerLoad s (fun u => u = { Begun s with mem := u.mem, work := u.work, cmd := some { c with phase := 1, val := 0 } } ∧
          u.mem.nextId = s.mem.nextId + 1 ∧ ∀ p, readPort s (cmdPa c / 64) = some p →
            opOf u s.mem.nextId = some ⟨0, .job 0, cmdPa c / 64, (portsOf s (cmdPa c / 64)).2.2, 0, 0, false, 0, [p]⟩)))

/-- R534 to R536, R541: what fires a freeze, what it latches, and the re-arm. What rests on a choice or an inference of the
model: log 33, 64. -/
def Obligations.Freezes : Prop :=
  (∀ (level : Bool) (s : State), s.dft = false → Completes (.freezeIn level) s (fun u =>
    let fires := level = true ∧ s.freezeIn = false ∧ s.vaux = true ∧
      (s.coreUp = false ∨ s.mode = 1 ∨ s.fld Fld.FRZ_CTL_PIN_EN = 1)
    u = { Begun s with freezeIn := level, frzReq := u.frzReq } ∧ (fires → u.frzReq = s.frzReq ||| 1) ∧
      (¬ fires → u.frzReq = s.frzReq))) ∧
  (∀ (s : State), s.dft = false → s.vaux = true → s.coreUp = true →
    let ctl := fun (u : State) => u.reg .FRZ_CTL = s.reg .FRZ_CTL
    Completes .frzTrig s (fun u => u = { Begun s with regs := u.regs, frzReq := s.frzReq ||| 2 } ∧
      RegsBut s u [fldAt Fld.FRZ_CTL_TRIG] ∧ ctl u) ∧
    Completes .frzRearm s (fun u => OnlyRegs s u [fldAt Fld.FRZ_CTL_TRIG, fldAt Fld.FRZ_STATUS_FROZEN, fldAt Fld.LEHR_FRZ_FROZEN] ∧
      ctl u ∧ u.reg .FRZ_STATUS = 0 ∧ u.fld Fld.LEHR_FRZ_FROZEN = 0)) ∧
  (∀ (causes : Nat) (s : State), 0 < causes → causes < 32 → s.frzReq = causes →
    let u := freezePoll s
    (s.coreUp = true → s.mode ≠ 1 → s.fld Fld.FRZ_STATUS_FROZEN = 0 →
      u.frzReq = 0 ∧ u.fld Fld.FRZ_STATUS_FROZEN = 1 ∧ u.fld Fld.FRZ_STATUS_CAUSES = causes ∧
      (u.reg .FRZ_TIME).toNat = s.now % 2 ^ 64 ∧ u.fld Fld.LEHR_FRZ_FROZEN = 1 ∧
      u.fld Fld.FRZ_STATUS_ORIGIN = (if bit1 causes 4 then s.frzOrigin else s.fld Fld.STRAP_INST_ID) % 256 ∧
      u.fld Fld.FRZ_STATUS_CODE = (if bit1 causes 2 then s.frzCode else 0) % 256 ∧
      s.nq.readyTel.length < u.nq.readyTel.length ∧ (causes = 16 → u.pt = s.pt ∧ u.ptTx = s.ptTx) ∧
      u.port = s.port ∧ u.sl = s.sl ∧ u.cab = s.cab ∧ u.mem = s.mem ∧ u.stw = s.stw ∧ u.agt = s.agt) ∧
    (s.coreUp = true → s.mode ≠ 1 → s.fld Fld.FRZ_STATUS_FROZEN = 1 →
      u = { s with frzReq := 0, regs := u.regs } ∧ RegsBut s u [fldAt Fld.FRZ_STATUS_MISSED] ∧
      u.fld Fld.FRZ_STATUS_FROZEN = 1 ∧ u.fld Fld.FRZ_STATUS_MISSED = min (s.fld Fld.FRZ_STATUS_MISSED + 1) 1023) ∧
    (s.coreUp = false ∨ s.mode = 1 → bit1 causes 0 = false → u = { s with frzReq := 0 }))

/-- R209, R210: AGT_BIND writes the agent's entry, and completes at once or waits for the agent's first heartbeat; the wait
that expires binds the agent as plain. R209, R211: AGT_RELEASE of a LIVE agent makes it BINDING and waits for its records; of
a RECLAIMED agent it runs only its last step; the wait that expires makes the agent LIVE again. -/
def Obligations.AgentBindingAndRelease : Prop :=
  (∀ (c : CmdRun) (s : State), s.dft = false → Awake s → Intact s → progsUp s = true → s.cmd = some c → c.code = 0x10 →
    let a := cmdArg c 0 % 65536
    let w := cmdArg c 1
    let word := 8 * bits w 16 1 + 16 * bits w 17 1 + 32 * bits w 18 1 + 64 * bits w 19 2 + 256 * bits w 0 10 +
      2 ^ 18 * bits w 10 6 + 2 ^ 32 * (s.now / 1024 % 2 ^ 32)
    let ended := fun (code : Nat) (u : State) => u.cmd = none ∧ u.fld Fld.CMD_RES_DONE = 1 ∧ u.fld Fld.CMD_RES_CODE = code ∧
      u.fld Fld.CMD_VAL_VALUE = 0 ∧ u.irq = { s.irq with pend := insertSorted 3 s.irq.pend } ∧
      RegsBut s u [RegName.CMD_RES.addr 0 0, RegName.CMD_VAL.addr 0 0]
    let frame := fun (u : State) => u = { Begun s with
        agt := u.agt, port := u.port, sl := u.sl, regs := u.regs, irq := u.irq, cmd := u.cmd, integ := u.integ, fault := u.fault
        shadow := u.shadow, now := u.now, lehrNow := u.lehrNow } ∧ u.port.recs = s.port.recs ∧ u.port.dat = s.port.dat ∧ u.port.fp = s.port.fp ∧
      u.sl.trk = s.sl.trk ∧ u.fault.held = s.fault.held ∧ ∀ b, b ≠ a → u.agtW b = s.agtW b
    let free := s.agtState a = 0 ∨ s.agtState a = 5
    let alive := fun (a : Nat) => ∀ d ∈ s.port.deaths, d.1 ≠ a
    (c.phase = 0 → ¬ free → Completes .agtBind s (fun u => u = { Begun s with regs := u.regs, irq := u.irq, cmd := none } ∧ ended 0x20 u)) ∧
    (c.phase = 0 → free → s.port.biidSet = false → Completes .agtBind s (fun u =>
      u = { Begun s with regs := u.regs, irq := u.irq, cmd := none } ∧ ended 0x22 u)) ∧
    (c.phase = 0 → free → s.port.biidSet = true → bits w 18 1 = 0 → Completes .agtBind s (fun u =>
      frame u ∧ ended 0 u ∧ u.agtW a = word + 2 ∧ u.now = s.now)) ∧
    (c.phase = 0 → free → s.port.biidSet = true → bits w 18 1 = 1 → Completes .agtBind s (fun u =>
      frame u ∧ u.agtW a = word + 1 ∧ u.now = s.now ∧ u.regs = s.regs ∧ u.irq = s.irq ∧
      u.cmd = some { c with phase := 1, deadline := s.now + max 1000000 (4 * u.hbPeriod a) })) ∧
    (c.phase ≠ 0 → Completes .agtBind s (fun u => u = Begun s)) ∧
    (c.phase = 1 → s.agtState a = 1 → alive a → Completes .bindHbTimeout s (fun u =>
      frame u ∧ ended 0x23 u ∧ u.agtW a = s.agtW a / 64 * 64 + 2 ∧ u.now = max s.now c.deadline)) ∧
    (c.phase ≠ 1 ∨ s.agtState a ≠ 1 ∨ ¬ alive a → Completes .bindHbTimeout s (fun u => u = Begun s))) ∧
  (∀ (c : CmdRun) (s : State), s.dft = false → Awake s → Intact s → progsUp s = true → s.cmd = some c → c.code = 0x11 →
    let a := cmdArg c 0 % 65536
    let ended := fun (code : Nat) (u : State) => u.cmd = none ∧ u.fld Fld.CMD_RES_DONE = 1 ∧ u.fld Fld.CMD_RES_CODE = code ∧
      u.fld Fld.CMD_VAL_VALUE = 0 ∧ u.irq = { s.irq with pend := insertSorted 3 s.irq.pend } ∧
      RegsBut s u [RegName.CMD_RES.addr 0 0, RegName.CMD_VAL.addr 0 0]
    let state := fun (st : Nat) (u : State) => u.agtW a = s.agtW a / 8 * 8 + st ∧ (∀ b, b ≠ a → u.agtW b = s.agtW b) ∧
      u.fault.held = s.fault.held
    (c.phase = 0 → s.agtState a = 2 → Completes .agtRelease s (fun u =>
      u = { Begun s with agt := u.agt, shadow := u.shadow, integ := u.integ, fault := u.fault, cmd := u.cmd } ∧ state 1 u ∧
      u.cmd = some { c with phase := 1, deadline := s.now + max 1 (s.fld Fld.LIVE_CTL_RELEASE_TMO) * 1000000 })) ∧
    (c.phase = 0 → s.agtState a = 5 → (∀ e ∈ s.port.hold, e.2.used = true → e.2.hdr.agent.toNat ≠ a) →
      Completes .agtRelease s (fun u => u = { Begun s with
        agt := u.agt, shadow := u.shadow, integ := u.integ, fault := u.fault, cmd := none, regs := u.regs, irq := u.irq } ∧ state 0 u ∧ ended 0 u)) ∧
    (c.phase = 0 → s.agtState a ≠ 2 → s.agtState a ≠ 5 → Completes .agtRelease s (fun u =>
      u = { Begun s with regs := u.regs, irq := u.irq, cmd := none } ∧ ended 0x20 u)) ∧
    (c.phase ≠ 0 → Completes .agtRelease s (fun u => u = Begun s)) ∧
    (c.phase = 1 → s.agtState a = 1 → (∀ d ∈ s.port.deaths, d.1 ≠ a) → Completes .releaseWaitTimeout s (fun u => u = { Begun s with
        agt := u.agt, shadow := u.shadow, port := u.port, sl := u.sl, integ := u.integ, fault := u.fault, cmd := none, regs := u.regs, irq := u.irq
        now := max s.now c.deadline, lehrNow := max s.lehrNow c.deadline } ∧ state 2 u ∧ ended 0x24 u ∧
      u.port.recs = s.port.recs ∧ u.sl.trk = s.sl.trk)) ∧
    (c.phase ≠ 1 ∨ s.agtState a ≠ 1 ∨ (∃ d ∈ s.port.deaths, d.1 = a) → Completes .releaseWaitTimeout s (fun u => u = Begun s)))

/-- R209, R214 to R216: a decided death (AGT_KILL, the end of a confirmation) makes the agent DEAD, whose reclaim the block
then runs, or is queued behind the reclaim that runs. What rests on a choice or an inference of the model: log 86. -/
def Obligations.AgentDeath : Prop :=
  ∀ (s : State), s.dft = false → Awake s → Intact s → progsUp s = true →
    let ended := fun (code : Nat) (u : State) => u.cmd = none ∧ u.fld Fld.CMD_RES_DONE = 1 ∧ u.fld Fld.CMD_RES_CODE = code ∧
      u.fld Fld.CMD_VAL_VALUE = 0 ∧ 3 ∈ u.irq.pend
    let bound := fun (a : Nat) => s.agtState a = 1 ∨ s.agtState a = 2 ∨ s.agtState a = 3
    let word := fun (a w : Nat) (u : State) => u.agtW a = w ∧ ∀ b, b ≠ a → u.agtW b = s.agtW b
    let kept := fun (u : State) => u.cab = s.cab ∧ u.mem = s.mem ∧ u.stw = s.stw ∧ u.hutch = s.hutch ∧ u.repair = s.repair ∧
      u.lehr = s.lehr ∧ u.port.recs = s.port.recs ∧ u.mode = s.mode
    let dies := fun (a cause : Nat) (u : State) => kept u ∧ word a (s.agtW a / 8 * 8 + 4) u ∧ u.port.dying = some (a, cause) ∧
      u.port.deaths = s.port.deaths ∧ SMap.getD (fun _ => none) u.conf a = none ∧ u.fld Fld.RECLAIM_STATUS_AGENT = a ∧
      u.fld Fld.RECLAIM_LOST_LOST = 0 ∧ Reported u 0x09 a ∧ u.walks = s.walks ∧ u.port.hold = s.port.hold ∧
      s.nq.readyPar.length < u.nq.readyPar.length
    let running := s.port.dying ≠ none ∨ ∃ b ∈ s.agents, s.agtState b = 4
    let queued := fun (a cause : Nat) (u : State) => kept u ∧ u.port.dying = s.port.dying ∧
      u.port.deaths = s.port.deaths ++ [(a, cause)] ∧ SMap.getD (fun _ => none) u.conf a = none ∧ u.fault.held = s.fault.held ∧
      word a (if s.agtState a = 2 then s.agtW a / 8 * 8 + 3 else s.agtW a) u ∧ u.walks = s.walks ∧ u.port.hold = s.port.hold
    (∀ c, s.cmd = some c → c.code = 0x12 →
      let a := cmdArg c 0 % 65536
      (¬ bound a → Completes .agtKill s (fun u => u = { Begun s with regs := u.regs, irq := u.irq, cmd := none } ∧ ended 0x20 u)) ∧
      (bound a → (∃ d ∈ s.port.deaths, d.1 = a) → Completes .agtKill s (fun u =>
        u = { Begun s with regs := u.regs, irq := u.irq, cmd := none } ∧ ended 0 u)) ∧
      (bound a → (∀ d ∈ s.port.deaths, d.1 ≠ a) → running → Completes .agtKill s (fun u => queued a 3 u ∧ ended 0 u)) ∧
      (bound a → (∀ d ∈ s.port.deaths, d.1 ≠ a) → ¬ running → Completes .agtKill s (fun u => dies a 3 u ∧ ended 0 u))) ∧
    (∀ (a : BitVec 16) (cf : Conf), SMap.getD (fun _ => none) s.conf a.toNat = some cf → cf.grace = true → bound a.toNat →
      (∀ d ∈ s.port.deaths, d.1 ≠ a.toNat) →
      (¬ running → Completes (.linkGraceTimeout a) s (fun u => dies a.toNat 1 u ∧ u.now = max s.now cf.deadline)) ∧
      (running → Completes (.linkGraceTimeout a) s (fun u => queued a.toNat 1 u ∧ u.now = max s.now cf.deadline))) ∧
    (∀ a : BitVec 16, SMap.getD (fun _ => none) s.conf a.toNat = none → Completes (.linkGraceTimeout a) s (fun u => u = Begun s)) ∧
    (∀ (a : BitVec 16) (cf : Conf), SMap.getD (fun _ => none) s.conf a.toNat = some cf → cf.grace = false → cf.deadline ≠ 0 →
      (∀ tid, cf.tids.getLast? = some tid → (s.trkE tid).valid = false) → cf.answered = false →
      max 1 (s.fld Fld.LIVE_CTL_PROBE_N) ≤ cf.failed + 1 → bound a.toNat → (∀ d ∈ s.port.deaths, d.1 ≠ a.toNat) →
      ¬ running → Completes (.probeTimeout a false) s (fun u => dies a.toNat cf.cause u ∧ u.now = max s.now cf.deadline))

/-- R84, R209, R213, R214: AGT_PROBE, the end of a probe round, and a missed heartbeat. What rests on a choice or an inference
of the model: log 4, 85, 86, 89. -/
def Obligations.AgentLiveness : Prop :=
  ∀ (s : State), s.dft = false → Awake s → Intact s →
    let ended := fun (code : Nat) (u : State) => u = { Begun s with regs := u.regs, irq := u.irq, cmd := none } ∧
      u.fld Fld.CMD_RES_DONE = 1 ∧ u.fld Fld.CMD_RES_CODE = code ∧ u.fld Fld.CMD_VAL_VALUE = 0 ∧
      u.irq = { s.irq with pend := insertSorted 3 s.irq.pend } ∧ RegsBut s u [RegName.CMD_RES.addr 0 0, RegName.CMD_VAL.addr 0 0]
    let asks := fun (line : Nat) (m : MntMsg) (u : State) => u.sl = { s.sl with sl := u.sl.sl } ∧
      u.slq (sliceOf line) = { s.slq (sliceOf line) with
        mntQ := (s.slq (sliceOf line)).mntQ ++ [m], wdog := (u.slq (sliceOf line)).wdog } ∧
      ∀ k, k ≠ sliceOf line → u.slq k = s.slq k
    (∀ c, s.cmd = some c → c.code = 0x13 → progsUp s = true →
      let a := cmdArg c 0 % 65536
      let live := s.agtState a = 2 ∨ s.agtState a = 3
      (c.phase = 0 → ¬ live → Completes .agtProbe s (ended 0x20)) ∧
      (c.phase = 0 → live → probeLine s a = none ∨ linkOf s a = false → Completes .agtProbe s (ended 0)) ∧
      (∀ line, c.phase = 0 → live → probeLine s a = some line → linkOf s a = true → Completes .agtProbe s (fun u =>
        u = { Begun s with sl := u.sl, cmd := some { c with phase := 1 } } ∧ asks line ⟨0x3F, line, a, 1, false, none⟩ u)) ∧
      (c.phase ≠ 0 → Completes .agtProbe s (fun u => u = Begun s)) ∧
      (∀ (b : BitVec 16) tid t, s.sl.trk.find? (fun e => e.2.valid && e.2.typ == 0x3F && e.2.cls == 2 &&
          (e.2.lostBy == 1 || e.2.msg.isSome) && ! e.2.ended && e.2.operand == b.toNat) = some (tid, t) → s.trkE tid = t →
        (∀ d ∈ SMap.getD (fun _ => []) s.port.snpDone (tid / 512), d.tid ≠ tid) → Completes (.probeTimeout b true) s (fun u =>
        u = { Begun s with
          sl := u.sl, port := u.port, now := max s.now t.deadline, lehrNow := max s.lehrNow t.deadline, work := s.work ++ [.trk tid] } ∧
        u.trkE tid = { t with ended := true, snpOut := false, ansCount := 0, finalSent := true } ∧
        (∀ k, k ≠ tid → u.trkE k = s.trkE k ∧ u.fanE k = s.fanE k) ∧ u.sl = { s.sl with trk := u.sl.trk } ∧
        u.fanE tid = if (s.fanE tid).active then { s.fanE tid with orphan := true } else s.fanE tid))) ∧
    (∀ (a : BitVec 16) (cf : Conf), SMap.getD (fun _ => none) s.conf a.toNat = some cf → cf.grace = false → cf.deadline ≠ 0 →
      (∀ tid, cf.tids.getLast? = some tid → (s.trkE tid).valid = false) →
      let frame := fun (u : State) => u = { Begun s with
          sl := u.sl, agt := u.agt, shadow := u.shadow, conf := u.conf, integ := u.integ, fault := u.fault
          now := max s.now cf.deadline, lehrNow := max s.lehrNow cf.deadline } ∧ u.fault.held = s.fault.held ∧
        ∀ b, b ≠ a.toNat → SMap.getD (fun _ => none) u.conf b = SMap.getD (fun _ => none) s.conf b ∧ u.agtW b = s.agtW b
      (cf.answered = true → expiredOut s a.toNat = false → Completes (.probeTimeout a false) s (fun u => frame u ∧ u.sl = s.sl ∧
        u.agtW a.toNat = s.agtW a.toNat / 8 * 8 + 2 ∧ SMap.getD (fun _ => none) u.conf a.toNat = none)) ∧
      (∀ line, cf.answered = false ∨ expiredOut s a.toNat = true → cf.failed + 1 < max 1 (s.fld Fld.LIVE_CTL_PROBE_N) →
        probeLine s a.toNat = some line →
        let next := fun (grace : Bool) (dl : Nat) (ans : Bool) =>
          (some { cf with failed := cf.failed + 1, grace := grace, deadline := dl, answered := ans } : Option Conf)
        (linkOf s a.toNat = true → Completes (.probeTimeout a false) s (fun u => frame u ∧ u.agt = s.agt ∧
          asks line ⟨0x3F, line, a.toNat, 0, false, none⟩ u ∧
          SMap.getD (fun _ => none) u.conf a.toNat = next false 0 false)) ∧
        (linkOf s a.toNat = false → s.fld Fld.LIVE_CTL_LINK_GRACE ≠ 0 → Completes (.probeTimeout a false) s (fun u => frame u ∧
          u.agt = s.agt ∧ u.sl = s.sl ∧ SMap.getD (fun _ => none) u.conf a.toNat =
            next true (max s.now cf.deadline + s.fld Fld.LIVE_CTL_LINK_GRACE * 1000000) cf.answered)))) ∧
    (∀ a : BitVec 16, SMap.getD (fun _ => none) s.conf a.toNat = none → Completes (.probeTimeout a false) s (fun u => u = Begun s)) ∧
    (∀ a : BitVec 16, (s.agtState a.toNat = 1 ∨ s.agtState a.toNat = 2 ∨ s.agtState a.toNat = 3) → s.agtHb a.toNat = true →
      let p3 := 3 * s.hbPeriod a.toNat
      let silent := (s.now / 1024 % 2 ^ 32 + 2 ^ 32 - s.agtHeard a.toNat) % 2 ^ 32
      let next := SMap.getD (fun _ => 0) s.port.hbNext a.toNat
      let due := max s.now (if next ≠ 0 then next else if p3 < silent * 1024 then s.now
        else (s.now / 1024 + (p3 / 1024 + 1 - silent)) * 1024)
      Completes (.heartbeatMiss a) s (fun u =>
        u = { Begun s with port := u.port, now := due, lehrNow := max s.lehrNow due } ∧
        u.port = { s.port with evt := u.port.evt, hbNext := u.port.hbNext } ∧
        SMap.getD (fun _ => 0) u.port.evt a.toNat = SMap.getD (fun _ => 0) s.port.evt a.toNat ||| 4 ∧
        SMap.getD (fun _ => 0) u.port.hbNext a.toNat = due + p3 ∧
        ∀ b, b ≠ a.toNat → SMap.getD (fun _ => 0) u.port.evt b = SMap.getD (fun _ => 0) s.port.evt b ∧
          SMap.getD (fun _ => 0) u.port.hbNext b = SMap.getD (fun _ => 0) s.port.hbNext b))

/-- R341, R344, R350, R351: credits, completions, the failure of a port and the age guard. What rests on a choice or an
inference of the model: log 4, 50, 76. -/
def Obligations.MemoryPorts : Prop :=
  ∀ (m : BitVec 5) (s : State), s.dft = false → s.vaux = true → s.coreUp = true →
    let p := s.mport m.toNat
    let st := s.fld Fld.MP_STATE_STATE m.toNat
    let up := st = 1 ∨ st = 3
    let others := fun (u : State) => ∀ k, k ≠ m.toNat → u.mport k = s.mport k
    let named := (amapValid s).filter (fun e => entryNames s e m.toNat)
    let fails := fun (rtag : Nat) (tmo : Bool) (n ln : Nat) (u : State) =>
      u = { Begun s with
        now := n, lehrNow := ln, mem := u.mem, regs := u.regs, fault := u.fault, frzReq := u.frzReq, work := u.work } ∧
      u.fld Fld.MP_STATE_STATE m.toNat = 2 ∧ u.fld Fld.MP_ERR_FAIL m.toNat = 1 ∧ u.fld Fld.MP_ERR_INFO_RTAG m.toNat = rtag % 65536 ∧
      (tmo = true → u.fld Fld.MP_ERR_TMO m.toNat = 1) ∧
      u.mport m.toNat = { p with out := [], wait := [], lock := none, holder := none, burst := 0 } ∧
      (∀ k, k ≠ m.toNat → u.mport k = { s.mport k with wait := (u.mport k).wait }) ∧
      ((∃ e ∈ named, ∃ q, partnerIn s e m.toNat = some q ∧ s.fld Fld.MP_STATE_STATE q = 1) → Reported u 0x50 m.toNat) ∧
      ((∃ e ∈ named, ∀ q, partnerIn s e m.toNat = some q → s.fld Fld.MP_STATE_STATE q ≠ 1) → Reported u 0x51 m.toNat) ∧
      RegsEvt s u ([RegName.MP_STATE.addr m.toNat 0, RegName.MP_ERR.addr m.toNat 0, RegName.MP_ERR_INFO.addr m.toNat 0] ++
        RegionLc (m.toNat / 8))
    (∀ req wd, Completes (.memCredit m req wd) s (fun u => u = { Begun s with mem := u.mem, work := s.work ++ [.arb m.toNat] } ∧
      u.mem = { s.mem with mp := u.mem.mp } ∧ others u ∧ u.mport m.toNat = { p with
        reqCred := min 255 (p.reqCred + if req then 1 else 0), wdCred := min 255 (p.wdCred + if wd then 1 else 0) })) ∧
    (∀ (rtag : BitVec 16) (d : Line) (poison err : Bool),
      (p.out.find? (fun q => q.rtag = rtag.toNat) = none → Completes (.memCompletion m rtag d poison err) s (fun u => u = Begun s)) ∧
      (∀ q o, p.out.find? (fun q => q.rtag = rtag.toNat) = some q → opOf s q.op = some o → err = false →
        Completes (.memCompletion m rtag d poison false) s (fun u =>
          u = { Begun s with mem := u.mem, regs := u.regs, frzReq := u.frzReq, work := u.work } ∧ RegsKept s u ∧ others u ∧
          (poison = false → u.regs = s.regs ∧ u.frzReq = s.frzReq) ∧
          u.mport m.toNat = { p with out := p.out.filter (fun x => x.op ≠ q.op) } ∧
          (∀ k, k ≠ q.op → opOf u k = opOf s k) ∧ u.mem.bulk = s.mem.bulk ∧ u.mem.nextId = s.mem.nextId ∧
          let left := o.pend.filter (· ≠ m.toNat)
          (left = [] → opOf u q.op = none ∧ u.work = s.work ++ [.done ⟨o.org, o.kind, o.pa, d, poison⟩, .arb m.toNat]) ∧
          (left ≠ [] → opOf u q.op = some { o with pend := left } ∧ u.work = s.work ++ [.arb m.toNat]))) ∧
      (∀ q, p.out.find? (fun q => q.rtag = rtag.toNat) = some q → up →
        Completes (.memCompletion m rtag d poison true) s (fails rtag.toNat false s.now s.lehrNow))) ∧
    (p.out = [] → Completes (.mpTimeout m) s (fun u => u = Begun s)) ∧
    (∀ q l, p.out = q :: l → up → Completes (.mpTimeout m) s (fails q.rtag true (max s.now q.deadline) (max s.lehrNow (max s.now q.deadline)))) ∧
    (∀ r : BitVec 5, ((presented s m.toNat r.toNat).isSome = true → r.toNat ∉ p.aged → Completes (.arbAgeGuard m r) s (fun u =>
        u = { Begun s with mem := u.mem, work := s.work ++ [.arb m.toNat] } ∧ u.mem = { s.mem with mp := u.mem.mp } ∧ others u ∧
        u.mport m.toNat = { p with aged := insertSorted r.toNat p.aged })) ∧
      (presented s m.toNat r.toNat = none ∨ r.toNat ∈ p.aged → Completes (.arbAgeGuard m r) s (fun u => u = Begun s)))

/-- R8, R337, R338, R345, R347, R358, R364, R365: writes of the arbiters' registers and of the two maps. -/
def Obligations.ArbiterAndMapWrites : Prop :=
  ∀ (s : State), s.dft = false → Awake s → Intact s →
    (∀ (m : BitVec 5) (v : BitVec 32), Completes (.arbModeWrite m v) s (fun u =>
      u = { Begun s with regs := u.regs, work := s.work ++ [.arb m.toNat] } ∧ RegsBut s u [RegName.ARB_MODE.addr m.toNat 0] ∧
      u.fld Fld.ARB_MODE_MODE m.toNat = v.toNat % 2 ∧ u.fld Fld.ARB_MODE_LIMIT m.toNat = bits v.toNat 8 6 ∧
      u.fld Fld.ARB_MODE_AGE m.toNat = bits v.toNat 16 8)) ∧
    (∀ (m : BitVec 5) (v : BitVec 32) (k : BitVec 2), k.toNat < 2 → Completes (.arbPrioWrite m k v) s (fun u =>
      u = { Begun s with regs := u.regs, work := s.work ++ [.arb m.toNat] } ∧ RegsBut s u [RegName.ARB_PRIO.addr m.toNat k.toNat] ∧
      u.fld Fld.ARB_PRIO_PRIO m.toNat k.toNat = v.toNat)) ∧
    (∀ (m : BitVec 5) (v : BitVec 32), Completes (.arbPrioWrite m 2 v) s (fun u =>
      u = { Begun s with regs := u.regs, work := s.work ++ [.arb m.toNat] } ∧ RegsBut s u [RegName.ARB_PRIO2.addr m.toNat 0] ∧
      u.fld Fld.ARB_PRIO2_PRIO16 m.toNat = v.toNat % 16)) ∧
    (∀ (e : BitVec 14) (v : BitVec 64),
      let n := 2 ^ bits v.toNat 25 2
      let pri := bits v.toNat 14 5
      let mir := bits v.toNat 19 5
      let good := bits v.toNat 29 3 = 0 ∧ bits v.toNat 57 7 = 0 ∧ bits v.toNat 27 2 ≠ 3 ∧ pri + n ≤ 32 ∧
        (v.getLsbD 24 = true → mir + n ≤ 32 ∧ (pri + n ≤ mir ∨ mir + n ≤ pri))
      (good → Completes (.amapWrite e v) s (fun u =>
        u = { Begun s with regs := u.regs, wrHold := u.wrHold, shadow := u.shadow, integ := u.integ, fault := u.fault } ∧
        u.reg .AMAP e.toNat = v ∧ SMap.getD (fun _ => 0) u.shadow.amap e.toNat = v.extractLsb' 1 13 ∧
        u.fault.held = s.fault.held ∧ RegsBut s u [RegName.AMAP.addr e.toNat 0])) ∧
      (¬ good → Completes (.amapWrite e v) s (fun u => u = { Begun s with regs := u.regs, wrHold := u.wrHold } ∧
        u.fld Fld.AMAP_ERR_BAD_ENTRY = 1 ∧ RegsBut s u [RegName.AMAP_ERR.addr 0 0] ∧
        u.fld Fld.AMAP_ERR_INDEX = if s.fld Fld.AMAP_ERR_BAD_ENTRY = 0 then e.toNat else s.fld Fld.AMAP_ERR_INDEX))) ∧
    (∀ (w : BitVec 12) (v : BitVec 32), Completes (.hmapWrite w v) s (fun u =>
      u = { Begun s with regs := u.regs, shadow := u.shadow, integ := u.integ, fault := u.fault } ∧ u.fault.held = s.fault.held ∧
      SMap.getD (fun _ => false) u.shadow.hmap w.toNat = v.getLsbD 17 ∧
      RegsBut s u [RegName.HMAP.addr w.toNat 0] ∧ (u.reg .HMAP w.toNat).toNat = v.toNat % 2 ^ 19))

/-- R352, R354, R355, R367: MEM_RESILVER, a descriptor handed to the bulk engine, the start of a chunk. What rests on a choice
or an inference of the model: log 56, 57. -/
def Obligations.BulkEngine : Prop :=
  ∀ (s : State), s.dft = false → s.vaux = true → s.coreUp = true →
    (∀ c, s.cmd = some c → c.code = 0x50 → c.phase = 0 → progsUp s = true →
      let m := cmdArg c 0 % 32
      let ok := s.fld Fld.MP_STATE_STATE m = 2 ∧ partners s m ≠ [] ∧ ∀ q ∈ partners s m, s.fld Fld.MP_STATE_STATE q = 1
      (¬ ok → Completes .memResilver s (fun u => u = { Begun s with regs := u.regs, irq := u.irq, cmd := none } ∧
        u.fld Fld.CMD_RES_DONE = 1 ∧ u.fld Fld.CMD_RES_CODE = 0x2C ∧ u.fld Fld.CMD_VAL_VALUE = 0 ∧
        u.irq = { s.irq with pend := insertSorted 3 s.irq.pend } ∧
        RegsBut s u [RegName.CMD_RES.addr 0 0, RegName.CMD_VAL.addr 0 0])) ∧
      (ok → s.bulkE (m / 8) = bulk0 → Completes .memResilver s (fun u =>
        u = { Begun s with regs := u.regs, mem := u.mem, cmd := some { c with phase := 1 } } ∧
        u.fld Fld.MP_STATE_STATE m = 3 ∧ RegsBut s u [RegName.MP_STATE.addr m 0] ∧
        u.mem = { s.mem with bulk := u.mem.bulk } ∧ (∀ k, k ≠ m / 8 → u.bulkE k = s.bulkE k) ∧
        ∃ b, u.bulkE (m / 8) = ⟨[], some b, false⟩ ∧ b.op = 3 ∧ b.port = m ∧ b.fromCmd = true ∧ b.done = 0 ∧ b.outst = 0))) ∧
    (∀ (t : BitVec 6) (r : BitVec 2) (desc : BitVec 32),
      let b := s.bulkE r.toNat
      let used := b.queue.length + if b.run.isSome then 1 else 0
      let pc := (s.thr t.toNat).pc.toNat
      let hi := if pc / 2 ^ 48 = 1 then bits pc 38 10 else (Config.free s.free).toNat % 1024
      let q : BulkDesc := ⟨hi * 2 ^ 38 + desc.toNat * 64, t.toNat / 4, none⟩
      (4 ≤ used → Completes (.bulkGo t r desc) s (fun u => OnlyRegs s u [RegName.BULK_STATUS.addr r.toNat 0] ∧
        u.fld Fld.BULK_STATUS_OVF r.toNat = 1)) ∧
      (used < 4 → b.run.isSome = true ∨ b.fetching = true → Completes (.bulkGo t r desc) s (fun u =>
        u = { Begun s with mem := u.mem, free := if pc / 2 ^ 48 = 1 then s.free else s.free + 1 } ∧
        u.mem = { s.mem with bulk := u.mem.bulk } ∧ u.bulkE r.toNat = { b with queue := b.queue ++ [q] } ∧
        ∀ k, k ≠ r.toNat → u.bulkE k = s.bulkE k)) ∧
      (b = bulk0 → (s.hut (t.toNat / 4)).miss.isSome = true → (s.hut (t.toNat / 4)).maint = none →
        Completes (.bulkGo t r desc) s (fun u =>
          u = { Begun s with mem := u.mem, hutch := u.hutch, free := if pc / 2 ^ 48 = 1 then s.free else s.free + 1 } ∧
          u.bulkE r.toNat = ⟨[q], none, true⟩ ∧ (∀ k, k ≠ r.toNat → u.bulkE k = s.bulkE k) ∧
          u.hut (t.toNat / 4) = { s.hut (t.toNat / 4) with
            q := (s.hut (t.toNat / 4)).q ++ [⟨none, r.toNat, 5, .desc, q.pa / 64 % 2 ^ 42, false⟩] } ∧
          ∀ k, k ≠ t.toNat / 4 → u.hut k = s.hut k))) ∧
    (∀ r : BitVec 2,
      ((s.bulkE r.toNat).run = none → Completes (.bulkChunk r) s (fun u => u = Begun s)) ∧
      (∀ b, (s.bulkE r.toNat).run = some b →
        (0 < b.outst ∨ s.govBg.getLsbD b.cluster = false → Completes (.bulkChunk r) s (fun u => u = Begun s)) ∧
        (b.outst = 0 → s.govBg.getLsbD b.cluster = true → b.failed = false →
          (b.op = 1 ∨ b.op = 2 → b.done < b.count → Completes (.bulkChunk r) s (fun u =>
            let n := min 64 (b.count - b.done)
            u = { Begun s with mem := u.mem, work := u.work } ∧ u.mem.nextId = s.mem.nextId + n ∧
            (u.bulkE r.toNat).queue = (s.bulkE r.toNat).queue ∧
            (u.bulkE r.toNat).run = some { b with chunk := some (b.start + b.done), chunkEnd := n, outst := n, mask := 0 } ∧
            (∀ k, k < s.mem.nextId → opOf u k = opOf s k) ∧
            ∀ i, i < n →
              let line := b.start + b.done + i
              writePorts s line ≠ [] → opOf u (s.mem.nextId + i) = some ⟨if b.op = 1 then 1 else 3, .bulkWr r.toNat line, line,
                (portsOf s line).2.2, 0, if b.op = 1 then BitVec.allOnes 64 else 0, false, 16, writePorts s line⟩)) ∧
          (∀ k ls, b.op = 3 → chunkLines s b = some (k, ls) → Completes (.bulkChunk r) s (fun u =>
            u = { Begun s with mem := u.mem, work := u.work } ∧ u.mem.nextId = s.mem.nextId + ls.length ∧
            (u.bulkE r.toNat).run = some { b with
              chunk := some (k * 64), chunkEnd := ls.length, outst := ls.length, mask := 0, cursor := k + 1 })) ∧
          (b.op = 3 → b.fromCmd = true → chunkLines s b = none → Completes (.bulkChunk r) s (fun u =>
            u.fld Fld.MP_STATE_STATE b.port = 1 ∧ (u.bulkE r.toNat).run = none ∧ u.cmd = none ∧ u.fld Fld.CMD_RES_DONE = 1 ∧
            u.fld Fld.CMD_RES_CODE = 0 ∧ u.fld Fld.CMD_VAL_VALUE = b.done % 2 ^ 32 ∧ 8 + r.toNat ∈ u.irq.pend ∧ 3 ∈ u.irq.pend ∧
            u = { Begun s with regs := u.regs, mem := u.mem, irq := u.irq, cmd := none } ∧
            RegsBut s u [RegName.MP_STATE.addr b.port 0, RegName.CMD_RES.addr 0 0, RegName.CMD_VAL.addr 0 0])))))

/-- R63, R67: a message that fails a check is refused under the fault of the first check it fails, and answered by its type (a
read with poisoned DATA, after which CMP follows; a write or NDR with CMP); no request is held and no data kept for it.
UNMAPPED_OPCODE and a message form that carries a wrong META value are refused as PC_BAD_OPC. What rests on a choice or an
inference of the model: log 82. -/
def Obligations.IngressRefusals : Prop :=
  (∀ (p : BitVec 6) (h : Hdr) (s : State), s.dft = false → Awake s → Intact s → (s.fport p.toNat).reqCred ≠ 0 →
    (s.fport p.toNat).rspCred ≠ 0 → (s.fport p.toNat).datCred ≠ 0 →
    let a := h.agent.toNat
    let line := h.pa.toNat
    let f := s.fport p.toNat
    let cmp := plainMsg 0x28 a line h.tag.toNat
    let data : FabMsg := { plainMsg 0x30 a line h.tag.toNat with poison := true, data := some 0, own := .refused }
    let refused := fun (code : Nat) (bit : Fld) (rsp dat : List FabMsg) (u : State) =>
      (∃ r ∈ u.fault.held, r.code = code ∧ r.subject = a) ∧ u.fld bit p.toNat = 1 ∧
      (u.fport p.toNat).rspQ = f.rspQ ++ rsp ∧ (u.fport p.toNat).datQ = f.datQ ++ dat ∧
      u.port.hold = s.port.hold ∧ u.port.dat = s.port.dat ∧ u.agt = s.agt ∧ u.sl = s.sl ∧ QuietCore s u
    let badForm := h.mfield = 1 ∨ h.mfield = 2 ∨ h.mval = 1
    let noProfile := s.agtDc a = false ∧ s.agtHb a = false
    let badAgent := s.agtState a = 0 ∨ 4 ≤ s.agtState a
    let badTenant := s.agtTenant a ≠ tenantOf s line
    let checked := fun (bad : Prop) (c : Instr) (rsp dat : List FabMsg) =>
      (bad → Completes c s (refused 4 Fld.FP_ERR_BAD_OPC [] [])) ∧
      (¬ bad → homed s line = false → Completes c s (refused 1 Fld.FP_ERR_MISROUTE rsp dat)) ∧
      (¬ bad → homed s line = true → badAgent → Completes c s (refused 3 Fld.FP_ERR_AGENT rsp dat)) ∧
      (¬ bad → homed s line = true → ¬ badAgent → badTenant → Completes c s (refused 2 Fld.FP_ERR_TENANT rsp dat))
    (∀ c ∈ [Instr.rdS p h, .rdE p h, .rdNa p h, .rdAny p h], checked badForm c [] [data]) ∧
    (∀ c ∈ [Instr.own p h, .ownNt p h, .drop p h, .clnEv p h], checked badForm c [cmp] []) ∧
    (∀ d, checked badForm (.wrNa p h d) [cmp] [] ∧ checked badForm (.wrpNa p h d) [cmp] []) ∧
    (∀ (kind : BitVec 2) d, kind ≠ 3 →
      checked badForm (.wb p kind h d) [cmp] [] ∧ checked badForm (.wbp p kind h d) [cmp] []) ∧
    checked badForm (.spec p h) [] [] ∧ checked badForm (.biconf p h) [] [] ∧
    (∀ st : BitVec 2, st ≠ 3 → checked badForm (.birsp p st h) [] []) ∧
    checked (badForm ∨ noProfile) (.dfDone p h) [] [] ∧
    (badForm ∨ noProfile → Completes (.dfHb p h) s (refused 4 Fld.FP_ERR_BAD_OPC [] [])) ∧
    (¬ (badForm ∨ noProfile) → badAgent → Completes (.dfHb p h) s (refused 3 Fld.FP_ERR_AGENT [] [])) ∧
    (∀ typ : BitVec 6, unmapped typ.toNat = true →
      Completes (.unmappedOpcode p typ h) s (refused 4 Fld.FP_ERR_BAD_OPC [] [])) ∧
    (∀ st : BitVec 2, st ≠ 3 → PassesIngress s h → birspTid s a h.biid.toNat h.tag.toNat = none →
      Completes (.birsp p st h) s (refused 5 Fld.FP_ERR_UNEXP_RSP [] [])) ∧
    (PassesIngress s h → ¬ noProfile → dfTid s a h.biid.toNat line = none →
      Completes (.dfDone p h) s (refused 5 Fld.FP_ERR_UNEXP_RSP [] []))) ∧
  (∀ (p : Nat) (s : State) (m : FabMsg) (l : List FabMsg), (s.fport p).datQ = m :: l → m.own = .refused → m.typ = 0x30 →
    (s.fport p).txDat ≠ 0 → toDead s m = false →
    ((egHead s p 2).1.fport p).datQ = l ∧ (egHead s p 2).1.tx = s.tx ++ [(p, m)] ∧
    ((egHead s p 2).1.fport p).rspQ = (s.fport p).rspQ ++ [plainMsg 0x28 m.agent m.pa m.tag])

/-- R63, R67 to R69, R74, R76, R84: a request that passes the checks takes the lowest free hold slot where no REQ waits on any
port, and is presented to the slice of its line, unless its agent is in BINDING, an earlier request of it for the line is
held, or the slice is being adopted, where it is held back; else it waits in its port's REQ pool. An uncached write takes a
line of its port's DAT pool. What rests on a choice or an inference of the model: log 83, 93. -/
def Obligations.RequestsAreHeldAndPresented : Prop :=
  ∀ (p : BitVec 6) (h : Hdr) (d : Line) (s : State), s.dft = false → Awake s → Intact s → PassesIngress s h →
    (s.fport p.toNat).reqCred ≠ 0 →
    let a := h.agent.toNat
    let n := sliceOf h.pa.toNat
    let wait : HoldWait := if s.agtState a = 1 then .binding else if sameBefore s a h.pa.toNat then .behind
      else if adoptingSlice s n then .parked else .presented
    let kept := fun (u : State) => HeardOnly s u a ∧ u.port.recs = s.port.recs ∧ u.sl.trk = s.sl.trk ∧ u.fault = s.fault ∧
      QuietCore s u ∧ (s.fld Fld.FP_CTL_EN p.toNat = 1 → (u.fport p.toNat).reqCred = 32 - (u.fport p.toNat).reqQ.length)
    let held := fun (k typ : Nat) (dat : Option Nat) (u : State) =>
      u.holdE k = ⟨true, typ, h, p.toNat, dat, 0, s.port.holdSeq, wait, 0⟩ ∧ (∀ j, j ≠ k → u.holdE j = s.holdE j) ∧
      u.slq n = { s.slq n with
        reqQ := (s.slq n).reqQ ++ (if wait = .presented then [k] else []), wdog := (u.slq n).wdog } ∧
      (∀ m, m ≠ n → u.slq m = s.slq m) ∧ kept u
    let pooled := fun (typ : Nat) (dat : Option Nat) (u : State) =>
      (u.fport p.toNat).reqQ = (s.fport p.toNat).reqQ ++ [⟨typ, h, dat, 0⟩] ∧ u.port.hold = s.port.hold ∧ u.sl = s.sl ∧ kept u
    let open_ := s.port.replaying = false ∧ ∀ e ∈ s.port.fp, e.2.reqQ = []
    let goes := fun (c : Instr) (typ : Nat) (dat : Option Nat) (P : State → Prop) =>
      (∀ k, open_ → holdFree s = some k → Completes c s (fun u => held k typ dat u ∧ P u)) ∧
      (¬ open_ ∨ holdFree s = none → Completes c s (fun u => pooled typ dat u ∧ P u))
    goes (.rdS p h) 0x01 none (fun u => u.port.dat = s.port.dat) ∧ goes (.rdE p h) 0x02 none (fun u => u.port.dat = s.port.dat) ∧
    goes (.rdNa p h) 0x03 none (fun u => u.port.dat = s.port.dat) ∧ goes (.rdAny p h) 0x04 none (fun u => u.port.dat = s.port.dat) ∧
    goes (.own p h) 0x05 none (fun u => u.port.dat = s.port.dat) ∧ goes (.ownNt p h) 0x06 none (fun u => u.port.dat = s.port.dat) ∧
    goes (.drop p h) 0x07 none (fun u => u.port.dat = s.port.dat) ∧
    (∀ e, (s.fport p.toNat).datCred ≠ 0 → datFree s p.toNat = some e →
      let line := fun (typ : Nat) (u : State) => u.datE p.toNat e = ⟨.req, typ, h, d, 0, false⟩ ∧
        ∀ q x, x < 32 → (q, x) ≠ (p.toNat, e) → u.datE q x = s.datE q x
      goes (.wrNa p h d) 0x13 (some e) (line 0x13) ∧ goes (.wrpNa p h d) 0x17 (some e) (line 0x17))

/-- R63, R202, R84: SPEC and CLN_EV take no hold slot and no record, CLN_EV is answered with CMP; BICONF is answered with
BI-ConflictAck in the order of the agent's port; each returns its credit. R60, R64, R67, R84, R113: a writeback takes the
lowest free line of its port's DAT pool, after every earlier one, and waits for its slice; a profile heartbeat makes its agent
heard and a forwarder. What rests on a choice or an inference of the model: log 16, 82, 84. -/
def Obligations.HintsAcksAndWritebacks : Prop :=
  (∀ (p : BitVec 6) (h : Hdr) (s : State), s.dft = false → Awake s → Intact s → PassesIngress s h →
    let a := h.agent.toNat
    let kept := fun (u : State) => HeardOnly s u a ∧ u.port.hold = s.port.hold ∧ u.port.recs = s.port.recs ∧
      u.port.dat = s.port.dat ∧ u.sl = s.sl ∧ u.fault = s.fault ∧ QuietCore s u
    ((s.fport p.toNat).reqCred ≠ 0 → Completes (.spec p h) s (fun u => kept u ∧ (u.fport p.toNat).rspQ = (s.fport p.toNat).rspQ)) ∧
    ((s.fport p.toNat).reqCred ≠ 0 → Completes (.clnEv p h) s (fun u => kept u ∧
      (u.fport p.toNat).rspQ = (s.fport p.toNat).rspQ ++ [plainMsg 0x28 a h.pa.toNat h.tag.toNat])) ∧
    ((s.fport p.toNat).rspCred ≠ 0 → Completes (.biconf p h) s (fun u => kept u ∧
      (u.fport (s.agtFp a)).rspQ = (s.fport (s.agtFp a)).rspQ ++ [plainMsg 0x2B a h.pa.toNat h.tag.toNat]))) ∧
  (∀ (p : BitVec 6) (h : Hdr) (d : Line) (s : State), s.dft = false → Awake s → Intact s →
    let a := h.agent.toNat
    (∀ (kind : BitVec 2) (e : Nat), kind ≠ 3 → PassesIngress s h → (s.fport p.toNat).datCred ≠ 0 → datFree s p.toNat = some e →
      let waits := fun (base : Nat) (u : State) =>
        u.datE p.toNat e = ⟨.waiting, base + kind.toNat, h, d, s.port.holdSeq, false⟩ ∧ u.port.holdSeq = s.port.holdSeq + 1 ∧
        (∀ q x, x < 32 → (q, x) ≠ (p.toNat, e) → u.datE q x = s.datE q x) ∧ HeardOnly s u a ∧ u.work = s.work ++ [.daten] ∧
        u.port.hold = s.port.hold ∧ u.port.recs = s.port.recs ∧ u.sl = s.sl ∧ u.fault = s.fault ∧ QuietCore s u
      Completes (.wb p kind h d) s (waits 0x10) ∧ Completes (.wbp p kind h d) s (waits 0x14)) ∧
    (h.mfield ≠ 1 → h.mfield ≠ 2 → h.mval ≠ 1 → s.agtDc a = true ∨ s.agtHb a = true →
      s.agtState a = 1 ∨ s.agtState a = 2 ∨ s.agtState a = 3 → (s.fport p.toNat).rspCred ≠ 0 →
      Completes (.dfHb p h) s (fun u => HeardOnly s u a ∧ SMap.getD (fun _ => false) u.port.dfHeard a = true ∧
        (∀ b, b ≠ a → SMap.getD (fun _ => false) u.port.dfHeard b = SMap.getD (fun _ => false) s.port.dfHeard b) ∧
        u.port.hold = s.port.hold ∧ u.port.dat = s.port.dat ∧ u.sl = s.sl ∧ u.fault = s.fault ∧ QuietCore s u)))

/-- R80, R81, R170, R177: an answer of the fabric closes its target and is merged; the last one frees the record and queues
SNPDONE for the entry. R62, R78 to R82, R213: a snoop phase is expanded into one message for each agent that qualifies; a
merged answer reaches its entry; a target that does not answer in time stays open, is reported and gets its agent's SNPTMO
cause. What rests on a choice or an inference of the model: log 4, 14. -/
def Obligations.SnoopPhasesAndAnswers : Prop :=
  (∀ (p : BitVec 6) (h : Hdr) (s : State), s.dft = false → Awake s → Intact s → PassesIngress s h →
    (s.fport p.toNat).rspCred ≠ 0 → wbAhead s h.agent.toNat h.pa.toNat = false →
    let a := h.agent.toNat
    let answered := fun (tid st : Nat) (u : State) =>
      let f := s.fanE tid
      let f' := { f with
        open_ := f.open_.filter (fun t => t.agent ≠ a), merged := max f.merged st
        holders := if st = 0 ∨ 5 ≤ f.holders.length then f.holders else f.holders ++ [(a, st)]
        groups := if st = 0 then f.groups else f.groups ||| (1#64 <<< (a / 1024)) }
      HeardOnly s u a ∧ u.fault = s.fault ∧ u.port.hold = s.port.hold ∧ u.port.dat = s.port.dat ∧
      u.sl = { s.sl with sl := u.sl.sl } ∧ (∀ k, u.slq k = { s.slq k with wdog := (u.slq k).wdog }) ∧ (∀ k, k ≠ tid → u.fanE k = s.fanE k) ∧
      (f'.open_ ≠ [] → u.fanE tid = f' ∧ u.port.snpDone = s.port.snpDone) ∧
      (f'.open_ = [] → f.active = true → f.expanded = true → f.deferred = [] → f.kept = false → f.orphan = false →
        u.fanE tid = fan0 ∧ SMap.getD (fun _ => []) u.port.snpDone (tid / 512) =
          SMap.getD (fun _ => []) s.port.snpDone (tid / 512) ++ [⟨tid, f'.merged, f.sent, f.dead, f'.holders, f'.groups⟩])
    (∀ (st : BitVec 2) (tid : Nat), st ≠ 3 → birspTid s a h.biid.toNat h.tag.toNat = some tid → (s.fanE tid).pa = h.pa.toNat →
      st.toNat ≤ strongest (s.fanE tid).kind → Completes (.birsp p st h) s (answered tid st.toNat)) ∧
    (∀ tid, s.agtDc a = true ∨ s.agtHb a = true → dfTid s a h.biid.toNat h.pa.toNat = some tid →
      (s.fanE tid).pa = h.pa.toNat →
      let st := if h.mval = 0 then 0 else if h.mval = 3 then 1 else 2
      st ≤ strongest (s.fanE tid).kind → Completes (.dfDone p h) s (answered tid st))) ∧
  (∀ (s : State), s.dft = false → Awake s → Intact s →
    (∀ (c : BitVec 4) (m : SnpMsg),
      let q := SMap.getD (fun _ => []) s.port.snpQ c.toNat
      let ts := targetsOf s m.desc (tenantOf s m.pa) m.excl
      let df := m.kind == .fwdKeep || m.kind == .fwdClean
      let msg := fun (a : Nat) => (⟨snpCode m.kind, a, m.pa, if df then m.tag else bitagOf m.tid, biidOf s m.tid, 0,
        if m.kind = .fwdClean then 1 else 0, false, if df then m.fwd else 0, none, .snoop m.tid⟩ : FabMsg)
      q.find? (snpMay s) = some m → ts ≠ [] → Completes (.snoopPhase c) s (fun u =>
        u.fanE m.tid = { s.fanE m.tid with
          active := true, kind := m.kind, pa := m.pa, expanded := true
          open_ := ts.map (fun a => ⟨a, false, 0, false, df⟩)
          sent := ts.length, merged := 0, dead := b2n (namesDead s m.desc m.excl), holders := [], groups := 0 } ∧
        (∀ k, k ≠ m.tid → u.fanE k = s.fanE k) ∧ SMap.getD (fun _ => []) u.port.snpQ c.toNat = q.erase m ∧
        (∀ p, (u.fport p).snpQ = (s.fport p).snpQ ++ (ts.filter (fun a => s.agtFp a = p)).map msg) ∧
        u.agt = s.agt ∧ u.sl = s.sl ∧ u.fault = s.fault ∧ u.regs = s.regs ∧ u.port.hold = s.port.hold ∧ QuietCore s u)) ∧
    (∀ (n : BitVec 7) (d : SnpDone) (l : List SnpDone), SMap.getD (fun _ => []) s.port.snpDone n.toNat = d :: l →
      (sliceIssues s n.toNat = false ∨ mayIssue s n.toNat 1 = false → Completes (.snpdone n) s (fun u => u = Begun s)) ∧
      (sliceIssues s n.toNat = true → mayIssue s n.toNat 1 = true → (s.trkE d.tid).valid = true → (s.trkE d.tid).snpOut = true →
        d.dead = 0 → Completes (.snpdone n) s (fun u =>
        let t := u.trkE d.tid
        t.snpOut = false ∧ t.ans = d.merged ∧ t.ansDead = 0 ∧ t.ansCount = d.count ∧ t.holders = d.holders ∧
        t.groups = d.groups ∧ t.prog = (s.trkE d.tid).prog ∧ t.step = (s.trkE d.tid).step ∧
        (∀ k, k ≠ d.tid → u.trkE k = s.trkE k) ∧ SMap.getD (fun _ => []) u.port.snpDone n.toNat = l ∧
        u.work = s.work ++ [.daten, .trk d.tid] ∧ RegsKept s u ∧ u.agt = s.agt ∧ QuietCore s u))) ∧
    (∀ (tid agent : BitVec 16) (t : SnpTarget),
      let f := s.fanE tid.toNat
      f.open_.find? (fun t => t.agent = agent.toNat ∧ t.left ∧ ¬ t.expired) = some t →
      Completes (.snoopTimeout tid agent) s (fun u =>
        u.fanE tid.toNat = { f with
          open_ := f.open_.map (fun x => if x.agent = agent.toNat then { x with expired := true } else x) } ∧
        (∀ k, k ≠ tid.toNat → u.fanE k = s.fanE k) ∧ u.now = max s.now t.deadline ∧
        SMap.getD (fun _ => 0) u.port.evt agent.toNat = SMap.getD (fun _ => 0) s.port.evt agent.toNat ||| 1 ∧
        (∃ r ∈ u.fault.held, r.code = 0x08 ∧ r.subject = agent.toNat) ∧ u.sl = s.sl ∧ u.agt = s.agt ∧ QuietCore s u)))

/-- R68, R69, R73, R75, R77: what a slice's notice does to the hold slot and the acceptance record of its request. R63, R74 to
R76: the retry timer presents a held request again (a request for a slice under adoption is held back); a freed slot goes to
the next waiting port in rotation. What rests on a choice or an inference of the model: log 11. -/
def Obligations.NoticesAndHeldRequests : Prop :=
  (∀ (c : BitVec 4) (s : State), s.dft = false → Awake s → Intact s → s.port.staged = [] →
    let popped := fun (rest : List Notice) (u : State) => u.notices c.toNat = rest ∧
      (∀ k, k ≠ c.toNat → u.notices k = s.notices k) ∧ u.agt = s.agt ∧ u.fault = s.fault ∧ QuietCore s u
    (∀ tid k ep rest, s.notices c.toNat = .accept tid k ep :: rest → (s.holdE k).used = true →
      Completes (.acceptanceNotice c) s (fun u =>
        let v := s.holdE k
        popped rest u ∧ u.holdE k = hold0 ∧
        u.recE tid = ⟨true, ep, v.typ, v.hdr, v.dat.map (fun e => (v.port, e)), false, false, v.nacks, s.now⟩ ∧
        (∀ j, j ≠ tid → u.recE j = s.recE j) ∧ u.sl.trk = s.sl.trk ∧
        SMap.getD (fun _ => []) u.port.rel c.toNat = SMap.getD (fun _ => []) s.port.rel c.toNat ++ [tid])) ∧
    (∀ k on rest, s.notices c.toNat = .refuse k on :: rest → (s.holdE k).used = true →
      let v := s.holdE k
      let lvl := s.fld Fld.PC_CTL_NNACK_LVL
      let nnack := lvl ≠ 0 ∧ lvl * 128 ≤ (holdsUsed s).length ∧ s.agtNnack v.hdr.agent.toNat = true ∧ v.nacks < 4
      let tmo := s.now + (if s.fld Fld.PC_CTL_RETRY_TMO = 0 then 64 else s.fld Fld.PC_CTL_RETRY_TMO) * 1000
      (¬ nnack → Completes (.refusalNotice c) s (fun u => popped rest u ∧ (∀ j, j ≠ k → u.holdE j = s.holdE j) ∧
        u.holdE k = { v with nacks := min 7 (v.nacks + 1), wait := on, tmo := tmo } ∧ u.sl = s.sl ∧ u.port.recs = s.port.recs)) ∧
      (nnack → Completes (.refusalNotice c) s (fun u => popped rest u ∧ u.holdE k = hold0 ∧ u.port.recs = s.port.recs ∧
        u.sl.trk = s.sl.trk ∧ (u.fport v.port).rspQ = (s.fport v.port).rspQ ++
          [plainMsg 0x2C v.hdr.agent.toNat v.hdr.pa.toNat v.hdr.tag.toNat]))) ∧
    (∀ tid rest, s.notices c.toNat = .retire tid :: rest → (s.recE tid).valid = true → Completes (.retireNotice c) s (fun u =>
      popped rest u ∧ u.recE tid = rec0 ∧ (∀ j, j ≠ tid → u.recE j = s.recE j) ∧ u.sl.trk = s.sl.trk ∧
      (∀ q e, (s.recE tid).dat = some (q, e) → u.datE q e = dat0) ∧
      ∀ k, (s.holdE k).used = true → (s.holdE k).wait = .trk tid → s.port.replaying = false →
        adoptingSlice s (sliceOf (s.holdE k).hdr.pa.toNat) = false → u.holdE k = { s.holdE k with wait := .presented })) ∧
    (∀ tid l, SMap.getD (fun _ => []) s.port.rel c.toNat = tid :: l → (s.trkE tid).valid = true → (s.trkE tid).wrWait = [] →
      Completes (.retryRelease c) s (fun u => u.trkE tid = { s.trkE tid with rel := true } ∧
        (∀ j, j ≠ tid → u.trkE j = s.trkE j) ∧ SMap.getD (fun _ => []) u.port.rel c.toNat = l ∧
        u.work = s.work ++ [.trk tid] ∧ u.port.hold = s.port.hold ∧ u.port.recs = s.port.recs ∧ u.regs = s.regs ∧ QuietCore s u))) ∧
  (∀ (s : State), s.dft = false → Awake s → Intact s → s.port.replaying = false →
    (∀ slot : BitVec 15,
      let v := s.holdE slot.toNat
      let n := sliceOf v.hdr.pa.toNat
      v.used = true → (∃ k, v.wait = .trk k ∨ v.wait = .sink k ∨ v.wait = .rsv k ∨ v.wait = .pool k) ∨ v.wait = .mode → Completes (.heldRetryTimeout slot) s (fun u =>
        u.holdE slot.toNat = { v with wait := if adoptingSlice s n then .parked else .presented } ∧
        (∀ j, j ≠ slot.toNat → u.holdE j = s.holdE j) ∧
        u.slq n = { s.slq n with
          reqQ := (s.slq n).reqQ ++ (if adoptingSlice s n then [] else [slot.toNat]), wdog := (u.slq n).wdog } ∧ (∀ m, m ≠ n → u.slq m = s.slq m) ∧
        u.now = max s.now v.tmo ∧ u.port.recs = s.port.recs ∧ u.agt = s.agt ∧ u.fault = s.fault ∧ QuietCore s u)) ∧
    (∀ slot : BitVec 15, (s.holdE slot.toNat).used = false ∨ (s.holdE slot.toNat).wait ∈ [.presented, .behind, .binding, .parked] →
      Completes (.heldRetryTimeout slot) s (fun u => u = Begun s)) ∧
    (∀ k p r l, holdFree s = some k → p < 64 → (s.fport p).reqQ = r :: l →
      (∀ q, q < 64 → (s.fport q).reqQ ≠ [] → (p + 63 - s.port.holdRot) % 64 ≤ (q + 63 - s.port.holdRot) % 64) →
      s.port.holdRot < 64 → Completes .holdSlotPresent s (fun u =>
        let wait : HoldWait := if s.agtState r.hdr.agent.toNat = 1 then .binding
          else if sameBefore s r.hdr.agent.toNat r.hdr.pa.toNat then .behind
          else if adoptingSlice s (sliceOf r.hdr.pa.toNat) then .parked else .presented
        u.holdE k = ⟨true, r.typ, r.hdr, p, r.dat, r.nacks, s.port.holdSeq, wait, 0⟩ ∧ (u.fport p).reqQ = l ∧
        u.port.holdRot = p ∧ (∀ j, j ≠ k → u.holdE j = s.holdE j) ∧ (∀ q, q ≠ p → u.fport q = s.fport q) ∧
        (u.slq (sliceOf r.hdr.pa.toNat)).reqQ =
          (s.slq (sliceOf r.hdr.pa.toNat)).reqQ ++ (if wait = .presented then [k] else []) ∧ u.agt = s.agt ∧
        u.fault = s.fault ∧ QuietCore s u)))

/-- R64, R65, R88, R89, R213, R214: transmit credits and their stall, the link of a port, FP_CTL.EN. What rests on a choice or
an inference of the model: log 76, 86. -/
def Obligations.CreditsAndLinks : Prop :=
  ∀ (p : BitVec 6) (c : BitVec 2) (s : State), s.dft = false → s.vaux = true → s.portUp = true → c ≠ 3 →
    let f := s.fport p.toNat
    let port := fun (f' : FPort) (u : State) => u.fport p.toNat = f' ∧ (∀ q, q ≠ p.toNat → u.fport q = s.fport q)
    let same := fun (u : State) => u.sl = s.sl ∧ u.agt = s.agt ∧ u.port.hold = s.port.hold ∧ u.port.dat = s.port.dat ∧
      u.port.recs = s.port.recs ∧ QuietCore s u
    let credit := fun (f : FPort) (c : Nat) => if c = 0 then f.txSnp else if c = 1 then f.txRsp else f.txDat
    let queue := if c.toNat = 0 then f.snpQ else if c.toNat = 1 then f.rspQ else f.datQ
    (credit f c.toNat < 255 → Completes (.txCredit p c) s (fun u => same u ∧ u.fault = s.fault ∧ u.regs = s.regs ∧
      u.work = s.work ++ [.eg p.toNat] ∧ (∀ k, k < 3 → credit (u.fport p.toNat) k = credit f k + if k = c.toNat then 1 else 0) ∧
      port { f with
        txSnp := (u.fport p.toNat).txSnp, txRsp := (u.fport p.toNat).txRsp, txDat := (u.fport p.toNat).txDat
        stalled := f.stalled.filter (· ≠ c.toNat) } u)) ∧
    (credit f c.toNat = 255 → Completes (.txCredit p c) s (fun u => port f u ∧ same u ∧ u.fld Fld.FP_ERR_CRD_OVF p.toNat = 1)) ∧
    (∀ m l, queue = m :: l → credit f c.toNat = 0 → c.toNat ∉ f.stalled → Completes (.txStallTimeout p c) s (fun u =>
      same u ∧ u.fld Fld.FP_ERR_TX_STALL p.toNat = 1 ∧ (∃ r ∈ u.fault.held, r.code = 0x06 ∧ r.subject = p.toNat) ∧
      port { f with stalled := insertSorted c.toNat f.stalled } u)) ∧
    (queue = [] ∨ credit f c.toNat ≠ 0 ∨ c.toNat ∈ f.stalled → Completes (.txStallTimeout p c) s (fun u => u = Begun s)) ∧
    (f.link = false → Completes (.fpLinkDown p) s (fun u => u = Begun s)) ∧
    (f.link = true → Completes (.fpLinkDown p) s (fun u => port { f with link := false } u ∧ same u ∧ u.regs = s.regs ∧
      u.fault = s.fault ∧ ∀ a, SMap.getD (fun _ => 0) u.port.evt a =
        if a ∈ s.agents ∧ s.agtFp a = p.toNat ∧ s.agtBound a = true then SMap.getD (fun _ => 0) s.port.evt a ||| 2
        else SMap.getD (fun _ => 0) s.port.evt a)) ∧
    ((∀ e ∈ s.conf, ∀ c, e.2 = some c → c.grace = false) → Completes (.fpLinkUp p) s (fun u =>
      port { f with link := true } u ∧ same u ∧ u.regs = s.regs ∧ u.fault = s.fault ∧ u.port.evt = s.port.evt)) ∧
    (∀ v : BitVec 32, Completes (.fpEnWrite p v) s (fun u => u.fld Fld.FP_CTL_EN p.toNat = v.toNat % 2 ∧ same u ∧
      u.fault = s.fault ∧ RegsBut s u [RegName.FP_CTL.addr p.toNat 0] ∧
      port (if v.toNat % 2 = 1 then { f with
          reqCred := 32 - f.reqQ.length, datCred := 32 - (datUsed s p.toNat).length, rspCred := 64 } else f) u))

/-- R73, R102, R109 to R111, R114, R115: the conflict check of a presented request: it allocates an entry, or is refused and
takes a count-queue place after three refusals; it waits while its slice or its class may not issue. What rests on a choice or
an inference of the model: log 93. -/
def Obligations.SliceIssue : Prop :=
  ∀ (n : BitVec 7) (s : State), s.dft = false → Awake s → Intact s → s.fld Fld.RB_STATUS_LOADED = 1 →
    adoptingSlice s n.toNat = false →
    (reqElig s n.toNat = false ∨ mayIssue s n.toNat 3 = false → Completes (.sliceReqIssue n) s (fun u => u = Begun s)) ∧
    (∀ h, reqElig s n.toNat = true → mayIssue s n.toNat 3 = true → pickReq s n.toNat = some h →
      let v := s.holdE h
      let line := v.hdr.pa.toNat
      let q := s.slq n.toNat
      let head := cqHead s n.toNat line
      let mine := head.map (·.hold) = some h
      let frame := fun (u : State) => u = { Begun s with
          port := u.port, sl := u.sl, regs := u.regs, cab := u.cab, fault := u.fault, integ := u.integ, frzReq := u.frzReq, work := u.work } ∧
        u.port = { s.port with notices := u.port.notices } ∧ u.cab.words = s.cab.words ∧ u.cab.spare = s.cab.spare ∧
        (∀ m, m ≠ n.toNat → u.slq m = s.slq m) ∧ u.sl.sinks = s.sl.sinks ∧ ∀ c, c ≠ n.toNat / 8 → u.notices c = s.notices c
      let took := fun (q : SliceQ) => { q with
        reqQ := q.reqQ.erase h, rot := v.port, reqPass := 0, wdog := s.now
        mntPass := if mntElig s n.toNat = true then q.mntPass + 1 else 0 }
      let refusedOf := fun (on : HoldWait) (rsv : Bool) (reserved : List (Nat × Nat)) (u : State) =>
        frame u ∧ u.sl.trk = s.sl.trk ∧ u.work = s.work ++ [.daten] ∧
        u.notices (n.toNat / 8) = s.notices (n.toNat / 8) ++ [.refuse h on] ∧
        u.slq n.toNat = { took q with
          reserved := reserved, streams := (u.slq n.toNat).streams
          cq := if rsv = true ∧ 3 ≤ v.nacks ∧ (∀ r ∈ q.cq, r.hold ≠ h) ∧ q.cq.length < 32 then
            q.cq ++ [⟨line, h, v.hdr.agent.toNat, s.now⟩] else q.cq }
      let refused := fun (on : HoldWait) (rsv : Bool) (u : State) =>
        refusedOf on rsv q.reserved u ∧ (u.slq n.toNat).streams = q.streams ∧ u.fault = s.fault ∧ u.cab = s.cab
      let accepted := fun (e : Nat) (u : State) =>
        let tid := n.toNat * 512 + e
        let t := u.trkE tid
        frame u ∧ t.valid = true ∧ t.cls = 0 ∧ t.typ = v.typ ∧ t.agent = v.hdr.agent.toNat ∧ t.pa = line ∧ t.hold = h ∧
        t.nacks = v.nacks ∧ t.hdr = v.hdr ∧ t.epoch = s.fld Fld.RB_STATUS_ACTIVE ∧ t.rel = false ∧ t.snpOut = false ∧
        t.reqDat = v.dat.map (fun x => (v.port, x)) ∧ (∀ k, k ≠ tid → u.trkE k = s.trkE k) ∧
        u.work = s.work ++ [.daten, .trk tid] ∧
        u.notices (n.toNat / 8) = s.notices (n.toNat / 8) ++ [.accept tid h (s.fld Fld.RB_STATUS_ACTIVE)] ∧
        u.slq n.toNat = { (if mine then { took q with
          cq := q.cq.filter (fun r => r.hold ≠ h), reserved := q.reserved.filter (fun x => x.1 ≠ line) } else took q) with
          streams := (u.slq n.toNat).streams }
      sliceOf line = n.toNat →
      (modeRefuses s line = true → Completes (.sliceReqIssue n) s (refused .mode false)) ∧
      (modeRefuses s line = false → isReserved s n.toNat line = true → ¬ mine →
        Completes (.sliceReqIssue n) s (refused (.rsv line) true)) ∧
      (modeRefuses s line = false → isReserved s n.toNat line = false ∨ mine →
        (∀ b, blocker s line false none = some b → Completes (.sliceReqIssue n) s (refused b true)) ∧
        (blocker s line false none = none → allocEntry s n.toNat 0 = none →
          Completes (.sliceReqIssue n) s (fun u => u.fault = s.fault ∧ u.cab = s.cab ∧
            refusedOf (.pool n.toNat) false (q.reserved.map (fun x => if x.1 = line then (line, 0) else x)) u)) ∧
        (∀ e, blocker s line false none = none → blocker s line true none = none → allocEntry s n.toNat 0 = some e →
          Completes (.sliceReqIssue n) s (accepted e)) ∧
        (∀ e b, blocker s line false none = none → blocker s line true none = some b → allocEntry s n.toNat 0 = some e →
          Completes (.sliceReqIssue n) s (fun u => accepted e u ∨ refusedOf b true q.reserved u))))

/-- R104, R109, R155: a waiting directory eviction takes an entry for the victim granule, or frees a way that is empty already
and lets the entry that asked go on; it waits while the granule is busy. R116: the guard of a reservation expires before its
head is presented. What rests on a choice or an inference of the model: log 4, 93, 94. -/
def Obligations.EvictionsAndReservations : Prop :=
  (∀ (n : BitVec 7) (s : State), s.dft = false → Awake s → Intact s → s.fld Fld.RB_STATUS_LOADED = 1 →
    adoptingSlice s n.toNat = false → logicOf s n.toNat < 144 →
    (evElig s n.toNat = false ∨ mayIssue s n.toNat 2 = false → Completes (.directoryEviction n) s (fun u => u = Begun s)) ∧
    (∀ e l, (s.slq n.toNat).evQ = e :: l →
      let c := decodeCab (drawerW s n.toNat (e.set * 16 + e.way))
      let sub := if c.grain = 1 then c.loc % 16 else ((List.range 16).find? (fun i => bit1 c.loc i)).getD 0
      let line := sectorOfWord e.set c * 16 + sub
      let clear := (∀ t ∈ trkOfSlice s n.toNat, some (n.toNat * 512 + t.1) = e.waiter ∨ meets t.2 line (c.grain == 2) = false) ∧
        ∀ k ∈ sinksOfSlice s n.toNat, k.2.hdr.pa.toNat ≠ line ∧ (c.grain = 2 → sectorOf k.2.hdr.pa.toNat ≠ sectorOf line)
      let popped := fun (u : State) => (∀ m, m ≠ n.toNat → u.slq m = s.slq m) ∧ u.slq n.toNat = { s.slq n.toNat with
        evQ := l, wdog := s.now
        reqPass := if reqElig s n.toNat = true then (s.slq n.toNat).reqPass + 1 else 0
        mntPass := if mntElig s n.toNat = true then (s.slq n.toNat).mntPass + 1 else 0 }
      (∀ w, sliceIssues s n.toNat = true → mayIssue s n.toNat 2 = true → c.grain = 0 → e.msg = none → e.waiter = some w →
        (s.trkE w).valid = true →
        Completes (.directoryEviction n) s (fun u => u = { Begun s with sl := u.sl, work := s.work ++ [.daten, .trk w] } ∧ popped u ∧
          u.sl.sinks = s.sl.sinks ∧ u.trkE w = { s.trkE w with tstate := 0 } ∧ ∀ k, k ≠ w → u.trkE k = s.trkE k)) ∧
      (c.grain ≠ 0 → ¬ clear → Completes (.directoryEviction n) s (fun u => u = Begun s)) ∧
      (c.grain ≠ 0 → allocEntry s n.toNat 1 = none → Completes (.directoryEviction n) s (fun u => u = Begun s)) ∧
      (∀ en, sliceIssues s n.toNat = true → mayIssue s n.toNat 2 = true → c.grain ≠ 0 → clear → allocEntry s n.toNat 1 = some en →
        Completes (.directoryEviction n) s (fun u =>
          let tid := n.toNat * 512 + en
          let t := u.trkE tid
          u = { Begun s with sl := u.sl, regs := u.regs, integ := u.integ, frzReq := u.frzReq, work := s.work ++ [.daten, .trk tid] } ∧
          popped u ∧ RegsKept s u ∧ t.valid = true ∧ t.cls = 1 ∧ t.typ = 0x22 ∧ t.pa = line ∧ (t.sector = true ↔ c.grain = 2) ∧
          t.cur = c.state ∧ t.grain = c.grain ∧ t.way = some e.way ∧ t.waiter = e.waiter ∧ t.msg = e.msg ∧
          t.epoch = s.fld Fld.RB_STATUS_ACTIVE ∧ t.prog = evictSteps c
            (e.waiter.bind (fun w => if sectorOf (s.trkE w).pa = sectorOf line then some ((s.trkE w).pa % 16) else none)) ∧
          ∀ k, k ≠ tid → u.trkE k = s.trkE k)))) ∧
  (∀ (n : BitVec 7) (line : BitVec 42) (s : State), s.dft = false → s.vaux = true → s.coreUp = true →
    ((∀ e ∈ (s.slq n.toNat).reserved, e.1 ≠ line.toNat) → Completes (.cqGuardTimeout n line) s (fun u => u = Begun s)) ∧
    ((s.slq n.toNat).reserved.find? (fun e => e.1 = line.toNat) = some (line.toNat, 0) →
      Completes (.cqGuardTimeout n line) s (fun u => u = Begun s)) ∧
    (∀ dl r, (s.slq n.toNat).reserved.find? (fun e => e.1 = line.toNat) = some (line.toNat, dl) → dl ≠ 0 →
      cqHead s n.toNat line.toNat = some r →
      Completes (.cqGuardTimeout n line) s (fun u =>
        let l := logicOf s n.toNat
        let cq := (s.slq n.toNat).cq.erase r
        let rest := (s.slq n.toNat).reserved.filter (fun e => e.1 ≠ line.toNat)
        let guard := max 1 (s.fld Fld.SL_CTL_CQ_GUARD l) * 100
        let again := ∃ x ∈ cq, x.line = line.toNat
        u = { Begun s with
          now := max s.now dl, lehrNow := max s.lehrNow dl, sl := u.sl, port := u.port, regs := u.regs, fault := u.fault } ∧
        Reported u 0x21 n.toNat ∧ u.fld Fld.SL_ERR_CQ_TMO l = 1 ∧ RegsBut s u (RegName.SL_ERR.addr l 0 :: SliceLc l) ∧
        u.port = { s.port with notices := u.port.notices } ∧ u.sl.trk = s.sl.trk ∧ u.sl.sinks = s.sl.sinks ∧
        (∀ m, m ≠ n.toNat → u.slq m = s.slq m) ∧ (∀ c, c ≠ n.toNat / 8 → u.notices c = s.notices c) ∧
        (again → u.slq n.toNat = { s.slq n.toNat with cq := cq, reserved := rest ++ [(line.toNat, max s.now dl + guard)] } ∧
          u.notices (n.toNat / 8) = s.notices (n.toNat / 8)) ∧
        (¬ again → u.slq n.toNat = { s.slq n.toNat with cq := cq, reserved := rest } ∧
          u.notices (n.toNat / 8) = s.notices (n.toNat / 8) ++ [.rsvFree n.toNat line.toNat]))))

/-- R119 to R122, R129, R132: a watchdog or parity failure of a slice logic, a forced adoption, the copy of a tracker entry.
What rests on a choice or an inference of the model: log 20, 23, 93. -/
def Obligations.SliceLogics : Prop :=
  ∀ (s : State), s.dft = false → s.vaux = true → s.coreUp = true →
    (∀ n : BitVec 7,
      let q := s.slq n.toNat
      let l := logicOf s n.toNat
      let due := q.wdog + s.fld Fld.SL_WDOG_TMO l * 1000
      let waits := rspElig s n.toNat = true ∨ evElig s n.toNat = true ∨ reqElig s n.toNat = true ∨ mntElig s n.toNat = true
      (s.fld Fld.SL_WDOG_TMO l ≠ 0 → waits →
        Completes (.slWdogTimeout n) s (fun u => u = { Begun s with
            now := max s.now due, lehrNow := max s.lehrNow due, regs := u.regs, work := s.work ++ [.fail n.toNat] } ∧
          u.fld Fld.SL_ERR_WDOG l = 1 ∧ RegsBut s u [RegName.SL_ERR.addr l 0])) ∧
      (s.fld Fld.SL_WDOG_TMO l = 0 ∨ ¬ waits →
        Completes (.slWdogTimeout n) s (fun u => u = Begun s))) ∧
    (∀ l : BitVec 8, l.toNat < 144 →
      let c := l.toNat / 9
      (∀ k, k < 8 → bits (s.fld Fld.CL_SLMAP_POS c) (4 * k) 4 ≠ l.toNat % 9) → s.fld Fld.CL_SPARE_SPARE c = l.toNat % 9 →
      Completes (.logicParError l) s (fun u =>
        u = { Begun s with regs := u.regs, fault := u.fault, repair := u.repair } ∧ Reported u 0x20 (0x100 + l.toNat) ∧
        u.fld Fld.SL_ERR_LOGIC_PAR l.toNat = 1 ∧ u.fld Fld.CL_SPARE_SPARE c = 15 ∧
        u.fld Fld.CL_SPARE_FAILED c = s.fld Fld.CL_SPARE_FAILED c ||| 2 ^ (l.toNat % 9) ∧
        RegsBut s u ([RegName.SL_ERR.addr l.toNat 0, RegName.CL_SPARE.addr c 0] ++ SliceLc l.toNat))) ∧
    (∀ (c : BitVec 4) (pos : BitVec 3),
      ((∃ e ∈ s.sl.adopting, e.1 / 8 = c.toNat) → Completes (.clAdoptGo c pos) s (fun u =>
        OnlyRegs s u [RegName.CL_ADOPT.addr c.toNat 0] ∧ u.fld Fld.CL_ADOPT_STATUS c.toNat = 3)) ∧
      ((∀ e ∈ s.sl.adopting, e.1 / 8 ≠ c.toNat) → s.mode ≠ 7 ∨ s.fld Fld.CL_SPARE_SPARE c.toNat = 15 →
        Completes (.clAdoptGo c pos) s (fun u =>
          OnlyRegs s u [RegName.CL_ADOPT.addr c.toNat 0] ∧ u.fld Fld.CL_ADOPT_STATUS c.toNat = 2)) ∧
      ((∀ e ∈ s.sl.adopting, e.1 / 8 ≠ c.toNat) → s.mode = 7 → s.fld Fld.CL_SPARE_SPARE c.toNat ≠ 15 →
        s.notices c.toNat = [] →
        let n := 8 * c.toNat + pos.toNat
        logicOf s n < 9 * c.toNat + 9 →
        Completes (.clAdoptGo c pos) s (fun u => u.sl.adopting = s.sl.adopting ++ [(n, true)] ∧
          u.port.replay = s.port.replay ++ [n] ∧ u.fld Fld.CL_SPARE_SPARE c.toNat = 15 ∧ u.fld Fld.CL_ADOPT_STATUS c.toNat = 0 ∧
          logicOf u n = 9 * c.toNat + s.fld Fld.CL_SPARE_SPARE c.toNat ∧ (∀ m, m < 128 → m ≠ n → logicOf u m = logicOf s m) ∧
          bit1 (u.fld Fld.CL_SPARE_FAILED c.toNat) (logicOf s n - 9 * c.toNat) = true ∧ u.fault = s.fault ∧ u.cab = s.cab ∧
          u.port.recs = s.port.recs ∧ (∀ k, k / 512 ≠ n → u.trkE k = s.trkE k) ∧ (∀ k, k / 512 = n → u.trkE k = trk0) ∧
          u.agt = s.agt ∧ u.mem = s.mem ∧ u.hutch = s.hutch ∧ u.nq = s.nq ∧ u.irq = s.irq ∧ u.lehr = s.lehr ∧
          RegsBut s u [RegName.CL_ADOPT.addr c.toNat 0, RegName.CL_SPARE.addr c.toNat 0, RegName.CL_SLMAP.addr c.toNat 0]))) ∧
    (∀ (l : BitVec 8) (e : BitVec 9), l.toNat < 144 → Completes (.slTrkIdxWrite l e) s (fun u =>
      OnlyRegs s u (RegName.SL_TRK_IDX.addr l.toNat 0 :: (List.range 4).map (fun k => RegName.SL_TRK_DATA.addr l.toNat k)) ∧
      u.fld Fld.SL_TRK_IDX_ENTRY l.toNat = e.toNat ∧
      ∀ k, k < 4 → u.fld Fld.SL_TRK_DATA_BITS l.toNat k = bits (trkStored s l.toNat e.toNat).toNat (32 * k) 32))

/-- R101, R104, R109, R179, R211, R214, R220, R225: the message at the head of a slice's MNT class takes an entry for its
line, with sector scope where its word is coarse and it is a reclaim's or a release's, and is decided against its own Drawer
read; it waits while its class may not issue, its granule is busy or no entry is free, and a walk's message waits while the
governor clears the background bit. R226: after a phase with several E answers the phase is repeated once its 10 µs have
passed. What rests on a choice or an inference of the model: log 32, 93, 95. -/
def Obligations.MaintenanceEntries : Prop :=
  (∀ (n : BitVec 7) (s : State) (c : Instr) (m : MntMsg) (l : List MntMsg), s.dft = false → Awake s → Intact s →
    s.fld Fld.RB_STATUS_LOADED = 1 → adoptingSlice s n.toNat = false → logicOf s n.toNat < 144 →
    (s.slq n.toNat).mntQ = m :: l →
    ((c = .settle n ∧ m.typ = 0x3C) ∨ (c = .release n ∧ m.typ = 0x3E) ∨ (c = .reclaim n ∧ m.typ = 0x3D ∧ m.operand ≠ 0) ∨
      (c = .census n ∧ m.typ = 0x3D ∧ m.operand = 0) ∨ (c = .probe n ∧ m.typ = 0x3F)) →
    let f := (readLine s m.pa).2
    let sec := mntSector s m
    let w := (seenOf f.look).word
    (mntElig s n.toNat = false ∨ mayIssue s n.toNat 4 = false → Completes c s (fun u => u = Begun s)) ∧
    (sec = true ↔ m.sector = true ∨ (((m.typ = 0x3D ∧ m.operand ≠ 0) ∨ m.typ = 0x3E) ∧
      (lookIn (peekSet s (sliceOf m.pa) (setOf m.pa)) m.pa).fine = none ∧
      (lookIn (peekSet s (sliceOf m.pa) (setOf m.pa)) m.pa).line ≠ none)) ∧
    (m.msg = none → m.typ ≠ 0x3F → s.govBg.getLsbD (n.toNat / 8) = false → Completes c s (fun u => u = Begun s)) ∧
    (∀ b, blocker s m.pa sec none = some b → Completes c s (fun u => u = Begun s)) ∧
    (allocEntry s n.toNat 2 = none → Completes c s (fun u => u = Begun s)) ∧
    (∀ e, sliceIssues s n.toNat = true → mayIssue s n.toNat 4 = true → m.msg ≠ none ∨ m.typ = 0x3F ∨ s.govBg.getLsbD (n.toNat / 8) = true → blocker s m.pa sec none = none →
      allocEntry s n.toNat 2 = some e → sliceOf m.pa = n.toNat →
      Completes c s (fun u =>
        let tid := n.toNat * 512 + e
        let t := u.trkE tid
        u = { Begun s with
          sl := u.sl, regs := u.regs, cab := u.cab, fault := u.fault, integ := u.integ, frzReq := u.frzReq, conf := u.conf
          work := s.work ++ [.daten, .trk tid] } ∧
        u.cab.words = s.cab.words ∧ u.cab.spare = s.cab.spare ∧ u.sl.sinks = s.sl.sinks ∧
        u.slq n.toNat = { s.slq n.toNat with
          mntQ := l, mntPass := 0, wdog := s.now
          reqPass := if reqElig s n.toNat = true then (s.slq n.toNat).reqPass + 1 else 0 } ∧ (∀ k, k ≠ n.toNat → u.slq k = s.slq k) ∧
        t.valid = true ∧ t.cls = 2 ∧ t.typ = m.typ ∧ t.pa = m.pa ∧ t.sector = sec ∧ t.operand = m.agent ∧ t.lostBy = m.operand ∧
        t.msg = m.msg ∧ (m.typ = 0x3F → t.deadline = s.now + max 1 (s.fld Fld.LIVE_CTL_PROBE_TMO) * 1000) ∧ t.epoch = s.fld Fld.RB_STATUS_ACTIVE ∧ (∀ k, k ≠ tid → u.trkE k = s.trkE k) ∧
        (m.typ ≠ 0x3F ∨ m.msg ≠ none ∨ m.operand ≠ 0 → u.conf = s.conf) ∧
        (∀ cf, m.typ = 0x3F → m.msg = none → m.operand = 0 → SMap.getD (fun _ => none) s.conf m.agent = some cf →
          SMap.getD (fun _ => none) u.conf m.agent = some { cf with
            tids := cf.tids ++ [tid], deadline := s.now + max 1 (s.fld Fld.LIVE_CTL_PROBE_TMO) * 1000 }) ∧
        (m.typ = 0x3F → t.prog = [.snoop .cur .agent, .wait true false]) ∧
        (m.typ = 0x3D → m.operand = 0 → t.prog = censusSteps s m.pa) ∧
        (f.unknown = none → f.look.bad = false → bankPure s (logicOf s n.toNat) (s.fld Fld.RB_STATUS_ACTIVE) = true → m.typ ≠ 0x3F →
          t.uword = encodeCab w ∧ t.way = (seenOf f.look).way ∧
          (m.typ = 0x3C → t.prog = (decideSettle w).prog) ∧
          (m.typ = 0x3E → t.prog = (decideRelease s.decMode (presentState s w s.decMode) (flagsOf s (seenOf f.look) m.agent) w).prog) ∧
          (m.typ = 0x3D → m.operand ≠ 0 → t.prog = (decideReclaim s.decMode (presentState s w s.decMode) (flagsOf s (seenOf f.look) m.agent) w).prog))))) ∧
  (∀ (n : BitVec 7) (s : State), s.dft = false →
    ((∀ e ∈ trkOfSlice s n.toNat, e.2.deadline = 0) → Completes (.censusRepeatTimeout n) s (fun u => u = Begun s)) ∧
    (∀ e t, (trkOfSlice s n.toNat).find? (fun e => e.2.valid && e.2.cls == 2 && e.2.typ == 0x3D && e.2.deadline != 0) = some (e, t) →
      s.trkE (512 * n.toNat + e) = t → Completes (.censusRepeatTimeout n) s (fun u =>
        u = { Begun s with
          sl := u.sl, now := max s.now t.deadline, lehrNow := max s.lehrNow t.deadline
          work := s.work ++ [.trk (512 * n.toNat + e)] } ∧ u.sl = { s.sl with trk := u.sl.trk } ∧
        u.trkE (512 * n.toNat + e) = { t with deadline := 0, step := t.step - 2 } ∧
        ∀ k, k ≠ 512 * n.toNat + e → u.trkE k = s.trkE k)))

/-- R247: what gd receives from each operation of majors 0x01 and 0x02, with PC behind the instruction, the other registers
and all else as they were. popc and clz have no second register. R249, R250: addi; cmp and cmp.x write one predicate, combined
with its old value, and nothing else. -/
def Obligations.AluAndCompareResults : Prop :=
  (∀ (t : BitVec 6) (i : Ins) (s : State), s.dft = false → Issues s t.toNat (insLen i) → i.fn.toNat < 64 →
    (i.ext ≠ none → i.gb = 0) →
    let a := gaV s t.toNat i
    let b := op2 s t.toNat i
    let gd := Returns s t.toNat i.gd.toNat (insLen i)
    Completes (.add t i) s (gd (a + b)) ∧
    Completes (.sub t i) s (gd (a - b)) ∧
    Completes (.and t i) s (gd (a &&& b)) ∧
    Completes (.or t i) s (gd (a ||| b)) ∧
    Completes (.xor t i) s (gd (a ^^^ b)) ∧
    Completes (.shl t i) s (gd (BitVec.ofNat 64 (a.toNat * 2 ^ (b.toNat % 64)))) ∧
    Completes (.shr t i) s (gd (BitVec.ofNat 64 (a.toNat / 2 ^ (b.toNat % 64)))) ∧
    Completes (.sar t i) s (gd (BitVec.ofInt 64 (a.toInt / 2 ^ (b.toNat % 64)))) ∧
    Completes (.mul t i) s (gd (BitVec.ofNat 64 (a.toNat * b.toNat))) ∧
    (i.gb = 0 → Completes (.popc t i) s (gd (BitVec.ofNat 64 (Finset.univ.filter (fun k : Fin 64 => a.getLsbD k)).card))) ∧
    (i.gb = 0 → ∃ n, n ≤ 64 ∧ Completes (.clz t i) s (gd (BitVec.ofNat 64 n)) ∧ a.toNat < 2 ^ (64 - n) ∧
      (n < 64 → 2 ^ (63 - n) ≤ a.toNat)) ∧
    Completes (.min t i) s (gd (BitVec.ofInt 64 (min a.toInt b.toInt))) ∧
    Completes (.max t i) s (gd (BitVec.ofInt 64 (max a.toInt b.toInt))) ∧
    Completes (.minu t i) s (gd (BitVec.ofNat 64 (min a.toNat b.toNat))) ∧
    Completes (.maxu t i) s (gd (BitVec.ofNat 64 (max a.toNat b.toNat))) ∧
    Completes (.hi t i) s (gd (BitVec.ofNat 64 (b.toNat % 2 ^ 32 * 2 ^ 32 + a.toNat % 2 ^ 32)))) ∧
  (∀ (t : BitVec 6) (i : Ins) (s : State), s.dft = false →
    (Issues s t.toNat 4 → i.ext = none → i.gb = 0 →
      Completes (.addi t i) s (Returns s t.toNat i.gd.toNat 4 (gaV s t.toNat i + i.fn.signExtend 64))) ∧
    (i.gd.toNat < 8 → i.fn.toNat < 48 → i.fn.toNat % 16 < 8 →
      let cond := fun (a b : BitVec 64) => match i.fn.toNat % 16 with
        | 0 => decide (a = b) | 1 => decide (a ≠ b) | 2 => decide (a.toInt < b.toInt) | 3 => decide (b.toInt ≤ a.toInt)
        | 4 => decide (a.toNat < b.toNat) | 5 => decide (b.toNat ≤ a.toNat) | 6 => decide (a &&& b ≠ 0)
        | _ => decide (a &&& b = 0)
      let res := fun (r : Bool) => match i.fn.toNat / 16 with
        | 0 => r | 1 => s.pred t.toNat i.gd.toNat && r | _ => s.pred t.toNat i.gd.toNat || r
      let writes := fun (n : Nat) (r : Bool) (u : State) => ThrOnly s u t.toNat ∧
        (∀ k, k < 8 → u.pred t.toNat k = if k = i.gd.toNat then res r else s.pred t.toNat k) ∧
        u.thr t.toNat = { s.thr t.toNat with
          p := (u.thr t.toNat).p, pc := (s.thr t.toNat).pc + BitVec.ofNat 64 n, last := (s.thr t.toNat).pc, fetched := [] }
      (Issues s t.toNat 4 → Completes (.cmp t i) s (writes 4 (cond (gaV s t.toNat i) (gbV s t.toNat i)))) ∧
      (Issues s t.toNat 8 → i.gb = 0 → Completes (.cmpX t i) s
        (writes 8 (cond (gaV s t.toNat i) ((i.ext.getD 0).signExtend 64))))))

/-- R248: ins, ext and exts bit by bit. Field F is bits [pos + w - 1 : pos] of op2's pos and w, cut at bit 63. -/
def Obligations.FieldOperations : Prop :=
  ∀ (t : BitVec 6) (i : Ins) (s : State), s.dft = false → Issues s t.toNat (insLen i) → i.fn.toNat < 64 →
    (i.ext ≠ none → i.gb = 0) →
    let a := gaV s t.toNat i
    let f := (op2 s t.toNat i).toNat
    let old := s.greg t.toNat i.gd.toNat
    let pos := f % 64
    let w := min (f / 256 % 64 + 1) (64 - pos)
    let gd := Returns s t.toNat i.gd.toNat (insLen i)
    (∃ v, Completes (.ins t i) s (gd v) ∧ ∀ k, k < 64 →
      v.getLsbD k = if pos ≤ k ∧ k < pos + w then a.getLsbD (k - pos) else old.getLsbD k) ∧
    (∃ v, Completes (.ext t i) s (gd v) ∧ ∀ k, k < 64 → v.getLsbD k = if k < w then a.getLsbD (pos + k) else false) ∧
    (∃ v, Completes (.exts t i) s (gd v) ∧ ∀ k, k < 64 →
      v.getLsbD k = if k < w then a.getLsbD (pos + k) else a.getLsbD (pos + w - 1))

/-- R253, R254: where b, call, bp and jmpr go and what they link; nothing else changes. -/
def Obligations.BranchTargets : Prop :=
  ∀ (t : BitVec 6) (s : State), s.dft = false → Issues s t.toNat 4 →
    let th := s.thr t.toNat
    let goes := fun (link : Bool) (inTrap : Bool) (pc : BitVec 64) (u : State) => ThrOnly s u t.toNat ∧
      (∀ k, u.greg t.toNat k = if link ∧ k = 31 then th.pc + 4 else s.greg t.toNat k) ∧
      u.thr t.toNat = { th with g := (u.thr t.toNat).g, pc := pc, last := th.pc, fetched := [], inTrap := inTrap }
    (∀ off, Completes (.b t off) s (goes false th.inTrap (th.pc + 4 * off.signExtend 64))) ∧
    (∀ off, Completes (.call t off) s (goes true th.inTrap (th.pc + 4 * off.signExtend 64))) ∧
    (∀ p sense off, Completes (.bp t p sense off) s (goes false th.inTrap
      (if s.pred t.toNat p.toNat = sense then th.pc + 4 * off.signExtend 64 else th.pc + 4))) ∧
    (∀ i : Ins, i.ext = none → i.gd = 0 → i.gb = 0 → i.fn.toNat < 4 → Completes (.jmpr t i) s
      (goes (i.fn.getLsbD 0) (th.inTrap && ! i.fn.getLsbD 1) (gaV s t.toNat i)))

/-- R251, R252: the loads, zero- or sign-extended, from local memory and, for cluster 0, the boot ROM, and st64 to local
memory, which changes one word of it; an address in no window traps ADDR, one that is not a multiple of the access ALIGN
(R275); in the Hutch window the thread waits for the access behind those already there. What rests on a choice or an inference
of the model: log 54, 71. -/
def Obligations.LocalLoadsAndStores : Prop :=
  ∀ (t : BitVec 6) (i : Ins) (s : State), s.dft = false → Issues s t.toNat 4 → i.ext = none →
    let th := s.thr t.toNat
    let a := (gaV s t.toNat i + i.fn.signExtend 64).toNat
    let rom := 0x10000 ≤ a ∧ a < 0x11000 ∧ t.toNat < 4
    let line := a / 64 % 2 ^ 42
    let hutch := a / 2 ^ 48 = 1 ∧ hutMapped s line = true
    let w := if a < 0x10000 then s.lword t.toNat (a / 8) else Config.bootRom (a % 0x1000 / 8)
    let val := fun (n : Nat) => w.toNat / 2 ^ (8 * (a % 8)) % 2 ^ (8 * n)
    let sgn := fun (n : Nat) => if val n < 2 ^ (8 * n - 1) then (val n : Int) else (val n : Int) - 2 ^ (8 * n)
    let gd := Returns s t.toNat i.gd.toNat 4
    let plain := i.gb.toNat < 2 ∧ ((a < 0x10000 ∧ maskOf s .stw t.toNat (a / 8) = 0) ∨ rom)
    let waits := fun (k : HKind) (st : Bool) (u : State) =>
      u = { Begun s with regs := u.regs, frzReq := u.frzReq, stw := u.stw, hutch := u.hutch } ∧ RegsKept s u ∧
      u.stw.lmem = s.stw.lmem ∧ (∀ j, j ≠ t.toNat → u.thr j = s.thr j) ∧
      u.thr t.toNat = { th with last := th.pc, blk := .hutch } ∧ (∀ j, j ≠ t.toNat / 4 → u.hut j = s.hut j) ∧
      u.hut (t.toNat / 4) = { s.hut (t.toNat / 4) with
        q := (s.hut (t.toNat / 4)).q ++ [⟨some t.toNat, 0, hutReq s t.toNat line (k matches .load ..), k, line, st⟩] }
    let busy := (s.hut (t.toNat / 4)).miss ≠ none ∧ (s.hut (t.toNat / 4)).maint = none
    (plain → Completes (.ld8u t i) s (gd (BitVec.ofNat 64 (val 1)))) ∧
    (plain → a % 2 = 0 → Completes (.ld16u t i) s (gd (BitVec.ofNat 64 (val 2)))) ∧
    (plain → a % 4 = 0 → Completes (.ld32u t i) s (gd (BitVec.ofNat 64 (val 4)))) ∧
    (plain → a % 8 = 0 → Completes (.ld64 t i) s (gd w)) ∧
    (plain → Completes (.ld8s t i) s (gd (BitVec.ofInt 64 (sgn 1)))) ∧
    (plain → a % 2 = 0 → Completes (.ld16s t i) s (gd (BitVec.ofInt 64 (sgn 2)))) ∧
    (plain → a % 4 = 0 → Completes (.ld32s t i) s (gd (BitVec.ofInt 64 (sgn 4)))) ∧
    (i.gd = 0 → a < 0x10000 → a % 8 = 0 → s.fld Fld.CL_INJ_ARM (t.toNat / 4) 2 = 0 →
      Completes (.st64 t i) s (fun u =>
        u = { s with tx := [], memTx := [], ptTx := [], regs := u.regs, frzReq := u.frzReq, stw := u.stw, integ := u.integ } ∧
        (∀ k j, j < 8192 → u.lword k j = if k = t.toNat ∧ j = a / 8 then gbV s t.toNat i else s.lword k j) ∧
        maskOf u .stw t.toNat (a / 8) = 0 ∧ RegsKept s u ∧ (∀ k, k ≠ t.toNat → u.thr k = s.thr k) ∧
        u.thr t.toNat = { th with pc := th.pc + 4, last := th.pc, fetched := [] })) ∧
    (i.gb.toNat < 2 →
      let other := fun (c : Instr) (n : Nat) (sg : Bool) =>
        (0x10000 ≤ a → ¬ rom → ¬ hutch → CanHandle s t.toNat → Completes c s (Traps s t.toNat 2 (BitVec.ofNat 64 a))) ∧
        (a < 0x10000 ∨ rom ∨ hutch → a % n ≠ 0 → CanHandle s t.toNat →
          Completes c s (Traps s t.toNat 3 (BitVec.ofNat 64 a))) ∧
        (hutch → a % n = 0 → busy → Completes c s (waits (.load i.gd.toNat n sg (a % 64)) (i.gb.getLsbD 0)))
      other (.ld8u t i) 1 false ∧ other (.ld16u t i) 2 false ∧ other (.ld32u t i) 4 false ∧ other (.ld64 t i) 8 false ∧
      other (.ld8s t i) 1 true ∧ other (.ld16s t i) 2 true ∧ other (.ld32s t i) 4 true) ∧
    (i.gd = 0 →
      (0x10000 ≤ a → ¬ hutch → CanHandle s t.toNat → Completes (.st64 t i) s (Traps s t.toNat 2 (BitVec.ofNat 64 a))) ∧
      (a < 0x10000 ∨ hutch → a % 8 ≠ 0 → CanHandle s t.toNat →
        Completes (.st64 t i) s (Traps s t.toNat 3 (BitVec.ofNat 64 a))) ∧
      (hutch → a % 8 = 0 → busy → Completes (.st64 t i) s (waits (.store (a % 64) (gbV s t.toNat i)) false)))

/-- R276, R277: a trap saves PC, cause and detail and goes to the handler, or, without one or inside one, stops the thread:
for trap (cause SW), for an undefined major opcode and for a reserved field that is not 0 (cause ILLEGAL). R266, R270 to R272:
irq, fence, yield and its end, halt. -/
def Obligations.TrapsAndControl : Prop :=
  (∀ (t : BitVec 6) (s : State), s.dft = false →
    let traps := fun (c : Instr) (cause : Nat) (info : BitVec 64) =>
      (CanHandle s t.toNat → Completes c s (Traps s t.toNat cause info)) ∧
      ((s.thr t.toNat).lockSeq = none → (s.thr t.toNat).tvec = 0 ∨ (s.thr t.toNat).inTrap = true →
        Completes c s (Faults s t.toNat cause info))
    (∀ i : Ins, Issues s t.toNat 4 → i.ext = none → i.gd = 0 → i.ga = 0 → i.gb = 0 →
      traps (.trap t i) 0x0B (i.fn.signExtend 64)) ∧
    (∀ w : BitVec 32, w.toNat / 2 ^ 26 ∈ [0, 6, 7, 0x14, 0x15, 0x16, 0x17, 0x1D, 0x1E, 0x1F, 0x22, 0x23, 0x29, 0x2A, 0x2B,
      0x2E, 0x2F, 0x32, 0x33, 0x34, 0x35, 0x36, 0x37, 0x3E, 0x3F] → Issues s t.toNat 4 →
      traps (.illegalInstruction t w) 1 (w.setWidth 64)) ∧
    (∀ i : Ins, Issues s t.toNat 4 → i.ext = none → i.gb ≠ 0 → traps (.addi t i) 1
      (BitVec.ofNat 64 (3 * 2 ^ 26 + i.gd.toNat * 2 ^ 21 + i.ga.toNat * 2 ^ 16 + i.gb.toNat * 2 ^ 11 + i.fn.toNat)))) ∧
  (∀ (t : BitVec 6) (i : Ins) (s : State), s.dft = false → i.ext = none →
    let th := s.thr t.toNat
    let a := gaV s t.toNat i
    let n := (a + i.fn.signExtend 64).toNat
    (Issues s t.toNat 4 → i.gd = 0 → i.gb = 0 → n < 512 → Completes (.irq t i) s (fun u =>
      u = { Begun s with regs := u.regs, frzReq := u.frzReq, stw := u.stw, irq := u.irq } ∧ RegsKept s u ∧
      (∀ k, k ∈ u.irq.pend ↔ k ∈ s.irq.pend ∨ k = n) ∧ u.irq.prev = s.irq.prev ∧ u.stw.lmem = s.stw.lmem ∧
      (∀ k, k ≠ t.toNat → u.thr k = s.thr k) ∧ u.thr t.toNat = { th with pc := th.pc + 4, last := th.pc, fetched := [] })) ∧
    (Issues s t.toNat 4 → i.gd = 0 → i.gb = 0 → 512 ≤ n → CanHandle s t.toNat →
      Completes (.irq t i) s (Traps s t.toNat 7 (BitVec.ofNat 64 n))) ∧
    (Issues s t.toNat 4 → i.gd = 0 → i.ga = 0 → i.gb = 0 → i.fn = 0 → fenceReady s t.toNat = true →
      Completes (.fence t i) s (Ends s t.toNat 4)) ∧
    (Issues s t.toNat 4 → i.gd = 0 → i.ga = 0 → i.gb = 0 → i.fn = 0 → fenceReady s t.toNat = false →
      Completes (.fence t i) s (fun u => ThrOnly s u t.toNat ∧ u.thr t.toNat = { th with last := th.pc, blk := .fence })) ∧
    (Issues s t.toNat 4 → i.gd = 0 → i.gb = 0 → i.fn.toNat < 2 → th.lockSeq = none → Completes (.yield t i) s (fun u =>
      if a = 0 ∧ i.fn = 0 then Ends s t.toNat 4 u
      else ThrOnly s u t.toNat ∧
        u.thr t.toNat = { th with last := th.pc, run := 2, blk := .yield a.toNat (i.fn == 1) false })) ∧
    (∀ till bg msg, th.blk = .yield till bg msg → th.stopReq = false → Completes (.yieldWake t) s (fun u =>
      let due := msg || thrIrq s t.toNat || (bg && bgOn s (t.toNat / 4)) || (decide (till ≠ 0) && decide (till ≤ s.now))
      let n := if due then s.now else max s.now till
      if due ∨ till ≠ 0 then
        u = { Begun s with now := n, lehrNow := if due then s.lehrNow else max s.lehrNow till, stw := u.stw } ∧
        u.stw.lmem = s.stw.lmem ∧ (∀ k, k ≠ t.toNat → u.thr k = s.thr k) ∧
        u.thr t.toNat = { th with run := 1, blk := .none_, pc := th.pc + 4, fetched := [] }
      else u = Begun s)) ∧
    (Issues s t.toNat 4 → i.gd = 0 → i.ga = 0 → i.gb = 0 → i.fn = 0 → th.lockSeq = none → Completes (.halt t i) s (fun u =>
      u = { Begun s with regs := u.regs, frzReq := u.frzReq, stw := u.stw, sl := u.sl, work := u.work } ∧ RegsKept s u ∧
      u.stw.lmem = s.stw.lmem ∧ (∀ k, k ≠ t.toNat → u.thr k = s.thr k) ∧
      (∀ l ∈ th.locks, l.lost = false → (s.trkE l.tid).valid = true → (s.trkE l.tid).cls = 2 → (s.trkE l.tid).typ = 0 →
        (u.trkE l.tid).ended = true) ∧
      u.thr t.toNat = { th with
        pc := th.pc + 4, last := th.pc, run := 0, pkt := [], stopReq := false, fetched := []
        locks := th.locks.map (fun l => { l with lost := true }) })))

/-- R265: nqput fills the packet buffer and commits it with END; a ninth record traps and discards the buffer. R261, R262:
msend to a slice and to a thread, mwait and its timeout. -/
def Obligations.PacketsAndMessages : Prop :=
  (∀ (t : BitVec 6) (i : Ins) (s : State), s.dft = false → i.ext = none → Issues s t.toNat 4 →
    i.ga.toNat % 2 = 0 → i.gd = 0 → i.gb = 0 → i.fn.toNat < 2 →
    let th := s.thr t.toNat
    let e := i.fn.toNat
    let w : BitVec 128 := BitVec.ofNat 128 ((s.greg t.toNat i.ga.toNat).toNat +
      (s.greg t.toNat (i.ga.toNat + 1)).toNat % 2 ^ 63 * 2 ^ 64 + e * 2 ^ 127)
    (th.pkt.length < 8 → e = 0 → Completes (.nqput t i) s (fun u => ThrOnly s u t.toNat ∧
      u.thr t.toNat = { th with pkt := th.pkt ++ [w], pc := th.pc + 4, last := th.pc, fetched := [] })) ∧
    (th.pkt.length < 8 → e = 1 → SMap.getD (fun _ => []) s.nq.readyThr t.toNat = [] → Completes (.nqput t i) s (fun u =>
      u = { Begun s with regs := u.regs, frzReq := u.frzReq, stw := u.stw, nq := { s.nq with readyThr := u.nq.readyThr } } ∧
      RegsKept s u ∧ u.stw.lmem = s.stw.lmem ∧ (∀ k, k ≠ t.toNat → u.thr k = s.thr k) ∧
      (∀ k, SMap.getD (fun _ => []) u.nq.readyThr k =
        if k = t.toNat then th.pkt ++ [w] else SMap.getD (fun _ => []) s.nq.readyThr k) ∧
      u.thr t.toNat = { th with pkt := [], pc := th.pc + 4, last := th.pc, fetched := [] })) ∧
    (8 ≤ th.pkt.length → CanHandle s t.toNat → Completes (.nqput t i) s (fun u => ThrOnly s u t.toNat ∧
      u.thr t.toNat = { th with
        pkt := [], pc := th.tvec, last := th.pc, epc := th.pc, tcause := 9, tinfo := 0, inTrap := true, fetched := [] }))) ∧
  (∀ (t : BitVec 6) (i : Ins) (s : State), s.dft = false → i.ext = none →
    let th := s.thr t.toNat
    let a := gaV s t.toNat i
    let b := (gbV s t.toNat i).toNat
    let typ := i.fn.toNat % 64
    let line := a.toNat / 64
    let n := sliceOf line
    let ended := { th with pc := th.pc + 4, last := th.pc, fetched := [] }
    (Issues s t.toNat 4 → i.gd = 0 → i.fn.toNat < 64 → 0x3C ≤ typ → a.toNat < 2 ^ 48 → homed s line = true → th.credits < 16 →
      Completes (.msend t i) s (fun u =>
        u = { Begun s with regs := u.regs, frzReq := u.frzReq, stw := u.stw, sl := u.sl } ∧ RegsKept s u ∧
        u.stw.lmem = s.stw.lmem ∧ (∀ k, k ≠ t.toNat → u.thr k = s.thr k) ∧
        u.thr t.toNat = { ended with credits := th.credits + 1 } ∧ (∀ k, k ≠ n → u.slq k = s.slq k) ∧
        u.slq n = { s.slq n with wdog := (u.slq n).wdog, mntQ := (s.slq n).mntQ ++ [⟨typ, line, b % 2 ^ 16, b / 2 ^ 16 % 2 ^ 8,
          typ == 0x3D && b / 2 ^ 16 % 2 ^ 8 == 0, some (t.toNat, b / 2 ^ 24 % 2 ^ 16)⟩] })) ∧
    (Issues s t.toNat 4 → i.fn.toNat < 64 → a.toNat < 2 ^ 48 → homed s line = true → 0x3C ≤ typ → 16 ≤ th.credits →
      Completes (.msend t i) s (Returns s t.toNat i.gd.toNat 4 1)) ∧
    (Issues s t.toNat 4 → i.fn.toNat < 64 → 2 ^ 48 ≤ a.toNat ∨ homed s line = false ∨ typ < 0x3C →
      Completes (.msend t i) s (Returns s t.toNat i.gd.toNat 4 3)) ∧
    (Issues s t.toNat 4 → i.fn = 64 → a.toNat < 64 → a.toNat ≠ t.toNat → stwFailed s (a.toNat / 4) = false →
      ((s.thr a.toNat).inbox.filter (fun m => m.kind == 2)).length < 8 → (∀ x y z, (s.thr a.toNat).blk ≠ .yield x y z) →
      Completes (.msend t i) s (fun u => StwOnly s u ∧ u.stw.lmem = s.stw.lmem ∧
        u.thr a.toNat = { s.thr a.toNat with inbox := (s.thr a.toNat).inbox ++
          [⟨BitVec.ofNat 64 (2 * 2 ^ 22 + t.toNat * 2 ^ 32), gbV s t.toNat i⟩] } ∧
        (∀ k, k ≠ t.toNat → k ≠ a.toNat → u.thr k = s.thr k) ∧
        u.thr t.toNat = { ended with g := (u.thr t.toNat).g } ∧
        ∀ k, u.greg t.toNat k = if k = i.gd.toNat then 0 else s.greg t.toNat k)) ∧
    (Issues s t.toNat 4 → i.gd.toNat % 2 = 0 → i.gd ≠ 0 → i.gb = 0 → i.fn.toNat < 8 → th.lockSeq = none →
      (∀ m l, th.inbox = m :: l → Completes (.mwait t i) s (fun u => ThrOnly s u t.toNat ∧
        u.thr t.toNat = { ended with
          g := (u.thr t.toNat).g, p := (u.thr t.toNat).p, inbox := l
          credits := if m.kind = 2 then th.credits else th.credits - 1 } ∧
        (∀ k, u.greg t.toNat k =
          if k = i.gd.toNat then m.lo else if k = i.gd.toNat + 1 then m.hi else s.greg t.toNat k) ∧
        ∀ k, k < 8 → u.pred t.toNat k = (decide (k = i.fn.toNat) || s.pred t.toNat k))) ∧
      (th.inbox = [] → a = 0 → Completes (.mwait t i) s (fun u => ThrOnly s u t.toNat ∧
        u.thr t.toNat = { ended with p := (u.thr t.toNat).p } ∧
        ∀ k, k < 8 → u.pred t.toNat k = (decide (k ≠ i.fn.toNat) && s.pred t.toNat k))) ∧
      (th.inbox = [] → a ≠ 0 → Completes (.mwait t i) s (fun u => ThrOnly s u t.toNat ∧
        u.thr t.toNat = { th with last := th.pc, blk := .mwait i.gd.toNat i.fn.toNat (a == BitVec.allOnes 64) (s.now + a.toNat) }))) ∧
    (∀ gd pd dl, pd < 8 → th.blk = .mwait gd pd false dl → th.inbox = [] → th.stopReq = false →
      Completes (.mwaitTimeout t) s (fun u =>
        u = { Begun s with now := max s.now dl, lehrNow := max s.lehrNow (max s.now dl), stw := u.stw } ∧
        u.stw.lmem = s.stw.lmem ∧ (∀ k, k ≠ t.toNat → u.thr k = s.thr k) ∧
        u.thr t.toNat = { th with p := (u.thr t.toNat).p, pc := th.pc + 4, blk := .none_, fetched := [] } ∧
        ∀ k, k < 8 → u.pred t.toNat k = (decide (k ≠ pd) && s.pred t.toNat k))))

/-- R267 to R269: cr and cw. A thread control register reads and writes as R269 lists it, a window offset as the register
window answers it, any other address traps CR_ADDR, a window offset that is not a multiple of 4 traps ALIGN. -/
def Obligations.ControlRegisters : Prop :=
  ∀ (t : BitVec 6) (i : Ins) (s : State), s.dft = false → Issues s t.toNat 8 → i.fn = 0 →
    let th := s.thr t.toNat
    let e := ((gaV s t.toNat i).toNat + (i.ext.getD 0).toNat) % 2 ^ 32
    let gd := Returns s t.toNat i.gd.toNat 8
    let after := fun (th' : Thread) (u : State) => ThrOnly s u t.toNat ∧
      u.thr t.toNat = { th' with pc := th.pc + 8, last := th.pc, fetched := [] }
    let bad := fun (c : Instr) (cause : Nat) => CanHandle s t.toNat → Completes c s (Traps s t.toNat cause (BitVec.ofNat 64 e))
    (i.gb = 0 →
      (e = 0x80000000 → Completes (.cr t i) s (gd (tstatus s t.toNat))) ∧
      (e = 0x80000001 → Completes (.cr t i) s (gd (BitVec.ofNat 64 s.now))) ∧
      (e = 0x80000002 → Completes (.cr t i) s (gd th.tvec)) ∧
      (e = 0x80000003 → Completes (.cr t i) s (gd th.epc)) ∧
      (e = 0x80000004 → Completes (.cr t i) s (gd (BitVec.ofNat 64 th.tcause))) ∧
      (e = 0x80000005 → Completes (.cr t i) s (gd th.tinfo)) ∧
      (e = 0x80000006 → Completes (.cr t i) s (gd th.blkTmo)) ∧
      (0x80000006 < e ∨ (0x1000000 ≤ e ∧ e < 0x80000000) → bad (.cr t i) 7) ∧
      (e < 0x1000000 → e % 4 ≠ 0 → bad (.cr t i) 3)) ∧
    (i.gd = 0 →
      let v := gbV s t.toNat i
      (e = 0x80000000 ∨ e = 0x80000001 ∨ e = 0x80000004 ∨ e = 0x80000005 → Completes (.cw t i) s (after th)) ∧
      (e = 0x80000002 → Completes (.cw t i) s (after { th with tvec := v })) ∧
      (e = 0x80000003 → Completes (.cw t i) s (after { th with epc := v })) ∧
      (e = 0x80000006 → Completes (.cw t i) s (after { th with blkTmo := v })) ∧
      (0x80000006 < e ∨ (0x1000000 ≤ e ∧ e < 0x80000000) → bad (.cw t i) 7) ∧
      (e < 0x1000000 → e % 4 ≠ 0 → bad (.cw t i) 3)) ∧
    (i.gb = 0 → e < 0x1000000 → e % 4 = 0 → Completes (.cr t i) s (fun u =>
      ∃ b, StwOnly s b ∧ ThrOnly s b t.toNat ∧ b.thr t.toNat = { th with last := th.pc } ∧
        u = retGd (regRead b (some t.toNat) e).1 t.toNat (twoWord i) ((regRead b (some t.toNat) e).2.setWidth 64))) ∧
    (i.gd = 0 → e < 0x1000000 → e % 4 = 0 → Completes (.cw t i) s (fun u =>
      ∃ b, StwOnly s b ∧ ThrOnly s b t.toNat ∧ b.thr t.toNat = { th with last := th.pc } ∧
        u = advance (regWrite b (some t.toNat) e ((gbV s t.toNat i).setWidth 32)) t.toNat 8))

/-- R263, R264, R269: mrd, mwr and mpoison hand one operation to the arbiters of the line's ports and block, counted in a
locked sequence; a PA that no entry of the address map names returns NOTHOME; a PA or a local address that is not a multiple
of 64 traps ALIGN. -/
def Obligations.MemoryInstructions : Prop :=
  ∀ (t : BitVec 6) (i : Ins) (s : State), s.dft = false → i.ext = none → i.fn = 0 → Issues s t.toNat 4 →
    let th := s.thr t.toNat
    let a := (gaV s t.toNat i).toNat
    let b := (gbV s t.toNat i).toNat
    let line := a / 64
    let port := if mpState s (portsOf s line).1 = 2 then (portsOf s line).2.1.getD (portsOf s line).1 else (portsOf s line).1
    (∀ ps n, th.lockSeq = some (ps, n) → n < 8 ∧ (a < 2 ^ 48 → hutMapped s line = true → port ∈ ps)) →
    let id := s.mem.nextId
    let gd := Returns s t.toNat i.gd.toNat 4
    let limit := if th.blkTmo = 0 then 0 else s.now + th.blkTmo.toNat
    let blocks := fun (kind loc op : Nat) (data : Line) (ports : List Nat) (u : State) =>
      u.thr t.toNat = { th with
        last := th.pc, blk := .mem kind i.gd.toNat (line * 64) loc false id limit
        lockSeq := th.lockSeq.map (fun x => (x.1, x.2 + 1)) } ∧
      (∀ k, k ≠ t.toNat → u.thr k = s.thr k) ∧ u.stw.lmem = s.stw.lmem ∧ u.cab = s.cab ∧ RegsKept s u ∧
      opOf u id = some ⟨op, .thread t.toNat id, line, (portsOf s line).2.2, data,
        if op = 1 then BitVec.allOnes 64 else 0, false, t.toNat / 4, ports⟩ ∧
      (∀ p, (u.mport p).wait = (s.mport p).wait ++ if p ∈ ports then [id] else []) ∧ u.mem.nextId = id + 1
    let words := (List.range 8).foldl (fun l k => l ||| (((s.lword t.toNat (b / 8 + k)).setWidth 512) <<< (64 * k))) (0 : Line)
    (a % 64 = 0 → a < 2 ^ 48 → hutMapped s line = true →
      (∀ p, b % 64 = 0 → b < 0x10000 → readPort s line = some p →
        Completes (.mrd t i) s (blocks 0 (b / 8) 0 0 [p])) ∧
      (b % 64 = 0 → b < 0x10000 → writePorts s line ≠ [] → (writePorts s line).Nodup → (∀ k, k < 8 → maskOf s .stw t.toNat (b / 8 + k) = 0) →
        Completes (.mwr t i) s (blocks 1 0 1 words (writePorts s line))) ∧
      (i.gb = 0 → writePorts s line ≠ [] → (writePorts s line).Nodup →
        Completes (.mpoison t i) s (blocks 2 0 3 0 (writePorts s line)))) ∧
    (a % 64 = 0 → 2 ^ 48 ≤ a ∨ hutMapped s line = false →
      (b % 64 = 0 → b < 0x10000 → Completes (.mrd t i) s (gd 3) ∧ Completes (.mwr t i) s (gd 3)) ∧
      (i.gb = 0 → Completes (.mpoison t i) s (gd 3))) ∧
    (CanHandle s t.toNat →
      (a % 64 ≠ 0 → Completes (.mrd t i) s (Traps s t.toNat 3 (gaV s t.toNat i)) ∧
        Completes (.mwr t i) s (Traps s t.toNat 3 (gaV s t.toNat i))) ∧
      (a % 64 = 0 → b % 64 ≠ 0 → Completes (.mrd t i) s (Traps s t.toNat 3 (gbV s t.toNat i)) ∧
        Completes (.mwr t i) s (Traps s t.toNat 3 (gbV s t.toNat i))) ∧
      (a % 64 = 0 → b % 64 = 0 → 0x10000 ≤ b → Completes (.mrd t i) s (Traps s t.toNat 2 (gbV s t.toNat i)) ∧
        Completes (.mwr t i) s (Traps s t.toNat 2 (gbV s t.toNat i))))

/-- R264, R348: mlock sends LOCK to the lower of the line's ports that has not failed and blocks; munlock closes the sequence
and sends UNLOCK to each of its ports; the instructions that may not stand in a sequence, and munlock without one, trap
LOCK_SEQ, which closes it too. R257, R263: BLK_TMO ends a dlock with TIMEOUT and a memory operation with its trap. -/
def Obligations.LockedSequences : Prop :=
  ∀ (t : BitVec 6) (i : Ins) (s : State), s.dft = false →
    let th := s.thr t.toNat
    let a := (gaV s t.toNat i).toNat
    let of := portsOf s (a / 64 % 2 ^ 42)
    let live := (match of.2.1 with
      | some q => [min of.1 q, max of.1 q]
      | none => [of.1]).filter (fun x => decide (mpState s x ≠ 2))
    let id := s.mem.nextId
    let limit := if th.blkTmo = 0 then 0 else s.now + th.blkTmo.toNat
    let sent := fun (u : State) (kind : Nat) (ps : List Nat) => u.mem.nextId = id + ps.length ∧
      (∀ k p, ps[k]? = some p → opOf u (id + k) = some ⟨kind, .lock t.toNat (id + k), p, 0, 0, 0, false, t.toNat / 4, [p]⟩ ∧
        (u.mport p).wait = (s.mport p).wait ++ [id + k]) ∧
      (∀ p, p ∉ ps → u.mport p = s.mport p) ∧ u.cab = s.cab ∧ u.stw.lmem = s.stw.lmem ∧ RegsKept s u ∧
      ∀ k, k ≠ t.toNat → u.thr k = s.thr k
    (Issues s t.toNat 4 → i.ext = none → i.gb = 0 → i.fn = 0 →
      (∀ p rest, live = p :: rest → th.lockSeq = none →
        Completes (.mlock t i) s (fun u => sent u 4 [p] ∧
          u.thr t.toNat = { th with last := th.pc, blk := .mlock i.gd.toNat rest [] a id limit })) ∧
      (live = [] → th.lockSeq = none → th.stopReq = false → Completes (.mlock t i) s (fun u => ThrOnly s u t.toNat ∧
        (∀ k, u.greg t.toNat k = if k = i.gd.toNat then 0 else s.greg t.toNat k) ∧
        u.thr t.toNat = { th with
          g := (u.thr t.toNat).g, pc := th.pc + 4, last := th.pc, lockSeq := some ([], 0), fetched := [] })) ∧
      (i.ga = 0 →
        (∀ ps n, th.lockSeq = some (ps, n) → ps.Nodup → Completes (.munlock t i) s (fun u => sent u 5 ps ∧
          (∀ k, u.greg t.toNat k = if k = i.gd.toNat then 0 else s.greg t.toNat k) ∧
          u.thr t.toNat = { th with g := (u.thr t.toNat).g, pc := th.pc + 4, last := th.pc, lockSeq := none, fetched := [] })) ∧
        (CanHandle s t.toNat → Completes (.munlock t i) s (Traps s t.toNat 8 0)))) ∧
    (∀ ps n, Issues s t.toNat 4 → i.ext = none → th.lockSeq = some (ps, n) → ps.Nodup → th.tvec ≠ 0 → th.inTrap = false →
      th.stopReq = false → i.gb = 0 → i.fn = 0 → i.gd = 0 → i.ga = 0 →
      ∀ c ∈ [Instr.mwait t i, .yield t i, .halt t i, .mlock t i, .dlock t i, .devict t i], Completes c s (fun u =>
        sent u 5 ps ∧ u.thr t.toNat = { th with
          pc := th.tvec, last := th.pc, epc := th.pc, tcause := 8, tinfo := 0, inTrap := true, lockSeq := none, fetched := [] })) ∧
    (∀ gd pa sec dl, th.blk = .dlock gd pa sec dl → dl ≠ 0 → th.stopReq = false → Completes (.blkTmoExpiry t) s (fun u =>
      u = { Begun s with now := max s.now dl, lehrNow := max s.lehrNow (max s.now dl), stw := u.stw, sl := u.sl } ∧
      (∀ k, u.greg t.toNat k = if k = gd ∧ k ≠ 0 then 7 else s.greg t.toNat k) ∧
      u.stw.lmem = s.stw.lmem ∧ (∀ k, k ≠ t.toNat → u.thr k = s.thr k) ∧ u.sl = { s.sl with sl := u.sl.sl } ∧
      (∀ n, u.slq n = { s.slq n with mntQ := (s.slq n).mntQ.filter (fun m => ! (m.typ == 0 && m.agent == t.toNat)) }) ∧
      u.thr t.toNat = { th with g := (u.thr t.toNat).g, pc := th.pc + 4, blk := .none_, fetched := [] })) ∧
    (let late := fun (pa op dl kind : Nat) (held : List Nat) => dl ≠ 0 → th.lockSeq = none → held.Nodup →
      (th.tvec ≠ 0 → th.inTrap = false → th.stopReq = false →
        Completes (.blkTmoExpiry t) s (fun u => u.now = max s.now dl ∧ sent u 5 held ∧ u.thr t.toNat = { th with
          pc := th.tvec, epc := th.pc, tcause := 6, tinfo := BitVec.ofNat 64 pa, inTrap := true, blk := .none_, fetched := []
          late := th.late ++ [(op, kind)] })) ∧
      (th.tvec = 0 ∨ th.inTrap = true → Completes (.blkTmoExpiry t) s (fun u => u.now = max s.now dl ∧
        Faults s t.toNat 6 (BitVec.ofNat 64 pa) u))
     (∀ kind gd pa loc ue op dl, th.blk = .mem kind gd pa loc ue op dl → late pa op dl kind []) ∧
     (∀ gd left held pa op dl, th.blk = .mlock gd left held pa op dl → late pa op dl 3 held)) ∧
    ((match th.blk with | .dlock _ _ _ dl | .mem _ _ _ _ _ _ dl | .mlock _ _ _ _ _ dl => dl == 0 | _ => true) = true →
      Completes (.blkTmoExpiry t) s (fun u => u = Begun s))

/-- R256: dlook returns a word of the Cabinet with its five marks, here for words without a stored error. R258, R259: dput
writes a word where every check passes and else returns the code of the first check that fails, or, with PAGE = 1, empties the
page or the set; devict starts a directory eviction. -/
def Obligations.DirectoryWords : Prop :=
  (∀ (t : BitVec 6) (i : Ins) (s : State), s.dft = false → i.ext = none → Issues s t.toNat 4 →
    i.gd.toNat % 2 = 0 → i.gd ≠ 0 → i.gb = 0 →
    let th := s.thr t.toNat
    let a := (gaV s t.toNat i).toNat
    let good := fun (d w : Nat) => maskOf s (placeOf s d w).1 d (placeOf s d w).2 = 0
    let gives := fun (d set way v : Nat) (c : CabW) (u : State) => ThrOnly s u t.toNat ∧
      u.thr t.toNat = { th with g := (u.thr t.toNat).g, pc := th.pc + 4, last := th.pc, fetched := [] } ∧
      ∀ k, u.greg t.toNat k = if k = i.gd.toNat then BitVec.ofNat 64 v
        else if k = i.gd.toNat + 1 then BitVec.ofNat 64 (v / 2 ^ 64 % 2 ^ 56 + b2n (c.grain ≠ 0) * 2 ^ 56 +
          b2n (inBlindTable s d set) * 2 ^ 58 + b2n (pinned s d set (way, v)) * 2 ^ 59 + way * 2 ^ 60)
        else s.greg t.toNat k
    (i.fn = 0 → a < 2 ^ 23 → ∀ d set way, d = a / 65536 → set = a / 16 % 4096 → way = a % 16 → good d (set * 16 + way) →
      Completes (.dlook t i) s (gives d set way (drawerW s d (set * 16 + way)) (decodeCab (drawerW s d (set * 16 + way))))) ∧
    (i.fn = 0 → 2 ^ 23 ≤ a → CanHandle s t.toNat → Completes (.dlook t i) s (Traps s t.toNat 0x0A (gaV s t.toNat i))) ∧
    (i.fn = 1 → ∀ d set line, line = a / 64 % 2 ^ 42 → d = sliceOf line → set = setOf line →
      (∀ w, w < 16 → good d (set * 16 + w)) →
      let k := lookIn (peekSet s d set) line
      (∀ way c, (k.fine.orElse (fun _ => k.line)).orElse (fun _ => k.sector) = some (way, c) →
        Completes (.dlook t i) s (gives d set way (drawerW s d (set * 16 + way)) c)) ∧
      (k.fine = none → k.line = none → k.sector = none → Completes (.dlook t i) s (gives d set 0 0 cabEmpty)))) ∧
  (∀ (t : BitVec 6) (i : Ins) (s : State), s.dft = false → i.ext = none → Issues s t.toNat 4 →
    let th := s.thr t.toNat
    let a := (gaV s t.toNat i).toNat
    let d := a / 65536
    let set := a / 16 % 4096
    let way := a % 16
    let w := set * 16 + way
    let old := decodeCab (drawerW s d w)
    let hi := (s.greg t.toNat (i.gb.toNat + 1)).toNat
    let v := (gbV s t.toNat i).toNat + hi * 2 ^ 64
    let c := decodeCab v
    let gd := Returns s t.toNat i.gd.toNat 4
    let ok4 := cabOk v = true ∧ (c.state = 2 → ∃ f, c.named = some f ∧ bit1 (s.shAgt f) 3 = true) ∧ setOk ((peekSet s d set).map (fun e => if e.1 = way then (e.1, v) else e)) = true
    let lock := (wordLock s t.toNat set c).2
    let locked := (wordLock s t.toNat set old).1 = true ∧ (wordLock s t.toNat set c).1 = true
    (i.gb.toNat % 2 = 0 → i.gb ≠ 0 → i.fn = 0 → a < 2 ^ 23 →
      (2 ^ 56 ≤ hi → Completes (.dput t i) s (gd 1)) ∧
      (hi < 2 ^ 56 → inBlindTable s d set = true → Completes (.dput t i) s (gd 5)) ∧
      (hi < 2 ^ 56 → inBlindTable s d set = false → (s.drq d).retired.contains w = true → Completes (.dput t i) s (gd 4)) ∧
      (hi < 2 ^ 56 → inBlindTable s d set = false → (s.drq d).retired.contains w = false →
        (¬ locked → Completes (.dput t i) s (gd 2)) ∧
        (locked → ¬ ok4 → Completes (.dput t i) s (gd 1)) ∧
        (locked → ok4 → c.state = 4 → modeO (match lock with | some k => k.mode | none => 0) = false →
          Completes (.dput t i) s (gd 1)) ∧
        (locked → ok4 → (c.state = 4 → modeO (match lock with | some k => k.mode | none => 0) = true) →
           maskOf s (placeOf s d w).1 d (placeOf s d w).2 = 0 → spareOf s d w = none →
          s.fld Fld.SI_INJ_ARM d = 0 → Completes (.dput t i) s (fun u =>
            u = { Begun s with regs := u.regs, frzReq := u.frzReq, stw := u.stw, cab := u.cab, integ := u.integ } ∧
            RegsKept s u ∧ u.stw.lmem = s.stw.lmem ∧ (∀ k, k ≠ t.toNat → u.thr k = s.thr k) ∧
            (∀ k, u.greg t.toNat k = if k = i.gd.toNat then 0 else s.greg t.toNat k) ∧
            drawerW u d w = (if c.grain = 0 then 0
              else if c.state = 2 ∧ modeF (match lock with | some k => k.mode | none => 0) = false
              then (encodeCab { c with state := 1, fwd := 0 }).toNat else (encodeCab c).toNat) ∧ u.cab.spare = s.cab.spare ∧
            (∀ k, k ≠ d * 65536 + w → SMap.getD (fun _ => (0 : BitVec 120)) u.cab.words k = SMap.getD (fun _ => 0) s.cab.words k) ∧
            maskOf u .drawer d w = 0)))) ∧
    (i.gb.toNat % 2 = 0 → i.fn = 1 → a < 2 ^ 23 →
      let isBlind := fun (x : Nat) => ∃ b ∈ (s.drq d).blind, b.2.state = 1 ∧ b.2.set = x
      let page := (isBlind (set / 2 * 2) ∧ isBlind (set / 2 * 2 + 1)) ∨ (s.drq d).blindAll = true
      let format := ∃ b ∈ (s.drq d).blind, b.2.state = 1 ∧ b.2.set = set ∧ b.2.cause = 1
      let emptied := fun (lo n : Nat) (u : State) =>
        u = { Begun s with regs := u.regs, frzReq := u.frzReq, stw := u.stw, cab := u.cab, integ := u.integ } ∧ RegsKept s u ∧
        u.stw.lmem = s.stw.lmem ∧ (∀ k, k ≠ t.toNat → u.thr k = s.thr k) ∧
        (∀ k, u.greg t.toNat k = if k = i.gd.toNat then 0 else s.greg t.toNat k) ∧ (∀ k, k < n → drawerW u d (lo + k) = 0) ∧
        (∀ k, k < 65536 → k < lo ∨ lo + n ≤ k → drawerW u d k = drawerW s d k) ∧
        ∀ k, (u.drq k).retired = (s.drq k).retired
      (Intact s → page → Completes (.dput t i) s (emptied (set / 2 * 32) 32)) ∧
      (Intact s → ¬ page → format → Completes (.dput t i) s (emptied (set * 16) 16)) ∧
      (¬ page → ¬ format → Completes (.dput t i) s (gd 6))) ∧
    (i.fn = 0 → th.lockSeq = none → a < 2 ^ 23 →
      (inBlindTable s d set = true → Completes (.devict t i) s (gd 5)) ∧
      (inBlindTable s d set = false → old.grain = 0 → Completes (.devict t i) s (gd 12)) ∧
      (inBlindTable s d set = false → old.grain ≠ 0 → pinned s d set (way, drawerW s d w) = true → Completes (.devict t i) s (gd 13)) ∧
      (inBlindTable s d set = false → old.grain ≠ 0 → pinned s d set (way, drawerW s d w) = false →
        (16 ≤ th.credits → Completes (.devict t i) s (gd 14)) ∧
        (th.credits < 16 → Completes (.devict t i) s (fun u =>
          u = { Begun s with regs := u.regs, frzReq := u.frzReq, stw := u.stw, sl := u.sl } ∧ RegsKept s u ∧
          u.stw.lmem = s.stw.lmem ∧ (∀ k, k ≠ t.toNat → u.thr k = s.thr k) ∧
          (∀ k, u.greg t.toNat k = if k = i.gd.toNat then 0 else s.greg t.toNat k) ∧
          u.thr t.toNat = { th with
            g := (u.thr t.toNat).g, credits := th.credits + 1, pc := th.pc + 4, last := th.pc, fetched := [] } ∧
          (∀ k, k ≠ d → u.slq k = s.slq k) ∧ u.slq d = { s.slq d with
            wdog := (u.slq d).wdog, pins := (s.slq d).pins ++ [(set, way)]
            evQ := (s.slq d).evQ ++ [⟨set, way, none, some (t.toNat, (gbV s t.toNat i).toNat % 65536)⟩] })))) ∧
    (i.fn = 0 → th.lockSeq = none → 2 ^ 23 ≤ a → CanHandle s t.toNat →
      Completes (.devict t i) s (Traps s t.toNat 0x0A (gaV s t.toNat i)) ∧
      (i.gb.toNat % 2 = 0 → Completes (.dput t i) s (Traps s t.toNat 0x0A (gaV s t.toNat i)))))

/-- R257, R259: dlock asks the line's slice for a maintenance entry and blocks; DLOCK_GRANT allocates it and gives the lock;
dunlock retires the entry. What rests on a choice or an inference of the model: log 93. -/
def Obligations.DirectoryLocks : Prop :=
  ∀ (t : BitVec 6) (i : Ins) (s : State), s.dft = false →
    let th := s.thr t.toNat
    let a := (gaV s t.toNat i).toNat
    let line := a / 64
    let sec := i.fn.getLsbD 0
    let gd := Returns s t.toNat i.gd.toNat 4
    let away := 2 ^ 48 ≤ a ∨ homed s line = false
    let live := th.locks.filter (fun l => ! l.lost)
    (Issues s t.toNat 4 → i.ext = none → i.gb = 0 → i.fn.toNat < 2 →
      (th.lockSeq = none →
        (away → Completes (.dlock t i) s (gd 10)) ∧
        (¬ away → (∃ l, heldLock s t.toNat line sec = some l ∧ l.lost = false) → Completes (.dlock t i) s (gd 8)) ∧
        (¬ away → (∀ l, heldLock s t.toNat line sec = some l → l.lost = true) →
          (4 ≤ live.length → Completes (.dlock t i) s (gd 9)) ∧
          (live.length < 4 → Completes (.dlock t i) s (fun u =>
            u = { Begun s with regs := u.regs, frzReq := u.frzReq, stw := u.stw, sl := u.sl } ∧ RegsKept s u ∧
            u.stw.lmem = s.stw.lmem ∧ (∀ k, k ≠ t.toNat → u.thr k = s.thr k) ∧
            (∀ k, k ≠ sliceOf line → u.slq k = s.slq k) ∧
            u.slq (sliceOf line) = { s.slq (sliceOf line) with
              wdog := (u.slq (sliceOf line)).wdog
              mntQ := (s.slq (sliceOf line)).mntQ ++ [⟨0, line, t.toNat, 0, sec, some (t.toNat, 0)⟩] } ∧
            u.thr t.toNat = { th with
              last := th.pc
              blk := .dlock i.gd.toNat line sec (if th.blkTmo = 0 then 0 else s.now + th.blkTmo.toNat) })))) ∧
      (away → Completes (.dunlock t i) s (gd 10)) ∧
      (¬ away → heldLock s t.toNat line sec = none → Completes (.dunlock t i) s (gd 11)) ∧
      (∀ l, ¬ away → heldLock s t.toNat line sec = some l → Completes (.dunlock t i) s (fun u =>
        u = { Begun s with regs := u.regs, frzReq := u.frzReq, stw := u.stw, sl := u.sl, work := u.work } ∧ RegsKept s u ∧
        u.stw.lmem = s.stw.lmem ∧ (∀ k, k ≠ t.toNat → u.thr k = s.thr k) ∧
        u.thr t.toNat = { th with
          g := (u.thr t.toNat).g, locks := th.locks.erase l, pc := th.pc + 4, last := th.pc, fetched := [] } ∧
        let lost := l.lost = true ∨ (s.trkE l.tid).valid = false
        (∀ k, u.greg t.toNat k = if k = i.gd.toNat ∧ k ≠ 0 then (if lost then 3 else 0) else s.greg t.toNat k) ∧
        (¬ lost → (s.trkE l.tid).cls = 2 → (s.trkE l.tid).typ = 0 → u.trkE l.tid = { s.trkE l.tid with ended := true })))) ∧
    (∀ (n : BitVec 7) (pa gdn dl e : Nat) (sector : Bool) (rest : List MntMsg),
      (s.slq n.toNat).mntQ = ⟨0, pa, t.toNat, 0, sector, some (t.toNat, 0)⟩ :: rest → th.blk = .dlock gdn pa sector dl →
      th.stopReq = false → sliceIssues s n.toNat = true → mayIssue s n.toNat 4 = true → blocker s pa sector none = none →
      allocEntry s n.toNat 2 = some e → Completes (.dlockGrant n) s (fun u =>
        let en := u.trkE (n.toNat * 512 + e)
        en.valid = true ∧ en.cls = 2 ∧ en.typ = 0 ∧ en.pa = pa ∧ en.sector = sector ∧ en.tstate = 8 ∧ en.agent = t.toNat ∧
        (u.slq n.toNat).mntQ = rest ∧ (∀ k, k ≠ t.toNat → u.thr k = s.thr k) ∧ u.stw.lmem = s.stw.lmem ∧ u.cab = s.cab ∧
        (∀ k, u.greg t.toNat k = if k = gdn then 0 else s.greg t.toNat k) ∧
        (∃ m, (u.thr t.toNat).locks = th.locks.filter (fun l => ! (l.lost && l.pa == pa && l.sector == sector)) ++
          [⟨n.toNat * 512 + e, pa, sector, m, false⟩]) ∧
        u.thr t.toNat = { th with
          g := (u.thr t.toNat).g, locks := (u.thr t.toNat).locks, pc := th.pc + 4, blk := .none_, fetched := [] }))

/-- R278, R279, R298, R299: rload writes a word of the inactive bank, waits, in the order of issue, while entries of the old
epoch remain, and traps RLOAD on an index outside the bank; rswap blocks its thread until the swap has run, which exchanges
the banks and their profiles, or returns EPOCH_BUSY; during a swap both return SWAPPING. What rests on a choice or an
inference of the model: log 55. -/
def Obligations.RuleLoading : Prop :=
  ∀ (t : BitVec 6) (i : Ins) (s : State), s.dft = false → (∀ c, c < 16 → s.fld Fld.CL_INJ_ARM c 4 = 0) →
    let th := s.thr t.toNat
    let a := (gaV s t.toNat i).toNat
    let b := 1 - activeBank s
    let k := if a < 4096 then a else 1024 + a % 2048
    let good := a < 1024 ∨ (4096 ≤ a ∧ a < 8192)
    let put := fun (idx : Nat) (v : BitVec 64) (u : State) =>
      u = { Begun s with regs := u.regs, frzReq := u.frzReq, stw := u.stw, integ := u.integ
                         sl := { s.sl with banks := { u.sl.banks with swap := s.sl.banks.swap } } } ∧
      RegsKept s u ∧ u.stw.lmem = s.stw.lmem ∧ (∀ x, x ≠ t.toNat → u.thr x = s.thr x) ∧ bankWord u b idx = v ∧
      ∀ b' j, j < 4096 → (b' ≠ b ∨ j ≠ idx) → bankWord u b' j = bankWord s b' j
    (Issues s t.toNat 4 → i.ext = none → i.fn = 0 → good →
      (swapping s = true → Completes (.rload t i) s (Returns s t.toNat i.gd.toNat 4 1)) ∧
      (swapping s = false → draining s = false → s.sl.banks.blocked = [] → Completes (.rload t i) s (fun u => put k (gbV s t.toNat i) u ∧
        (∀ x, u.greg t.toNat x = if x = i.gd.toNat then 0 else s.greg t.toNat x) ∧
        u.thr t.toNat = { th with g := (u.thr t.toNat).g, pc := th.pc + 4, last := th.pc, fetched := [] })) ∧
      (swapping s = false → draining s = true ∨ s.sl.banks.blocked ≠ [] → Completes (.rload t i) s (fun u =>
        u = { Begun s with regs := u.regs, frzReq := u.frzReq, stw := u.stw
                           sl := { s.sl with banks := { s.sl.banks with blocked := s.sl.banks.blocked ++ [t.toNat] } } } ∧
        RegsKept s u ∧ u.stw.lmem = s.stw.lmem ∧ (∀ x, x ≠ t.toNat → u.thr x = s.thr x) ∧
        u.thr t.toNat = { th with last := th.pc, blk := .rload i.gd.toNat k (gbV s t.toNat i) }))) ∧
    (Issues s t.toNat 4 → i.ext = none → i.fn = 0 → ¬ good → CanHandle s t.toNat →
      Completes (.rload t i) s (Traps s t.toNat 0x0C (gaV s t.toNat i))) ∧
    (∀ gdn idx v, th.blk = .rload gdn idx v → idx < 4096 → draining s = false → swapping s = false →
      s.sl.banks.blocked.head? = some t.toNat → th.stopReq = false →
      Completes (.rloadUnblock t) s (fun u => put idx v u ∧ u.sl.banks.blocked = s.sl.banks.blocked.drop 1 ∧
        (∀ x, u.greg t.toNat x = if x = gdn then 0 else s.greg t.toNat x) ∧
        u.thr t.toNat = { th with g := (u.thr t.toNat).g, pc := th.pc + 4, blk := .none_, fetched := [] })) ∧
    (∀ gdn idx v, th.blk = .rload gdn idx v →
      draining s = true ∨ swapping s = true ∨ s.sl.banks.blocked.head? ≠ some t.toNat → Completes (.rloadUnblock t) s (fun u => u = Begun s)) ∧
    (Issues s t.toNat 4 → i.ext = none → i.ga = 0 → i.gb = 0 → i.fn = 0 →
      (swapping s = true → Completes (.rswap t i) s (Returns s t.toNat i.gd.toNat 4 2)) ∧
      (swapping s = false → draining s = true → Completes (.rswap t i) s (Returns s t.toNat i.gd.toNat 4 1)) ∧
      (swapping s = false → draining s = false → Completes (.rswap t i) s (fun u =>
        u = { Begun s with regs := u.regs, frzReq := u.frzReq, stw := u.stw
                           sl := { s.sl with banks := { s.sl.banks with swap := some (some (t.toNat, i.gd.toNat), s.now + 25) } } } ∧
        RegsKept s u ∧ u.stw.lmem = s.stw.lmem ∧ (∀ x, x ≠ t.toNat → u.thr x = s.thr x) ∧
        u.thr t.toNat = { th with last := th.pc, blk := .rswap }))) ∧
    (∀ gd due, s.sl.banks.swap = some (some (t.toNat, gd), due) → due ≤ s.now → th.blk = .rswap → th.stopReq = false →
      let u := swapPoll s
      u = { s with
        regs := u.regs, stw := u.stw, sl := { s.sl with banks := { s.sl.banks with swap := none } } } ∧ u.stw.lmem = s.stw.lmem ∧
      (∀ x, x ≠ t.toNat → u.thr x = s.thr x) ∧ (∀ x, u.greg t.toNat x = if x = gd then 0 else s.greg t.toNat x) ∧
      u.thr t.toNat = { th with g := (u.thr t.toNat).g, pc := th.pc + 4, blk := .none_, fetched := [] } ∧
      activeBank u = b ∧ u.fld Fld.RB_PROF_ACT_PROFILE = s.fld Fld.RB_PROF_INACT_PROFILE ∧
      u.fld Fld.RB_PROF_INACT_PROFILE = s.fld Fld.RB_PROF_ACT_PROFILE ∧
      u.fld Fld.RB_STATUS_SWAPS = min (s.fld Fld.RB_STATUS_SWAPS + 1) (State.fldMax Fld.RB_STATUS_SWAPS) ∧
      RegsBut s u [RegName.RB_STATUS.addr 0 0, RegName.RB_PROF_ACT.addr 0 0, RegName.RB_PROF_INACT.addr 0 0])

/-- R280, R283, R285: a steward's failure stops its four threads, discards what they held and is reported; START, STOP and a
write of a thread's PC act by the thread's state. -/
def Obligations.StewardControl : Prop :=
  ∀ (s : State), s.dft = false → s.vaux = true → s.coreUp = true →
    (∀ c : BitVec 4, stwFailed s c.toNat = false → Completes (.stewardFailure c) s (fun u =>
      u.fld Fld.STW_STATUS_FAILED c.toNat = 1 ∧ (∃ r ∈ u.fault.held, r.code = 0x41 ∧ r.subject = c.toNat) ∧
      u.stw.lmem = s.stw.lmem ∧ u.cab = s.cab ∧ (∀ k, k / 4 ≠ c.toNat → u.thr k = s.thr k) ∧
      ∀ k, k / 4 = c.toNat → u.thr k = { s.thr k with
        run := 0, blk := .none_, inbox := [], pkt := [], credits := 0, locks := [], lockSeq := none, stopReq := false
        fetched := [], late := [] })) ∧
    (∀ c : BitVec 4, stwFailed s c.toNat = true → Completes (.stewardFailure c) s (fun u => u = Begun s)) ∧
    (∀ t : BitVec 6,
      let th := s.thr t.toNat
      let only := fun (th' : Thread) (u : State) => u = { Begun s with regs := u.regs, stw := u.stw } ∧
        u.stw.lmem = s.stw.lmem ∧ (∀ k, k ≠ t.toNat → u.thr k = s.thr k) ∧ u.thr t.toNat = th' ∧
        u.fld Fld.STW_CTL_IRQ_THREAD (t.toNat / 4) = s.fld Fld.STW_CTL_IRQ_THREAD (t.toNat / 4) ∧
        RegsBut s u [RegName.STW_CTL.addr (t.toNat / 4) 0]
      (stwFailed s (t.toNat / 4) = false →
        (th.run = 0 → Completes (.stwStart t) s (only { th with run := 1, blk := .none_ })) ∧
        (th.run = 3 → Completes (.stwStart t) s (only { th with run := 1, blk := .none_, inTrap := false }))) ∧
      (th.run = 1 ∨ th.run = 2 → Completes (.stwStart t) s (only th)) ∧
      (th.run = 0 ∨ th.run = 3 → Completes (.stwStop t) s (only th)) ∧
      (th.run = 1 ∨ th.run = 2 → th.locks = [] → th.lockSeq = none →
        (th.blk = .none_ → Completes (.stwStop t) s (only { th with run := 0, pkt := [], stopReq := false, fetched := [] })) ∧
        (∀ till bg m, th.blk = .yield till bg m → Completes (.stwStop t) s
          (only { th with run := 0, blk := .none_, pc := th.pc + 4, pkt := [], stopReq := false, fetched := [] })) ∧
        (∀ gd pd f dl, th.blk = .mwait gd pd f dl → Completes (.stwStop t) s (fun u =>
          only { th with
            p := (u.thr t.toNat).p, run := 0, blk := .none_, pc := th.pc + 4, pkt := [], stopReq := false, fetched := [] } u ∧
          ∀ k, k < 8 → u.pred t.toNat k = (decide (k ≠ pd) && s.pred t.toNat k))) ∧
        (th.blk = .hutch ∨ th.blk = .fence → Completes (.stwStop t) s (only { th with stopReq := true }))) ∧
      (∀ pc : BitVec 64, Completes (.stwPcWrite t pc) s (fun u =>
        u = { Begun s with wrHold := u.wrHold, stw := u.stw } ∧ u.stw.lmem = s.stw.lmem ∧
        (∀ k, k ≠ t.toNat → u.thr k = s.thr k) ∧
        u.thr t.toNat = if th.run = 0 ∨ th.run = 3 then { th with pc := pc, fetched := [] } else th)))

/-- R305, R307, R313: RB_LOAD and RB_SWAP, whose swap runs as rswap's does, the boot mailbox and its timeout. What rests on a
choice or an inference of the model: log 39, 55. -/
def Obligations.BanksAndMailbox : Prop :=
  ∀ (s : State), s.dft = false → s.vaux = true → s.coreUp = true →
    let ended := fun (code val : Nat) (u : State) => u.cmd = none ∧ u.fld Fld.CMD_RES_DONE = 1 ∧ u.fld Fld.CMD_RES_CODE = code ∧
      u.fld Fld.CMD_VAL_VALUE = val ∧ u.irq = { s.irq with pend := insertSorted 3 s.irq.pend } ∧
      u = { Begun s with regs := u.regs, irq := u.irq, cmd := none }
    let res := [fldAt Fld.CMD_RES_DONE, fldAt Fld.CMD_VAL_VALUE]
    (∀ c, s.cmd = some c → c.code = 0x30 → progsUp s = true →
      (c.phase ≠ 0 → Completes .rbLoad s (fun u => u = Begun s)) ∧
      (c.phase = 0 → namedLines s (cmdPa c / 64) 385 = false → Completes .rbLoad s (fun u => ended 0x2A 0 u ∧ RegsBut s u res)) ∧
      (c.phase = 0 → c.lines = [] → namedLines s (cmdPa c / 64) 385 = true → Completes .rbLoad s (fun u =>
        u = { Begun s with cmd := some { c with phase := 1, val := 0 }, mem := u.mem, work := u.work } ∧
        u.mem = (issueMem s 0 (.job 0) (cmdPa c / 64) 0 0 false 0).1.mem)) ∧
      (∀ h ls, c.phase = 3 → c.lines = h :: ls → ls.length = 384 → draining s = false → swapping s = false →
        s.sl.banks.blocked = [] → cmdArg c 2 % 2 = 0 → Intact s →
        let u := rbLoadPoll s
        (∀ k, k < 3072 → bankWord u (1 - activeBank s) k = lineWord (ls.getD (k / 8) 0) (k % 8)) ∧
        (∀ k, k < 3072 → bankWord u (activeBank s) k = bankWord s (activeBank s) k) ∧ activeBank u = activeBank s ∧
        u.cmd = none ∧ u.fld Fld.CMD_RES_CODE = 0 ∧ u.fld Fld.CMD_VAL_VALUE = lineNum h 4 4 ∧
        u.fld Fld.RB_PROF_INACT_PROFILE = lineNum h 4 4)) ∧
    (∀ c, s.cmd = some c → c.code = 0x30 → c.phase = 4 → swapping s = false → draining s = true →
      (rbLoadPoll s).cmd = none ∧ (rbLoadPoll s).fld Fld.CMD_RES_CODE = 0x29) ∧
    (∀ c, s.cmd = some c → c.code = 0x31 → progsUp s = true →
      (c.phase ≠ 0 ∨ swapping s = true → Completes .rbSwap s (fun u => u = Begun s)) ∧
      (c.phase = 0 → swapping s = false → draining s = true → Completes .rbSwap s (fun u => ended 0x29 0 u ∧ RegsBut s u res)) ∧
      (c.phase = 0 → swapping s = false → draining s = false → Completes .rbSwap s (fun u => u = { Begun s with
        cmd := some { c with phase := 1 }
        sl := { s.sl with banks := { s.sl.banks with swap := some (none, s.now + 25) } } })) ∧
      (∀ due, s.sl.banks.swap = some (none, due) → due ≤ s.now →
        let u := swapPoll s
        swapping u = false ∧ u.cmd = s.cmd ∧ u.fld Fld.RB_STATUS_ACTIVE = 1 - s.fld Fld.RB_STATUS_ACTIVE ∧
        u.fld Fld.RB_STATUS_LOADED = 1 ∧ u.fld Fld.RB_STATUS_SWAPS = min (s.fld Fld.RB_STATUS_SWAPS + 1) 255 ∧
        u.fld Fld.RB_PROF_ACT_PROFILE = s.fld Fld.RB_PROF_INACT_PROFILE ∧
        u.fld Fld.RB_PROF_INACT_PROFILE = s.fld Fld.RB_PROF_ACT_PROFILE ∧
        RegsBut s u [fldAt Fld.RB_STATUS_ACTIVE, fldAt Fld.RB_PROF_ACT_PROFILE, fldAt Fld.RB_PROF_INACT_PROFILE]) ∧
      (c.phase = 1 → swapping s = false → (rbSwapPoll s).cmd = none ∧ (rbSwapPoll s).fld Fld.CMD_RES_CODE = 0 ∧
        (rbSwapPoll s).fld Fld.CMD_VAL_VALUE = s.fld Fld.RB_PROF_ACT_PROFILE)) ∧
    (s.cmd = none → Completes .rbLoad s (fun u => u = Begun s) ∧ Completes .rbSwap s (fun u => u = Begun s)) ∧
    (∀ w : BitVec 32,
      let b := s.start.boot
      (16 ≤ b.fifo.length → Completes (.bootMbox w) s (fun u => OnlyRegs s u [fldAt Fld.BOOT_MBOX_STAT_OVF] ∧
        u.fld Fld.BOOT_MBOX_STAT_OVF = 1)) ∧
      (b.fifo.length < 16 → Completes (.bootMbox w) s (fun u => u = { Begun s with start := u.start } ∧
        u.start.boot = { b with fifo := b.fifo ++ [w] } ∧ u.start = { s.start with boot := u.start.boot, run := u.start.run } ∧
        (b.wait = false → u.start.run = s.start.run) ∧
        (∀ r, s.start.run = some r → b.wait = true → b.src = 0 → u.start.run =
          some { r with limit := r.limit + (s.lehrNow - b.gap) })))) ∧
    (s.start.boot.fifo = [] → Completes .bootMboxPop s (fun u => u = { Begun s with rdata := 0 })) ∧
    (∀ w l, s.start.boot.fifo = w :: l → Completes .bootMboxPop s (fun u =>
      u = { Begun s with start := { s.start with boot := { s.start.boot with fifo := l } }, rdata := w })) ∧
    (let b := s.start.boot
     let waits := s.start.run ≠ none ∧ b.active = true ∧ b.src = 0 ∧ b.wait = true
     (¬ waits → Completes .mboxTmo s (fun u => u = Begun s)) ∧
     (waits → Completes .mboxTmo s (fun u => u.fld Fld.BOOT_STATUS_CODE = 5 ∧ u.fld Fld.START_STATUS_CODE = 3 ∧ u.start.run = none ∧
       u.mode = 1 ∧ u.fld Fld.MODE_FORCED = 1 ∧ u.coreUp = false ∧ u.lehrNow = max s.lehrNow (b.gap + 100000001) ∧
       u.repair = s.repair ∧ s.fb.msgs.length < u.fb.msgs.length)))

/-- R314, R318, R319, R321, R323, R324, R327: the Hutch's fills and buffer writes complete, its ages rise, EN is written. -/
def Obligations.HutchLines : Prop :=
  ∀ (c4 : BitVec 4) (s : State), s.dft = false → s.vaux = true → s.coreUp = true →
    let c := c4.toNat
    let comes := fun (org : MemOrg) (m : Nat) (q : OutReq) (o : MemOp) => m < 32 ∧ q ∈ (s.mport m).out ∧ opOf s q.op = some o ∧
      o.org = org ∧ o.pend = [m] ∧ (s.mport m).out.find? (fun x => x.rtag = q.rtag) = some q ∧
      ∀ k, k < 32 → ∀ x ∈ (s.mport k).out, ∀ y, opOf s x.op = some y → y.org = org → k = m ∧ x.op = q.op
    let done := fun (m : Nat) (q : OutReq) (o : MemOp) (d : Line) (poison : Bool) (u : State) =>
      u = { Begun s with mem := u.mem, regs := u.regs, frzReq := u.frzReq
                         work := s.work ++ [.done ⟨o.org, o.kind, o.pa, d, poison⟩, .arb m] } ∧ RegsKept s u ∧
      opOf u q.op = none ∧ (∀ k, k ≠ q.op → opOf u k = opOf s k) ∧ (∀ k, k ≠ m → u.mport k = s.mport k) ∧
      u.mport m = { s.mport m with out := (s.mport m).out.filter (fun x => x.op ≠ q.op) }
    let none_ := fun (org : MemOrg) => ∀ k, k < 32 → ∀ x ∈ (s.mport k).out, ∀ y, opOf s x.op = some y → y.org ≠ org
    (∀ (d : Line) (poison : Bool),
      (∀ m q o, comes (.hutchFill c) m q o → Completes (.hutchFill c4 d poison false) s (done m q o d poison)) ∧
      (none_ (.hutchFill c) → Completes (.hutchFill c4 d poison false) s (fun u => u = Begun s)) ∧
      (∀ m q o, comes (.hutchPf c) m q o → Completes (.hutchPrefetchFill c4 d poison false) s (done m q o d poison)) ∧
      (none_ (.hutchPf c) → Completes (.hutchPrefetchFill c4 d poison false) s (fun u => u = Begun s)) ∧
      (∀ (x : MemDone) (f : State → HAcc → Line → State), x.data = d → x.poison = false →
        (∀ a i t, (s.hut c).miss = some ⟨a, some i, false, false⟩ → a.thr = some t →
          let u := hutFilled s c x f
          hutEnt u c i = ⟨true, isStore a, fillAge a, a.line, accLine a d⟩ ∧ (∀ k, k ≠ i → hutEnt u c k = hutEnt s c k) ∧
          (u.hut c).miss = none ∧ (u.hut c).evb = (s.hut c).evb) ∧
        (∀ line req i, (s.hut c).pf = some (line, req) → hutFind s c line = none → evbFind s c line = none →
          hutVictim s c req = some i → ((hutEnt s c i).valid = true → (hutEnt s c i).dirty = false) →
          let u := hutPfFilled s c x
          hutEnt u c i = ⟨true, false, 2, line, d⟩ ∧ (∀ k, k ≠ i → hutEnt u c k = hutEnt s c k) ∧ (u.hut c).pf = none))) ∧
    (∀ k : BitVec 3,
      (∀ m q o, comes (.hutchEv c k.toNat) m q o → Completes (.hutchEvictWriteDone c4 k) s (done m q o 0 false)) ∧
      (none_ (.hutchEv c k.toNat) → Completes (.hutchEvictWriteDone c4 k) s (fun u => u = Begun s)) ∧
      (∀ b, k.toNat < 4 → hutEvb s c k.toNat = some b → b.again = false → (s.hut c).miss = none → (s.hut c).maint = none →
        hutEvDone s c k.toNat = setHutEvb s c k.toNat none)) ∧
    (s.fld Fld.HUTCH_CTL_EN c = 1 → s.fld Fld.HUTCH_CTL_TICK c ≠ 0 → Completes (.hutchTick c4) s (fun u =>
      u = { Begun s with hutch := u.hutch } ∧ (∀ k, k ≠ c → u.hut k = s.hut k) ∧ u.hut c = { s.hut c with ent := (u.hut c).ent } ∧
      ∀ i, i < 48 → hutEnt u c i = if (hutEnt s c i).valid = true ∧ (hutEnt s c i).age < 3
        then { hutEnt s c i with age := (hutEnt s c i).age + 1 } else hutEnt s c i)) ∧
    (s.fld Fld.HUTCH_CTL_EN c = 0 ∨ s.fld Fld.HUTCH_CTL_TICK c = 0 → Completes (.hutchTick c4) s (fun u => u = Begun s)) ∧
    (∀ v : BitVec 32, Completes (.hutchEnWrite c4 v) s (fun u =>
      let dirty := ∃ i, i < 48 ∧ (hutEnt s c i).valid = true ∧ (hutEnt s c i).dirty = true
      OnlyRegs s u [fldAt Fld.HUTCH_CTL_EN c, fldAt Fld.HUTCH_STATUS_DIRTY_OFF c] ∧
      u.fld Fld.HUTCH_CTL_EN c = v.toNat % 2 ∧ u.fld Fld.HUTCH_CTL_PF c = bits v.toNat 1 1 ∧
      u.fld Fld.HUTCH_CTL_TICK c = bits v.toNat 8 8 ∧
      (v.toNat % 2 = 0 → dirty → u.fld Fld.HUTCH_STATUS_DIRTY_OFF c = 1) ∧
      (v.toNat % 2 = 1 ∨ ¬ dirty → u.fld Fld.HUTCH_STATUS_DIRTY_OFF c = s.fld Fld.HUTCH_STATUS_DIRTY_OFF c)))

/-- R243, R324 to R326, R334: Hutch maintenance by address and by index. -/
def Obligations.HutchMaintenance : Prop :=
  ∀ (c4 : BitVec 4) (t : Option (BitVec 6)) (s : State), s.dft = false → s.vaux = true → s.coreUp = true → Intact s →
    let c := c4.toNat
    let frame := fun (u : State) => u = { Begun s with regs := u.regs, hutch := u.hutch, wrHold := u.wrHold, integ := u.integ } ∧
      RegsBut s u [RegName.HUTCH_MAINT.addr c 0, RegName.HUTCH_MAINT_PA.addr c 0, fldAt Fld.HUTCH_STATUS_MAINT_LOST c] ∧
      ∀ k, k ≠ c → u.hut k = s.hut k
    let status := fun (st : Nat) (u : State) => u.fld Fld.HUTCH_MAINT_STATUS c = st ∧
      u.fld Fld.HUTCH_STATUS_MAINT_LOST c = s.fld Fld.HUTCH_STATUS_MAINT_LOST c
    let only := fun (i : Nat) (e : HEnt) (u : State) => u.hut c = { s.hut c with ent := (u.hut c).ent, maint := none } ∧
      hutEnt u c i = e ∧ ∀ k, k ≠ i → hutEnt u c k = hutEnt s c k
    let kept := fun (u : State) => u.hutch = s.hutch
    let busy := s.fld Fld.HUTCH_MAINT_STATUS c = 1
    let quiet := fun (line : Nat) => evbFind s c line = none ∧ (∀ m, (s.hut c).miss = some m → m.acc.line ≠ line) ∧
      (∀ l r, (s.hut c).pf = some (l, r) → l ≠ line) ∧ (s.hut c).maint = none
    (∀ (pa : BitVec 42) (req : BitVec 3),
      let row := Instr.hutchZero c4 t pa req
      let ok := ¬ busy ∧ hutMapped s pa.toNat = true ∧ req.toNat < 6
      (busy → Completes row s (fun u => frame u ∧ kept u ∧ u.fld Fld.HUTCH_STATUS_MAINT_LOST c = 1)) ∧
      (¬ busy → hutMapped s pa.toNat = false ∨ 6 ≤ req.toNat → Completes row s (fun u => frame u ∧ kept u ∧ status 3 u)) ∧
      (∀ i, ok → quiet pa.toNat → hutFind s c pa.toNat = some i →
        Completes row s (fun u => frame u ∧ status 2 u ∧ only i { hutEnt s c i with data := 0, dirty := true } u)) ∧
      (∀ i, ok → quiet pa.toNat → hutFind s c pa.toNat = none → hutVictim s c req.toNat = some i →
        ((hutEnt s c i).valid = true → (hutEnt s c i).dirty = false) →
        Completes row s (fun u => frame u ∧ status 2 u ∧ only i ⟨true, true, 0, pa.toNat, 0⟩ u))) ∧
    (∀ (tgt : MaintTgt) (line : Nat),
      let rows := [Instr.hutchClean c4 t tgt, Instr.hutchInval c4 t tgt, Instr.hutchCleanInval c4 t tgt]
      let bad := (∃ pa : BitVec 42, tgt = .addr pa ∧ hutMapped s pa.toNat = false) ∨ (∃ i : BitVec 6, tgt = .idx i ∧ 47 < i.toNat)
      let empty := ∃ i : BitVec 6, tgt = .idx i ∧ i.toNat ≤ 47 ∧ (hutEnt s c i.toNat).valid = false
      let names := (∃ pa : BitVec 42, tgt = .addr pa ∧ hutMapped s pa.toNat = true ∧ line = pa.toNat) ∨
        (∃ i : BitVec 6, tgt = .idx i ∧ i.toNat ≤ 47 ∧ (hutEnt s c i.toNat).valid = true ∧ line = (hutEnt s c i.toNat).line)
      (busy → ∀ row ∈ rows, Completes row s (fun u => frame u ∧ kept u ∧ u.fld Fld.HUTCH_STATUS_MAINT_LOST c = 1)) ∧
      (¬ busy → bad → ∀ row ∈ rows, Completes row s (fun u => frame u ∧ kept u ∧ status 3 u)) ∧
      (¬ busy → empty → ∀ row ∈ rows, Completes row s (fun u => frame u ∧ kept u ∧ status 2 u)) ∧
      (¬ busy → names → quiet line → hutFind s c line = none → ∀ row ∈ rows, Completes row s (fun u => frame u ∧ status 2 u ∧
        u.hut c = s.hut c)) ∧
      (∀ i, ¬ busy → names → quiet line → hutFind s c line = some i →
        let e := hutEnt s c i
        Completes (.hutchInval c4 t tgt) s (fun u => frame u ∧ status 2 u ∧ only i { e with valid := false, dirty := false } u) ∧
        (e.dirty = false → Completes (.hutchClean c4 t tgt) s (fun u => frame u ∧ status 2 u ∧ only i e u)) ∧
        (e.dirty = false → Completes (.hutchCleanInval c4 t tgt) s (fun u => frame u ∧ status 2 u ∧
          only i { e with valid := false } u)) ∧
        (e.dirty = true → ∀ x ∈ [(Instr.hutchClean c4 t tgt, 2), (Instr.hutchCleanInval c4 t tgt, 4)], Completes x.1 s (fun u =>
          u = { Begun s with
            regs := u.regs, hutch := u.hutch, wrHold := u.wrHold, integ := u.integ, mem := u.mem, work := u.work } ∧
          status 1 u ∧ hutEnt u c i = { e with dirty := false } ∧ (∀ k, k ≠ i → hutEnt u c k = hutEnt s c k) ∧
          (u.hut c).maint = some ⟨x.2, line, true, 0, t.map (·.toNat)⟩ ∧
          u.mem = (issueMem s 1 (.hutchEv c 4) line e.data 0 false c).1.mem ∧
          RegsBut s u [RegName.HUTCH_MAINT.addr c 0, RegName.HUTCH_MAINT_PA.addr c 0]))))

/-- R154, R375, R377 to R379: the Drawer's own work: the ages of a set without a stored error rise, a correction is written
back, a hard word is copied to a Cullet spare, an empty way is retired, a repeat entry expires. R376, R380, R381, R383, R386:
a scrubber's visit of a page whose words hold no error, its laps, the leak of a bucket, the writes of the scrubber's and the
injector's registers. What rests on a choice or an inference of the model: log 30, 76. -/
def Obligations.DrawerUpkeepAndScrubbing : Prop :=
  (∀ (d7 : BitVec 7) (s : State), s.dft = false → s.coreUp = true →
    let d := d7.toNat
    let q := s.drq d
    let frame := fun (u : State) => u = { Begun s with cab := u.cab, integ := u.integ } ∧
      (∀ k, k ≠ d → u.drq k = s.drq k) ∧ u.cab.blindSeq = s.cab.blindSeq
    let clean := fun (w : Nat) => maskOf s (placeOf s d w).1 d (placeOf s d w).2 = 0
    ((∀ k, k < 16 → clean (q.ageSet * 16 + k)) → s.fld Fld.SI_INJ_ARM d = 0 →
      (s.sleepReady = true ∨ s.fld Fld.CAB_AGE_EN d = 0 ∨ s.govBg.getLsbD (d / 8) = false →
        Completes (.ageWalkerVisit d7) s (fun u => u = Begun s)) ∧
      (s.sleepReady = false → s.fld Fld.CAB_AGE_EN d = 1 → s.govBg.getLsbD (d / 8) = true →
        Completes (.ageWalkerVisit d7) s (fun u => frame u ∧ (u.drq d).ageSet = (q.ageSet + 1) % 4096 ∧
          (∀ w, w / 16 ≠ q.ageSet → drawerW u d w = drawerW s d w) ∧
          ∀ k, k < 16 →
            let w := q.ageSet * 16 + k
            let c := decodeCab (drawerW s d w)
            drawerW u d w = if c.grain ≠ 0 ∧ c.age < 3 ∧ pinned s d q.ageSet (k, drawerW s d w) = false
              then (encodeCab { c with age := c.age + 1 }).toNat else drawerW s d w))) ∧
    (q.wbq = [] → Completes (.correctionWriteback d7) s (fun u => u = Begun s)) ∧
    (∀ w l, q.wbq = w :: l → spareOf s d w = none → s.fld Fld.SI_INJ_ARM d = 0 →
      (∀ dev k, wordLook s .drawer d w = some (dev, k) → Completes (.correctionWriteback d7) s (fun u => frame u ∧
        drawerW u d w = (drawerW s d w ^^^ dev) % 2 ^ 120 ∧ maskOf u .drawer d w = 0 ∧
        (∀ x, x ≠ w → drawerW u d x = drawerW s d x) ∧ (u.drq d).wbq = l.filter (· ≠ w) ∧
        (u.drq d).rpt = q.rpt.map (fun r => if r.word = w then { r with fresh := true } else r))) ∧
      (wordLook s .drawer d w = none → Completes (.correctionWriteback d7) s (fun u => frame u ∧ u.integ = s.integ ∧
        u.drq d = { q with wbq := l } ∧ u.cab.words = s.cab.words ∧ u.cab.spare = s.cab.spare))) ∧
    (q.hard = [] ∨ (∀ k, k < 8 → s.fld Fld.CULLET_VALID d k ≠ 0) → Completes (.culletCopy d7) s (fun u => u = Begun s)) ∧
    (∀ w l k, maskOf s .drawer d w = 0 → s.fld Fld.SI_INJ_ARM d = 0 → q.hard = w :: l → w < 65536 → k < 8 →
      s.fld Fld.CULLET_VALID d k = 0 → (∀ j, j < k → s.fld Fld.CULLET_VALID d j ≠ 0) → Completes (.culletCopy d7) s (fun u =>
        u = { Begun s with cab := u.cab, integ := u.integ, regs := u.regs, repair := { s.repair with cullet := u.repair.cullet } } ∧
        RegsBut s u [fldAt Fld.CULLET_WORD d k] ∧ u.fld Fld.CULLET_WORD d k = w ∧ u.fld Fld.CULLET_VALID d k = 1 ∧
        (∀ x, drawerW u d x = drawerW s d x) ∧ (u.drq d).hard = l ∧
        SMap.getD (fun _ => 0) u.repair.cullet (d * 8 + k) = w + 1 ∧
        ∀ x, x ≠ d * 8 + k → SMap.getD (fun _ => 0) u.repair.cullet x = SMap.getD (fun _ => 0) s.repair.cullet x)) ∧
    ((∀ w ∈ q.retiring, (decodeCab (drawerW s d w)).grain ≠ 0) → Completes (.wayRetire d7) s (fun u => u = Begun s)) ∧
    (∀ w, q.retiring.find? (fun w => (decodeCab (drawerW s d w)).grain = 0) = some w →
      (∀ k, k < 16 → w / 16 * 16 + k = w ∨ w / 16 * 16 + k ∈ q.retired) → q.blind = [] → q.blindAll = false →
      Completes (.wayRetire d7) s (fun u => drawerW u d w = 0 ∧ (∀ x, x ≠ w → drawerW u d x = drawerW s d x) ∧
        u.fld Fld.SI_ERR_RETIRE d = 1 ∧ (u.drq d).retired = insertSorted w q.retired ∧
        ∃ b, (0, b) ∈ (u.drq d).blind ∧ b.set = w / 16 ∧ b.state = 1 ∧ b.cause = 1)) ∧
    (∀ w, q.retiring.find? (fun w => (decodeCab (drawerW s d w)).grain = 0) = some w →
      (∃ k, k < 16 ∧ w / 16 * 16 + k ≠ w ∧ w / 16 * 16 + k ∉ q.retired) → Completes (.wayRetire d7) s (fun u =>
        u = { Begun s with
          cab := u.cab, integ := u.integ, regs := u.regs, fault := { s.fault with held := u.fault.held }
          repair := { s.repair with retired := u.repair.retired } } ∧
        drawerW u d w = 0 ∧ (∀ x, x ≠ w → drawerW u d x = drawerW s d x) ∧ u.fld Fld.SI_ERR_RETIRE d = 1 ∧ Reported u 0x2B d ∧
        RegsBut s u (fldAt Fld.SI_ERR_RETIRE d :: SliceLc (logicOf s d)) ∧
        (u.drq d).retiring = q.retiring.filter (· ≠ w) ∧ (u.drq d).retired = insertSorted w q.retired ∧
        SMap.getD (fun _ => []) u.repair.retired d = insertSorted w q.retired)) ∧
    (q.rpt = [] → Completes (.repeatEntryExpiry d7) s (fun u => u = Begun s)) ∧
    (∀ l1 r l2, q.rpt = l1 ++ r :: l2 → (∀ x ∈ l1, r.time + r.win < x.time + x.win) →
      (∀ x ∈ l2, r.time + r.win ≤ x.time + x.win) → Completes (.repeatEntryExpiry d7) s (fun u =>
        u = { Begun s with cab := u.cab, now := max s.now (r.time + r.win), lehrNow := max s.lehrNow (r.time + r.win) } ∧
        u.cab = { s.cab with dr := u.cab.dr } ∧ (∀ k, k ≠ d → u.drq k = s.drq k) ∧
        u.drq d = { q with rpt := q.rpt.filter (fun x => x.word ≠ r.word) }))) ∧
  (∀ (s : State), s.dft = false → s.vaux = true → s.coreUp = true → s.portUp = true →
    (∀ d7 : BitVec 7,
      let d := d7.toNat
      let q := s.drq d
      let page := q.scrubPage
      let began := if q.scrubRun then q else { q with scrubRun := true, scrubStart := s.now, scrubSlow := false }
      let P := pqOf s .drawer d page 0
      let Q := pqOf s .drawer d page 1
      let off := s.sleepReady = true ∨ s.fld Fld.SCRUB_CTL_EN d = 0 ∨ s.govBg.getLsbD (d / 8) = false
      let others := fun (u : State) => (∀ k, k ≠ d → u.drq k = s.drq k) ∧ u.cab.words = s.cab.words ∧ u.cab.spare = s.cab.spare
      let pq := fun (p' q' : Nat) (u : State) => pqOf u .drawer d page 0 = p' ∧ pqOf u .drawer d page 1 = q' ∧
        u.integ.mask = s.integ.mask
      let us := (s.now - began.scrubStart) / 1000
      let max_ := s.fld Fld.SCRUB_LAP_MAX_MAX d
      let clean := ∀ k, k < 32 → maskOf s (placeOf s d (page * 32 + k)).1 d (placeOf s d (page * 32 + k)).2 = 0
      (off → Completes (.scrubVisit d7) s (fun u => u = Begun s)) ∧
      (¬ off → clean → P = 0 ∨ Q = 0 → page < 2047 → Completes (.scrubVisit d7) s (fun u =>
        u = { Begun s with cab := u.cab, integ := u.integ } ∧ others u ∧ pq 0 0 u ∧
        u.drq d = { began with scrubPage := page + 1 })) ∧
      (¬ off → clean → P = 0 ∨ Q = 0 → page = 2047 → Completes (.scrubVisit d7) s (fun u =>
        let slow := max_ ≠ 0 ∧ max_ < us ∧ began.scrubSlow = false
        u = { Begun s with cab := u.cab, integ := u.integ, regs := u.regs, fault := { s.fault with held := u.fault.held } } ∧
        others u ∧ pq 0 0 u ∧ u.drq d = { began with scrubPage := 0, scrubRun := false, scrubSlow := false } ∧
        u.fld Fld.SCRUB_LAP_LAP d = min us (2 ^ 32 - 1) ∧
        (slow → u.fld Fld.SI_ERR_SLOW d = 1 ∧ Reported u 0x2C d ∧
          RegsBut s u ([fldAt Fld.SCRUB_LAP_LAP d, fldAt Fld.SI_ERR_SLOW d] ++ SliceLc (logicOf s d))) ∧
        (¬ slow → u.fault = s.fault ∧ RegsBut s u [fldAt Fld.SCRUB_LAP_LAP d]))) ∧
      (¬ off → clean → P ≠ 0 → Q ≠ 0 → page < 2047 → q.blindAll = false → q.blind = [] →
        Completes (.scrubVisit d7) s (fun u => others u ∧ pq P Q u ∧ u.fld Fld.CAB_ERR_LOST_PAGE d = 1 ∧ Reported u 0x27 d ∧
          RegsBut s u (fldAt Fld.CAB_ERR_LOST_PAGE d :: SliceLc (logicOf s d)) ∧ (u.drq d).scrubPage = page + 1 ∧
          (∃ b, (0, b) ∈ (u.drq d).blind ∧ b.set = 2 * page ∧ b.state = 1 ∧ b.cause = 0 ∧ b.cursor = 0) ∧
          ∃ b, (1, b) ∈ (u.drq d).blind ∧ b.set = 2 * page + 1 ∧ b.state = 1 ∧ b.cause = 0 ∧ b.cursor = 0)) ∧
      (q.scrubRun = false ∨ max_ = 0 ∨ q.scrubSlow = true → Completes (.scrubLapTimeout d7) s (fun u => u = Begun s)) ∧
      (q.scrubRun = true → max_ ≠ 0 → q.scrubSlow = false → Completes (.scrubLapTimeout d7) s (fun u =>
        let t := q.scrubStart + max_ * 1000 + 1
        u = { Begun s with
          cab := u.cab, regs := u.regs, fault := { s.fault with held := u.fault.held }, now := max s.now t, lehrNow := max s.lehrNow t } ∧
        others u ∧ u.drq d = { q with scrubSlow := true } ∧ u.fld Fld.SI_ERR_SLOW d = 1 ∧ Reported u 0x2C d ∧
        RegsBut s u (fldAt Fld.SI_ERR_SLOW d :: SliceLc (logicOf s d)))) ∧
      (∀ v : BitVec 32,
        Completes (.scrubEnWrite d7 v) s (fun u => OnlyRegs s u [fldAt Fld.SCRUB_CTL_EN d] ∧
          u.fld Fld.SCRUB_CTL_INTVL d = bits v.toNat 0 16 ∧ u.fld Fld.SCRUB_CTL_EN d = bits v.toNat 16 1) ∧
        (bit1 v.toNat 9 = true → s.mode ≠ 7 → Completes (.siInjWrite d7 v) s (fun u => OnlyRegs s u [fldAt Fld.SI_INJ_ARM d] ∧
          u.fld Fld.SI_INJ_REFUSED d = 1 ∧ u.fld Fld.SI_INJ_ARM d = s.fld Fld.SI_INJ_ARM d ∧
          u.fld Fld.SI_INJ_MASK d = s.fld Fld.SI_INJ_MASK d ∧ u.fld Fld.SI_INJ_CONT d = s.fld Fld.SI_INJ_CONT d)) ∧
        (bit1 v.toNat 9 = false ∨ s.mode = 7 → Completes (.siInjWrite d7 v) s (fun u => OnlyRegs s u [fldAt Fld.SI_INJ_ARM d] ∧
          u.fld Fld.SI_INJ_MASK d = bits v.toNat 0 8 ∧ u.fld Fld.SI_INJ_CONT d = bits v.toNat 8 1 ∧
          u.fld Fld.SI_INJ_ARM d = bits v.toNat 9 1 ∧ u.fld Fld.SI_INJ_LAST d = s.fld Fld.SI_INJ_LAST d ∧
          u.fld Fld.SI_INJ_REFUSED d = if bit1 v.toNat 10 then 0 else s.fld Fld.SI_INJ_REFUSED d)))) ∧
    (let leaks := fun (src : BitVec 9) (level leak : Fld) (i j : Nat) =>
       (s.fld leak i j = 0 → Completes (.bucketLeak src) s (fun u => u = Begun s)) ∧
       (s.fld leak i j ≠ 0 → Completes (.bucketLeak src) s (fun u => OnlyRegs s u [fldAt level i j] ∧
         u.fld level i j = s.fld level i j - 1 ∧ u.fld leak i j = s.fld leak i j))
     (∀ d, d < 128 → leaks (BitVec.ofNat 9 (64 + d)) Fld.SI_BUCKET_LEVEL Fld.SI_BUCKET_LEAK d 0) ∧
     (∀ c x, c < 16 → x < 5 → leaks (BitVec.ofNat 9 (192 + 8 * c + x)) Fld.CL_BKT_LEVEL Fld.CL_BKT_LEAK c x) ∧
     (∀ x, x < 4 → leaks (BitVec.ofNat 9 (320 + x)) Fld.DIE_BKT_P_LEVEL Fld.DIE_BKT_P_LEAK x 0) ∧
     leaks 324 Fld.DIE_BKT_NQ_LEVEL Fld.DIE_BKT_NQ_LEAK 0 0 ∧ leaks 325 Fld.DIE_BKT_L_LEVEL Fld.DIE_BKT_L_LEAK 0 0 ∧
     ∀ src : BitVec 9, src.toNat < 64 → Completes (.bucketLeak src) s (fun u => u = Begun s)))

/-- R399 to R408, R411: the instance collector takes a report: it counts it, promotes its source, latches or merges it and
reacts. -/
def Obligations.FaultReports : Prop :=
  ∀ (s : State), s.dft = false → s.vaux = true → s.coreUp = true →
    (nextReport s = none → Completes .faultReport s (fun u => u = Begun s)) ∧
    (∀ r, nextReport s = some r → r.code < 256 → s.start.run = none → s.sleepReady = false →
      let code := r.code
      let h := hist s code
      let rep := isRepeat s r
      let src := fun (f : Fld) => s.fld f code
      let count := if 0 < h.count ∧ s.time ≤ h.winEnd then h.count + 1
        else if src Fld.FC_SRC_N = 0 ∨ src Fld.FC_SRC_WIN = 0 then 0 else 1
      let limit := if 0 < h.count ∧ s.time ≤ h.winEnd then h.winN else src Fld.FC_SRC_N
      let promotes := rep = false ∧ faultFixed code = false ∧ 0 < count ∧ limit ≤ count
      let lasting := if promotes then 1 else src Fld.FC_SRC_LASTING
      let sev := min 3 (src Fld.FC_SRC_SEV + lasting)
      let kept := fun (u : State) => r ∉ u.fault.held ∧ u.fld Fld.FC_SRC_LASTING code = lasting ∧
        u.fld Fld.FC_SRC_SEV code = src Fld.FC_SRC_SEV ∧ (rep = true → u.fault.hist = s.fault.hist) ∧
        (∀ k, k ≠ code → hist u k = hist s k) ∧ u.cab = s.cab ∧ u.agt = s.agt ∧ u.mem = s.mem ∧ u.stw = s.stw ∧ u.port.recs = s.port.recs
      let record := fun (merged : Bool) => recOf ([(0x48, 0, 8), (code, 8, 8), (r.subject, 16, 16), (sev, 32, 2), (lasting, 34, 1),
        (b2n r.inj, 35, 1), (b2n merged, 36, 1), (min r.count 65535, 37, 16)] ++ recTail s.time)
      let reacts := fun (merged : Bool) (u : State) => 0 ∈ u.irq.pend ∧
        u.nq = { s.nq with readyFc := if rep then s.nq.readyFc else s.nq.readyFc ++ [[record merged]] } ∧
        (2 ≤ sev → src Fld.FC_SRC_PIN_EN = 1 → u.fault.pulse = (s.fault.pulse || ! faultPin s) ∧
          u.fault.heldPin = (s.fault.heldPin || s.fld Fld.FC_PIN_CTL_HOLD == 1)) ∧
        (sev < 2 ∨ src Fld.FC_SRC_PIN_EN = 0 → u.fault.pulse = s.fault.pulse ∧ u.fault.heldPin = s.fault.heldPin) ∧
        u.fld Fld.FC_STATUS_FATAL = (if sev = 3 then 1 else s.fld Fld.FC_STATUS_FATAL) ∧
        (sev = 2 → src Fld.FC_SRC_MODE_EN = 1 → s.mode = 4 ∨ s.mode = 5 → u.mode = 6 ∧ u.fld Fld.MODE_FORCED = 1) ∧
        (sev ≠ 2 ∨ src Fld.FC_SRC_MODE_EN = 0 ∨ (s.mode ≠ 4 ∧ s.mode ≠ 5) → u.mode = s.mode) ∧
        (let freezes := 1 ≤ sev ∧ s.fld Fld.FC_CTL_FRZ_EN = 1 ∧ s.fld Fld.FC_CTL_FRZ_SEV ≤ sev
         (freezes → u.frzReq = s.frzReq ||| 4 ∧ u.frzCode = code) ∧ (¬ freezes → u.frzReq = s.frzReq ∧ u.frzCode = s.frzCode)) ∧
        (let sends := 1 ≤ sev ∧ s.fld Fld.FC_CTL_FWD_EN = 1 ∧ s.fld Fld.FC_CTL_FWD_SEV ≤ sev
         (sends → Floods s u 3 [(code, 8, 1), (sev % 4 + 4 * b2n r.inj, 9, 1), (r.subject, 10, 2)]) ∧
         (¬ sends → u.pt = s.pt ∧ u.ptTx = []))
      let merged := fun (u : State) => bit1 (u.fld Fld.FC_MERGED_SRC (code / 32)) (code % 32) = true
      (sev < s.fld Fld.FC_CTL_LATCH_SEV → Completes .faultReport s (fun u =>
        u = { Begun s with fault := u.fault, regs := u.regs } ∧ kept u ∧ RegsBut s u [fldAt Fld.FC_SRC_LASTING code])) ∧
      (s.fld Fld.FC_CTL_LATCH_SEV ≤ sev → s.fld Fld.FC_STATUS_FAULT = 0 → Completes .faultReport s (fun u =>
        kept u ∧ reacts false u ∧ merged u ∧ u.fld Fld.FC_STATUS_FAULT = 1 ∧ u.fld Fld.FC_STATUS_SEV = sev ∧
        u.fld Fld.FC_FIRST_CODE = code ∧ u.fld Fld.FC_FIRST_SUBJECT = r.subject % 65536 ∧ u.fld Fld.FC_FIRST_SEV = sev ∧
        u.fld Fld.FC_FIRST_LASTING = lasting ∧ u.fld Fld.FC_FIRST_INJ = b2n r.inj ∧
        u.fld Fld.FC_FIRST_TIME_TIME = s.time % 2 ^ 64 ∧
        u.fld Fld.FC_STATUS_DUP_COUNT = min (s.fld Fld.FC_STATUS_DUP_COUNT + (r.count - 1)) 65535)) ∧
      (s.fld Fld.FC_CTL_LATCH_SEV ≤ sev → s.fld Fld.FC_STATUS_FAULT = 1 → Completes .faultReport s (fun u =>
        let same := s.fld Fld.FC_FIRST_CODE = code ∧ s.fld Fld.FC_FIRST_SUBJECT = r.subject ∧ s.fld Fld.FC_FIRST_INJ = b2n r.inj
        kept u ∧ reacts true u ∧ u.fld Fld.FC_STATUS_FAULT = 1 ∧ u.fld Fld.FC_STATUS_SEV = max (s.fld Fld.FC_STATUS_SEV) sev ∧
        u.reg .FC_FIRST = s.reg .FC_FIRST ∧ u.reg .FC_FIRST_TIME = s.reg .FC_FIRST_TIME ∧
        (same → u.fld Fld.FC_STATUS_DUP_COUNT = min (s.fld Fld.FC_STATUS_DUP_COUNT + r.count) 65535 ∧
          u.fld Fld.FC_STATUS_OVF = s.fld Fld.FC_STATUS_OVF) ∧
        (¬ same → merged u ∧ u.fld Fld.FC_STATUS_OVF = 1 ∧ u.fld Fld.FC_STATUS_DUP_COUNT = s.fld Fld.FC_STATUS_DUP_COUNT))))

/-- R401, R404, R407, R414, R415, R418: a window ends, the pulse ends, the record is cleared or the clear denied, the pin is
released, a fault is injected. What rests on a choice or an inference of the model: log 76. -/
def Obligations.FaultControl : Prop :=
  ∀ (s : State), s.dft = false → s.vaux = true →
    (∀ code : BitVec 8,
      let h := hist s code.toNat
      (h.count = 0 → Completes (.faultWindowEnd code) s (fun u => u = Begun s)) ∧
      (h.count ≠ 0 → Completes (.faultWindowEnd code) s (fun u =>
        u = { Begun s with
          fault := { s.fault with hist := u.fault.hist }, now := max s.now h.winEnd, lehrNow := max s.lehrNow h.winEnd } ∧
        hist u code.toNat = { h with count := 0 } ∧ ∀ k, k ≠ code.toNat → hist u k = hist s k))) ∧
    Completes .faultNPulseEnd s (fun u => u = { Begun s with fault := { s.fault with pulse := false } }) ∧
    (recordLive s = true → Completes .fcClear s (fun u => OnlyRegs s u [fldAt Fld.FC_STATUS_DENIED] ∧
      u.fld Fld.FC_STATUS_DENIED = 1 ∧ u.fld Fld.FC_STATUS_FAULT = s.fld Fld.FC_STATUS_FAULT)) ∧
    (recordLive s = false → s.fld Fld.FC_STATUS_FAULT = 0 → Completes .fcClear s (fun u => u = Begun s)) ∧
    (recordLive s = false → s.fld Fld.FC_STATUS_FAULT = 1 → Completes .fcClear s (fun u =>
      u = { Begun s with regs := u.regs, fault := { s.fault with heldPin := false } } ∧
      u.fld Fld.FC_STATUS_FAULT = 0 ∧ u.fld Fld.FC_STATUS_OVF = 0 ∧ u.fld Fld.FC_STATUS_SEV = 0 ∧
      u.fld Fld.FC_STATUS_DUP_COUNT = 0 ∧ u.fld Fld.FC_STATUS_FATAL = s.fld Fld.FC_STATUS_FATAL ∧
      u.fld Fld.FC_STATUS_DENIED = s.fld Fld.FC_STATUS_DENIED ∧ u.reg .FC_FIRST = 0 ∧ u.reg .FC_FIRST_TIME = 0 ∧
      (∀ k, k < 8 → u.reg .FC_MERGED k = 0) ∧
      RegsBut s u ([RegName.FC_STATUS.addr 0 0, RegName.FC_FIRST.addr 0 0, RegName.FC_FIRST_TIME.addr 0 0] ++
        (List.range 8).map (fun k => RegName.FC_MERGED.addr k 0)))) ∧
    Completes .fcPinRelease s (fun u => u = { Begun s with regs := u.regs, fault := { s.fault with heldPin := false } } ∧
      RegsBut s u [RegName.FC_PIN_CTL.addr 0 0] ∧ u.fld Fld.FC_PIN_CTL_HOLD = s.fld Fld.FC_PIN_CTL_HOLD ∧
      u.fld Fld.FC_PIN_CTL_FORCE = s.fld Fld.FC_PIN_CTL_FORCE) ∧
    (∀ (code : BitVec 8) (subject : BitVec 16),
      let named := fun (u : State) => u.fld Fld.FC_INJ_CODE = code.toNat ∧ u.fld Fld.FC_INJ_SUBJECT = subject.toNat ∧
        RegsBut s u [RegName.FC_INJ.addr 0 0]
      (s.mode = 7 → faultSrc code.toNat ≠ none → Completes (.fcInjGo code subject) s (fun u =>
        u = { Begun s with regs := u.regs, fault := { s.fault with held := u.fault.held } } ∧ named u ∧
        ∃ r ∈ u.fault.held, r.code = code.toNat ∧ r.subject = subject.toNat ∧ r.inj = true)) ∧
      (s.mode ≠ 7 ∨ faultSrc code.toNat = none → Completes (.fcInjGo code subject) s (fun u =>
        u = { Begun s with regs := u.regs } ∧ named u ∧ u.fld Fld.FC_INJ_REFUSED = 1)))

/-- R425 to R430, R436, R532: a ready packet is committed whole to the ring of its first TYPE, or dropped, counted and noted
in a GAP. -/
def Obligations.PacketCommit : Prop :=
  ∀ (p : List (BitVec 128)) (nq : NqC) (s : State), s.dft = false → Intact s → p ≠ [] →
    let typ := recType (p.headD 0)
    let r := ringOfType s typ
    let q := s.ringE r
    let size := ringSize s r
    let slot := fun k => ringSlot s r (q.wp + k)
    let en := s.fld Fld.NQ_CTL_EN = 1
    let thread := fun (t : Nat) => s.nq.readyFc = [] ∧ s.nq.readyLehr = [] ∧ s.nq.readyTel = [] ∧ s.nq.readyPar = [] ∧
      readyThread s = some t ∧ SMap.getD (fun _ => []) s.nq.readyThr t = p ∧
      nq = { s.nq with readyThr := SMap.set (fun _ => []) s.nq.readyThr t [], rot := t }
    let served := (s.nq.readyFc = p :: nq.readyFc ∧ nq = { s.nq with readyFc := nq.readyFc }) ∨
      (s.nq.readyFc = [] ∧ s.nq.readyLehr = p :: nq.readyLehr ∧ nq = { s.nq with readyLehr := nq.readyLehr }) ∨
      (s.nq.readyFc = [] ∧ s.nq.readyLehr = [] ∧ s.nq.readyTel = [] ∧ s.nq.readyPar = p :: nq.readyPar ∧
        nq = { s.nq with readyPar := nq.readyPar }) ∨
      (typ ≠ 0x7E ∧ typ ≠ 0x7F ∧ ∃ t, thread t)
    let dropped := served ∨ ((typ = 0x7E ∨ typ = 0x7F) ∧ ∃ t, thread t)
    let fits := ringOcc s r + p.length ≤ size - 1
    let counted := fun (u : State) => RegsBut s u [fldAt Fld.NQ_DROPS_DROPS r] ∧
      u.fld Fld.NQ_DROPS_DROPS r = min (s.fld Fld.NQ_DROPS_DROPS r + p.length) (2 ^ 32 - 1)
    let away := (served ∧ ¬ fits) ∨ (dropped ∧ ¬ served)
    (served → en → fits → s.fld Fld.NQ_RING_LOG2 r ≤ 13 → Completes .packetCommit s (fun u =>
      u = { Begun s with nq := u.nq, integ := u.integ } ∧
      u.nq = { nq with slots := u.nq.slots, ends := u.nq.ends, rings := u.nq.rings } ∧ (∀ k, k ≠ r → u.ringE k = s.ringE k) ∧
      u.ringE r = { q with wp := (q.wp + p.length) % (2 * size), pkts := q.pkts + 1, gapOpen := false, mark := (u.ringE r).mark } ∧
      (∀ k, k < p.length → slotW u (slot k) = p.getD k 0 ∧ slotEnd u (slot k) = (p.getD k 0).getLsbD 127) ∧
      (∀ x, (∀ k, k < p.length → slot k ≠ x) → slotW u x = slotW s x ∧ slotEnd u x = slotEnd s x) ∧
      (∀ rp n, q.mark = .valid rp n → (u.ringE r).mark =
        if (List.range p.length).any (fun k => ringSlot s r rp == slot k) then .lost else .valid rp n) ∧
      ((∀ rp n, q.mark ≠ .valid rp n) → (u.ringE r).mark = q.mark))) ∧
    (dropped → ¬ en → Completes .packetCommit s (fun u => u = { Begun s with nq := nq, regs := u.regs } ∧ counted u)) ∧
    (away → en → q.gapOpen = false → ringOcc s r < size → Completes .packetCommit s (fun u =>
      u = { Begun s with nq := u.nq, integ := u.integ, regs := u.regs } ∧ counted u ∧
      u.nq = { nq with slots := u.nq.slots, ends := u.nq.ends, rings := u.nq.rings } ∧ (∀ k, k ≠ r → u.ringE k = s.ringE k) ∧
      u.ringE r = { q with wp := (q.wp + 1) % (2 * size), pkts := q.pkts + 1, gapOpen := true, mark := (u.ringE r).mark } ∧
      slotW u (slot 0) = recOf ([(0x7F, 0, 8), (r, 8, 3), (p.length, 16, 32), (1, 48, 16), (typ, 64, 8)] ++ recTail s.time) ∧
      slotEnd u (slot 0) = true ∧ ∀ x, x ≠ slot 0 → slotW u x = slotW s x ∧ slotEnd u x = slotEnd s x)) ∧
    (away → en → q.gapOpen = true → Completes .packetCommit s (fun u =>
      let x := ringSlot s r (q.wp + 2 * size - 1)
      u = { Begun s with nq := u.nq, integ := u.integ, regs := u.regs } ∧ counted u ∧ u.nq = { nq with slots := u.nq.slots } ∧
      (∀ k, k ≠ x → slotW u k = slotW s k) ∧
      bits (slotW u x).toNat 16 32 = min (bits (slotW s x).toNat 16 32 + p.length) (2 ^ 32 - 1) ∧
      bits (slotW u x).toNat 48 16 = min (bits (slotW s x).toNat 48 16 + 1) 65535 ∧
      bits (slotW u x).toNat 0 16 = bits (slotW s x).toNat 0 16 ∧ bits (slotW u x).toNat 64 63 = bits (slotW s x).toNat 64 63)) ∧
    (away → en → q.gapOpen = false → ¬ ringOcc s r < size → Completes .packetCommit s (fun u =>
      u = { Begun s with nq := nq, regs := u.regs } ∧ counted u)) ∧
    (s.nq.readyFc = [] → s.nq.readyLehr = [] → s.nq.readyTel = [] → s.nq.readyPar = [] → s.nq.readyThr = [] →
      Completes .packetCommit s (fun u => u = Begun s))

/-- R431, R432, R434, R436, R449: the reader pops a record and drops a packet; a ring is marked and rewound; EN is written. -/
def Obligations.QueueReader : Prop :=
  ∀ (s : State), s.dft = false → Awake s → Intact s →
    let others := fun (r : Nat) (u : State) => u.nq = { s.nq with rings := u.nq.rings, lock := u.nq.lock } ∧
      ∀ k, k ≠ r → u.ringE k = s.ringE k
    let frame := fun (l : List Nat) (u : State) => u = { Begun s with nq := u.nq, regs := u.regs } ∧ RegsBut s u l
    (s.nq.lock = none → (∀ r, r < 8 → (s.ringE r).pkts = 0) → Completes .nqPop s (fun u =>
      u = { Begun s with regs := u.regs, rdata := BitVec.ofNat 32 (s.fld Fld.NQ_RD0_BITS) } ∧
      RegsBut s u [fldAt Fld.NQ_STATUS_UNDERRUN] ∧ u.fld Fld.NQ_STATUS_UNDERRUN = 1)) ∧
    (∀ r, r < 8 → s.nq.lock = some r ∨ (s.nq.lock = none ∧ (s.ringE r).pkts ≠ 0 ∧ ∀ k, k < r → (s.ringE k).pkts = 0) →
      let q := s.ringE r
      let k := ringSlot s r q.rp
      let w := (slotW s k).toNat
      let e := b2n (slotEnd s k)
      Completes .nqPop s (fun u =>
        u = { Begun s with nq := u.nq, regs := u.regs, rdata := BitVec.ofNat 32 w } ∧ others r u ∧
        RegsBut s u [fldAt Fld.NQ_RD0_BITS, fldAt Fld.NQ_RD_BITS 0, fldAt Fld.NQ_RD_BITS 1, fldAt Fld.NQ_RD_BITS 2,
          fldAt Fld.NQ_RD_INFO_RING] ∧
        u.fld Fld.NQ_RD0_BITS = bits w 0 32 ∧ (∀ i, i < 3 → u.fld Fld.NQ_RD_BITS i = bits w (32 + 32 * i) 32) ∧
        u.fld Fld.NQ_RD_INFO_RING = r ∧ u.fld Fld.NQ_RD_INFO_END = e ∧ u.fld Fld.NQ_RD_INFO_BAD = 0 ∧
        u.nq.lock = (if e = 1 then none else some r) ∧
        (u.ringE r).rp = (q.rp + 1) % (2 * ringSize s r) ∧ (u.ringE r).wp = q.wp ∧ (u.ringE r).pkts = q.pkts - e ∧
        (∀ rp n, q.mark = .valid rp n → (u.ringE r).mark = .valid rp (n + e)) ∧
        (s.nq.lock = none → (u.ringE r).pktStart = q.rp))) ∧
    (s.nq.lock = none → Completes .nqDropPkt s (fun u => OnlyRegs s u [fldAt Fld.NQ_DROP_PKT_DROPPED] ∧
      u.fld Fld.NQ_DROP_PKT_DROPPED = 0)) ∧
    (∀ r i, s.nq.lock = some r → i < 8 →
      let q := s.ringE r
      let ends := fun k => slotEnd s (ringSlot s r (q.rp + k))
      ends i = true → (∀ k, k < i → ends k = false) → Completes .nqDropPkt s (fun u =>
        frame [fldAt Fld.NQ_DROP_PKT_DROPPED] u ∧ others r u ∧ u.fld Fld.NQ_DROP_PKT_DROPPED = i + 1 ∧ u.nq.lock = none ∧
        (u.ringE r).rp = (q.rp + i + 1) % (2 * ringSize s r) ∧ (u.ringE r).wp = q.wp ∧ (u.ringE r).pkts = q.pkts - 1 ∧
        ∀ rp n, q.mark = .valid rp n → (u.ringE r).mark = .valid rp (n + 1))) ∧
    (∀ r3 : BitVec 3,
      let r := r3.toNat
      let q := s.ringE r
      Completes (.nqMark r3) s (fun u => frame [fldAt Fld.NQ_MARK_RING] u ∧ others r u ∧ u.nq.lock = s.nq.lock ∧
        u.fld Fld.NQ_MARK_RING = r ∧
        u.ringE r = { q with mark := .valid (if s.nq.lock = some r then q.pktStart else q.rp) 0 }) ∧
      (∀ rp n, q.mark = .valid rp n → Completes (.nqRewind r3) s (fun u => frame [fldAt Fld.NQ_REWIND_RING] u ∧ others r u ∧
        u.fld Fld.NQ_REWIND_RING = r ∧ u.fld Fld.NQ_REWIND_STATUS = 1 ∧
        u.nq.lock = (if s.nq.lock = some r then none else s.nq.lock) ∧
        u.ringE r = { q with rp := rp, pkts := q.pkts + n, mark := .valid rp 0 })) ∧
      (q.mark = .lost ∨ q.mark = .never → Completes (.nqRewind r3) s (fun u => OnlyRegs s u [fldAt Fld.NQ_REWIND_RING] ∧
        u.fld Fld.NQ_REWIND_RING = r ∧ u.fld Fld.NQ_REWIND_STATUS = if q.mark = .lost then 2 else 3))) ∧
    (let lose := fun (u : State) => ∀ r, (u.ringE r).mark = if (s.ringE r).mark = .never then .never else .lost
     Completes (.nqEnWrite false) s (fun u => frame [fldAt Fld.NQ_CTL_EN] u ∧ u.fld Fld.NQ_CTL_EN = 0 ∧
        u.nq = { s.nq with rings := u.nq.rings } ∧ ∀ r, u.ringE r = markLost (s.ringE r)) ∧
      (layoutOk s = true → SMap.sorted s.nq.rings = true → Completes (.nqEnWrite true) s (fun u => frame [fldAt Fld.NQ_CTL_EN] u ∧
        u.fld Fld.NQ_CTL_EN = 1 ∧ u.nq = { s.nq with rings := u.nq.rings, lock := none } ∧ lose u ∧
        ∀ r, ringOcc u r = 0 ∧ (u.ringE r).pkts = 0 ∧ (u.ringE r).gapOpen = false)) ∧
      (layoutOk s = false → Completes (.nqEnWrite true) s (fun u => frame [fldAt Fld.NQ_CTL_EN, fldAt Fld.NQ_STATUS_CFG_ERR] u ∧
        u.fld Fld.NQ_CTL_EN = 0 ∧ u.fld Fld.NQ_STATUS_CFG_ERR = 1 ∧ u.nq = { s.nq with rings := u.nq.rings } ∧
        ∀ r, u.ringE r = markLost (s.ringE r))))

/-- R438, R439, R441 to R446, R456, R457, R459: Lehr messages and the fall-back, the interrupt controller, the command window.
What rests on a choice or an inference of the model: log 29, 77. -/
def Obligations.MessagesInterruptsCommands : Prop :=
  ∀ (s : State), s.dft = false → Intact s →
    (s.fb.msgs = [] → Completes .lehrMessage s (fun u => u = Begun s)) ∧
    (∀ m l, s.fb.msgs = m :: l →
      (s.coreUp = true → s.sleepReady = false → Completes .lehrMessage s (fun u =>
        u = { Begun s with fb := { s.fb with msgs := l }, nq := { s.nq with readyLehr := s.nq.readyLehr ++ [[msgRec m]] } })) ∧
      (∀ w, s.coreUp = false ∨ s.sleepReady = true → m = [w] →
        (∀ rs ws, s.fb.recs = rs ++ [(false, ws)] → Completes .lehrMessage s (fun u =>
          u = { Begun s with fb := { s.fb with msgs := l, recs := rs ++ [(ws.length == 3, ws ++ [w])] } })) ∧
        ((∀ e, s.fb.recs.getLast? = some e → e.1 = true) → s.fb.recs.length < 128 → Completes .lehrMessage s (fun u =>
          u = { Begun s with fb := { s.fb with msgs := l, recs := s.fb.recs ++ [(false, [w])] } })) ∧
        ((∀ e, s.fb.recs.getLast? = some e → e.1 = true) → 128 ≤ s.fb.recs.length → Completes .lehrMessage s (fun u =>
          u = { Begun s with fb := { s.fb with msgs := l }, regs := u.regs } ∧ RegsBut s u [fldAt Fld.NQ_FB_STAT_DROPS] ∧
          u.fld Fld.NQ_FB_STAT_DROPS = min (s.fld Fld.NQ_FB_STAT_DROPS + 1) 65535)))) ∧
    (s.vaux = true →
      (s.fb.recs = [] → Completes .nqFbPop s (fun u =>
        u = { Begun s with regs := u.regs, rdata := BitVec.ofNat 32 (s.fld Fld.NQ_FB_RD0_BITS) } ∧
        RegsBut s u [fldAt Fld.NQ_FB_STAT_UNDERRUN] ∧ u.fld Fld.NQ_FB_STAT_UNDERRUN = 1)) ∧
      (∀ c ws l, s.fb.recs = (c, ws) :: l → ws.length ≤ 4 → Completes .nqFbPop s (fun u =>
        u = { Begun s with regs := u.regs, fb := { s.fb with recs := l, head := (s.fb.head + 1) % 128 }, rdata := ws.getD 0 0 } ∧
        RegsBut s u [fldAt Fld.NQ_FB_RD0_BITS, fldAt Fld.NQ_FB_RD_BITS 0, fldAt Fld.NQ_FB_RD_BITS 1, fldAt Fld.NQ_FB_RD_BITS 2,
          fldAt Fld.NQ_FB_STAT_BYTES] ∧
        u.fld Fld.NQ_FB_RD0_BITS = (ws.getD 0 0).toNat ∧ (∀ k, k < 3 → u.fld Fld.NQ_FB_RD_BITS k = (ws.getD (k + 1) 0).toNat) ∧
        u.fld Fld.NQ_FB_STAT_BYTES = 4 * ws.length))) ∧
    (s.vaux = true → s.coreUp = true →
      (∀ (k : BitVec 4) (v : BitVec 32),
        let named := fun n => n / 32 = k.toNat ∧ bit1 v.toNat (n % 32) = true
        Completes (.icPendWrite k v) s (fun u => u = { Begun s with irq := { s.irq with pend := u.irq.pend } } ∧
          ∀ n, n ∈ u.irq.pend ↔ n ∈ s.irq.pend ∨ named n) ∧
        Completes (.icPclrWrite k v) s (fun u => u = { Begun s with irq := { s.irq with pend := u.irq.pend } } ∧
          ∀ n, n ∈ u.irq.pend ↔ n ∈ s.irq.pend ∧ ¬ named n)) ∧
      (∀ t5 : BitVec 5, t5.toNat < 24 →
        let t := t5.toNat
        let eligible := fun n => n ∈ s.irq.pend ∧ s.fld Fld.IC_SRC_PRIO n ≠ 0 ∧ bit1 (s.fld Fld.IC_SRC_TMASK n) t = true ∧
          s.fld Fld.IC_THRESH_THRESH t < s.fld Fld.IC_SRC_PRIO n
        ((∀ n, ¬ eligible n) → Completes (.icClaim t5) s (fun u => u = { Begun s with rdata := 0x3FF#32 })) ∧
        (∀ n, eligible n → (∀ m, eligible m → s.fld Fld.IC_SRC_PRIO m < s.fld Fld.IC_SRC_PRIO n ∨
            (s.fld Fld.IC_SRC_PRIO m = s.fld Fld.IC_SRC_PRIO n ∧ n ≤ m)) → s.irq.pend.Pairwise (· < ·) →
          Completes (.icClaim t5) s (fun u => u = { Begun s with
            irq := { s.irq with pend := s.irq.pend.filter (fun m => m ≠ n) }
            rdata := BitVec.ofNat 32 (n + 2 ^ 16 * s.fld Fld.IC_SRC_PRIO n) }))) ∧
      (let code := s.fld Fld.CMD_DESC_CODE
       let arg := fun k => s.fld Fld.CMD_ARG_ARG k
       let res := [fldAt Fld.CMD_GO_BUSY_ERR, fldAt Fld.CMD_RES_DONE, fldAt Fld.CMD_VAL_VALUE]
       let taken := fun (u : State) => u.fld Fld.CMD_RES_SEQ = (s.fld Fld.CMD_RES_SEQ + 1) % 65536 ∧ u.fld Fld.CMD_VAL_VALUE = 0 ∧
         RegsBut s u res
       let refused := fun (c : Nat) (u : State) => u = { Begun s with regs := u.regs, irq := u.irq, cmd := none } ∧ taken u ∧
         u.irq = { s.irq with pend := insertSorted 3 (insertSorted 6 s.irq.pend) } ∧ u.fld Fld.CMD_RES_DONE = 1 ∧
         u.fld Fld.CMD_RES_CODE = c
       (s.fld Fld.CMD_RES_DONE = 0 → Completes .cmdGo s (fun u => OnlyRegs s u [fldAt Fld.CMD_GO_BUSY_ERR] ∧
         u.fld Fld.CMD_GO_BUSY_ERR = 1)) ∧
       (s.fld Fld.CMD_RES_DONE = 1 →
         (s.fld Fld.BOOT_STATUS_CODE ≠ 2 → Completes .cmdGo s (refused 2)) ∧
         (s.fld Fld.BOOT_STATUS_CODE = 2 → code ∉ cmdCodes → Completes .cmdGo s (refused 1)) ∧
         (s.fld Fld.BOOT_STATUS_CODE = 2 → code ∈ cmdCodes → cmdArgsOk code (arg 0) (arg 1) (arg 2) (arg 3) = false →
           Completes .cmdGo s (refused 4)) ∧
         (s.fld Fld.BOOT_STATUS_CODE = 2 → code ∈ cmdCodes → cmdArgsOk code (arg 0) (arg 1) (arg 2) (arg 3) = true →
           Completes .cmdGo s (fun u => u = { Begun s with regs := u.regs, irq := u.irq, cmd := u.cmd } ∧ taken u ∧
             u.irq = { s.irq with pend := insertSorted 6 s.irq.pend } ∧ u.fld Fld.CMD_RES_DONE = 0 ∧
             ∃ c, u.cmd = some c ∧ c.code = code ∧ c.phase = 0 ∧ ∀ k, k < 4 → cmdArg c k = arg k)))) ∧
      (∀ (t : BitVec 6) (code : BitVec 8) (seq : BitVec 16) (val : BitVec 32),
        let row := Instr.cmdPost t code seq val
        (runsCmds s t.toNat = false → Completes row s (fun u => u = Begun s)) ∧
        (runsCmds s t.toNat = true → s.fld Fld.CMD_RES_SEQ ≠ seq.toNat ∨ s.fld Fld.CMD_RES_DONE = 1 → Completes row s (fun u =>
          OnlyRegs s u [fldAt Fld.CMD_POST_VAL_VALUE] ∧ u.fld Fld.CMD_POST_VAL_VALUE = val.toNat)) ∧
        (runsCmds s t.toNat = true → s.fld Fld.CMD_RES_SEQ = seq.toNat → s.fld Fld.CMD_RES_DONE = 0 → Completes row s (fun u =>
          u = { Begun s with regs := u.regs, irq := { s.irq with pend := insertSorted 3 s.irq.pend }, cmd := none } ∧
          RegsBut s u [fldAt Fld.CMD_POST_VAL_VALUE, fldAt Fld.CMD_RES_DONE, fldAt Fld.CMD_VAL_VALUE] ∧
          u.fld Fld.CMD_RES_DONE = 1 ∧ u.fld Fld.CMD_RES_CODE = code.toNat ∧ u.fld Fld.CMD_RES_SEQ = seq.toNat ∧
          u.fld Fld.CMD_VAL_VALUE = val.toNat))))

/-- R490 to R492, R504: an attempt of Punty bring-up starts, fails, backs off and starts again; a port is enabled and
disabled, and loses and regains a lane. What rests on a choice or an inference of the model: log 65, 67. -/
def Obligations.PortBringUp : Prop :=
  ∀ (pp : BitVec 2) (s : State), s.dft = false →
    let p := pp.toNat
    let q := s.ptp p
    let ctl := fldAt Fld.PT_CTL_EN p
    let frame := fun (t : Nat) (l : List Nat) (u : State) => u = { Begun s with
        pt := u.pt, irq := u.irq, nq := u.nq, fault := u.fault, regs := u.regs, ptTx := u.ptTx
        now := max s.now t, lehrNow := max s.lehrNow t } ∧
      u.pt = { s.pt with port := u.pt.port } ∧ (∀ k, k ≠ p → u.ptp k = s.ptp k) ∧ RegsBut s u l
    let record := fun (st : Nat) (u : State) =>
      recOf ([(0x78, 0, 8), (p, 8, 2), (st, 10, 3), ((u.ptp p).attempt, 13, 4)] ++ recTail u.now)
    let event := fun (st : Nat) (u : State) =>
      (q.state = st → u.irq = s.irq ∧ u.nq = s.nq) ∧
      (q.state ≠ st → u.irq = { s.irq with pend := insertSorted (32 + p) s.irq.pend } ∧
        u.nq = { s.nq with readyPar := s.nq.readyPar ++ [[record st u]] })
    let cap :=
      (⟨1, 0, false, 63, payOf [(s.instId, 4, 1), (1, 5, 1), (3, 6, 1), (0x07FE, 8, 2)]⟩ : PtFrame)
    let training := fun (b : PtPort) (k : Nat) (u : State) => u.ptTx = [(p, cap)] ∧ u.fault = s.fault ∧
      u.ptp p = { b with
        state := 1, attempt := k, dl := u.now + 100000, seq := 1, rx := 63, nak := false, replay := [cap], waitq := []
        capOut := true }
    let fresh := { q with seq := 0, rx := 63, nak := false, replay := [], waitq := [] }
    let quiet := fun (u : State) => u.ptTx = [] ∧ u.fault = s.fault
    (s.vaux = true → s.coreUp = true → ∀ v : BitVec 32,
      (v.toNat % 2 = 0 → Completes (.ptEnable pp v) s (fun u => frame 0 [ctl] u ∧ event 0 u ∧ quiet u ∧ u.ptp p = ptPort0 ∧
        u.fld Fld.PT_CTL_EN p = 0 ∧ u.fld Fld.PT_CTL_BG_RETRY p = bits v.toNat 2 1)) ∧
      (v.toNat % 2 = 1 → s.mode ≠ 1 → s.fld Fld.PT_CTL_EN p = 0 ∨ q.state = 6 → Completes (.ptEnable pp v) s (fun u =>
        frame 0 [ctl] u ∧ event 1 u ∧ training { q with same := false } 1 u ∧ u.fld Fld.PT_CTL_EN p = 1 ∧
        u.fld Fld.PT_CTL_BG_RETRY p = bits v.toNat 2 1 ∧ u.fld Fld.PT_CTL_CODING p =
          if s.fld Fld.PT_CTL_EN p = 0 then bits v.toNat 1 1 else s.fld Fld.PT_CTL_CODING p)) ∧
      (v.toNat % 2 = 1 → s.fld Fld.PT_CTL_EN p = 1 → q.state ≠ 6 → q.state ≠ 0 → Completes (.ptEnable pp v) s (fun u =>
        OnlyRegs s u [ctl] ∧ u.fld Fld.PT_CTL_EN p = 1 ∧ u.fld Fld.PT_CTL_CODING p = s.fld Fld.PT_CTL_CODING p ∧
        u.fld Fld.PT_CTL_BG_RETRY p = bits v.toNat 2 1))) ∧
    (ptRuns s = true →
      (q.state = 1 → q.attempt < 8 → Completes (.ptAttemptTimeout pp) s (fun u => frame q.dl [] u ∧ event 2 u ∧ quiet u ∧
        u.ptp p = { fresh with lock := 0, state := 2, dl := u.now + 100000 * 2 ^ (q.attempt - 1) })) ∧
      (q.state = 1 → 8 ≤ q.attempt → Completes (.ptAttemptTimeout pp) s (fun u =>
        frame q.dl [fldAt Fld.PT_ERR_ABSENT p] u ∧ event 5 u ∧ quiet u ∧ u.fld Fld.PT_ERR_ABSENT p = 1 ∧
        u.ptp p = { fresh with lock := 0, state := 5, dl := u.now + 1000000000 })) ∧
      (q.state ≠ 1 → Completes (.ptAttemptTimeout pp) s (fun u => u = Begun s)) ∧
      (q.state = 2 → Completes (.ptBackoffEnd pp) s (fun u => frame q.dl [] u ∧ event 1 u ∧ training q (q.attempt + 1) u)) ∧
      (q.state ≠ 2 → Completes (.ptBackoffEnd pp) s (fun u => u = Begun s)) ∧
      (q.state = 5 → s.fld Fld.PT_CTL_BG_RETRY p = 1 → Completes (.ptBgRetry pp) s (fun u =>
        frame q.dl [] u ∧ event 1 u ∧ training q 1 u)) ∧
      (q.state ≠ 5 ∨ s.fld Fld.PT_CTL_BG_RETRY p = 0 → Completes (.ptBgRetry pp) s (fun u => u = Begun s)) ∧
      (s.fld Fld.SLEEP_STATUS_STATE = 0 →
        (q.state = 2 → Completes (.ptIdleExit pp) s (fun u => frame 0 [] u ∧ event 1 u ∧ training q (q.attempt + 1) u)) ∧
        (q.state = 5 → s.fld Fld.PT_CTL_BG_RETRY p = 1 → Completes (.ptIdleExit pp) s (fun u =>
          frame 0 [] u ∧ event 1 u ∧ training q 1 u)) ∧
        (q.state ≠ 2 → q.state ≠ 5 ∨ s.fld Fld.PT_CTL_BG_RETRY p = 0 → Completes (.ptIdleExit pp) s (fun u => u = Begun s))) ∧
      (∀ lanes : BitVec 2,
        let lock := q.lock &&& (3 - lanes.toNat)
        (lanes ≠ 0 → q.state = 1 → Completes (.ptLockLoss pp lanes) s (fun u =>
          frame 0 [] u ∧ event 1 u ∧ training { q with lock := lock } 1 u)) ∧
        (lanes ≠ 0 → q.state = 3 ∨ q.state = 4 → lock ≠ 0 → lock ≠ q.lock → Completes (.ptLockLoss pp lanes) s (fun u =>
          frame 0 [fldAt Fld.PT_ERR_LANE p] u ∧ event 4 u ∧ u.ptTx = [] ∧ u.fault = { s.fault with held := u.fault.held } ∧
          Reported u 0x70 p ∧ u.fld Fld.PT_ERR_LANE p = 1 ∧ u.ptp p = { q with lock := lock, state := 4 })) ∧
        (lanes ≠ 0 → q.state = 3 ∨ q.state = 4 → lock = 0 → s.fld Fld.PT_CTL_BG_RETRY p = 0 ∨ q.same = true →
          Completes (.ptLockLoss pp lanes) s (fun u => frame 0 [] u ∧ event 6 u ∧ quiet u ∧
            u.ptp p = { fresh with lock := 0, dist := 255, pwr := none, t1 := none, state := 6 })) ∧
        (lanes ≠ 0 → q.state = 3 ∨ q.state = 4 → lock = 0 → s.fld Fld.PT_CTL_BG_RETRY p = 1 → q.same = false →
          Completes (.ptLockLoss pp lanes) s (fun u => frame 0 [] u ∧
            training { q with lock := 0, dist := 255, pwr := none, t1 := none } 1 u ∧
            u.irq = { s.irq with pend := insertSorted (32 + p) (insertSorted (32 + p) s.irq.pend) } ∧
            u.nq = { s.nq with readyPar := s.nq.readyPar ++ [[recOf ([(0x78, 0, 8), (p, 8, 2), (6, 10, 3), (q.attempt, 13, 4)] ++
              recTail s.now)], [record 1 u]] })) ∧
        (lanes = 0 ∨ (q.state ≠ 1 ∧ q.state ≠ 3 ∧ q.state ≠ 4) → Completes (.ptLockLoss pp lanes) s (fun u => u = Begun s))) ∧
      (q.state = 4 → Completes (.ptLaneRelock pp) s (fun u => frame 0 [] u ∧ event 3 u ∧ quiet u ∧
        u.ptp p = { q with lock := 3, state := 3 })) ∧
      (q.state ≠ 4 → Completes (.ptLaneRelock pp) s (fun u => u = Begun s)))

/-- R490, R493 to R495, R499, R504: a CAP frame brings a port UP and its first HB leaves; an ACK that does not advance resends
what is not acknowledged. What rests on a choice or an inference of the model: log 65. -/
def Obligations.CapAndReplay : Prop :=
  ∀ (pp : BitVec 2) (s : State), s.dft = false → ptRuns s = true →
    let p := pp.toNat
    let q := s.ptp p
    let frame := fun (l : List Nat) (u : State) => u = { Begun s with
        pt := u.pt, irq := u.irq, nq := u.nq, regs := u.regs, ptTx := u.ptTx } ∧
      u.pt = { s.pt with port := u.pt.port } ∧ (∀ k, k ≠ p → u.ptp k = s.ptp k) ∧ RegsBut s u l
    let event := fun (st : Nat) (u : State) => u.irq = { s.irq with pend := insertSorted (32 + p) s.irq.pend } ∧
      u.nq = { s.nq with readyPar := s.nq.readyPar ++
        [[recOf ([(0x78, 0, 8), (p, 8, 2), (st, 10, 3), (q.attempt, 13, 4)] ++ recTail s.now)]] }
    let same := fun (u : State) => u.irq = s.irq ∧ u.nq = s.nq
    let named := fun (inst ver : Nat) (u : State) =>
      u.fld Fld.PT_STATUS_PEER_ID p = inst ∧ u.fld Fld.PT_STATUS_PEER_VER p = ver % 16
    (∀ (h : PtHdr) (inst ver : BitVec 8) (lanes : BitVec 2) (types : BitVec 16),
      let row := Instr.cap pp h inst ver lanes types
      let acked := ptAck q h.ack.toNat
      let up := { acked with rx := h.seq.toNat, capOut := false, types := types.toNat, lock := 3, state := 3 }
      (q.state = 1 → h.crcOk = true → inst.toNat ≠ s.instId → q.capOut = true → bit1 types.toNat 2 = false →
        Completes row s (fun u => frame [fldAt Fld.PT_STATUS_PEER_ID p] u ∧ named inst.toNat ver.toNat u ∧ event 3 u ∧
          u.ptTx = [] ∧ u.ptp p = up)) ∧
      (q.state = 1 → h.crcOk = true → inst.toNat ≠ s.instId → q.capOut = true → bit1 types.toNat 2 = true → q.waitq = [] →
        acked.replay.length < 32 →
        Completes row s (fun u => frame [fldAt Fld.PT_STATUS_PEER_ID p] u ∧ named inst.toNat ver.toNat u ∧ event 3 u ∧
          ∃ f : PtFrame, f.typ = 2 ∧ f.seq = q.seq ∧ f.ack = h.seq.toNat ∧ f.nak = q.nak ∧ f.pay.toNat % 256 = s.instId % 256 ∧
            f.pay.toNat / 256 % 8 = s.mode ∧ u.ptTx = [(p, f)] ∧
            u.ptp p = { up with seq := (q.seq + 1) % 64, nak := false, replay := acked.replay ++ [f] })) ∧
      (q.state = 3 ∨ q.state = 4 → h.crcOk = true → inst.toNat ≠ s.instId → q.capOut = false →
        Completes row s (fun u => frame [fldAt Fld.PT_STATUS_PEER_ID p] u ∧ named inst.toNat ver.toNat u ∧ same u ∧
          ∃ f : PtFrame, f = ⟨1, 0, false, h.seq.toNat,
              payOf [(s.instId, 4, 1), (1, 5, 1), (q.lock, 6, 1), (0x07FE, 8, 2)]⟩ ∧ u.ptTx = [(p, f)] ∧
            u.ptp p = { q with
              seq := 1, rx := h.seq.toNat, nak := false, replay := [f], waitq := [], types := types.toNat })) ∧
      (q.state = 1 ∨ q.state = 3 ∨ q.state = 4 → h.crcOk = true → inst.toNat = s.instId →
        Completes row s (fun u => frame [fldAt Fld.PT_ERR_SAME_ID p] u ∧ u.fld Fld.PT_ERR_SAME_ID p = 1 ∧ event 6 u ∧ u.ptTx = [] ∧
          u.ptp p = { q with
            seq := 0, rx := 63, nak := false, replay := [], waitq := [], same := true, lock := 0, dist := 255, pwr := none
            state := 6 })) ∧
      (q.state = 1 ∨ q.state = 3 ∨ q.state = 4 → h.crcOk = false →
        Completes row s (fun u => frame [fldAt Fld.PT_ERR_CRC p, fldAt Fld.PT_CNT_CRC_N p] u ∧ same u ∧ u.ptTx = [] ∧
          u.fld Fld.PT_ERR_CRC p = 1 ∧ u.fld Fld.PT_CNT_CRC_N p = min (s.fld Fld.PT_CNT_CRC_N p + 1) 65535 ∧
          u.ptp p = { q with nak := true })) ∧
      (q.state ≠ 1 → q.state ≠ 3 → q.state ≠ 4 → Completes row s (fun u => u = Begun s))) ∧
    (q.state = 3 ∨ q.state = 4 → Completes (.ptReplayTimeout pp) s (fun u =>
      let fs := q.replay.map (fun f => { f with ack := q.rx, nak := q.nak })
      frame [fldAt Fld.PT_CNT_REPLAY_N p] u ∧ same u ∧ u.ptTx = fs.map (fun f => (p, f)) ∧
      u.fld Fld.PT_CNT_REPLAY_N p = min (s.fld Fld.PT_CNT_REPLAY_N p + fs.length) 65535 ∧
      u.fld Fld.PT_CNT_CRC_N p = s.fld Fld.PT_CNT_CRC_N p ∧
      u.ptp p = { q with replay := fs, nak := if q.replay = [] then q.nak else false })) ∧
    (q.state ≠ 3 → q.state ≠ 4 → Completes (.ptReplayTimeout pp) s (fun u => u = Begun s))

/-- R494, R496, R498 to R500: heartbeats of Punty partners, and the loss of one. -/
def Obligations.PeerHeartbeats : Prop :=
  ∀ (s : State), s.dft = false → ptRuns s = true →
    let quiet := fun (u : State) => u.irq = s.irq ∧ u.nq = s.nq
    (∀ (pp : BitVec 2) (h : PtHdr) (inst dist : BitVec 8),
      let p := pp.toNat
      let q := s.ptp p
      let x := inst.toNat
      let row := Instr.hb pp h inst dist
      let frame := fun (l : List Nat) (u : State) => u = { Begun s with
          pt := u.pt, irq := u.irq, nq := u.nq, regs := u.regs, ptTx := u.ptTx } ∧ RegsBut s u l ∧
        (∀ k, k ≠ p → u.ptp k = s.ptp k) ∧ u.pt = { s.pt with port := u.pt.port, heard := u.pt.heard, lost := u.pt.lost }
      (Hears s p h → x ≠ s.instId → Completes row s (fun u => frame [] u ∧ u.ptTx = [] ∧
        u.ptp p = { heardPort q h with dist := dist.toNat } ∧ u.pt.lost = s.pt.lost.filter (· ≠ x) ∧
        SMap.getD (fun _ => 0) u.pt.heard x = s.now + 1 ∧
        (∀ y, y ≠ x → SMap.getD (fun _ => 0) u.pt.heard y = SMap.getD (fun _ => 0) s.pt.heard y) ∧
        (x ∉ s.pt.lost → quiet u) ∧ (x ∈ s.pt.lost → Notes s u 36 [(0x79, 0, 8), (x, 8, 8), (1, 16, 1), (0, 17, 1)]))) ∧
      (Hears s p h → x = s.instId → Completes row s (fun u => frame [fldAt Fld.PT_ERR_SAME_ID p] u ∧ u.ptTx = [] ∧
        u.fld Fld.PT_ERR_SAME_ID p = 1 ∧ u.pt = { s.pt with port := u.pt.port } ∧
        Notes s u (32 + p) [(0x78, 0, 8), (p, 8, 2), (6, 10, 3), (q.attempt, 13, 4)] ∧
        u.ptp p = { q with
          seq := 0, rx := 63, nak := false, replay := [], waitq := [], same := true, lock := 0, dist := 255, pwr := none
          state := 6 })) ∧
      (ptUp s p = true → h.crcOk = false → Completes row s (fun u =>
        frame [fldAt Fld.PT_ERR_CRC p, fldAt Fld.PT_CNT_CRC_N p] u ∧ u.ptTx = [] ∧ quiet u ∧
        u.fld Fld.PT_ERR_CRC p = 1 ∧ u.fld Fld.PT_CNT_CRC_N p = min (s.fld Fld.PT_CNT_CRC_N p + 1) 65535 ∧
        u.pt = { s.pt with port := u.pt.port } ∧ u.ptp p = { q with nak := true })) ∧
      (ptUp s p = true → h.crcOk = true → h.nak = false → q.waitq = [] → h.seq.toNat ≠ (q.rx + 1) % 64 →
        Completes row s (fun u => frame [] u ∧ u.ptTx = [] ∧ quiet u ∧ u.pt = { s.pt with port := u.pt.port } ∧
          u.ptp p = ptAck q h.ack.toNat)) ∧
      (ptUp s p = true → h.crcOk = true → h.nak = true → q.waitq = [] → h.seq.toNat ≠ (q.rx + 1) % 64 →
        let b := ptAck q h.ack.toNat
        let fs := b.replay.map (fun f => { f with ack := q.rx, nak := q.nak })
        Completes row s (fun u => frame [fldAt Fld.PT_CNT_REPLAY_N p] u ∧ quiet u ∧ u.pt = { s.pt with port := u.pt.port } ∧
          u.ptTx = fs.map (fun f => (p, f)) ∧
          u.fld Fld.PT_CNT_REPLAY_N p = min (s.fld Fld.PT_CNT_REPLAY_N p + fs.length) 65535 ∧
          u.ptp p = { b with replay := fs, nak := if fs = [] then q.nak else false })) ∧
      (ptUp s p = false → Completes row s (fun u => u = Begun s))) ∧
    ((∀ k, k ∈ upPorts s → CanSend (s.ptp k) 2) → Completes .hbSend s (fun u =>
      u = { Begun s with pt := u.pt, ptTx := u.ptTx } ∧ u.pt = { s.pt with port := u.pt.port } ∧
      u.ptTx.map (·.1) = upPorts s ∧ (∀ k, ptUp s k = false → u.ptp k = s.ptp k) ∧
      ∀ k, k ∈ upPorts s → ∃ pay : BitVec 256, pay.toNat % 256 = s.instId % 256 ∧ pay.toNat / 256 % 8 = s.mode % 8 ∧
        pay.toNat / 65536 = ptDist s ∧ (k, frameOf (s.ptp k) 2 pay) ∈ u.ptTx ∧ u.ptp k = afterSend (s.ptp k) 2 pay)) ∧
    (∀ inst : BitVec 8,
      let x := inst.toNat
      let t := SMap.getD (fun _ => 0) s.pt.heard x
      (t = 0 → Completes (.peerHbLoss inst) s (fun u => u = Begun s)) ∧
      (t ≠ 0 → Completes (.peerHbLoss inst) s (fun u =>
        let due := t - 1 + 30000
        u = { Begun s with
          pt := u.pt, irq := u.irq, nq := u.nq, regs := u.regs, fault := u.fault, ptTx := u.ptTx
          now := max s.now due, lehrNow := max s.lehrNow due } ∧
        u.fld Fld.PT_LOST_LOST (x / 32) = s.fld Fld.PT_LOST_LOST (x / 32) ||| 2 ^ (x % 32) ∧
        RegsBut s u [fldAt Fld.PT_LOST_LOST (x / 32)] ∧ Reported u 0x72 x ∧
        Notes s u 36 [(0x79, 0, 8), (x, 8, 8), (0, 16, 1), (0, 17, 1)] ∧ Floods s u 10 [(x, 8, 1)] ∧
        SMap.getD (fun _ => 0) u.pt.heard x = 0 ∧ u.pt.lost = insertSorted x s.pt.lost ∧
        ∀ y, y ≠ x → SMap.getD (fun _ => 0) u.pt.heard y = SMap.getD (fun _ => 0) s.pt.heard y)))

/-- R17, R468, R500, R501: time synchronisation and the package share. The halving of an odd offset toward minus infinity is
the model's (log 68). -/
def Obligations.TimeAndPackagePower : Prop :=
  ∀ (s : State), s.dft = false → ptRuns s = true →
    let link := fun (p : Nat) (u : State) => (∀ k, k ≠ p → u.ptp k = s.ptp k) ∧ u.pt.oseq = s.pt.oseq ∧ u.pt.seen = s.pt.seen ∧
      u.pt.heard = s.pt.heard ∧ u.pt.lost = s.pt.lost ∧ u.pt.n = s.pt.n
    (s.fld Fld.PT_GCTL_TSYNC_EN = 0 ∨ ptUpstream s = 7 → Completes .tsyncPeriod s (fun u => u = Begun s)) ∧
    (s.fld Fld.PT_GCTL_TSYNC_EN = 1 → ptUpstream s ≠ 7 → CanSend (s.ptp (ptUpstream s)) 5 → Completes .tsyncPeriod s (fun u =>
      let p := ptUpstream s
      let pay := payOf [(s.now, 4, 8)]
      u = { Begun s with pt := u.pt, ptTx := [(p, frameOf (s.ptp p) 5 pay)] } ∧ u.pt = { s.pt with port := u.pt.port } ∧
      link p u ∧ u.ptp p = { afterSend (s.ptp p) 5 pay with t1 := some s.now })) ∧
    (∀ (pp : BitVec 2) (h : PtHdr), Hears s pp.toNat h →
      let p := pp.toNat
      let b := heardPort (s.ptp p) h
      (∀ t1 : BitVec 64, CanSend b 6 → Completes (.tsyncReq pp h t1) s (fun u =>
        let pay := payOf [(t1.toNat, 4, 8), (s.now, 12, 8), (s.now, 20, 8)]
        u = { Begun s with pt := u.pt, ptTx := [(p, frameOf b 6 pay)] } ∧ u.pt = { s.pt with port := u.pt.port } ∧ link p u ∧
        u.ptp p = afterSend b 6 pay)) ∧
      (∀ t1 t2 t3 : BitVec 64,
        ((s.ptp p).t1 ≠ some t1.toNat → Completes (.tsyncRsp pp h t1 t2 t3) s (fun u =>
          u = { Begun s with pt := u.pt } ∧ u.pt = { s.pt with port := u.pt.port } ∧ link p u ∧ u.ptp p = b)) ∧
        ((s.ptp p).t1 = some t1.toNat → Completes (.tsyncRsp pp h t1 t2 t3) s (fun u =>
          let off : Int := (((t2.toNat : Int) - t1.toNat) - ((s.now : Int) - t3.toNat)) / 2
          let step := s.pt.first = false ∧ 10000 < off
          let bad := if 100000 < off.natAbs then s.pt.badRun + 1 else 0
          u = { Begun s with
            pt := u.pt, regs := u.regs, irq := u.irq, lehr := u.lehr, now := u.now, lehrNow := u.lehrNow } ∧ link p u ∧
          u.ptp p = { b with t1 := none } ∧ RegsBut s u [fldAt Fld.PT_TSYNC_OFS_OFS, fldAt Fld.PT_TSYNC_LOCKED] ∧
          (-(2 ^ 31) ≤ off → off < 2 ^ 31 → (u.fld Fld.PT_TSYNC_OFS_OFS : Int) = off % 2 ^ 32) ∧
          (u.fld Fld.PT_TSYNC_LOCKED = 1 ↔ off.natAbs < 100) ∧ u.pt.first = true ∧
          (bad = 10 → u.pt.badRun = 0 ∧ u.irq = { s.irq with pend := insertSorted 38 s.irq.pend }) ∧
          (bad ≠ 10 → u.pt.badRun = bad ∧ u.irq = s.irq) ∧
          (step → (u.now : Int) = s.now + off ∧ (u.lehrNow : Int) = s.lehrNow + off ∧ u.lehr = s.lehr) ∧
          (¬ step → u.now = s.now ∧ u.lehrNow = s.lehrNow ∧ u.lehr = { s.lehr with slew := u.lehr.slew } ∧
            -1000 ≤ u.lehr.slew ∧ u.lehr.slew ≤ 1000 ∧ (-1000 ≤ off → off ≤ 1000 → u.lehr.slew = off))))) ∧
      (∀ (inst : BitVec 8) (demand budget : BitVec 16), Completes (.pwr pp h inst demand budget) s (fun u =>
        u = { Begun s with pt := u.pt } ∧ u.pt = { s.pt with port := u.pt.port } ∧ link p u ∧ u.ptp p =
          if inst.toNat / 4 = s.instId / 4 then { b with pwr := some (s.now, demand.toNat, budget.toNat) } else b))) ∧
    (s.fld Fld.PT_PKG_BUDGET = 0 → Completes .pwrSend s (fun u => u = Begun s)) ∧
    (s.fld Fld.PT_PKG_BUDGET ≠ 0 → Completes .pwrSend s (fun u =>
      let mine := iAvg s % 65536
      let recent := (pkgPorts s).filterMap (fun k => (s.ptp k).pwr.bind (fun e =>
        if s.now ≤ e.1 + 300000 then some (s.fld Fld.PT_STATUS_PEER_ID k, k, e) else none))
      let heard := (recent.filter (fun e => recent.all (fun x => x.1 != e.1 || x.2.1 == e.2.1 || decide (x.2.2.1 < e.2.2.1) ||
        (x.2.2.1 == e.2.2.1 && decide (e.2.1 < x.2.1))))).map (fun e => e.2.2.2)
      let n := heard.length + 1
      let b := heard.foldl (fun m e => min m e.2) (s.fld Fld.PT_PKG_BUDGET)
      let sum := (mine :: heard.map (·.1)).sum
      let pay := payOf [(s.instId, 4, 1), (mine, 6, 2), (s.fld Fld.PT_PKG_BUDGET, 8, 2)]
      u = { Begun s with pt := u.pt, ptTx := u.ptTx, regs := u.regs } ∧ u.pt = { s.pt with port := u.pt.port, n := n } ∧
      RegsBut s u [fldAt Fld.GOV_PKG_SHARE] ∧
      (sum = 0 → u.fld Fld.GOV_PKG_SHARE = b / n % 65536) ∧
      (sum ≠ 0 → u.fld Fld.GOV_PKG_SHARE = (b / (2 * n) + (b - n * (b / (2 * n))) * mine / sum) % 65536) ∧
      (∀ k, k ∉ pkgPorts s → u.ptp k = s.ptp k) ∧
      ∀ k, k ∈ pkgPorts s → CanSend (s.ptp k) 7 →
        (k, frameOf (s.ptp k) 7 pay) ∈ u.ptTx ∧ u.ptp k = afterSend (s.ptp k) 7 pay))

/-- R216, R412, R421, R496 to R498: the flooded frames FAULT, FREEZE, LOST and DEAD, which waits while CORE's start runs, and
a flooded frame that was accepted before. -/
def Obligations.FloodedFrames : Prop :=
  ∀ (pp : BitVec 2) (h : PtHdr) (f : Flood) (s : State), s.dft = false → Hears s pp.toNat h →
    let p := pp.toNat
    let o := f.origin.toNat
    let stale := fun (u : State) => u = { Begun s with pt := u.pt } ∧ u.pt = { s.pt with port := u.pt.port } ∧
      (∀ k, k ≠ p → u.ptp k = s.ptp k) ∧ u.ptp p = heardPort (s.ptp p) h
    (∀ (code : BitVec 8) (subject : BitVec 16) (sev : BitVec 2) (inj : Bool),
      let row := Instr.faultFrame pp h f code subject sev inj
      (¬ NewFlood s f → Completes row s stale) ∧
      (NewFlood s f → Completes row s (fun u =>
        u = { Begun s with pt := u.pt, ptTx := u.ptTx, regs := u.regs, fault := { s.fault with held := u.fault.held } } ∧
        Flooded s u p 3 h f [(code.toNat, 8, 1), (sev.toNat + 4 * b2n inj, 9, 1), (subject.toNat, 10, 2)] ∧
        u.pt = { s.pt with port := u.pt.port, seen := u.pt.seen } ∧ Reported u 0x71 o ∧ RegsBut s u [fldAt Fld.FC_PEER_SEV_PT] ∧
        (∀ k, k < 4 → bits (u.fld Fld.FC_PEER_SEV_PT) (2 * k) 2 =
          if k = p then max (bits (s.fld Fld.FC_PEER_SEV_PT) (2 * k) 2) sev.toNat else bits (s.fld Fld.FC_PEER_SEV_PT) (2 * k) 2) ∧
        u.fld Fld.FC_PEER_SYS_FATAL = if sev.toNat = 3 then min (s.fld Fld.FC_PEER_SYS_FATAL + 1) 65535
          else s.fld Fld.FC_PEER_SYS_FATAL))) ∧
    (∀ cause : BitVec 8,
      (¬ NewFlood s f → Completes (.freezeFrame pp h f cause) s stale) ∧
      (NewFlood s f → Completes (.freezeFrame pp h f cause) s (fun u =>
        u = { Begun s with pt := u.pt, ptTx := u.ptTx, frzReq := u.frzReq, frzOrigin := u.frzOrigin } ∧
        Flooded s u p 4 h f [(cause.toNat, 8, 1)] ∧ u.pt = { s.pt with port := u.pt.port, seen := u.pt.seen } ∧
        (s.fld Fld.FRZ_CTL_PEER_EN = 1 → u.frzReq = s.frzReq ||| 16 ∧ u.frzOrigin = o) ∧
        (s.fld Fld.FRZ_CTL_PEER_EN = 0 → u.frzReq = s.frzReq ∧ u.frzOrigin = s.frzOrigin)))) ∧
    (∀ inst : BitVec 8,
      let x := inst.toNat
      (¬ NewFlood s f → Completes (.lostFrame pp h f inst) s stale) ∧
      (NewFlood s f → Completes (.lostFrame pp h f inst) s (fun u =>
        u = { Begun s with pt := u.pt, ptTx := u.ptTx, regs := u.regs, irq := u.irq, nq := u.nq } ∧
        Flooded s u p 10 h f [(x, 8, 1)] ∧
        u.pt = { s.pt with port := u.pt.port, seen := u.pt.seen, heard := u.pt.heard, lost := insertSorted x s.pt.lost } ∧
        u.fld Fld.PT_LOST_LOST (x / 32) = s.fld Fld.PT_LOST_LOST (x / 32) ||| 2 ^ (x % 32) ∧
        RegsBut s u [fldAt Fld.PT_LOST_LOST (x / 32)] ∧ Notes s u 36 [(0x79, 0, 8), (x, 8, 8), (0, 16, 1), (1, 17, 1)] ∧
        SMap.getD (fun _ => 0) u.pt.heard x = 0 ∧
        ∀ y, y ≠ x → SMap.getD (fun _ => 0) u.pt.heard y = SMap.getD (fun _ => 0) s.pt.heard y))) ∧
    (∀ (agent : BitVec 16) (cause : BitVec 8),
      let a := agent.toNat
      let row := Instr.deadFrame pp h f agent cause
      let bound := s.agtState a = 1 ∨ s.agtState a = 2 ∨ s.agtState a = 3
      let body := [(a, 8, 2), (cause.toNat, 10, 1)]
      let running := s.port.dying ≠ none ∨ ∃ b ∈ s.agents, s.agtState b = 4
      (¬ NewFlood s f → Completes row s stale) ∧
      (NewFlood s f → progsUp s = false → Completes row s (fun u =>
        u = { Begun s with pt := u.pt, ptTx := u.ptTx } ∧ Flooded s u p 9 h f body ∧
        u.pt = { s.pt with port := u.pt.port, seen := u.pt.seen, deadMsgs := s.pt.deadMsgs ++ [a] })) ∧
      (NewFlood s f → progsUp s = true → ¬ bound ∨ (∃ d ∈ s.port.deaths, d.1 = a) → Completes row s (fun u =>
        u = { Begun s with pt := u.pt, ptTx := u.ptTx } ∧ Flooded s u p 9 h f body ∧
        u.pt = { s.pt with port := u.pt.port, seen := u.pt.seen })) ∧
      (NewFlood s f → bound → (∀ d ∈ s.port.deaths, d.1 ≠ a) → running → progsUp s = true → Intact s →
        Completes row s (fun u => Flooded s u p 9 h f body ∧ u.pt = { s.pt with port := u.pt.port, seen := u.pt.seen } ∧
          u.port.dying = s.port.dying ∧ u.port.deaths = s.port.deaths ++ [(a, 4)] ∧ u.fault.held = s.fault.held ∧
          SMap.getD (fun _ => none) u.conf a = none ∧ u.walks = s.walks ∧ u.port.hold = s.port.hold ∧ u.cab = s.cab ∧
          u.mem = s.mem ∧ u.stw = s.stw ∧ u.lehr = s.lehr ∧
          u.agtW a = (if s.agtState a = 2 then s.agtW a / 8 * 8 + 3 else s.agtW a) ∧ ∀ b, b ≠ a → u.agtW b = s.agtW b)) ∧
      (NewFlood s f → bound → (∀ d ∈ s.port.deaths, d.1 ≠ a) → ¬ running → progsUp s = true → Awake s → Intact s →
        Completes row s (fun u => u.pt.oseq = (s.pt.oseq + 1) % 65536 ∧ ¬ NewFlood u f ∧ u.port.dying = some (a, 4) ∧
          u.port.deaths = s.port.deaths ∧ SMap.getD (fun _ => none) u.conf a = none ∧ Reported u 0x09 a ∧
          u.fld Fld.RECLAIM_STATUS_AGENT = a ∧ u.fld Fld.RECLAIM_LOST_LOST = 0 ∧ u.walks = s.walks ∧
          u.cab = s.cab ∧ u.mem = s.mem ∧ u.stw = s.stw ∧ u.lehr = s.lehr ∧ u.agtW a = s.agtW a / 8 * 8 + 4 ∧
          ∀ b, b ≠ a → u.agtW b = s.agtW b)))

/-- R228, R496, R502, R503: a home-map handoff is received, and the command HMAP_MOVE. -/
def Obligations.HomeMapHandoff : Prop :=
  ∀ (s : State), s.dft = false → Awake s → Intact s →
    let entry := fun (w home standby sben : Nat) (u : State) => u.fld Fld.HMAP_HOME w = home ∧ u.fld Fld.HMAP_STANDBY w = standby ∧
      u.fld Fld.HMAP_SB_EN w = sben ∧ u.fld Fld.HMAP_VALID w = s.fld Fld.HMAP_VALID w ∧ u.fld Fld.HMAP_DRAIN w = s.fld Fld.HMAP_DRAIN w
    let gens := fun (w gen org : Nat) (u : State) => genOf u w = gen ∧ genOrgOf u w = org ∧
      (∀ k, k ≠ w → genOf u k = genOf s k ∧ genOrgOf u k = genOrgOf s k) ∧
      u.port = { s.port with gens := u.port.gens, genOrg := u.port.genOrg }
    let wins := [fldAt Fld.ADOPT_WIN_A_STATE 0, fldAt Fld.ADOPT_WIN_A_STATE 1, fldAt Fld.ADOPT_WIN_A_STATE 2, fldAt Fld.ADOPT_WIN_A_STATE 3]
    (∀ (pp : BitVec 2) (h : PtHdr) (f : Flood) (win : BitVec 12) (home standby : BitVec 8) (sbEn : Bool) (gen : BitVec 8),
      Hears s pp.toNat h →
      let p := pp.toNat
      let w := win.toNat
      let o := f.origin.toNat
      let row := Instr.hmapSet pp h f win home standby sbEn gen
      let body := [(w, 8, 2), (home.toNat, 10, 1), (standby.toNat, 11, 1), (b2n sbEn, 12, 1), (gen.toNat, 13, 1)]
      let d := (gen.toNat + 256 - genOf s w) % 256
      let newer := (1 ≤ d ∧ d < 128) ∨ (d = 0 ∧ o < genOrgOf s w)
      (¬ NewFlood s f → Completes row s (fun u => u = { Begun s with pt := u.pt } ∧ u.pt = { s.pt with port := u.pt.port } ∧
        (∀ k, k ≠ p → u.ptp k = s.ptp k) ∧ u.ptp p = heardPort (s.ptp p) h)) ∧
      (NewFlood s f → ¬ newer → Completes row s (fun u => u = { Begun s with pt := u.pt, ptTx := u.ptTx } ∧
        Flooded s u p 8 h f body ∧ u.pt = { s.pt with port := u.pt.port, seen := u.pt.seen })) ∧
      (NewFlood s f → newer → Completes row s (fun u =>
        u = { Begun s with
          pt := u.pt, ptTx := u.ptTx, regs := u.regs, irq := u.irq, nq := u.nq, port := u.port, integ := u.integ
          fault := { s.fault with sticky := u.fault.sticky } } ∧
        Flooded s u p 8 h f body ∧ u.pt = { s.pt with port := u.pt.port, seen := u.pt.seen } ∧
        entry w home.toNat standby.toNat (b2n sbEn) u ∧ gens w gen.toNat o u ∧ RegsBut s u (RegName.HMAP.addr w 0 :: wins) ∧
        (∀ i, i < 4 → u.fld Fld.ADOPT_WIN_A_STATE i = if s.fld Fld.ADOPT_WIN_A_STATE i ≠ 0 ∧ s.fld Fld.ADOPT_WIN_A_WINDOW i = w ∧
          home.toNat ≠ s.instId then 0 else s.fld Fld.ADOPT_WIN_A_STATE i) ∧
        (∀ i, i < 4 → u.fld Fld.ADOPT_WIN_A_WINDOW i = s.fld Fld.ADOPT_WIN_A_WINDOW i) ∧
        Notes s u 37 [(0x7A, 0, 8), (w, 8, 12), (home.toNat, 20, 8), (standby.toNat, 28, 8), (b2n sbEn, 36, 1),
          (gen.toNat, 37, 8), (o, 45, 8)]))) ∧
    (s.cmd = none → Completes .hmapMove s (fun u => u = Begun s)) ∧
    (∀ c, s.cmd = some c → c.code ≠ 0x70 → Completes .hmapMove s (fun u => u = Begun s)) ∧
    (∀ c, s.cmd = some c → c.code = 0x70 → progsUp s = true →
      let w := cmdArg c 0 % 4096
      let standby := cmdArg c 1 % 256
      let sben := bits (cmdArg c 1) 8 1
      let ended := fun (code val : Nat) (u : State) => u.cmd = none ∧ u.fld Fld.CMD_RES_DONE = 1 ∧
        u.fld Fld.CMD_RES_CODE = code ∧ u.fld Fld.CMD_VAL_VALUE = val ∧ u.irq = { s.irq with pend := insertSorted 3 s.irq.pend }
      let res := [fldAt Fld.CMD_RES_DONE, fldAt Fld.CMD_VAL_VALUE]
      (s.fld Fld.HMAP_VALID w = 0 ∨ s.fld Fld.HMAP_HOME w = s.instId → Completes .hmapMove s (fun u =>
        u = { Begun s with regs := u.regs, irq := u.irq, cmd := none } ∧ ended 0x33 0 u ∧ RegsBut s u res)) ∧
      (s.fld Fld.HMAP_VALID w = 1 → s.fld Fld.HMAP_HOME w ≠ s.instId → (∀ i, i < 4 → s.fld Fld.ADOPT_WIN_A_STATE i ≠ 0) →
        Completes .hmapMove s (fun u => u = { Begun s with regs := u.regs, irq := u.irq, cmd := none } ∧ ended 0x32 0 u ∧
          RegsBut s u res)) ∧
      (∀ i, s.fld Fld.HMAP_VALID w = 1 → s.fld Fld.HMAP_HOME w ≠ s.instId → i < 4 → s.fld Fld.ADOPT_WIN_A_STATE i = 0 →
        (∀ k, k < i → s.fld Fld.ADOPT_WIN_A_STATE k ≠ 0) → Completes .hmapMove s (fun u =>
        let gen := (genOf s w + 1) % 256
        u = { Begun s with
          pt := u.pt, ptTx := u.ptTx, regs := u.regs, irq := u.irq, cmd := none, port := u.port, integ := u.integ
          fault := { s.fault with sticky := u.fault.sticky } } ∧
        ended 0 gen u ∧ entry w s.instId standby sben u ∧ gens w gen s.instId u ∧
        u.fld Fld.ADOPT_WIN_A_STATE i = 1 ∧ u.fld Fld.ADOPT_WIN_A_WINDOW i = w ∧ u.fld Fld.ADOPT_WIN_B_CURSOR i = 0 ∧
        RegsBut s u (res ++ [RegName.HMAP.addr w 0, fldAt Fld.ADOPT_WIN_A_STATE i, fldAt Fld.ADOPT_WIN_B_CURSOR i]) ∧
        u.pt = { s.pt with port := u.pt.port, oseq := u.pt.oseq } ∧
        Floods s u 8 [(w, 8, 2), (s.instId, 10, 1), (standby, 11, 1), (sben, 12, 1), (gen, 13, 1)])))

end
end

