-- ==== Sys2Proof/Laws/Map.lean ====
section
/-! SUPPORT. The laws of the sparse maps: a read after a write, and that every operation keeps the canonical form. -/

namespace Sys2Proof.SMap

variable {α : Type}

theorem getD_ins_same (d : Nat → α) (m : SMap α) (k : Nat) (v : α) : getD d (ins k v m) k = v := by
  induction m with
  | nil => simp [ins, getD]
  | cons e m ih =>
    obtain ⟨j, w⟩ := e
    simp only [ins]
    split
    · simp [getD]
    · split
      · simp [getD]
      · simp only [getD]
        rw [if_neg (by omega)]
        exact ih

theorem getD_ins_ne (d : Nat → α) (m : SMap α) (k i : Nat) (v : α) (h : i ≠ k) :
    getD d (ins k v m) i = getD d m i := by
  induction m with
  | nil => simp [ins, getD, Ne.symm h]
  | cons e m ih =>
    obtain ⟨j, w⟩ := e
    simp only [ins]
    split
    · simp [getD, Ne.symm h]
    · split
      · next h1 => subst h1; simp [getD, Ne.symm h]
      · simp only [getD]; split <;> [rfl; exact ih]

theorem getD_erase_same (d : Nat → α) (m : SMap α) (k : Nat) : getD d (erase k m) k = d k := by
  induction m with
  | nil => rfl
  | cons e m ih =>
    obtain ⟨j, w⟩ := e
    by_cases hj : j = k
    · subst hj; simpa [erase, getD] using ih
    · simp only [erase, List.filter_cons]; simp only [hj, bne_iff_ne, ne_eq, not_false_eq_true, if_true, getD, if_false]
      simpa [erase] using ih

theorem getD_erase_ne (d : Nat → α) (m : SMap α) (k i : Nat) (h : i ≠ k) : getD d (erase k m) i = getD d m i := by
  induction m with
  | nil => rfl
  | cons e m ih =>
    obtain ⟨j, w⟩ := e
    by_cases hj : j = k
    · subst hj; simp [erase, getD, Ne.symm h]; simpa [erase] using ih
    · simp only [erase, List.filter_cons]; simp only [hj, bne_iff_ne, ne_eq, not_false_eq_true, if_true, getD]
      split
      · rfl
      · simpa [erase] using ih

/-- A read of the key just written gives the value written. -/
@[simp] theorem getD_set_same [DecidableEq α] (d : Nat → α) (m : SMap α) (k : Nat) (v : α) : getD d (set d m k v) k = v := by
  unfold set; split
  · next h => rw [getD_erase_same, h]
  · exact getD_ins_same d m k v

/-- A write leaves every other key alone. -/
theorem getD_set_ne [DecidableEq α] (d : Nat → α) (m : SMap α) (k i : Nat) (v : α) (h : i ≠ k) :
    getD d (set d m k v) i = getD d m i := by
  unfold set; split
  · exact getD_erase_ne d m k i h
  · exact getD_ins_ne d m k i v h

/-- The same where the read takes another default than the write. -/
theorem getD_set_other [DecidableEq α] (d e : Nat → α) (m : SMap α) (k i : Nat) (v : α) (h : i ≠ k) :
    getD e (set d m k v) i = getD e m i := by
  unfold set; split
  · exact getD_erase_ne e m k i h
  · exact getD_ins_ne e m k i v h

/-! ### The canonical form -/

theorem sorted_cons (j : Nat) (v : α) (m : SMap α) :
    sorted ((j, v) :: m) = true ↔ (∀ e ∈ m, j < e.1) ∧ sorted m = true := by
  induction m generalizing j v with
  | nil => simp [sorted]
  | cons e m ih =>
    obtain ⟨k, w⟩ := e
    simp only [sorted, Bool.and_eq_true, decide_eq_true_eq, List.forall_mem_cons]
    constructor
    · rintro ⟨hjk, hs⟩
      exact ⟨⟨hjk, fun e he => lt_trans hjk (((ih k w).1 hs).1 e he)⟩, hs⟩
    · rintro ⟨⟨hjk, -⟩, hs⟩
      exact ⟨hjk, hs⟩

theorem mem_ins {k : Nat} {v : α} {m : SMap α} {e : Nat × α} (h : e ∈ ins k v m) : e = (k, v) ∨ e ∈ m := by
  induction m with
  | nil => simpa [ins] using h
  | cons x m ih =>
    obtain ⟨j, w⟩ := x
    simp only [ins] at h
    split at h
    · simpa using h
    · split at h
      · rcases List.mem_cons.1 h with h | h
        · exact .inl h
        · exact .inr (List.mem_cons_of_mem _ h)
      · rcases List.mem_cons.1 h with h | h
        · exact .inr (h ▸ List.mem_cons_self)
        · exact (ih h).imp_right (List.mem_cons_of_mem _)

theorem sorted_ins (k : Nat) (v : α) (m : SMap α) (h : sorted m = true) : sorted (ins k v m) = true := by
  induction m with
  | nil => rfl
  | cons x m ih =>
    obtain ⟨j, w⟩ := x
    have hj := (sorted_cons j w m).1 h
    simp only [ins]
    split
    · next hk =>
      refine (sorted_cons ..).2 ⟨fun e he => ?_, h⟩
      rcases List.mem_cons.1 he with rfl | he
      · exact hk
      · exact lt_trans hk (hj.1 e he)
    · split
      · next hk => subst hk; exact (sorted_cons ..).2 hj
      · refine (sorted_cons ..).2 ⟨fun e he => ?_, ih hj.2⟩
        rcases mem_ins he with rfl | he
        · show j < k; omega
        · exact hj.1 e he

theorem sorted_erase (k : Nat) (m : SMap α) (h : sorted m = true) : sorted (erase k m) = true := by
  induction m with
  | nil => rfl
  | cons x m ih =>
    obtain ⟨j, w⟩ := x
    have hj := (sorted_cons j w m).1 h
    simp only [erase, List.filter_cons]
    split
    · refine (sorted_cons ..).2 ⟨fun e he => hj.1 e (List.mem_of_mem_filter he), ?_⟩
      exact ih hj.2
    · exact ih hj.2

/-- Every write keeps the canonical form. -/
theorem wf_set [DecidableEq α] (d : Nat → α) (m : SMap α) (k : Nat) (v : α) (h : wf d m = true) :
    wf d (set d m k v) = true := by
  simp only [wf, Bool.and_eq_true, List.all_eq_true, decide_eq_true_eq] at h ⊢
  unfold set
  split
  · exact ⟨sorted_erase k m h.1, fun e he => h.2 e (List.mem_of_mem_filter he)⟩
  · next hv =>
    refine ⟨sorted_ins k v m h.1, fun e he => ?_⟩
    rcases mem_ins he with rfl | he
    · exact hv
    · exact h.2 e he

theorem wf_upd [DecidableEq α] (d : Nat → α) (m : SMap α) (k : Nat) (f : α → α) (h : wf d m = true) :
    wf d (upd d m k f) = true := wf_set d m k _ h

end Sys2Proof.SMap
end

