-- ==== Sys2Proof/Laws/State.lean ====
section
/-! SUPPORT. What the plain updates of State leave as it was: one lemma for each field and update, so that no proof unfolds a
record update. -/

namespace Sys2Proof.Machine

variable (s : State)

@[simp] theorem setReg_dft (r : RegName) (v : BitVec 64) (i j : Nat) : (s.setReg r v i j).dft = s.dft := rfl
@[simp] theorem setReg_vaux (r : RegName) (v : BitVec 64) (i j : Nat) : (s.setReg r v i j).vaux = s.vaux := rfl
@[simp] theorem setReg_portUp (r : RegName) (v : BitVec 64) (i j : Nat) : (s.setReg r v i j).portUp = s.portUp := rfl
@[simp] theorem setReg_coreUp (r : RegName) (v : BitVec 64) (i j : Nat) : (s.setReg r v i j).coreUp = s.coreUp := rfl
@[simp] theorem setReg_coldRst (r : RegName) (v : BitVec 64) (i j : Nat) : (s.setReg r v i j).coldRst = s.coldRst := rfl
@[simp] theorem setReg_warmRst (r : RegName) (v : BitVec 64) (i j : Nat) : (s.setReg r v i j).warmRst = s.warmRst := rfl
@[simp] theorem setReg_freezeIn (r : RegName) (v : BitVec 64) (i j : Nat) : (s.setReg r v i j).freezeIn = s.freezeIn := rfl
@[simp] theorem setReg_wakeIn (r : RegName) (v : BitVec 64) (i j : Nat) : (s.setReg r v i j).wakeIn = s.wakeIn := rfl
@[simp] theorem setReg_hiLatch (r : RegName) (v : BitVec 64) (i j : Nat) : (s.setReg r v i j).hiLatch = s.hiLatch := rfl
@[simp] theorem setReg_wrHold (r : RegName) (v : BitVec 64) (i j : Nat) : (s.setReg r v i j).wrHold = s.wrHold := rfl
@[simp] theorem setReg_rdata (r : RegName) (v : BitVec 64) (i j : Nat) : (s.setReg r v i j).rdata = s.rdata := rfl
@[simp] theorem setReg_now (r : RegName) (v : BitVec 64) (i j : Nat) : (s.setReg r v i j).now = s.now := rfl
@[simp] theorem setReg_lehrNow (r : RegName) (v : BitVec 64) (i j : Nat) : (s.setReg r v i j).lehrNow = s.lehrNow := rfl
@[simp] theorem setReg_port (r : RegName) (v : BitVec 64) (i j : Nat) : (s.setReg r v i j).port = s.port := rfl
@[simp] theorem setReg_agt (r : RegName) (v : BitVec 64) (i j : Nat) : (s.setReg r v i j).agt = s.agt := rfl
@[simp] theorem setReg_shadow (r : RegName) (v : BitVec 64) (i j : Nat) : (s.setReg r v i j).shadow = s.shadow := rfl
@[simp] theorem setReg_sl (r : RegName) (v : BitVec 64) (i j : Nat) : (s.setReg r v i j).sl = s.sl := rfl
@[simp] theorem setReg_cab (r : RegName) (v : BitVec 64) (i j : Nat) : (s.setReg r v i j).cab = s.cab := rfl
@[simp] theorem setReg_mem (r : RegName) (v : BitVec 64) (i j : Nat) : (s.setReg r v i j).mem = s.mem := rfl
@[simp] theorem setReg_integ (r : RegName) (v : BitVec 64) (i j : Nat) : (s.setReg r v i j).integ = s.integ := rfl
@[simp] theorem setReg_repair (r : RegName) (v : BitVec 64) (i j : Nat) : (s.setReg r v i j).repair = s.repair := rfl
@[simp] theorem setReg_govSlot (r : RegName) (v : BitVec 64) (i j : Nat) : (s.setReg r v i j).govSlot = s.govSlot := rfl
@[simp] theorem setReg_govCap (r : RegName) (v : BitVec 64) (i j : Nat) : (s.setReg r v i j).govCap = s.govCap := rfl
@[simp] theorem setReg_govBg (r : RegName) (v : BitVec 64) (i j : Nat) : (s.setReg r v i j).govBg = s.govBg := rfl
@[simp] theorem setReg_stw (r : RegName) (v : BitVec 64) (i j : Nat) : (s.setReg r v i j).stw = s.stw := rfl
@[simp] theorem setReg_hutch (r : RegName) (v : BitVec 64) (i j : Nat) : (s.setReg r v i j).hutch = s.hutch := rfl
@[simp] theorem setReg_lehr (r : RegName) (v : BitVec 64) (i j : Nat) : (s.setReg r v i j).lehr = s.lehr := rfl
@[simp] theorem setReg_pt (r : RegName) (v : BitVec 64) (i j : Nat) : (s.setReg r v i j).pt = s.pt := rfl
@[simp] theorem setReg_start (r : RegName) (v : BitVec 64) (i j : Nat) : (s.setReg r v i j).start = s.start := rfl
@[simp] theorem setReg_fault (r : RegName) (v : BitVec 64) (i j : Nat) : (s.setReg r v i j).fault = s.fault := rfl
@[simp] theorem setReg_nq (r : RegName) (v : BitVec 64) (i j : Nat) : (s.setReg r v i j).nq = s.nq := rfl
@[simp] theorem setReg_fb (r : RegName) (v : BitVec 64) (i j : Nat) : (s.setReg r v i j).fb = s.fb := rfl
@[simp] theorem setReg_irq (r : RegName) (v : BitVec 64) (i j : Nat) : (s.setReg r v i j).irq = s.irq := rfl
@[simp] theorem setReg_cmd (r : RegName) (v : BitVec 64) (i j : Nat) : (s.setReg r v i j).cmd = s.cmd := rfl
@[simp] theorem setReg_sleepReady (r : RegName) (v : BitVec 64) (i j : Nat) : (s.setReg r v i j).sleepReady = s.sleepReady := rfl
@[simp] theorem setReg_frzReq (r : RegName) (v : BitVec 64) (i j : Nat) : (s.setReg r v i j).frzReq = s.frzReq := rfl
@[simp] theorem setReg_frzCode (r : RegName) (v : BitVec 64) (i j : Nat) : (s.setReg r v i j).frzCode = s.frzCode := rfl
@[simp] theorem setReg_frzOrigin (r : RegName) (v : BitVec 64) (i j : Nat) : (s.setReg r v i j).frzOrigin = s.frzOrigin := rfl
@[simp] theorem setReg_walks (r : RegName) (v : BitVec 64) (i j : Nat) : (s.setReg r v i j).walks = s.walks := rfl
@[simp] theorem setReg_conf (r : RegName) (v : BitVec 64) (i j : Nat) : (s.setReg r v i j).conf = s.conf := rfl
@[simp] theorem setReg_tx (r : RegName) (v : BitVec 64) (i j : Nat) : (s.setReg r v i j).tx = s.tx := rfl
@[simp] theorem setReg_memTx (r : RegName) (v : BitVec 64) (i j : Nat) : (s.setReg r v i j).memTx = s.memTx := rfl
@[simp] theorem setReg_ptTx (r : RegName) (v : BitVec 64) (i j : Nat) : (s.setReg r v i j).ptTx = s.ptTx := rfl
@[simp] theorem setReg_work (r : RegName) (v : BitVec 64) (i j : Nat) : (s.setReg r v i j).work = s.work := rfl
@[simp] theorem setReg_free (r : RegName) (v : BitVec 64) (i j : Nat) : (s.setReg r v i j).free = s.free := rfl
@[simp] theorem setReg_pending (r : RegName) (v : BitVec 64) (i j : Nat) : (s.setReg r v i j).pending = s.pending := rfl

@[simp] theorem setFport_dft (p : Nat) (v : FPort) : (s.setFport p v).dft = s.dft := rfl
@[simp] theorem setFport_vaux (p : Nat) (v : FPort) : (s.setFport p v).vaux = s.vaux := rfl
@[simp] theorem setFport_portUp (p : Nat) (v : FPort) : (s.setFport p v).portUp = s.portUp := rfl
@[simp] theorem setFport_coreUp (p : Nat) (v : FPort) : (s.setFport p v).coreUp = s.coreUp := rfl
@[simp] theorem setFport_coldRst (p : Nat) (v : FPort) : (s.setFport p v).coldRst = s.coldRst := rfl
@[simp] theorem setFport_warmRst (p : Nat) (v : FPort) : (s.setFport p v).warmRst = s.warmRst := rfl
@[simp] theorem setFport_freezeIn (p : Nat) (v : FPort) : (s.setFport p v).freezeIn = s.freezeIn := rfl
@[simp] theorem setFport_wakeIn (p : Nat) (v : FPort) : (s.setFport p v).wakeIn = s.wakeIn := rfl
@[simp] theorem setFport_regs (p : Nat) (v : FPort) : (s.setFport p v).regs = s.regs := rfl
@[simp] theorem setFport_hiLatch (p : Nat) (v : FPort) : (s.setFport p v).hiLatch = s.hiLatch := rfl
@[simp] theorem setFport_wrHold (p : Nat) (v : FPort) : (s.setFport p v).wrHold = s.wrHold := rfl
@[simp] theorem setFport_rdata (p : Nat) (v : FPort) : (s.setFport p v).rdata = s.rdata := rfl
@[simp] theorem setFport_now (p : Nat) (v : FPort) : (s.setFport p v).now = s.now := rfl
@[simp] theorem setFport_lehrNow (p : Nat) (v : FPort) : (s.setFport p v).lehrNow = s.lehrNow := rfl
@[simp] theorem setFport_agt (p : Nat) (v : FPort) : (s.setFport p v).agt = s.agt := rfl
@[simp] theorem setFport_shadow (p : Nat) (v : FPort) : (s.setFport p v).shadow = s.shadow := rfl
@[simp] theorem setFport_sl (p : Nat) (v : FPort) : (s.setFport p v).sl = s.sl := rfl
@[simp] theorem setFport_cab (p : Nat) (v : FPort) : (s.setFport p v).cab = s.cab := rfl
@[simp] theorem setFport_mem (p : Nat) (v : FPort) : (s.setFport p v).mem = s.mem := rfl
@[simp] theorem setFport_integ (p : Nat) (v : FPort) : (s.setFport p v).integ = s.integ := rfl
@[simp] theorem setFport_repair (p : Nat) (v : FPort) : (s.setFport p v).repair = s.repair := rfl
@[simp] theorem setFport_govSlot (p : Nat) (v : FPort) : (s.setFport p v).govSlot = s.govSlot := rfl
@[simp] theorem setFport_govCap (p : Nat) (v : FPort) : (s.setFport p v).govCap = s.govCap := rfl
@[simp] theorem setFport_govBg (p : Nat) (v : FPort) : (s.setFport p v).govBg = s.govBg := rfl
@[simp] theorem setFport_stw (p : Nat) (v : FPort) : (s.setFport p v).stw = s.stw := rfl
@[simp] theorem setFport_hutch (p : Nat) (v : FPort) : (s.setFport p v).hutch = s.hutch := rfl
@[simp] theorem setFport_lehr (p : Nat) (v : FPort) : (s.setFport p v).lehr = s.lehr := rfl
@[simp] theorem setFport_pt (p : Nat) (v : FPort) : (s.setFport p v).pt = s.pt := rfl
@[simp] theorem setFport_start (p : Nat) (v : FPort) : (s.setFport p v).start = s.start := rfl
@[simp] theorem setFport_fault (p : Nat) (v : FPort) : (s.setFport p v).fault = s.fault := rfl
@[simp] theorem setFport_nq (p : Nat) (v : FPort) : (s.setFport p v).nq = s.nq := rfl
@[simp] theorem setFport_fb (p : Nat) (v : FPort) : (s.setFport p v).fb = s.fb := rfl
@[simp] theorem setFport_irq (p : Nat) (v : FPort) : (s.setFport p v).irq = s.irq := rfl
@[simp] theorem setFport_cmd (p : Nat) (v : FPort) : (s.setFport p v).cmd = s.cmd := rfl
@[simp] theorem setFport_sleepReady (p : Nat) (v : FPort) : (s.setFport p v).sleepReady = s.sleepReady := rfl
@[simp] theorem setFport_frzReq (p : Nat) (v : FPort) : (s.setFport p v).frzReq = s.frzReq := rfl
@[simp] theorem setFport_frzCode (p : Nat) (v : FPort) : (s.setFport p v).frzCode = s.frzCode := rfl
@[simp] theorem setFport_frzOrigin (p : Nat) (v : FPort) : (s.setFport p v).frzOrigin = s.frzOrigin := rfl
@[simp] theorem setFport_walks (p : Nat) (v : FPort) : (s.setFport p v).walks = s.walks := rfl
@[simp] theorem setFport_conf (p : Nat) (v : FPort) : (s.setFport p v).conf = s.conf := rfl
@[simp] theorem setFport_tx (p : Nat) (v : FPort) : (s.setFport p v).tx = s.tx := rfl
@[simp] theorem setFport_memTx (p : Nat) (v : FPort) : (s.setFport p v).memTx = s.memTx := rfl
@[simp] theorem setFport_ptTx (p : Nat) (v : FPort) : (s.setFport p v).ptTx = s.ptTx := rfl
@[simp] theorem setFport_work (p : Nat) (v : FPort) : (s.setFport p v).work = s.work := rfl
@[simp] theorem setFport_free (p : Nat) (v : FPort) : (s.setFport p v).free = s.free := rfl
@[simp] theorem setFport_pending (p : Nat) (v : FPort) : (s.setFport p v).pending = s.pending := rfl

@[simp] theorem setDatE_dft (p e : Nat) (v : DatEntry) : (s.setDatE p e v).dft = s.dft := rfl
@[simp] theorem setDatE_vaux (p e : Nat) (v : DatEntry) : (s.setDatE p e v).vaux = s.vaux := rfl
@[simp] theorem setDatE_portUp (p e : Nat) (v : DatEntry) : (s.setDatE p e v).portUp = s.portUp := rfl
@[simp] theorem setDatE_coreUp (p e : Nat) (v : DatEntry) : (s.setDatE p e v).coreUp = s.coreUp := rfl
@[simp] theorem setDatE_coldRst (p e : Nat) (v : DatEntry) : (s.setDatE p e v).coldRst = s.coldRst := rfl
@[simp] theorem setDatE_warmRst (p e : Nat) (v : DatEntry) : (s.setDatE p e v).warmRst = s.warmRst := rfl
@[simp] theorem setDatE_freezeIn (p e : Nat) (v : DatEntry) : (s.setDatE p e v).freezeIn = s.freezeIn := rfl
@[simp] theorem setDatE_wakeIn (p e : Nat) (v : DatEntry) : (s.setDatE p e v).wakeIn = s.wakeIn := rfl
@[simp] theorem setDatE_regs (p e : Nat) (v : DatEntry) : (s.setDatE p e v).regs = s.regs := rfl
@[simp] theorem setDatE_hiLatch (p e : Nat) (v : DatEntry) : (s.setDatE p e v).hiLatch = s.hiLatch := rfl
@[simp] theorem setDatE_wrHold (p e : Nat) (v : DatEntry) : (s.setDatE p e v).wrHold = s.wrHold := rfl
@[simp] theorem setDatE_rdata (p e : Nat) (v : DatEntry) : (s.setDatE p e v).rdata = s.rdata := rfl
@[simp] theorem setDatE_now (p e : Nat) (v : DatEntry) : (s.setDatE p e v).now = s.now := rfl
@[simp] theorem setDatE_lehrNow (p e : Nat) (v : DatEntry) : (s.setDatE p e v).lehrNow = s.lehrNow := rfl
@[simp] theorem setDatE_agt (p e : Nat) (v : DatEntry) : (s.setDatE p e v).agt = s.agt := rfl
@[simp] theorem setDatE_shadow (p e : Nat) (v : DatEntry) : (s.setDatE p e v).shadow = s.shadow := rfl
@[simp] theorem setDatE_sl (p e : Nat) (v : DatEntry) : (s.setDatE p e v).sl = s.sl := rfl
@[simp] theorem setDatE_cab (p e : Nat) (v : DatEntry) : (s.setDatE p e v).cab = s.cab := rfl
@[simp] theorem setDatE_mem (p e : Nat) (v : DatEntry) : (s.setDatE p e v).mem = s.mem := rfl
@[simp] theorem setDatE_integ (p e : Nat) (v : DatEntry) : (s.setDatE p e v).integ = s.integ := rfl
@[simp] theorem setDatE_repair (p e : Nat) (v : DatEntry) : (s.setDatE p e v).repair = s.repair := rfl
@[simp] theorem setDatE_govSlot (p e : Nat) (v : DatEntry) : (s.setDatE p e v).govSlot = s.govSlot := rfl
@[simp] theorem setDatE_govCap (p e : Nat) (v : DatEntry) : (s.setDatE p e v).govCap = s.govCap := rfl
@[simp] theorem setDatE_govBg (p e : Nat) (v : DatEntry) : (s.setDatE p e v).govBg = s.govBg := rfl
@[simp] theorem setDatE_stw (p e : Nat) (v : DatEntry) : (s.setDatE p e v).stw = s.stw := rfl
@[simp] theorem setDatE_hutch (p e : Nat) (v : DatEntry) : (s.setDatE p e v).hutch = s.hutch := rfl
@[simp] theorem setDatE_lehr (p e : Nat) (v : DatEntry) : (s.setDatE p e v).lehr = s.lehr := rfl
@[simp] theorem setDatE_pt (p e : Nat) (v : DatEntry) : (s.setDatE p e v).pt = s.pt := rfl
@[simp] theorem setDatE_start (p e : Nat) (v : DatEntry) : (s.setDatE p e v).start = s.start := rfl
@[simp] theorem setDatE_fault (p e : Nat) (v : DatEntry) : (s.setDatE p e v).fault = s.fault := rfl
@[simp] theorem setDatE_nq (p e : Nat) (v : DatEntry) : (s.setDatE p e v).nq = s.nq := rfl
@[simp] theorem setDatE_fb (p e : Nat) (v : DatEntry) : (s.setDatE p e v).fb = s.fb := rfl
@[simp] theorem setDatE_irq (p e : Nat) (v : DatEntry) : (s.setDatE p e v).irq = s.irq := rfl
@[simp] theorem setDatE_cmd (p e : Nat) (v : DatEntry) : (s.setDatE p e v).cmd = s.cmd := rfl
@[simp] theorem setDatE_sleepReady (p e : Nat) (v : DatEntry) : (s.setDatE p e v).sleepReady = s.sleepReady := rfl
@[simp] theorem setDatE_frzReq (p e : Nat) (v : DatEntry) : (s.setDatE p e v).frzReq = s.frzReq := rfl
@[simp] theorem setDatE_frzCode (p e : Nat) (v : DatEntry) : (s.setDatE p e v).frzCode = s.frzCode := rfl
@[simp] theorem setDatE_frzOrigin (p e : Nat) (v : DatEntry) : (s.setDatE p e v).frzOrigin = s.frzOrigin := rfl
@[simp] theorem setDatE_walks (p e : Nat) (v : DatEntry) : (s.setDatE p e v).walks = s.walks := rfl
@[simp] theorem setDatE_conf (p e : Nat) (v : DatEntry) : (s.setDatE p e v).conf = s.conf := rfl
@[simp] theorem setDatE_tx (p e : Nat) (v : DatEntry) : (s.setDatE p e v).tx = s.tx := rfl
@[simp] theorem setDatE_memTx (p e : Nat) (v : DatEntry) : (s.setDatE p e v).memTx = s.memTx := rfl
@[simp] theorem setDatE_ptTx (p e : Nat) (v : DatEntry) : (s.setDatE p e v).ptTx = s.ptTx := rfl
@[simp] theorem setDatE_work (p e : Nat) (v : DatEntry) : (s.setDatE p e v).work = s.work := rfl
@[simp] theorem setDatE_free (p e : Nat) (v : DatEntry) : (s.setDatE p e v).free = s.free := rfl
@[simp] theorem setDatE_pending (p e : Nat) (v : DatEntry) : (s.setDatE p e v).pending = s.pending := rfl

@[simp] theorem setHoldE_dft (h : Nat) (v : HoldSlot) : (s.setHoldE h v).dft = s.dft := rfl
@[simp] theorem setHoldE_vaux (h : Nat) (v : HoldSlot) : (s.setHoldE h v).vaux = s.vaux := rfl
@[simp] theorem setHoldE_portUp (h : Nat) (v : HoldSlot) : (s.setHoldE h v).portUp = s.portUp := rfl
@[simp] theorem setHoldE_coreUp (h : Nat) (v : HoldSlot) : (s.setHoldE h v).coreUp = s.coreUp := rfl
@[simp] theorem setHoldE_coldRst (h : Nat) (v : HoldSlot) : (s.setHoldE h v).coldRst = s.coldRst := rfl
@[simp] theorem setHoldE_warmRst (h : Nat) (v : HoldSlot) : (s.setHoldE h v).warmRst = s.warmRst := rfl
@[simp] theorem setHoldE_freezeIn (h : Nat) (v : HoldSlot) : (s.setHoldE h v).freezeIn = s.freezeIn := rfl
@[simp] theorem setHoldE_wakeIn (h : Nat) (v : HoldSlot) : (s.setHoldE h v).wakeIn = s.wakeIn := rfl
@[simp] theorem setHoldE_regs (h : Nat) (v : HoldSlot) : (s.setHoldE h v).regs = s.regs := rfl
@[simp] theorem setHoldE_hiLatch (h : Nat) (v : HoldSlot) : (s.setHoldE h v).hiLatch = s.hiLatch := rfl
@[simp] theorem setHoldE_wrHold (h : Nat) (v : HoldSlot) : (s.setHoldE h v).wrHold = s.wrHold := rfl
@[simp] theorem setHoldE_rdata (h : Nat) (v : HoldSlot) : (s.setHoldE h v).rdata = s.rdata := rfl
@[simp] theorem setHoldE_now (h : Nat) (v : HoldSlot) : (s.setHoldE h v).now = s.now := rfl
@[simp] theorem setHoldE_lehrNow (h : Nat) (v : HoldSlot) : (s.setHoldE h v).lehrNow = s.lehrNow := rfl
@[simp] theorem setHoldE_agt (h : Nat) (v : HoldSlot) : (s.setHoldE h v).agt = s.agt := rfl
@[simp] theorem setHoldE_shadow (h : Nat) (v : HoldSlot) : (s.setHoldE h v).shadow = s.shadow := rfl
@[simp] theorem setHoldE_sl (h : Nat) (v : HoldSlot) : (s.setHoldE h v).sl = s.sl := rfl
@[simp] theorem setHoldE_cab (h : Nat) (v : HoldSlot) : (s.setHoldE h v).cab = s.cab := rfl
@[simp] theorem setHoldE_mem (h : Nat) (v : HoldSlot) : (s.setHoldE h v).mem = s.mem := rfl
@[simp] theorem setHoldE_integ (h : Nat) (v : HoldSlot) : (s.setHoldE h v).integ = s.integ := rfl
@[simp] theorem setHoldE_repair (h : Nat) (v : HoldSlot) : (s.setHoldE h v).repair = s.repair := rfl
@[simp] theorem setHoldE_govSlot (h : Nat) (v : HoldSlot) : (s.setHoldE h v).govSlot = s.govSlot := rfl
@[simp] theorem setHoldE_govCap (h : Nat) (v : HoldSlot) : (s.setHoldE h v).govCap = s.govCap := rfl
@[simp] theorem setHoldE_govBg (h : Nat) (v : HoldSlot) : (s.setHoldE h v).govBg = s.govBg := rfl
@[simp] theorem setHoldE_stw (h : Nat) (v : HoldSlot) : (s.setHoldE h v).stw = s.stw := rfl
@[simp] theorem setHoldE_hutch (h : Nat) (v : HoldSlot) : (s.setHoldE h v).hutch = s.hutch := rfl
@[simp] theorem setHoldE_lehr (h : Nat) (v : HoldSlot) : (s.setHoldE h v).lehr = s.lehr := rfl
@[simp] theorem setHoldE_pt (h : Nat) (v : HoldSlot) : (s.setHoldE h v).pt = s.pt := rfl
@[simp] theorem setHoldE_start (h : Nat) (v : HoldSlot) : (s.setHoldE h v).start = s.start := rfl
@[simp] theorem setHoldE_fault (h : Nat) (v : HoldSlot) : (s.setHoldE h v).fault = s.fault := rfl
@[simp] theorem setHoldE_nq (h : Nat) (v : HoldSlot) : (s.setHoldE h v).nq = s.nq := rfl
@[simp] theorem setHoldE_fb (h : Nat) (v : HoldSlot) : (s.setHoldE h v).fb = s.fb := rfl
@[simp] theorem setHoldE_irq (h : Nat) (v : HoldSlot) : (s.setHoldE h v).irq = s.irq := rfl
@[simp] theorem setHoldE_cmd (h : Nat) (v : HoldSlot) : (s.setHoldE h v).cmd = s.cmd := rfl
@[simp] theorem setHoldE_sleepReady (h : Nat) (v : HoldSlot) : (s.setHoldE h v).sleepReady = s.sleepReady := rfl
@[simp] theorem setHoldE_frzReq (h : Nat) (v : HoldSlot) : (s.setHoldE h v).frzReq = s.frzReq := rfl
@[simp] theorem setHoldE_frzCode (h : Nat) (v : HoldSlot) : (s.setHoldE h v).frzCode = s.frzCode := rfl
@[simp] theorem setHoldE_frzOrigin (h : Nat) (v : HoldSlot) : (s.setHoldE h v).frzOrigin = s.frzOrigin := rfl
@[simp] theorem setHoldE_walks (h : Nat) (v : HoldSlot) : (s.setHoldE h v).walks = s.walks := rfl
@[simp] theorem setHoldE_conf (h : Nat) (v : HoldSlot) : (s.setHoldE h v).conf = s.conf := rfl
@[simp] theorem setHoldE_tx (h : Nat) (v : HoldSlot) : (s.setHoldE h v).tx = s.tx := rfl
@[simp] theorem setHoldE_memTx (h : Nat) (v : HoldSlot) : (s.setHoldE h v).memTx = s.memTx := rfl
@[simp] theorem setHoldE_ptTx (h : Nat) (v : HoldSlot) : (s.setHoldE h v).ptTx = s.ptTx := rfl
@[simp] theorem setHoldE_work (h : Nat) (v : HoldSlot) : (s.setHoldE h v).work = s.work := rfl
@[simp] theorem setHoldE_free (h : Nat) (v : HoldSlot) : (s.setHoldE h v).free = s.free := rfl
@[simp] theorem setHoldE_pending (h : Nat) (v : HoldSlot) : (s.setHoldE h v).pending = s.pending := rfl

@[simp] theorem setRecE_dft (n : Nat) (v : AccRec) : (s.setRecE n v).dft = s.dft := rfl
@[simp] theorem setRecE_vaux (n : Nat) (v : AccRec) : (s.setRecE n v).vaux = s.vaux := rfl
@[simp] theorem setRecE_portUp (n : Nat) (v : AccRec) : (s.setRecE n v).portUp = s.portUp := rfl
@[simp] theorem setRecE_coreUp (n : Nat) (v : AccRec) : (s.setRecE n v).coreUp = s.coreUp := rfl
@[simp] theorem setRecE_coldRst (n : Nat) (v : AccRec) : (s.setRecE n v).coldRst = s.coldRst := rfl
@[simp] theorem setRecE_warmRst (n : Nat) (v : AccRec) : (s.setRecE n v).warmRst = s.warmRst := rfl
@[simp] theorem setRecE_freezeIn (n : Nat) (v : AccRec) : (s.setRecE n v).freezeIn = s.freezeIn := rfl
@[simp] theorem setRecE_wakeIn (n : Nat) (v : AccRec) : (s.setRecE n v).wakeIn = s.wakeIn := rfl
@[simp] theorem setRecE_regs (n : Nat) (v : AccRec) : (s.setRecE n v).regs = s.regs := rfl
@[simp] theorem setRecE_hiLatch (n : Nat) (v : AccRec) : (s.setRecE n v).hiLatch = s.hiLatch := rfl
@[simp] theorem setRecE_wrHold (n : Nat) (v : AccRec) : (s.setRecE n v).wrHold = s.wrHold := rfl
@[simp] theorem setRecE_rdata (n : Nat) (v : AccRec) : (s.setRecE n v).rdata = s.rdata := rfl
@[simp] theorem setRecE_now (n : Nat) (v : AccRec) : (s.setRecE n v).now = s.now := rfl
@[simp] theorem setRecE_lehrNow (n : Nat) (v : AccRec) : (s.setRecE n v).lehrNow = s.lehrNow := rfl
@[simp] theorem setRecE_agt (n : Nat) (v : AccRec) : (s.setRecE n v).agt = s.agt := rfl
@[simp] theorem setRecE_shadow (n : Nat) (v : AccRec) : (s.setRecE n v).shadow = s.shadow := rfl
@[simp] theorem setRecE_sl (n : Nat) (v : AccRec) : (s.setRecE n v).sl = s.sl := rfl
@[simp] theorem setRecE_cab (n : Nat) (v : AccRec) : (s.setRecE n v).cab = s.cab := rfl
@[simp] theorem setRecE_mem (n : Nat) (v : AccRec) : (s.setRecE n v).mem = s.mem := rfl
@[simp] theorem setRecE_integ (n : Nat) (v : AccRec) : (s.setRecE n v).integ = s.integ := rfl
@[simp] theorem setRecE_repair (n : Nat) (v : AccRec) : (s.setRecE n v).repair = s.repair := rfl
@[simp] theorem setRecE_govSlot (n : Nat) (v : AccRec) : (s.setRecE n v).govSlot = s.govSlot := rfl
@[simp] theorem setRecE_govCap (n : Nat) (v : AccRec) : (s.setRecE n v).govCap = s.govCap := rfl
@[simp] theorem setRecE_govBg (n : Nat) (v : AccRec) : (s.setRecE n v).govBg = s.govBg := rfl
@[simp] theorem setRecE_stw (n : Nat) (v : AccRec) : (s.setRecE n v).stw = s.stw := rfl
@[simp] theorem setRecE_hutch (n : Nat) (v : AccRec) : (s.setRecE n v).hutch = s.hutch := rfl
@[simp] theorem setRecE_lehr (n : Nat) (v : AccRec) : (s.setRecE n v).lehr = s.lehr := rfl
@[simp] theorem setRecE_pt (n : Nat) (v : AccRec) : (s.setRecE n v).pt = s.pt := rfl
@[simp] theorem setRecE_start (n : Nat) (v : AccRec) : (s.setRecE n v).start = s.start := rfl
@[simp] theorem setRecE_fault (n : Nat) (v : AccRec) : (s.setRecE n v).fault = s.fault := rfl
@[simp] theorem setRecE_nq (n : Nat) (v : AccRec) : (s.setRecE n v).nq = s.nq := rfl
@[simp] theorem setRecE_fb (n : Nat) (v : AccRec) : (s.setRecE n v).fb = s.fb := rfl
@[simp] theorem setRecE_irq (n : Nat) (v : AccRec) : (s.setRecE n v).irq = s.irq := rfl
@[simp] theorem setRecE_cmd (n : Nat) (v : AccRec) : (s.setRecE n v).cmd = s.cmd := rfl
@[simp] theorem setRecE_sleepReady (n : Nat) (v : AccRec) : (s.setRecE n v).sleepReady = s.sleepReady := rfl
@[simp] theorem setRecE_frzReq (n : Nat) (v : AccRec) : (s.setRecE n v).frzReq = s.frzReq := rfl
@[simp] theorem setRecE_frzCode (n : Nat) (v : AccRec) : (s.setRecE n v).frzCode = s.frzCode := rfl
@[simp] theorem setRecE_frzOrigin (n : Nat) (v : AccRec) : (s.setRecE n v).frzOrigin = s.frzOrigin := rfl
@[simp] theorem setRecE_walks (n : Nat) (v : AccRec) : (s.setRecE n v).walks = s.walks := rfl
@[simp] theorem setRecE_conf (n : Nat) (v : AccRec) : (s.setRecE n v).conf = s.conf := rfl
@[simp] theorem setRecE_tx (n : Nat) (v : AccRec) : (s.setRecE n v).tx = s.tx := rfl
@[simp] theorem setRecE_memTx (n : Nat) (v : AccRec) : (s.setRecE n v).memTx = s.memTx := rfl
@[simp] theorem setRecE_ptTx (n : Nat) (v : AccRec) : (s.setRecE n v).ptTx = s.ptTx := rfl
@[simp] theorem setRecE_work (n : Nat) (v : AccRec) : (s.setRecE n v).work = s.work := rfl
@[simp] theorem setRecE_free (n : Nat) (v : AccRec) : (s.setRecE n v).free = s.free := rfl
@[simp] theorem setRecE_pending (n : Nat) (v : AccRec) : (s.setRecE n v).pending = s.pending := rfl

@[simp] theorem setFanE_dft (n : Nat) (v : FanRec) : (s.setFanE n v).dft = s.dft := rfl
@[simp] theorem setFanE_vaux (n : Nat) (v : FanRec) : (s.setFanE n v).vaux = s.vaux := rfl
@[simp] theorem setFanE_portUp (n : Nat) (v : FanRec) : (s.setFanE n v).portUp = s.portUp := rfl
@[simp] theorem setFanE_coreUp (n : Nat) (v : FanRec) : (s.setFanE n v).coreUp = s.coreUp := rfl
@[simp] theorem setFanE_coldRst (n : Nat) (v : FanRec) : (s.setFanE n v).coldRst = s.coldRst := rfl
@[simp] theorem setFanE_warmRst (n : Nat) (v : FanRec) : (s.setFanE n v).warmRst = s.warmRst := rfl
@[simp] theorem setFanE_freezeIn (n : Nat) (v : FanRec) : (s.setFanE n v).freezeIn = s.freezeIn := rfl
@[simp] theorem setFanE_wakeIn (n : Nat) (v : FanRec) : (s.setFanE n v).wakeIn = s.wakeIn := rfl
@[simp] theorem setFanE_regs (n : Nat) (v : FanRec) : (s.setFanE n v).regs = s.regs := rfl
@[simp] theorem setFanE_hiLatch (n : Nat) (v : FanRec) : (s.setFanE n v).hiLatch = s.hiLatch := rfl
@[simp] theorem setFanE_wrHold (n : Nat) (v : FanRec) : (s.setFanE n v).wrHold = s.wrHold := rfl
@[simp] theorem setFanE_rdata (n : Nat) (v : FanRec) : (s.setFanE n v).rdata = s.rdata := rfl
@[simp] theorem setFanE_now (n : Nat) (v : FanRec) : (s.setFanE n v).now = s.now := rfl
@[simp] theorem setFanE_lehrNow (n : Nat) (v : FanRec) : (s.setFanE n v).lehrNow = s.lehrNow := rfl
@[simp] theorem setFanE_agt (n : Nat) (v : FanRec) : (s.setFanE n v).agt = s.agt := rfl
@[simp] theorem setFanE_shadow (n : Nat) (v : FanRec) : (s.setFanE n v).shadow = s.shadow := rfl
@[simp] theorem setFanE_sl (n : Nat) (v : FanRec) : (s.setFanE n v).sl = s.sl := rfl
@[simp] theorem setFanE_cab (n : Nat) (v : FanRec) : (s.setFanE n v).cab = s.cab := rfl
@[simp] theorem setFanE_mem (n : Nat) (v : FanRec) : (s.setFanE n v).mem = s.mem := rfl
@[simp] theorem setFanE_integ (n : Nat) (v : FanRec) : (s.setFanE n v).integ = s.integ := rfl
@[simp] theorem setFanE_repair (n : Nat) (v : FanRec) : (s.setFanE n v).repair = s.repair := rfl
@[simp] theorem setFanE_govSlot (n : Nat) (v : FanRec) : (s.setFanE n v).govSlot = s.govSlot := rfl
@[simp] theorem setFanE_govCap (n : Nat) (v : FanRec) : (s.setFanE n v).govCap = s.govCap := rfl
@[simp] theorem setFanE_govBg (n : Nat) (v : FanRec) : (s.setFanE n v).govBg = s.govBg := rfl
@[simp] theorem setFanE_stw (n : Nat) (v : FanRec) : (s.setFanE n v).stw = s.stw := rfl
@[simp] theorem setFanE_hutch (n : Nat) (v : FanRec) : (s.setFanE n v).hutch = s.hutch := rfl
@[simp] theorem setFanE_lehr (n : Nat) (v : FanRec) : (s.setFanE n v).lehr = s.lehr := rfl
@[simp] theorem setFanE_pt (n : Nat) (v : FanRec) : (s.setFanE n v).pt = s.pt := rfl
@[simp] theorem setFanE_start (n : Nat) (v : FanRec) : (s.setFanE n v).start = s.start := rfl
@[simp] theorem setFanE_fault (n : Nat) (v : FanRec) : (s.setFanE n v).fault = s.fault := rfl
@[simp] theorem setFanE_nq (n : Nat) (v : FanRec) : (s.setFanE n v).nq = s.nq := rfl
@[simp] theorem setFanE_fb (n : Nat) (v : FanRec) : (s.setFanE n v).fb = s.fb := rfl
@[simp] theorem setFanE_irq (n : Nat) (v : FanRec) : (s.setFanE n v).irq = s.irq := rfl
@[simp] theorem setFanE_cmd (n : Nat) (v : FanRec) : (s.setFanE n v).cmd = s.cmd := rfl
@[simp] theorem setFanE_sleepReady (n : Nat) (v : FanRec) : (s.setFanE n v).sleepReady = s.sleepReady := rfl
@[simp] theorem setFanE_frzReq (n : Nat) (v : FanRec) : (s.setFanE n v).frzReq = s.frzReq := rfl
@[simp] theorem setFanE_frzCode (n : Nat) (v : FanRec) : (s.setFanE n v).frzCode = s.frzCode := rfl
@[simp] theorem setFanE_frzOrigin (n : Nat) (v : FanRec) : (s.setFanE n v).frzOrigin = s.frzOrigin := rfl
@[simp] theorem setFanE_walks (n : Nat) (v : FanRec) : (s.setFanE n v).walks = s.walks := rfl
@[simp] theorem setFanE_conf (n : Nat) (v : FanRec) : (s.setFanE n v).conf = s.conf := rfl
@[simp] theorem setFanE_tx (n : Nat) (v : FanRec) : (s.setFanE n v).tx = s.tx := rfl
@[simp] theorem setFanE_memTx (n : Nat) (v : FanRec) : (s.setFanE n v).memTx = s.memTx := rfl
@[simp] theorem setFanE_ptTx (n : Nat) (v : FanRec) : (s.setFanE n v).ptTx = s.ptTx := rfl
@[simp] theorem setFanE_work (n : Nat) (v : FanRec) : (s.setFanE n v).work = s.work := rfl
@[simp] theorem setFanE_free (n : Nat) (v : FanRec) : (s.setFanE n v).free = s.free := rfl
@[simp] theorem setFanE_pending (n : Nat) (v : FanRec) : (s.setFanE n v).pending = s.pending := rfl

@[simp] theorem setTrkE_dft (n : Nat) (v : Trk) : (s.setTrkE n v).dft = s.dft := rfl
@[simp] theorem setTrkE_vaux (n : Nat) (v : Trk) : (s.setTrkE n v).vaux = s.vaux := rfl
@[simp] theorem setTrkE_portUp (n : Nat) (v : Trk) : (s.setTrkE n v).portUp = s.portUp := rfl
@[simp] theorem setTrkE_coreUp (n : Nat) (v : Trk) : (s.setTrkE n v).coreUp = s.coreUp := rfl
@[simp] theorem setTrkE_coldRst (n : Nat) (v : Trk) : (s.setTrkE n v).coldRst = s.coldRst := rfl
@[simp] theorem setTrkE_warmRst (n : Nat) (v : Trk) : (s.setTrkE n v).warmRst = s.warmRst := rfl
@[simp] theorem setTrkE_freezeIn (n : Nat) (v : Trk) : (s.setTrkE n v).freezeIn = s.freezeIn := rfl
@[simp] theorem setTrkE_wakeIn (n : Nat) (v : Trk) : (s.setTrkE n v).wakeIn = s.wakeIn := rfl
@[simp] theorem setTrkE_regs (n : Nat) (v : Trk) : (s.setTrkE n v).regs = s.regs := rfl
@[simp] theorem setTrkE_hiLatch (n : Nat) (v : Trk) : (s.setTrkE n v).hiLatch = s.hiLatch := rfl
@[simp] theorem setTrkE_wrHold (n : Nat) (v : Trk) : (s.setTrkE n v).wrHold = s.wrHold := rfl
@[simp] theorem setTrkE_rdata (n : Nat) (v : Trk) : (s.setTrkE n v).rdata = s.rdata := rfl
@[simp] theorem setTrkE_now (n : Nat) (v : Trk) : (s.setTrkE n v).now = s.now := rfl
@[simp] theorem setTrkE_lehrNow (n : Nat) (v : Trk) : (s.setTrkE n v).lehrNow = s.lehrNow := rfl
@[simp] theorem setTrkE_port (n : Nat) (v : Trk) : (s.setTrkE n v).port = s.port := rfl
@[simp] theorem setTrkE_agt (n : Nat) (v : Trk) : (s.setTrkE n v).agt = s.agt := rfl
@[simp] theorem setTrkE_shadow (n : Nat) (v : Trk) : (s.setTrkE n v).shadow = s.shadow := rfl
@[simp] theorem setTrkE_cab (n : Nat) (v : Trk) : (s.setTrkE n v).cab = s.cab := rfl
@[simp] theorem setTrkE_mem (n : Nat) (v : Trk) : (s.setTrkE n v).mem = s.mem := rfl
@[simp] theorem setTrkE_integ (n : Nat) (v : Trk) : (s.setTrkE n v).integ = s.integ := rfl
@[simp] theorem setTrkE_repair (n : Nat) (v : Trk) : (s.setTrkE n v).repair = s.repair := rfl
@[simp] theorem setTrkE_govSlot (n : Nat) (v : Trk) : (s.setTrkE n v).govSlot = s.govSlot := rfl
@[simp] theorem setTrkE_govCap (n : Nat) (v : Trk) : (s.setTrkE n v).govCap = s.govCap := rfl
@[simp] theorem setTrkE_govBg (n : Nat) (v : Trk) : (s.setTrkE n v).govBg = s.govBg := rfl
@[simp] theorem setTrkE_stw (n : Nat) (v : Trk) : (s.setTrkE n v).stw = s.stw := rfl
@[simp] theorem setTrkE_hutch (n : Nat) (v : Trk) : (s.setTrkE n v).hutch = s.hutch := rfl
@[simp] theorem setTrkE_lehr (n : Nat) (v : Trk) : (s.setTrkE n v).lehr = s.lehr := rfl
@[simp] theorem setTrkE_pt (n : Nat) (v : Trk) : (s.setTrkE n v).pt = s.pt := rfl
@[simp] theorem setTrkE_start (n : Nat) (v : Trk) : (s.setTrkE n v).start = s.start := rfl
@[simp] theorem setTrkE_fault (n : Nat) (v : Trk) : (s.setTrkE n v).fault = s.fault := rfl
@[simp] theorem setTrkE_nq (n : Nat) (v : Trk) : (s.setTrkE n v).nq = s.nq := rfl
@[simp] theorem setTrkE_fb (n : Nat) (v : Trk) : (s.setTrkE n v).fb = s.fb := rfl
@[simp] theorem setTrkE_irq (n : Nat) (v : Trk) : (s.setTrkE n v).irq = s.irq := rfl
@[simp] theorem setTrkE_cmd (n : Nat) (v : Trk) : (s.setTrkE n v).cmd = s.cmd := rfl
@[simp] theorem setTrkE_sleepReady (n : Nat) (v : Trk) : (s.setTrkE n v).sleepReady = s.sleepReady := rfl
@[simp] theorem setTrkE_frzReq (n : Nat) (v : Trk) : (s.setTrkE n v).frzReq = s.frzReq := rfl
@[simp] theorem setTrkE_frzCode (n : Nat) (v : Trk) : (s.setTrkE n v).frzCode = s.frzCode := rfl
@[simp] theorem setTrkE_frzOrigin (n : Nat) (v : Trk) : (s.setTrkE n v).frzOrigin = s.frzOrigin := rfl
@[simp] theorem setTrkE_walks (n : Nat) (v : Trk) : (s.setTrkE n v).walks = s.walks := rfl
@[simp] theorem setTrkE_conf (n : Nat) (v : Trk) : (s.setTrkE n v).conf = s.conf := rfl
@[simp] theorem setTrkE_tx (n : Nat) (v : Trk) : (s.setTrkE n v).tx = s.tx := rfl
@[simp] theorem setTrkE_memTx (n : Nat) (v : Trk) : (s.setTrkE n v).memTx = s.memTx := rfl
@[simp] theorem setTrkE_ptTx (n : Nat) (v : Trk) : (s.setTrkE n v).ptTx = s.ptTx := rfl
@[simp] theorem setTrkE_work (n : Nat) (v : Trk) : (s.setTrkE n v).work = s.work := rfl
@[simp] theorem setTrkE_free (n : Nat) (v : Trk) : (s.setTrkE n v).free = s.free := rfl
@[simp] theorem setTrkE_pending (n : Nat) (v : Trk) : (s.setTrkE n v).pending = s.pending := rfl

@[simp] theorem setSinkE_dft (n : Nat) (v : Sink) : (s.setSinkE n v).dft = s.dft := rfl
@[simp] theorem setSinkE_vaux (n : Nat) (v : Sink) : (s.setSinkE n v).vaux = s.vaux := rfl
@[simp] theorem setSinkE_portUp (n : Nat) (v : Sink) : (s.setSinkE n v).portUp = s.portUp := rfl
@[simp] theorem setSinkE_coreUp (n : Nat) (v : Sink) : (s.setSinkE n v).coreUp = s.coreUp := rfl
@[simp] theorem setSinkE_coldRst (n : Nat) (v : Sink) : (s.setSinkE n v).coldRst = s.coldRst := rfl
@[simp] theorem setSinkE_warmRst (n : Nat) (v : Sink) : (s.setSinkE n v).warmRst = s.warmRst := rfl
@[simp] theorem setSinkE_freezeIn (n : Nat) (v : Sink) : (s.setSinkE n v).freezeIn = s.freezeIn := rfl
@[simp] theorem setSinkE_wakeIn (n : Nat) (v : Sink) : (s.setSinkE n v).wakeIn = s.wakeIn := rfl
@[simp] theorem setSinkE_regs (n : Nat) (v : Sink) : (s.setSinkE n v).regs = s.regs := rfl
@[simp] theorem setSinkE_hiLatch (n : Nat) (v : Sink) : (s.setSinkE n v).hiLatch = s.hiLatch := rfl
@[simp] theorem setSinkE_wrHold (n : Nat) (v : Sink) : (s.setSinkE n v).wrHold = s.wrHold := rfl
@[simp] theorem setSinkE_rdata (n : Nat) (v : Sink) : (s.setSinkE n v).rdata = s.rdata := rfl
@[simp] theorem setSinkE_now (n : Nat) (v : Sink) : (s.setSinkE n v).now = s.now := rfl
@[simp] theorem setSinkE_lehrNow (n : Nat) (v : Sink) : (s.setSinkE n v).lehrNow = s.lehrNow := rfl
@[simp] theorem setSinkE_port (n : Nat) (v : Sink) : (s.setSinkE n v).port = s.port := rfl
@[simp] theorem setSinkE_agt (n : Nat) (v : Sink) : (s.setSinkE n v).agt = s.agt := rfl
@[simp] theorem setSinkE_shadow (n : Nat) (v : Sink) : (s.setSinkE n v).shadow = s.shadow := rfl
@[simp] theorem setSinkE_cab (n : Nat) (v : Sink) : (s.setSinkE n v).cab = s.cab := rfl
@[simp] theorem setSinkE_mem (n : Nat) (v : Sink) : (s.setSinkE n v).mem = s.mem := rfl
@[simp] theorem setSinkE_integ (n : Nat) (v : Sink) : (s.setSinkE n v).integ = s.integ := rfl
@[simp] theorem setSinkE_repair (n : Nat) (v : Sink) : (s.setSinkE n v).repair = s.repair := rfl
@[simp] theorem setSinkE_govSlot (n : Nat) (v : Sink) : (s.setSinkE n v).govSlot = s.govSlot := rfl
@[simp] theorem setSinkE_govCap (n : Nat) (v : Sink) : (s.setSinkE n v).govCap = s.govCap := rfl
@[simp] theorem setSinkE_govBg (n : Nat) (v : Sink) : (s.setSinkE n v).govBg = s.govBg := rfl
@[simp] theorem setSinkE_stw (n : Nat) (v : Sink) : (s.setSinkE n v).stw = s.stw := rfl
@[simp] theorem setSinkE_hutch (n : Nat) (v : Sink) : (s.setSinkE n v).hutch = s.hutch := rfl
@[simp] theorem setSinkE_lehr (n : Nat) (v : Sink) : (s.setSinkE n v).lehr = s.lehr := rfl
@[simp] theorem setSinkE_pt (n : Nat) (v : Sink) : (s.setSinkE n v).pt = s.pt := rfl
@[simp] theorem setSinkE_start (n : Nat) (v : Sink) : (s.setSinkE n v).start = s.start := rfl
@[simp] theorem setSinkE_fault (n : Nat) (v : Sink) : (s.setSinkE n v).fault = s.fault := rfl
@[simp] theorem setSinkE_nq (n : Nat) (v : Sink) : (s.setSinkE n v).nq = s.nq := rfl
@[simp] theorem setSinkE_fb (n : Nat) (v : Sink) : (s.setSinkE n v).fb = s.fb := rfl
@[simp] theorem setSinkE_irq (n : Nat) (v : Sink) : (s.setSinkE n v).irq = s.irq := rfl
@[simp] theorem setSinkE_cmd (n : Nat) (v : Sink) : (s.setSinkE n v).cmd = s.cmd := rfl
@[simp] theorem setSinkE_sleepReady (n : Nat) (v : Sink) : (s.setSinkE n v).sleepReady = s.sleepReady := rfl
@[simp] theorem setSinkE_frzReq (n : Nat) (v : Sink) : (s.setSinkE n v).frzReq = s.frzReq := rfl
@[simp] theorem setSinkE_frzCode (n : Nat) (v : Sink) : (s.setSinkE n v).frzCode = s.frzCode := rfl
@[simp] theorem setSinkE_frzOrigin (n : Nat) (v : Sink) : (s.setSinkE n v).frzOrigin = s.frzOrigin := rfl
@[simp] theorem setSinkE_walks (n : Nat) (v : Sink) : (s.setSinkE n v).walks = s.walks := rfl
@[simp] theorem setSinkE_conf (n : Nat) (v : Sink) : (s.setSinkE n v).conf = s.conf := rfl
@[simp] theorem setSinkE_tx (n : Nat) (v : Sink) : (s.setSinkE n v).tx = s.tx := rfl
@[simp] theorem setSinkE_memTx (n : Nat) (v : Sink) : (s.setSinkE n v).memTx = s.memTx := rfl
@[simp] theorem setSinkE_ptTx (n : Nat) (v : Sink) : (s.setSinkE n v).ptTx = s.ptTx := rfl
@[simp] theorem setSinkE_work (n : Nat) (v : Sink) : (s.setSinkE n v).work = s.work := rfl
@[simp] theorem setSinkE_free (n : Nat) (v : Sink) : (s.setSinkE n v).free = s.free := rfl
@[simp] theorem setSinkE_pending (n : Nat) (v : Sink) : (s.setSinkE n v).pending = s.pending := rfl

@[simp] theorem setSlq_dft (n : Nat) (v : SliceQ) : (s.setSlq n v).dft = s.dft := rfl
@[simp] theorem setSlq_vaux (n : Nat) (v : SliceQ) : (s.setSlq n v).vaux = s.vaux := rfl
@[simp] theorem setSlq_portUp (n : Nat) (v : SliceQ) : (s.setSlq n v).portUp = s.portUp := rfl
@[simp] theorem setSlq_coreUp (n : Nat) (v : SliceQ) : (s.setSlq n v).coreUp = s.coreUp := rfl
@[simp] theorem setSlq_coldRst (n : Nat) (v : SliceQ) : (s.setSlq n v).coldRst = s.coldRst := rfl
@[simp] theorem setSlq_warmRst (n : Nat) (v : SliceQ) : (s.setSlq n v).warmRst = s.warmRst := rfl
@[simp] theorem setSlq_freezeIn (n : Nat) (v : SliceQ) : (s.setSlq n v).freezeIn = s.freezeIn := rfl
@[simp] theorem setSlq_wakeIn (n : Nat) (v : SliceQ) : (s.setSlq n v).wakeIn = s.wakeIn := rfl
@[simp] theorem setSlq_regs (n : Nat) (v : SliceQ) : (s.setSlq n v).regs = s.regs := rfl
@[simp] theorem setSlq_hiLatch (n : Nat) (v : SliceQ) : (s.setSlq n v).hiLatch = s.hiLatch := rfl
@[simp] theorem setSlq_wrHold (n : Nat) (v : SliceQ) : (s.setSlq n v).wrHold = s.wrHold := rfl
@[simp] theorem setSlq_rdata (n : Nat) (v : SliceQ) : (s.setSlq n v).rdata = s.rdata := rfl
@[simp] theorem setSlq_now (n : Nat) (v : SliceQ) : (s.setSlq n v).now = s.now := rfl
@[simp] theorem setSlq_lehrNow (n : Nat) (v : SliceQ) : (s.setSlq n v).lehrNow = s.lehrNow := rfl
@[simp] theorem setSlq_port (n : Nat) (v : SliceQ) : (s.setSlq n v).port = s.port := rfl
@[simp] theorem setSlq_agt (n : Nat) (v : SliceQ) : (s.setSlq n v).agt = s.agt := rfl
@[simp] theorem setSlq_shadow (n : Nat) (v : SliceQ) : (s.setSlq n v).shadow = s.shadow := rfl
@[simp] theorem setSlq_cab (n : Nat) (v : SliceQ) : (s.setSlq n v).cab = s.cab := rfl
@[simp] theorem setSlq_mem (n : Nat) (v : SliceQ) : (s.setSlq n v).mem = s.mem := rfl
@[simp] theorem setSlq_integ (n : Nat) (v : SliceQ) : (s.setSlq n v).integ = s.integ := rfl
@[simp] theorem setSlq_repair (n : Nat) (v : SliceQ) : (s.setSlq n v).repair = s.repair := rfl
@[simp] theorem setSlq_govSlot (n : Nat) (v : SliceQ) : (s.setSlq n v).govSlot = s.govSlot := rfl
@[simp] theorem setSlq_govCap (n : Nat) (v : SliceQ) : (s.setSlq n v).govCap = s.govCap := rfl
@[simp] theorem setSlq_govBg (n : Nat) (v : SliceQ) : (s.setSlq n v).govBg = s.govBg := rfl
@[simp] theorem setSlq_stw (n : Nat) (v : SliceQ) : (s.setSlq n v).stw = s.stw := rfl
@[simp] theorem setSlq_hutch (n : Nat) (v : SliceQ) : (s.setSlq n v).hutch = s.hutch := rfl
@[simp] theorem setSlq_lehr (n : Nat) (v : SliceQ) : (s.setSlq n v).lehr = s.lehr := rfl
@[simp] theorem setSlq_pt (n : Nat) (v : SliceQ) : (s.setSlq n v).pt = s.pt := rfl
@[simp] theorem setSlq_start (n : Nat) (v : SliceQ) : (s.setSlq n v).start = s.start := rfl
@[simp] theorem setSlq_fault (n : Nat) (v : SliceQ) : (s.setSlq n v).fault = s.fault := rfl
@[simp] theorem setSlq_nq (n : Nat) (v : SliceQ) : (s.setSlq n v).nq = s.nq := rfl
@[simp] theorem setSlq_fb (n : Nat) (v : SliceQ) : (s.setSlq n v).fb = s.fb := rfl
@[simp] theorem setSlq_irq (n : Nat) (v : SliceQ) : (s.setSlq n v).irq = s.irq := rfl
@[simp] theorem setSlq_cmd (n : Nat) (v : SliceQ) : (s.setSlq n v).cmd = s.cmd := rfl
@[simp] theorem setSlq_sleepReady (n : Nat) (v : SliceQ) : (s.setSlq n v).sleepReady = s.sleepReady := rfl
@[simp] theorem setSlq_frzReq (n : Nat) (v : SliceQ) : (s.setSlq n v).frzReq = s.frzReq := rfl
@[simp] theorem setSlq_frzCode (n : Nat) (v : SliceQ) : (s.setSlq n v).frzCode = s.frzCode := rfl
@[simp] theorem setSlq_frzOrigin (n : Nat) (v : SliceQ) : (s.setSlq n v).frzOrigin = s.frzOrigin := rfl
@[simp] theorem setSlq_walks (n : Nat) (v : SliceQ) : (s.setSlq n v).walks = s.walks := rfl
@[simp] theorem setSlq_conf (n : Nat) (v : SliceQ) : (s.setSlq n v).conf = s.conf := rfl
@[simp] theorem setSlq_tx (n : Nat) (v : SliceQ) : (s.setSlq n v).tx = s.tx := rfl
@[simp] theorem setSlq_memTx (n : Nat) (v : SliceQ) : (s.setSlq n v).memTx = s.memTx := rfl
@[simp] theorem setSlq_ptTx (n : Nat) (v : SliceQ) : (s.setSlq n v).ptTx = s.ptTx := rfl
@[simp] theorem setSlq_work (n : Nat) (v : SliceQ) : (s.setSlq n v).work = s.work := rfl
@[simp] theorem setSlq_free (n : Nat) (v : SliceQ) : (s.setSlq n v).free = s.free := rfl
@[simp] theorem setSlq_pending (n : Nat) (v : SliceQ) : (s.setSlq n v).pending = s.pending := rfl

@[simp] theorem setDrq_dft (n : Nat) (v : DrawerQ) : (s.setDrq n v).dft = s.dft := rfl
@[simp] theorem setDrq_vaux (n : Nat) (v : DrawerQ) : (s.setDrq n v).vaux = s.vaux := rfl
@[simp] theorem setDrq_portUp (n : Nat) (v : DrawerQ) : (s.setDrq n v).portUp = s.portUp := rfl
@[simp] theorem setDrq_coreUp (n : Nat) (v : DrawerQ) : (s.setDrq n v).coreUp = s.coreUp := rfl
@[simp] theorem setDrq_coldRst (n : Nat) (v : DrawerQ) : (s.setDrq n v).coldRst = s.coldRst := rfl
@[simp] theorem setDrq_warmRst (n : Nat) (v : DrawerQ) : (s.setDrq n v).warmRst = s.warmRst := rfl
@[simp] theorem setDrq_freezeIn (n : Nat) (v : DrawerQ) : (s.setDrq n v).freezeIn = s.freezeIn := rfl
@[simp] theorem setDrq_wakeIn (n : Nat) (v : DrawerQ) : (s.setDrq n v).wakeIn = s.wakeIn := rfl
@[simp] theorem setDrq_regs (n : Nat) (v : DrawerQ) : (s.setDrq n v).regs = s.regs := rfl
@[simp] theorem setDrq_hiLatch (n : Nat) (v : DrawerQ) : (s.setDrq n v).hiLatch = s.hiLatch := rfl
@[simp] theorem setDrq_wrHold (n : Nat) (v : DrawerQ) : (s.setDrq n v).wrHold = s.wrHold := rfl
@[simp] theorem setDrq_rdata (n : Nat) (v : DrawerQ) : (s.setDrq n v).rdata = s.rdata := rfl
@[simp] theorem setDrq_now (n : Nat) (v : DrawerQ) : (s.setDrq n v).now = s.now := rfl
@[simp] theorem setDrq_lehrNow (n : Nat) (v : DrawerQ) : (s.setDrq n v).lehrNow = s.lehrNow := rfl
@[simp] theorem setDrq_port (n : Nat) (v : DrawerQ) : (s.setDrq n v).port = s.port := rfl
@[simp] theorem setDrq_agt (n : Nat) (v : DrawerQ) : (s.setDrq n v).agt = s.agt := rfl
@[simp] theorem setDrq_shadow (n : Nat) (v : DrawerQ) : (s.setDrq n v).shadow = s.shadow := rfl
@[simp] theorem setDrq_sl (n : Nat) (v : DrawerQ) : (s.setDrq n v).sl = s.sl := rfl
@[simp] theorem setDrq_mem (n : Nat) (v : DrawerQ) : (s.setDrq n v).mem = s.mem := rfl
@[simp] theorem setDrq_integ (n : Nat) (v : DrawerQ) : (s.setDrq n v).integ = s.integ := rfl
@[simp] theorem setDrq_repair (n : Nat) (v : DrawerQ) : (s.setDrq n v).repair = s.repair := rfl
@[simp] theorem setDrq_govSlot (n : Nat) (v : DrawerQ) : (s.setDrq n v).govSlot = s.govSlot := rfl
@[simp] theorem setDrq_govCap (n : Nat) (v : DrawerQ) : (s.setDrq n v).govCap = s.govCap := rfl
@[simp] theorem setDrq_govBg (n : Nat) (v : DrawerQ) : (s.setDrq n v).govBg = s.govBg := rfl
@[simp] theorem setDrq_stw (n : Nat) (v : DrawerQ) : (s.setDrq n v).stw = s.stw := rfl
@[simp] theorem setDrq_hutch (n : Nat) (v : DrawerQ) : (s.setDrq n v).hutch = s.hutch := rfl
@[simp] theorem setDrq_lehr (n : Nat) (v : DrawerQ) : (s.setDrq n v).lehr = s.lehr := rfl
@[simp] theorem setDrq_pt (n : Nat) (v : DrawerQ) : (s.setDrq n v).pt = s.pt := rfl
@[simp] theorem setDrq_start (n : Nat) (v : DrawerQ) : (s.setDrq n v).start = s.start := rfl
@[simp] theorem setDrq_fault (n : Nat) (v : DrawerQ) : (s.setDrq n v).fault = s.fault := rfl
@[simp] theorem setDrq_nq (n : Nat) (v : DrawerQ) : (s.setDrq n v).nq = s.nq := rfl
@[simp] theorem setDrq_fb (n : Nat) (v : DrawerQ) : (s.setDrq n v).fb = s.fb := rfl
@[simp] theorem setDrq_irq (n : Nat) (v : DrawerQ) : (s.setDrq n v).irq = s.irq := rfl
@[simp] theorem setDrq_cmd (n : Nat) (v : DrawerQ) : (s.setDrq n v).cmd = s.cmd := rfl
@[simp] theorem setDrq_sleepReady (n : Nat) (v : DrawerQ) : (s.setDrq n v).sleepReady = s.sleepReady := rfl
@[simp] theorem setDrq_frzReq (n : Nat) (v : DrawerQ) : (s.setDrq n v).frzReq = s.frzReq := rfl
@[simp] theorem setDrq_frzCode (n : Nat) (v : DrawerQ) : (s.setDrq n v).frzCode = s.frzCode := rfl
@[simp] theorem setDrq_frzOrigin (n : Nat) (v : DrawerQ) : (s.setDrq n v).frzOrigin = s.frzOrigin := rfl
@[simp] theorem setDrq_walks (n : Nat) (v : DrawerQ) : (s.setDrq n v).walks = s.walks := rfl
@[simp] theorem setDrq_conf (n : Nat) (v : DrawerQ) : (s.setDrq n v).conf = s.conf := rfl
@[simp] theorem setDrq_tx (n : Nat) (v : DrawerQ) : (s.setDrq n v).tx = s.tx := rfl
@[simp] theorem setDrq_memTx (n : Nat) (v : DrawerQ) : (s.setDrq n v).memTx = s.memTx := rfl
@[simp] theorem setDrq_ptTx (n : Nat) (v : DrawerQ) : (s.setDrq n v).ptTx = s.ptTx := rfl
@[simp] theorem setDrq_work (n : Nat) (v : DrawerQ) : (s.setDrq n v).work = s.work := rfl
@[simp] theorem setDrq_free (n : Nat) (v : DrawerQ) : (s.setDrq n v).free = s.free := rfl
@[simp] theorem setDrq_pending (n : Nat) (v : DrawerQ) : (s.setDrq n v).pending = s.pending := rfl

@[simp] theorem setMport_dft (n : Nat) (v : MPort) : (s.setMport n v).dft = s.dft := rfl
@[simp] theorem setMport_vaux (n : Nat) (v : MPort) : (s.setMport n v).vaux = s.vaux := rfl
@[simp] theorem setMport_portUp (n : Nat) (v : MPort) : (s.setMport n v).portUp = s.portUp := rfl
@[simp] theorem setMport_coreUp (n : Nat) (v : MPort) : (s.setMport n v).coreUp = s.coreUp := rfl
@[simp] theorem setMport_coldRst (n : Nat) (v : MPort) : (s.setMport n v).coldRst = s.coldRst := rfl
@[simp] theorem setMport_warmRst (n : Nat) (v : MPort) : (s.setMport n v).warmRst = s.warmRst := rfl
@[simp] theorem setMport_freezeIn (n : Nat) (v : MPort) : (s.setMport n v).freezeIn = s.freezeIn := rfl
@[simp] theorem setMport_wakeIn (n : Nat) (v : MPort) : (s.setMport n v).wakeIn = s.wakeIn := rfl
@[simp] theorem setMport_regs (n : Nat) (v : MPort) : (s.setMport n v).regs = s.regs := rfl
@[simp] theorem setMport_hiLatch (n : Nat) (v : MPort) : (s.setMport n v).hiLatch = s.hiLatch := rfl
@[simp] theorem setMport_wrHold (n : Nat) (v : MPort) : (s.setMport n v).wrHold = s.wrHold := rfl
@[simp] theorem setMport_rdata (n : Nat) (v : MPort) : (s.setMport n v).rdata = s.rdata := rfl
@[simp] theorem setMport_now (n : Nat) (v : MPort) : (s.setMport n v).now = s.now := rfl
@[simp] theorem setMport_lehrNow (n : Nat) (v : MPort) : (s.setMport n v).lehrNow = s.lehrNow := rfl
@[simp] theorem setMport_port (n : Nat) (v : MPort) : (s.setMport n v).port = s.port := rfl
@[simp] theorem setMport_agt (n : Nat) (v : MPort) : (s.setMport n v).agt = s.agt := rfl
@[simp] theorem setMport_shadow (n : Nat) (v : MPort) : (s.setMport n v).shadow = s.shadow := rfl
@[simp] theorem setMport_sl (n : Nat) (v : MPort) : (s.setMport n v).sl = s.sl := rfl
@[simp] theorem setMport_cab (n : Nat) (v : MPort) : (s.setMport n v).cab = s.cab := rfl
@[simp] theorem setMport_integ (n : Nat) (v : MPort) : (s.setMport n v).integ = s.integ := rfl
@[simp] theorem setMport_repair (n : Nat) (v : MPort) : (s.setMport n v).repair = s.repair := rfl
@[simp] theorem setMport_govSlot (n : Nat) (v : MPort) : (s.setMport n v).govSlot = s.govSlot := rfl
@[simp] theorem setMport_govCap (n : Nat) (v : MPort) : (s.setMport n v).govCap = s.govCap := rfl
@[simp] theorem setMport_govBg (n : Nat) (v : MPort) : (s.setMport n v).govBg = s.govBg := rfl
@[simp] theorem setMport_stw (n : Nat) (v : MPort) : (s.setMport n v).stw = s.stw := rfl
@[simp] theorem setMport_hutch (n : Nat) (v : MPort) : (s.setMport n v).hutch = s.hutch := rfl
@[simp] theorem setMport_lehr (n : Nat) (v : MPort) : (s.setMport n v).lehr = s.lehr := rfl
@[simp] theorem setMport_pt (n : Nat) (v : MPort) : (s.setMport n v).pt = s.pt := rfl
@[simp] theorem setMport_start (n : Nat) (v : MPort) : (s.setMport n v).start = s.start := rfl
@[simp] theorem setMport_fault (n : Nat) (v : MPort) : (s.setMport n v).fault = s.fault := rfl
@[simp] theorem setMport_nq (n : Nat) (v : MPort) : (s.setMport n v).nq = s.nq := rfl
@[simp] theorem setMport_fb (n : Nat) (v : MPort) : (s.setMport n v).fb = s.fb := rfl
@[simp] theorem setMport_irq (n : Nat) (v : MPort) : (s.setMport n v).irq = s.irq := rfl
@[simp] theorem setMport_cmd (n : Nat) (v : MPort) : (s.setMport n v).cmd = s.cmd := rfl
@[simp] theorem setMport_sleepReady (n : Nat) (v : MPort) : (s.setMport n v).sleepReady = s.sleepReady := rfl
@[simp] theorem setMport_frzReq (n : Nat) (v : MPort) : (s.setMport n v).frzReq = s.frzReq := rfl
@[simp] theorem setMport_frzCode (n : Nat) (v : MPort) : (s.setMport n v).frzCode = s.frzCode := rfl
@[simp] theorem setMport_frzOrigin (n : Nat) (v : MPort) : (s.setMport n v).frzOrigin = s.frzOrigin := rfl
@[simp] theorem setMport_walks (n : Nat) (v : MPort) : (s.setMport n v).walks = s.walks := rfl
@[simp] theorem setMport_conf (n : Nat) (v : MPort) : (s.setMport n v).conf = s.conf := rfl
@[simp] theorem setMport_tx (n : Nat) (v : MPort) : (s.setMport n v).tx = s.tx := rfl
@[simp] theorem setMport_memTx (n : Nat) (v : MPort) : (s.setMport n v).memTx = s.memTx := rfl
@[simp] theorem setMport_ptTx (n : Nat) (v : MPort) : (s.setMport n v).ptTx = s.ptTx := rfl
@[simp] theorem setMport_work (n : Nat) (v : MPort) : (s.setMport n v).work = s.work := rfl
@[simp] theorem setMport_free (n : Nat) (v : MPort) : (s.setMport n v).free = s.free := rfl
@[simp] theorem setMport_pending (n : Nat) (v : MPort) : (s.setMport n v).pending = s.pending := rfl

@[simp] theorem setBulkE_dft (n : Nat) (v : Bulk) : (s.setBulkE n v).dft = s.dft := rfl
@[simp] theorem setBulkE_vaux (n : Nat) (v : Bulk) : (s.setBulkE n v).vaux = s.vaux := rfl
@[simp] theorem setBulkE_portUp (n : Nat) (v : Bulk) : (s.setBulkE n v).portUp = s.portUp := rfl
@[simp] theorem setBulkE_coreUp (n : Nat) (v : Bulk) : (s.setBulkE n v).coreUp = s.coreUp := rfl
@[simp] theorem setBulkE_coldRst (n : Nat) (v : Bulk) : (s.setBulkE n v).coldRst = s.coldRst := rfl
@[simp] theorem setBulkE_warmRst (n : Nat) (v : Bulk) : (s.setBulkE n v).warmRst = s.warmRst := rfl
@[simp] theorem setBulkE_freezeIn (n : Nat) (v : Bulk) : (s.setBulkE n v).freezeIn = s.freezeIn := rfl
@[simp] theorem setBulkE_wakeIn (n : Nat) (v : Bulk) : (s.setBulkE n v).wakeIn = s.wakeIn := rfl
@[simp] theorem setBulkE_regs (n : Nat) (v : Bulk) : (s.setBulkE n v).regs = s.regs := rfl
@[simp] theorem setBulkE_hiLatch (n : Nat) (v : Bulk) : (s.setBulkE n v).hiLatch = s.hiLatch := rfl
@[simp] theorem setBulkE_wrHold (n : Nat) (v : Bulk) : (s.setBulkE n v).wrHold = s.wrHold := rfl
@[simp] theorem setBulkE_rdata (n : Nat) (v : Bulk) : (s.setBulkE n v).rdata = s.rdata := rfl
@[simp] theorem setBulkE_now (n : Nat) (v : Bulk) : (s.setBulkE n v).now = s.now := rfl
@[simp] theorem setBulkE_lehrNow (n : Nat) (v : Bulk) : (s.setBulkE n v).lehrNow = s.lehrNow := rfl
@[simp] theorem setBulkE_port (n : Nat) (v : Bulk) : (s.setBulkE n v).port = s.port := rfl
@[simp] theorem setBulkE_agt (n : Nat) (v : Bulk) : (s.setBulkE n v).agt = s.agt := rfl
@[simp] theorem setBulkE_shadow (n : Nat) (v : Bulk) : (s.setBulkE n v).shadow = s.shadow := rfl
@[simp] theorem setBulkE_sl (n : Nat) (v : Bulk) : (s.setBulkE n v).sl = s.sl := rfl
@[simp] theorem setBulkE_cab (n : Nat) (v : Bulk) : (s.setBulkE n v).cab = s.cab := rfl
@[simp] theorem setBulkE_integ (n : Nat) (v : Bulk) : (s.setBulkE n v).integ = s.integ := rfl
@[simp] theorem setBulkE_repair (n : Nat) (v : Bulk) : (s.setBulkE n v).repair = s.repair := rfl
@[simp] theorem setBulkE_govSlot (n : Nat) (v : Bulk) : (s.setBulkE n v).govSlot = s.govSlot := rfl
@[simp] theorem setBulkE_govCap (n : Nat) (v : Bulk) : (s.setBulkE n v).govCap = s.govCap := rfl
@[simp] theorem setBulkE_govBg (n : Nat) (v : Bulk) : (s.setBulkE n v).govBg = s.govBg := rfl
@[simp] theorem setBulkE_stw (n : Nat) (v : Bulk) : (s.setBulkE n v).stw = s.stw := rfl
@[simp] theorem setBulkE_hutch (n : Nat) (v : Bulk) : (s.setBulkE n v).hutch = s.hutch := rfl
@[simp] theorem setBulkE_lehr (n : Nat) (v : Bulk) : (s.setBulkE n v).lehr = s.lehr := rfl
@[simp] theorem setBulkE_pt (n : Nat) (v : Bulk) : (s.setBulkE n v).pt = s.pt := rfl
@[simp] theorem setBulkE_start (n : Nat) (v : Bulk) : (s.setBulkE n v).start = s.start := rfl
@[simp] theorem setBulkE_fault (n : Nat) (v : Bulk) : (s.setBulkE n v).fault = s.fault := rfl
@[simp] theorem setBulkE_nq (n : Nat) (v : Bulk) : (s.setBulkE n v).nq = s.nq := rfl
@[simp] theorem setBulkE_fb (n : Nat) (v : Bulk) : (s.setBulkE n v).fb = s.fb := rfl
@[simp] theorem setBulkE_irq (n : Nat) (v : Bulk) : (s.setBulkE n v).irq = s.irq := rfl
@[simp] theorem setBulkE_cmd (n : Nat) (v : Bulk) : (s.setBulkE n v).cmd = s.cmd := rfl
@[simp] theorem setBulkE_sleepReady (n : Nat) (v : Bulk) : (s.setBulkE n v).sleepReady = s.sleepReady := rfl
@[simp] theorem setBulkE_frzReq (n : Nat) (v : Bulk) : (s.setBulkE n v).frzReq = s.frzReq := rfl
@[simp] theorem setBulkE_frzCode (n : Nat) (v : Bulk) : (s.setBulkE n v).frzCode = s.frzCode := rfl
@[simp] theorem setBulkE_frzOrigin (n : Nat) (v : Bulk) : (s.setBulkE n v).frzOrigin = s.frzOrigin := rfl
@[simp] theorem setBulkE_walks (n : Nat) (v : Bulk) : (s.setBulkE n v).walks = s.walks := rfl
@[simp] theorem setBulkE_conf (n : Nat) (v : Bulk) : (s.setBulkE n v).conf = s.conf := rfl
@[simp] theorem setBulkE_tx (n : Nat) (v : Bulk) : (s.setBulkE n v).tx = s.tx := rfl
@[simp] theorem setBulkE_memTx (n : Nat) (v : Bulk) : (s.setBulkE n v).memTx = s.memTx := rfl
@[simp] theorem setBulkE_ptTx (n : Nat) (v : Bulk) : (s.setBulkE n v).ptTx = s.ptTx := rfl
@[simp] theorem setBulkE_work (n : Nat) (v : Bulk) : (s.setBulkE n v).work = s.work := rfl
@[simp] theorem setBulkE_free (n : Nat) (v : Bulk) : (s.setBulkE n v).free = s.free := rfl
@[simp] theorem setBulkE_pending (n : Nat) (v : Bulk) : (s.setBulkE n v).pending = s.pending := rfl

@[simp] theorem setRingE_dft (n : Nat) (v : NqRing) : (s.setRingE n v).dft = s.dft := rfl
@[simp] theorem setRingE_vaux (n : Nat) (v : NqRing) : (s.setRingE n v).vaux = s.vaux := rfl
@[simp] theorem setRingE_portUp (n : Nat) (v : NqRing) : (s.setRingE n v).portUp = s.portUp := rfl
@[simp] theorem setRingE_coreUp (n : Nat) (v : NqRing) : (s.setRingE n v).coreUp = s.coreUp := rfl
@[simp] theorem setRingE_coldRst (n : Nat) (v : NqRing) : (s.setRingE n v).coldRst = s.coldRst := rfl
@[simp] theorem setRingE_warmRst (n : Nat) (v : NqRing) : (s.setRingE n v).warmRst = s.warmRst := rfl
@[simp] theorem setRingE_freezeIn (n : Nat) (v : NqRing) : (s.setRingE n v).freezeIn = s.freezeIn := rfl
@[simp] theorem setRingE_wakeIn (n : Nat) (v : NqRing) : (s.setRingE n v).wakeIn = s.wakeIn := rfl
@[simp] theorem setRingE_regs (n : Nat) (v : NqRing) : (s.setRingE n v).regs = s.regs := rfl
@[simp] theorem setRingE_hiLatch (n : Nat) (v : NqRing) : (s.setRingE n v).hiLatch = s.hiLatch := rfl
@[simp] theorem setRingE_wrHold (n : Nat) (v : NqRing) : (s.setRingE n v).wrHold = s.wrHold := rfl
@[simp] theorem setRingE_rdata (n : Nat) (v : NqRing) : (s.setRingE n v).rdata = s.rdata := rfl
@[simp] theorem setRingE_now (n : Nat) (v : NqRing) : (s.setRingE n v).now = s.now := rfl
@[simp] theorem setRingE_lehrNow (n : Nat) (v : NqRing) : (s.setRingE n v).lehrNow = s.lehrNow := rfl
@[simp] theorem setRingE_port (n : Nat) (v : NqRing) : (s.setRingE n v).port = s.port := rfl
@[simp] theorem setRingE_agt (n : Nat) (v : NqRing) : (s.setRingE n v).agt = s.agt := rfl
@[simp] theorem setRingE_shadow (n : Nat) (v : NqRing) : (s.setRingE n v).shadow = s.shadow := rfl
@[simp] theorem setRingE_sl (n : Nat) (v : NqRing) : (s.setRingE n v).sl = s.sl := rfl
@[simp] theorem setRingE_cab (n : Nat) (v : NqRing) : (s.setRingE n v).cab = s.cab := rfl
@[simp] theorem setRingE_mem (n : Nat) (v : NqRing) : (s.setRingE n v).mem = s.mem := rfl
@[simp] theorem setRingE_integ (n : Nat) (v : NqRing) : (s.setRingE n v).integ = s.integ := rfl
@[simp] theorem setRingE_repair (n : Nat) (v : NqRing) : (s.setRingE n v).repair = s.repair := rfl
@[simp] theorem setRingE_govSlot (n : Nat) (v : NqRing) : (s.setRingE n v).govSlot = s.govSlot := rfl
@[simp] theorem setRingE_govCap (n : Nat) (v : NqRing) : (s.setRingE n v).govCap = s.govCap := rfl
@[simp] theorem setRingE_govBg (n : Nat) (v : NqRing) : (s.setRingE n v).govBg = s.govBg := rfl
@[simp] theorem setRingE_stw (n : Nat) (v : NqRing) : (s.setRingE n v).stw = s.stw := rfl
@[simp] theorem setRingE_hutch (n : Nat) (v : NqRing) : (s.setRingE n v).hutch = s.hutch := rfl
@[simp] theorem setRingE_lehr (n : Nat) (v : NqRing) : (s.setRingE n v).lehr = s.lehr := rfl
@[simp] theorem setRingE_pt (n : Nat) (v : NqRing) : (s.setRingE n v).pt = s.pt := rfl
@[simp] theorem setRingE_start (n : Nat) (v : NqRing) : (s.setRingE n v).start = s.start := rfl
@[simp] theorem setRingE_fault (n : Nat) (v : NqRing) : (s.setRingE n v).fault = s.fault := rfl
@[simp] theorem setRingE_fb (n : Nat) (v : NqRing) : (s.setRingE n v).fb = s.fb := rfl
@[simp] theorem setRingE_irq (n : Nat) (v : NqRing) : (s.setRingE n v).irq = s.irq := rfl
@[simp] theorem setRingE_cmd (n : Nat) (v : NqRing) : (s.setRingE n v).cmd = s.cmd := rfl
@[simp] theorem setRingE_sleepReady (n : Nat) (v : NqRing) : (s.setRingE n v).sleepReady = s.sleepReady := rfl
@[simp] theorem setRingE_frzReq (n : Nat) (v : NqRing) : (s.setRingE n v).frzReq = s.frzReq := rfl
@[simp] theorem setRingE_frzCode (n : Nat) (v : NqRing) : (s.setRingE n v).frzCode = s.frzCode := rfl
@[simp] theorem setRingE_frzOrigin (n : Nat) (v : NqRing) : (s.setRingE n v).frzOrigin = s.frzOrigin := rfl
@[simp] theorem setRingE_walks (n : Nat) (v : NqRing) : (s.setRingE n v).walks = s.walks := rfl
@[simp] theorem setRingE_conf (n : Nat) (v : NqRing) : (s.setRingE n v).conf = s.conf := rfl
@[simp] theorem setRingE_tx (n : Nat) (v : NqRing) : (s.setRingE n v).tx = s.tx := rfl
@[simp] theorem setRingE_memTx (n : Nat) (v : NqRing) : (s.setRingE n v).memTx = s.memTx := rfl
@[simp] theorem setRingE_ptTx (n : Nat) (v : NqRing) : (s.setRingE n v).ptTx = s.ptTx := rfl
@[simp] theorem setRingE_work (n : Nat) (v : NqRing) : (s.setRingE n v).work = s.work := rfl
@[simp] theorem setRingE_free (n : Nat) (v : NqRing) : (s.setRingE n v).free = s.free := rfl
@[simp] theorem setRingE_pending (n : Nat) (v : NqRing) : (s.setRingE n v).pending = s.pending := rfl

@[simp] theorem setThr_dft (n : Nat) (v : Thread) : (s.setThr n v).dft = s.dft := rfl
@[simp] theorem setThr_vaux (n : Nat) (v : Thread) : (s.setThr n v).vaux = s.vaux := rfl
@[simp] theorem setThr_portUp (n : Nat) (v : Thread) : (s.setThr n v).portUp = s.portUp := rfl
@[simp] theorem setThr_coreUp (n : Nat) (v : Thread) : (s.setThr n v).coreUp = s.coreUp := rfl
@[simp] theorem setThr_coldRst (n : Nat) (v : Thread) : (s.setThr n v).coldRst = s.coldRst := rfl
@[simp] theorem setThr_warmRst (n : Nat) (v : Thread) : (s.setThr n v).warmRst = s.warmRst := rfl
@[simp] theorem setThr_freezeIn (n : Nat) (v : Thread) : (s.setThr n v).freezeIn = s.freezeIn := rfl
@[simp] theorem setThr_wakeIn (n : Nat) (v : Thread) : (s.setThr n v).wakeIn = s.wakeIn := rfl
@[simp] theorem setThr_regs (n : Nat) (v : Thread) : (s.setThr n v).regs = s.regs := rfl
@[simp] theorem setThr_hiLatch (n : Nat) (v : Thread) : (s.setThr n v).hiLatch = s.hiLatch := rfl
@[simp] theorem setThr_wrHold (n : Nat) (v : Thread) : (s.setThr n v).wrHold = s.wrHold := rfl
@[simp] theorem setThr_rdata (n : Nat) (v : Thread) : (s.setThr n v).rdata = s.rdata := rfl
@[simp] theorem setThr_now (n : Nat) (v : Thread) : (s.setThr n v).now = s.now := rfl
@[simp] theorem setThr_lehrNow (n : Nat) (v : Thread) : (s.setThr n v).lehrNow = s.lehrNow := rfl
@[simp] theorem setThr_port (n : Nat) (v : Thread) : (s.setThr n v).port = s.port := rfl
@[simp] theorem setThr_agt (n : Nat) (v : Thread) : (s.setThr n v).agt = s.agt := rfl
@[simp] theorem setThr_shadow (n : Nat) (v : Thread) : (s.setThr n v).shadow = s.shadow := rfl
@[simp] theorem setThr_sl (n : Nat) (v : Thread) : (s.setThr n v).sl = s.sl := rfl
@[simp] theorem setThr_cab (n : Nat) (v : Thread) : (s.setThr n v).cab = s.cab := rfl
@[simp] theorem setThr_mem (n : Nat) (v : Thread) : (s.setThr n v).mem = s.mem := rfl
@[simp] theorem setThr_integ (n : Nat) (v : Thread) : (s.setThr n v).integ = s.integ := rfl
@[simp] theorem setThr_repair (n : Nat) (v : Thread) : (s.setThr n v).repair = s.repair := rfl
@[simp] theorem setThr_govSlot (n : Nat) (v : Thread) : (s.setThr n v).govSlot = s.govSlot := rfl
@[simp] theorem setThr_govCap (n : Nat) (v : Thread) : (s.setThr n v).govCap = s.govCap := rfl
@[simp] theorem setThr_govBg (n : Nat) (v : Thread) : (s.setThr n v).govBg = s.govBg := rfl
@[simp] theorem setThr_hutch (n : Nat) (v : Thread) : (s.setThr n v).hutch = s.hutch := rfl
@[simp] theorem setThr_lehr (n : Nat) (v : Thread) : (s.setThr n v).lehr = s.lehr := rfl
@[simp] theorem setThr_pt (n : Nat) (v : Thread) : (s.setThr n v).pt = s.pt := rfl
@[simp] theorem setThr_start (n : Nat) (v : Thread) : (s.setThr n v).start = s.start := rfl
@[simp] theorem setThr_fault (n : Nat) (v : Thread) : (s.setThr n v).fault = s.fault := rfl
@[simp] theorem setThr_nq (n : Nat) (v : Thread) : (s.setThr n v).nq = s.nq := rfl
@[simp] theorem setThr_fb (n : Nat) (v : Thread) : (s.setThr n v).fb = s.fb := rfl
@[simp] theorem setThr_irq (n : Nat) (v : Thread) : (s.setThr n v).irq = s.irq := rfl
@[simp] theorem setThr_cmd (n : Nat) (v : Thread) : (s.setThr n v).cmd = s.cmd := rfl
@[simp] theorem setThr_sleepReady (n : Nat) (v : Thread) : (s.setThr n v).sleepReady = s.sleepReady := rfl
@[simp] theorem setThr_frzReq (n : Nat) (v : Thread) : (s.setThr n v).frzReq = s.frzReq := rfl
@[simp] theorem setThr_frzCode (n : Nat) (v : Thread) : (s.setThr n v).frzCode = s.frzCode := rfl
@[simp] theorem setThr_frzOrigin (n : Nat) (v : Thread) : (s.setThr n v).frzOrigin = s.frzOrigin := rfl
@[simp] theorem setThr_walks (n : Nat) (v : Thread) : (s.setThr n v).walks = s.walks := rfl
@[simp] theorem setThr_conf (n : Nat) (v : Thread) : (s.setThr n v).conf = s.conf := rfl
@[simp] theorem setThr_tx (n : Nat) (v : Thread) : (s.setThr n v).tx = s.tx := rfl
@[simp] theorem setThr_memTx (n : Nat) (v : Thread) : (s.setThr n v).memTx = s.memTx := rfl
@[simp] theorem setThr_ptTx (n : Nat) (v : Thread) : (s.setThr n v).ptTx = s.ptTx := rfl
@[simp] theorem setThr_work (n : Nat) (v : Thread) : (s.setThr n v).work = s.work := rfl
@[simp] theorem setThr_free (n : Nat) (v : Thread) : (s.setThr n v).free = s.free := rfl
@[simp] theorem setThr_pending (n : Nat) (v : Thread) : (s.setThr n v).pending = s.pending := rfl

@[simp] theorem setHut_dft (n : Nat) (v : Hutch) : (s.setHut n v).dft = s.dft := rfl
@[simp] theorem setHut_vaux (n : Nat) (v : Hutch) : (s.setHut n v).vaux = s.vaux := rfl
@[simp] theorem setHut_portUp (n : Nat) (v : Hutch) : (s.setHut n v).portUp = s.portUp := rfl
@[simp] theorem setHut_coreUp (n : Nat) (v : Hutch) : (s.setHut n v).coreUp = s.coreUp := rfl
@[simp] theorem setHut_coldRst (n : Nat) (v : Hutch) : (s.setHut n v).coldRst = s.coldRst := rfl
@[simp] theorem setHut_warmRst (n : Nat) (v : Hutch) : (s.setHut n v).warmRst = s.warmRst := rfl
@[simp] theorem setHut_freezeIn (n : Nat) (v : Hutch) : (s.setHut n v).freezeIn = s.freezeIn := rfl
@[simp] theorem setHut_wakeIn (n : Nat) (v : Hutch) : (s.setHut n v).wakeIn = s.wakeIn := rfl
@[simp] theorem setHut_regs (n : Nat) (v : Hutch) : (s.setHut n v).regs = s.regs := rfl
@[simp] theorem setHut_hiLatch (n : Nat) (v : Hutch) : (s.setHut n v).hiLatch = s.hiLatch := rfl
@[simp] theorem setHut_wrHold (n : Nat) (v : Hutch) : (s.setHut n v).wrHold = s.wrHold := rfl
@[simp] theorem setHut_rdata (n : Nat) (v : Hutch) : (s.setHut n v).rdata = s.rdata := rfl
@[simp] theorem setHut_now (n : Nat) (v : Hutch) : (s.setHut n v).now = s.now := rfl
@[simp] theorem setHut_lehrNow (n : Nat) (v : Hutch) : (s.setHut n v).lehrNow = s.lehrNow := rfl
@[simp] theorem setHut_port (n : Nat) (v : Hutch) : (s.setHut n v).port = s.port := rfl
@[simp] theorem setHut_agt (n : Nat) (v : Hutch) : (s.setHut n v).agt = s.agt := rfl
@[simp] theorem setHut_shadow (n : Nat) (v : Hutch) : (s.setHut n v).shadow = s.shadow := rfl
@[simp] theorem setHut_sl (n : Nat) (v : Hutch) : (s.setHut n v).sl = s.sl := rfl
@[simp] theorem setHut_cab (n : Nat) (v : Hutch) : (s.setHut n v).cab = s.cab := rfl
@[simp] theorem setHut_mem (n : Nat) (v : Hutch) : (s.setHut n v).mem = s.mem := rfl
@[simp] theorem setHut_integ (n : Nat) (v : Hutch) : (s.setHut n v).integ = s.integ := rfl
@[simp] theorem setHut_repair (n : Nat) (v : Hutch) : (s.setHut n v).repair = s.repair := rfl
@[simp] theorem setHut_govSlot (n : Nat) (v : Hutch) : (s.setHut n v).govSlot = s.govSlot := rfl
@[simp] theorem setHut_govCap (n : Nat) (v : Hutch) : (s.setHut n v).govCap = s.govCap := rfl
@[simp] theorem setHut_govBg (n : Nat) (v : Hutch) : (s.setHut n v).govBg = s.govBg := rfl
@[simp] theorem setHut_stw (n : Nat) (v : Hutch) : (s.setHut n v).stw = s.stw := rfl
@[simp] theorem setHut_lehr (n : Nat) (v : Hutch) : (s.setHut n v).lehr = s.lehr := rfl
@[simp] theorem setHut_pt (n : Nat) (v : Hutch) : (s.setHut n v).pt = s.pt := rfl
@[simp] theorem setHut_start (n : Nat) (v : Hutch) : (s.setHut n v).start = s.start := rfl
@[simp] theorem setHut_fault (n : Nat) (v : Hutch) : (s.setHut n v).fault = s.fault := rfl
@[simp] theorem setHut_nq (n : Nat) (v : Hutch) : (s.setHut n v).nq = s.nq := rfl
@[simp] theorem setHut_fb (n : Nat) (v : Hutch) : (s.setHut n v).fb = s.fb := rfl
@[simp] theorem setHut_irq (n : Nat) (v : Hutch) : (s.setHut n v).irq = s.irq := rfl
@[simp] theorem setHut_cmd (n : Nat) (v : Hutch) : (s.setHut n v).cmd = s.cmd := rfl
@[simp] theorem setHut_sleepReady (n : Nat) (v : Hutch) : (s.setHut n v).sleepReady = s.sleepReady := rfl
@[simp] theorem setHut_frzReq (n : Nat) (v : Hutch) : (s.setHut n v).frzReq = s.frzReq := rfl
@[simp] theorem setHut_frzCode (n : Nat) (v : Hutch) : (s.setHut n v).frzCode = s.frzCode := rfl
@[simp] theorem setHut_frzOrigin (n : Nat) (v : Hutch) : (s.setHut n v).frzOrigin = s.frzOrigin := rfl
@[simp] theorem setHut_walks (n : Nat) (v : Hutch) : (s.setHut n v).walks = s.walks := rfl
@[simp] theorem setHut_conf (n : Nat) (v : Hutch) : (s.setHut n v).conf = s.conf := rfl
@[simp] theorem setHut_tx (n : Nat) (v : Hutch) : (s.setHut n v).tx = s.tx := rfl
@[simp] theorem setHut_memTx (n : Nat) (v : Hutch) : (s.setHut n v).memTx = s.memTx := rfl
@[simp] theorem setHut_ptTx (n : Nat) (v : Hutch) : (s.setHut n v).ptTx = s.ptTx := rfl
@[simp] theorem setHut_work (n : Nat) (v : Hutch) : (s.setHut n v).work = s.work := rfl
@[simp] theorem setHut_free (n : Nat) (v : Hutch) : (s.setHut n v).free = s.free := rfl
@[simp] theorem setHut_pending (n : Nat) (v : Hutch) : (s.setHut n v).pending = s.pending := rfl

@[simp] theorem setNotices_dft (n : Nat) (l : List Notice) : (s.setNotices n l).dft = s.dft := rfl
@[simp] theorem setNotices_vaux (n : Nat) (l : List Notice) : (s.setNotices n l).vaux = s.vaux := rfl
@[simp] theorem setNotices_portUp (n : Nat) (l : List Notice) : (s.setNotices n l).portUp = s.portUp := rfl
@[simp] theorem setNotices_coreUp (n : Nat) (l : List Notice) : (s.setNotices n l).coreUp = s.coreUp := rfl
@[simp] theorem setNotices_coldRst (n : Nat) (l : List Notice) : (s.setNotices n l).coldRst = s.coldRst := rfl
@[simp] theorem setNotices_warmRst (n : Nat) (l : List Notice) : (s.setNotices n l).warmRst = s.warmRst := rfl
@[simp] theorem setNotices_freezeIn (n : Nat) (l : List Notice) : (s.setNotices n l).freezeIn = s.freezeIn := rfl
@[simp] theorem setNotices_wakeIn (n : Nat) (l : List Notice) : (s.setNotices n l).wakeIn = s.wakeIn := rfl
@[simp] theorem setNotices_regs (n : Nat) (l : List Notice) : (s.setNotices n l).regs = s.regs := rfl
@[simp] theorem setNotices_hiLatch (n : Nat) (l : List Notice) : (s.setNotices n l).hiLatch = s.hiLatch := rfl
@[simp] theorem setNotices_wrHold (n : Nat) (l : List Notice) : (s.setNotices n l).wrHold = s.wrHold := rfl
@[simp] theorem setNotices_rdata (n : Nat) (l : List Notice) : (s.setNotices n l).rdata = s.rdata := rfl
@[simp] theorem setNotices_now (n : Nat) (l : List Notice) : (s.setNotices n l).now = s.now := rfl
@[simp] theorem setNotices_lehrNow (n : Nat) (l : List Notice) : (s.setNotices n l).lehrNow = s.lehrNow := rfl
@[simp] theorem setNotices_agt (n : Nat) (l : List Notice) : (s.setNotices n l).agt = s.agt := rfl
@[simp] theorem setNotices_shadow (n : Nat) (l : List Notice) : (s.setNotices n l).shadow = s.shadow := rfl
@[simp] theorem setNotices_sl (n : Nat) (l : List Notice) : (s.setNotices n l).sl = s.sl := rfl
@[simp] theorem setNotices_cab (n : Nat) (l : List Notice) : (s.setNotices n l).cab = s.cab := rfl
@[simp] theorem setNotices_mem (n : Nat) (l : List Notice) : (s.setNotices n l).mem = s.mem := rfl
@[simp] theorem setNotices_integ (n : Nat) (l : List Notice) : (s.setNotices n l).integ = s.integ := rfl
@[simp] theorem setNotices_repair (n : Nat) (l : List Notice) : (s.setNotices n l).repair = s.repair := rfl
@[simp] theorem setNotices_govSlot (n : Nat) (l : List Notice) : (s.setNotices n l).govSlot = s.govSlot := rfl
@[simp] theorem setNotices_govCap (n : Nat) (l : List Notice) : (s.setNotices n l).govCap = s.govCap := rfl
@[simp] theorem setNotices_govBg (n : Nat) (l : List Notice) : (s.setNotices n l).govBg = s.govBg := rfl
@[simp] theorem setNotices_stw (n : Nat) (l : List Notice) : (s.setNotices n l).stw = s.stw := rfl
@[simp] theorem setNotices_hutch (n : Nat) (l : List Notice) : (s.setNotices n l).hutch = s.hutch := rfl
@[simp] theorem setNotices_lehr (n : Nat) (l : List Notice) : (s.setNotices n l).lehr = s.lehr := rfl
@[simp] theorem setNotices_pt (n : Nat) (l : List Notice) : (s.setNotices n l).pt = s.pt := rfl
@[simp] theorem setNotices_start (n : Nat) (l : List Notice) : (s.setNotices n l).start = s.start := rfl
@[simp] theorem setNotices_fault (n : Nat) (l : List Notice) : (s.setNotices n l).fault = s.fault := rfl
@[simp] theorem setNotices_nq (n : Nat) (l : List Notice) : (s.setNotices n l).nq = s.nq := rfl
@[simp] theorem setNotices_fb (n : Nat) (l : List Notice) : (s.setNotices n l).fb = s.fb := rfl
@[simp] theorem setNotices_irq (n : Nat) (l : List Notice) : (s.setNotices n l).irq = s.irq := rfl
@[simp] theorem setNotices_cmd (n : Nat) (l : List Notice) : (s.setNotices n l).cmd = s.cmd := rfl
@[simp] theorem setNotices_sleepReady (n : Nat) (l : List Notice) : (s.setNotices n l).sleepReady = s.sleepReady := rfl
@[simp] theorem setNotices_frzReq (n : Nat) (l : List Notice) : (s.setNotices n l).frzReq = s.frzReq := rfl
@[simp] theorem setNotices_frzCode (n : Nat) (l : List Notice) : (s.setNotices n l).frzCode = s.frzCode := rfl
@[simp] theorem setNotices_frzOrigin (n : Nat) (l : List Notice) : (s.setNotices n l).frzOrigin = s.frzOrigin := rfl
@[simp] theorem setNotices_walks (n : Nat) (l : List Notice) : (s.setNotices n l).walks = s.walks := rfl
@[simp] theorem setNotices_conf (n : Nat) (l : List Notice) : (s.setNotices n l).conf = s.conf := rfl
@[simp] theorem setNotices_tx (n : Nat) (l : List Notice) : (s.setNotices n l).tx = s.tx := rfl
@[simp] theorem setNotices_memTx (n : Nat) (l : List Notice) : (s.setNotices n l).memTx = s.memTx := rfl
@[simp] theorem setNotices_ptTx (n : Nat) (l : List Notice) : (s.setNotices n l).ptTx = s.ptTx := rfl
@[simp] theorem setNotices_work (n : Nat) (l : List Notice) : (s.setNotices n l).work = s.work := rfl
@[simp] theorem setNotices_free (n : Nat) (l : List Notice) : (s.setNotices n l).free = s.free := rfl
@[simp] theorem setNotices_pending (n : Nat) (l : List Notice) : (s.setNotices n l).pending = s.pending := rfl

@[simp] theorem addWork_dft (w : Work) : (s.addWork w).dft = s.dft := rfl
@[simp] theorem addWork_vaux (w : Work) : (s.addWork w).vaux = s.vaux := rfl
@[simp] theorem addWork_portUp (w : Work) : (s.addWork w).portUp = s.portUp := rfl
@[simp] theorem addWork_coreUp (w : Work) : (s.addWork w).coreUp = s.coreUp := rfl
@[simp] theorem addWork_coldRst (w : Work) : (s.addWork w).coldRst = s.coldRst := rfl
@[simp] theorem addWork_warmRst (w : Work) : (s.addWork w).warmRst = s.warmRst := rfl
@[simp] theorem addWork_freezeIn (w : Work) : (s.addWork w).freezeIn = s.freezeIn := rfl
@[simp] theorem addWork_wakeIn (w : Work) : (s.addWork w).wakeIn = s.wakeIn := rfl
@[simp] theorem addWork_regs (w : Work) : (s.addWork w).regs = s.regs := rfl
@[simp] theorem addWork_hiLatch (w : Work) : (s.addWork w).hiLatch = s.hiLatch := rfl
@[simp] theorem addWork_wrHold (w : Work) : (s.addWork w).wrHold = s.wrHold := rfl
@[simp] theorem addWork_rdata (w : Work) : (s.addWork w).rdata = s.rdata := rfl
@[simp] theorem addWork_now (w : Work) : (s.addWork w).now = s.now := rfl
@[simp] theorem addWork_lehrNow (w : Work) : (s.addWork w).lehrNow = s.lehrNow := rfl
@[simp] theorem addWork_port (w : Work) : (s.addWork w).port = s.port := rfl
@[simp] theorem addWork_agt (w : Work) : (s.addWork w).agt = s.agt := rfl
@[simp] theorem addWork_shadow (w : Work) : (s.addWork w).shadow = s.shadow := rfl
@[simp] theorem addWork_sl (w : Work) : (s.addWork w).sl = s.sl := rfl
@[simp] theorem addWork_cab (w : Work) : (s.addWork w).cab = s.cab := rfl
@[simp] theorem addWork_mem (w : Work) : (s.addWork w).mem = s.mem := rfl
@[simp] theorem addWork_integ (w : Work) : (s.addWork w).integ = s.integ := rfl
@[simp] theorem addWork_repair (w : Work) : (s.addWork w).repair = s.repair := rfl
@[simp] theorem addWork_govSlot (w : Work) : (s.addWork w).govSlot = s.govSlot := rfl
@[simp] theorem addWork_govCap (w : Work) : (s.addWork w).govCap = s.govCap := rfl
@[simp] theorem addWork_govBg (w : Work) : (s.addWork w).govBg = s.govBg := rfl
@[simp] theorem addWork_stw (w : Work) : (s.addWork w).stw = s.stw := rfl
@[simp] theorem addWork_hutch (w : Work) : (s.addWork w).hutch = s.hutch := rfl
@[simp] theorem addWork_lehr (w : Work) : (s.addWork w).lehr = s.lehr := rfl
@[simp] theorem addWork_pt (w : Work) : (s.addWork w).pt = s.pt := rfl
@[simp] theorem addWork_start (w : Work) : (s.addWork w).start = s.start := rfl
@[simp] theorem addWork_fault (w : Work) : (s.addWork w).fault = s.fault := rfl
@[simp] theorem addWork_nq (w : Work) : (s.addWork w).nq = s.nq := rfl
@[simp] theorem addWork_fb (w : Work) : (s.addWork w).fb = s.fb := rfl
@[simp] theorem addWork_irq (w : Work) : (s.addWork w).irq = s.irq := rfl
@[simp] theorem addWork_cmd (w : Work) : (s.addWork w).cmd = s.cmd := rfl
@[simp] theorem addWork_sleepReady (w : Work) : (s.addWork w).sleepReady = s.sleepReady := rfl
@[simp] theorem addWork_frzReq (w : Work) : (s.addWork w).frzReq = s.frzReq := rfl
@[simp] theorem addWork_frzCode (w : Work) : (s.addWork w).frzCode = s.frzCode := rfl
@[simp] theorem addWork_frzOrigin (w : Work) : (s.addWork w).frzOrigin = s.frzOrigin := rfl
@[simp] theorem addWork_walks (w : Work) : (s.addWork w).walks = s.walks := rfl
@[simp] theorem addWork_conf (w : Work) : (s.addWork w).conf = s.conf := rfl
@[simp] theorem addWork_tx (w : Work) : (s.addWork w).tx = s.tx := rfl
@[simp] theorem addWork_memTx (w : Work) : (s.addWork w).memTx = s.memTx := rfl
@[simp] theorem addWork_ptTx (w : Work) : (s.addWork w).ptTx = s.ptTx := rfl
@[simp] theorem addWork_free (w : Work) : (s.addWork w).free = s.free := rfl
@[simp] theorem addWork_pending (w : Work) : (s.addWork w).pending = s.pending := rfl

@[simp] theorem freshOut_dft : (freshOut s).dft = s.dft := rfl
@[simp] theorem freshOut_vaux : (freshOut s).vaux = s.vaux := rfl
@[simp] theorem freshOut_portUp : (freshOut s).portUp = s.portUp := rfl
@[simp] theorem freshOut_coreUp : (freshOut s).coreUp = s.coreUp := rfl
@[simp] theorem freshOut_coldRst : (freshOut s).coldRst = s.coldRst := rfl
@[simp] theorem freshOut_warmRst : (freshOut s).warmRst = s.warmRst := rfl
@[simp] theorem freshOut_freezeIn : (freshOut s).freezeIn = s.freezeIn := rfl
@[simp] theorem freshOut_wakeIn : (freshOut s).wakeIn = s.wakeIn := rfl
@[simp] theorem freshOut_regs : (freshOut s).regs = s.regs := rfl
@[simp] theorem freshOut_hiLatch : (freshOut s).hiLatch = s.hiLatch := rfl
@[simp] theorem freshOut_wrHold : (freshOut s).wrHold = s.wrHold := rfl
@[simp] theorem freshOut_rdata : (freshOut s).rdata = s.rdata := rfl
@[simp] theorem freshOut_now : (freshOut s).now = s.now := rfl
@[simp] theorem freshOut_lehrNow : (freshOut s).lehrNow = s.lehrNow := rfl
@[simp] theorem freshOut_port : (freshOut s).port = s.port := rfl
@[simp] theorem freshOut_agt : (freshOut s).agt = s.agt := rfl
@[simp] theorem freshOut_shadow : (freshOut s).shadow = s.shadow := rfl
@[simp] theorem freshOut_sl : (freshOut s).sl = s.sl := rfl
@[simp] theorem freshOut_cab : (freshOut s).cab = s.cab := rfl
@[simp] theorem freshOut_mem : (freshOut s).mem = s.mem := rfl
@[simp] theorem freshOut_integ : (freshOut s).integ = s.integ := rfl
@[simp] theorem freshOut_repair : (freshOut s).repair = s.repair := rfl
@[simp] theorem freshOut_govSlot : (freshOut s).govSlot = s.govSlot := rfl
@[simp] theorem freshOut_govCap : (freshOut s).govCap = s.govCap := rfl
@[simp] theorem freshOut_govBg : (freshOut s).govBg = s.govBg := rfl
@[simp] theorem freshOut_stw : (freshOut s).stw = s.stw := rfl
@[simp] theorem freshOut_hutch : (freshOut s).hutch = s.hutch := rfl
@[simp] theorem freshOut_lehr : (freshOut s).lehr = s.lehr := rfl
@[simp] theorem freshOut_pt : (freshOut s).pt = s.pt := rfl
@[simp] theorem freshOut_start : (freshOut s).start = s.start := rfl
@[simp] theorem freshOut_fault : (freshOut s).fault = s.fault := rfl
@[simp] theorem freshOut_nq : (freshOut s).nq = s.nq := rfl
@[simp] theorem freshOut_fb : (freshOut s).fb = s.fb := rfl
@[simp] theorem freshOut_irq : (freshOut s).irq = s.irq := rfl
@[simp] theorem freshOut_cmd : (freshOut s).cmd = s.cmd := rfl
@[simp] theorem freshOut_sleepReady : (freshOut s).sleepReady = s.sleepReady := rfl
@[simp] theorem freshOut_frzReq : (freshOut s).frzReq = s.frzReq := rfl
@[simp] theorem freshOut_frzCode : (freshOut s).frzCode = s.frzCode := rfl
@[simp] theorem freshOut_frzOrigin : (freshOut s).frzOrigin = s.frzOrigin := rfl
@[simp] theorem freshOut_walks : (freshOut s).walks = s.walks := rfl
@[simp] theorem freshOut_conf : (freshOut s).conf = s.conf := rfl
@[simp] theorem freshOut_work : (freshOut s).work = s.work := rfl
@[simp] theorem freshOut_free : (freshOut s).free = s.free := rfl
@[simp] theorem freshOut_pending : (freshOut s).pending = s.pending := rfl

end Sys2Proof.Machine
end

