-- ==== Sys2Proof/Laws/Ops.lean ====
section
/-! SUPPORT. What the shared operations can do, said once for each: which fields of State an operation may change, and the
fields it leaves, as simp lemmas. -/

namespace Sys2Proof.Machine

variable (s : State)

@[simp] theorem setFld_dft (f : Fld) (v i j : Nat) : (s.setFld f v i j).dft = s.dft := rfl
@[simp] theorem setFld_vaux (f : Fld) (v i j : Nat) : (s.setFld f v i j).vaux = s.vaux := rfl
@[simp] theorem setFld_portUp (f : Fld) (v i j : Nat) : (s.setFld f v i j).portUp = s.portUp := rfl
@[simp] theorem setFld_coreUp (f : Fld) (v i j : Nat) : (s.setFld f v i j).coreUp = s.coreUp := rfl
@[simp] theorem setFld_coldRst (f : Fld) (v i j : Nat) : (s.setFld f v i j).coldRst = s.coldRst := rfl
@[simp] theorem setFld_warmRst (f : Fld) (v i j : Nat) : (s.setFld f v i j).warmRst = s.warmRst := rfl
@[simp] theorem setFld_freezeIn (f : Fld) (v i j : Nat) : (s.setFld f v i j).freezeIn = s.freezeIn := rfl
@[simp] theorem setFld_wakeIn (f : Fld) (v i j : Nat) : (s.setFld f v i j).wakeIn = s.wakeIn := rfl
@[simp] theorem setFld_hiLatch (f : Fld) (v i j : Nat) : (s.setFld f v i j).hiLatch = s.hiLatch := rfl
@[simp] theorem setFld_wrHold (f : Fld) (v i j : Nat) : (s.setFld f v i j).wrHold = s.wrHold := rfl
@[simp] theorem setFld_rdata (f : Fld) (v i j : Nat) : (s.setFld f v i j).rdata = s.rdata := rfl
@[simp] theorem setFld_now (f : Fld) (v i j : Nat) : (s.setFld f v i j).now = s.now := rfl
@[simp] theorem setFld_lehrNow (f : Fld) (v i j : Nat) : (s.setFld f v i j).lehrNow = s.lehrNow := rfl
@[simp] theorem setFld_port (f : Fld) (v i j : Nat) : (s.setFld f v i j).port = s.port := rfl
@[simp] theorem setFld_agt (f : Fld) (v i j : Nat) : (s.setFld f v i j).agt = s.agt := rfl
@[simp] theorem setFld_shadow (f : Fld) (v i j : Nat) : (s.setFld f v i j).shadow = s.shadow := rfl
@[simp] theorem setFld_sl (f : Fld) (v i j : Nat) : (s.setFld f v i j).sl = s.sl := rfl
@[simp] theorem setFld_cab (f : Fld) (v i j : Nat) : (s.setFld f v i j).cab = s.cab := rfl
@[simp] theorem setFld_mem (f : Fld) (v i j : Nat) : (s.setFld f v i j).mem = s.mem := rfl
@[simp] theorem setFld_integ (f : Fld) (v i j : Nat) : (s.setFld f v i j).integ = s.integ := rfl
@[simp] theorem setFld_repair (f : Fld) (v i j : Nat) : (s.setFld f v i j).repair = s.repair := rfl
@[simp] theorem setFld_govSlot (f : Fld) (v i j : Nat) : (s.setFld f v i j).govSlot = s.govSlot := rfl
@[simp] theorem setFld_govCap (f : Fld) (v i j : Nat) : (s.setFld f v i j).govCap = s.govCap := rfl
@[simp] theorem setFld_govBg (f : Fld) (v i j : Nat) : (s.setFld f v i j).govBg = s.govBg := rfl
@[simp] theorem setFld_stw (f : Fld) (v i j : Nat) : (s.setFld f v i j).stw = s.stw := rfl
@[simp] theorem setFld_hutch (f : Fld) (v i j : Nat) : (s.setFld f v i j).hutch = s.hutch := rfl
@[simp] theorem setFld_lehr (f : Fld) (v i j : Nat) : (s.setFld f v i j).lehr = s.lehr := rfl
@[simp] theorem setFld_pt (f : Fld) (v i j : Nat) : (s.setFld f v i j).pt = s.pt := rfl
@[simp] theorem setFld_start (f : Fld) (v i j : Nat) : (s.setFld f v i j).start = s.start := rfl
@[simp] theorem setFld_fault (f : Fld) (v i j : Nat) : (s.setFld f v i j).fault = s.fault := rfl
@[simp] theorem setFld_nq (f : Fld) (v i j : Nat) : (s.setFld f v i j).nq = s.nq := rfl
@[simp] theorem setFld_fb (f : Fld) (v i j : Nat) : (s.setFld f v i j).fb = s.fb := rfl
@[simp] theorem setFld_irq (f : Fld) (v i j : Nat) : (s.setFld f v i j).irq = s.irq := rfl
@[simp] theorem setFld_cmd (f : Fld) (v i j : Nat) : (s.setFld f v i j).cmd = s.cmd := rfl
@[simp] theorem setFld_sleepReady (f : Fld) (v i j : Nat) : (s.setFld f v i j).sleepReady = s.sleepReady := rfl
@[simp] theorem setFld_frzReq (f : Fld) (v i j : Nat) : (s.setFld f v i j).frzReq = s.frzReq := rfl
@[simp] theorem setFld_frzCode (f : Fld) (v i j : Nat) : (s.setFld f v i j).frzCode = s.frzCode := rfl
@[simp] theorem setFld_frzOrigin (f : Fld) (v i j : Nat) : (s.setFld f v i j).frzOrigin = s.frzOrigin := rfl
@[simp] theorem setFld_walks (f : Fld) (v i j : Nat) : (s.setFld f v i j).walks = s.walks := rfl
@[simp] theorem setFld_conf (f : Fld) (v i j : Nat) : (s.setFld f v i j).conf = s.conf := rfl
@[simp] theorem setFld_tx (f : Fld) (v i j : Nat) : (s.setFld f v i j).tx = s.tx := rfl
@[simp] theorem setFld_memTx (f : Fld) (v i j : Nat) : (s.setFld f v i j).memTx = s.memTx := rfl
@[simp] theorem setFld_ptTx (f : Fld) (v i j : Nat) : (s.setFld f v i j).ptTx = s.ptTx := rfl
@[simp] theorem setFld_work (f : Fld) (v i j : Nat) : (s.setFld f v i j).work = s.work := rfl
@[simp] theorem setFld_free (f : Fld) (v i j : Nat) : (s.setFld f v i j).free = s.free := rfl
@[simp] theorem setFld_pending (f : Fld) (v i j : Nat) : (s.setFld f v i j).pending = s.pending := rfl

@[simp] theorem addFld_dft (f : Fld) (n i j : Nat) : (s.addFld f n i j).dft = s.dft := rfl
@[simp] theorem addFld_vaux (f : Fld) (n i j : Nat) : (s.addFld f n i j).vaux = s.vaux := rfl
@[simp] theorem addFld_portUp (f : Fld) (n i j : Nat) : (s.addFld f n i j).portUp = s.portUp := rfl
@[simp] theorem addFld_coreUp (f : Fld) (n i j : Nat) : (s.addFld f n i j).coreUp = s.coreUp := rfl
@[simp] theorem addFld_coldRst (f : Fld) (n i j : Nat) : (s.addFld f n i j).coldRst = s.coldRst := rfl
@[simp] theorem addFld_warmRst (f : Fld) (n i j : Nat) : (s.addFld f n i j).warmRst = s.warmRst := rfl
@[simp] theorem addFld_freezeIn (f : Fld) (n i j : Nat) : (s.addFld f n i j).freezeIn = s.freezeIn := rfl
@[simp] theorem addFld_wakeIn (f : Fld) (n i j : Nat) : (s.addFld f n i j).wakeIn = s.wakeIn := rfl
@[simp] theorem addFld_hiLatch (f : Fld) (n i j : Nat) : (s.addFld f n i j).hiLatch = s.hiLatch := rfl
@[simp] theorem addFld_wrHold (f : Fld) (n i j : Nat) : (s.addFld f n i j).wrHold = s.wrHold := rfl
@[simp] theorem addFld_rdata (f : Fld) (n i j : Nat) : (s.addFld f n i j).rdata = s.rdata := rfl
@[simp] theorem addFld_now (f : Fld) (n i j : Nat) : (s.addFld f n i j).now = s.now := rfl
@[simp] theorem addFld_lehrNow (f : Fld) (n i j : Nat) : (s.addFld f n i j).lehrNow = s.lehrNow := rfl
@[simp] theorem addFld_port (f : Fld) (n i j : Nat) : (s.addFld f n i j).port = s.port := rfl
@[simp] theorem addFld_agt (f : Fld) (n i j : Nat) : (s.addFld f n i j).agt = s.agt := rfl
@[simp] theorem addFld_shadow (f : Fld) (n i j : Nat) : (s.addFld f n i j).shadow = s.shadow := rfl
@[simp] theorem addFld_sl (f : Fld) (n i j : Nat) : (s.addFld f n i j).sl = s.sl := rfl
@[simp] theorem addFld_cab (f : Fld) (n i j : Nat) : (s.addFld f n i j).cab = s.cab := rfl
@[simp] theorem addFld_mem (f : Fld) (n i j : Nat) : (s.addFld f n i j).mem = s.mem := rfl
@[simp] theorem addFld_integ (f : Fld) (n i j : Nat) : (s.addFld f n i j).integ = s.integ := rfl
@[simp] theorem addFld_repair (f : Fld) (n i j : Nat) : (s.addFld f n i j).repair = s.repair := rfl
@[simp] theorem addFld_govSlot (f : Fld) (n i j : Nat) : (s.addFld f n i j).govSlot = s.govSlot := rfl
@[simp] theorem addFld_govCap (f : Fld) (n i j : Nat) : (s.addFld f n i j).govCap = s.govCap := rfl
@[simp] theorem addFld_govBg (f : Fld) (n i j : Nat) : (s.addFld f n i j).govBg = s.govBg := rfl
@[simp] theorem addFld_stw (f : Fld) (n i j : Nat) : (s.addFld f n i j).stw = s.stw := rfl
@[simp] theorem addFld_hutch (f : Fld) (n i j : Nat) : (s.addFld f n i j).hutch = s.hutch := rfl
@[simp] theorem addFld_lehr (f : Fld) (n i j : Nat) : (s.addFld f n i j).lehr = s.lehr := rfl
@[simp] theorem addFld_pt (f : Fld) (n i j : Nat) : (s.addFld f n i j).pt = s.pt := rfl
@[simp] theorem addFld_start (f : Fld) (n i j : Nat) : (s.addFld f n i j).start = s.start := rfl
@[simp] theorem addFld_fault (f : Fld) (n i j : Nat) : (s.addFld f n i j).fault = s.fault := rfl
@[simp] theorem addFld_nq (f : Fld) (n i j : Nat) : (s.addFld f n i j).nq = s.nq := rfl
@[simp] theorem addFld_fb (f : Fld) (n i j : Nat) : (s.addFld f n i j).fb = s.fb := rfl
@[simp] theorem addFld_irq (f : Fld) (n i j : Nat) : (s.addFld f n i j).irq = s.irq := rfl
@[simp] theorem addFld_cmd (f : Fld) (n i j : Nat) : (s.addFld f n i j).cmd = s.cmd := rfl
@[simp] theorem addFld_sleepReady (f : Fld) (n i j : Nat) : (s.addFld f n i j).sleepReady = s.sleepReady := rfl
@[simp] theorem addFld_frzReq (f : Fld) (n i j : Nat) : (s.addFld f n i j).frzReq = s.frzReq := rfl
@[simp] theorem addFld_frzCode (f : Fld) (n i j : Nat) : (s.addFld f n i j).frzCode = s.frzCode := rfl
@[simp] theorem addFld_frzOrigin (f : Fld) (n i j : Nat) : (s.addFld f n i j).frzOrigin = s.frzOrigin := rfl
@[simp] theorem addFld_walks (f : Fld) (n i j : Nat) : (s.addFld f n i j).walks = s.walks := rfl
@[simp] theorem addFld_conf (f : Fld) (n i j : Nat) : (s.addFld f n i j).conf = s.conf := rfl
@[simp] theorem addFld_tx (f : Fld) (n i j : Nat) : (s.addFld f n i j).tx = s.tx := rfl
@[simp] theorem addFld_memTx (f : Fld) (n i j : Nat) : (s.addFld f n i j).memTx = s.memTx := rfl
@[simp] theorem addFld_ptTx (f : Fld) (n i j : Nat) : (s.addFld f n i j).ptTx = s.ptTx := rfl
@[simp] theorem addFld_work (f : Fld) (n i j : Nat) : (s.addFld f n i j).work = s.work := rfl
@[simp] theorem addFld_free (f : Fld) (n i j : Nat) : (s.addFld f n i j).free = s.free := rfl
@[simp] theorem addFld_pending (f : Fld) (n i j : Nat) : (s.addFld f n i j).pending = s.pending := rfl

@[simp] theorem setAgt_dft (a w : Nat) : (s.setAgt a w).dft = s.dft := rfl
@[simp] theorem setAgt_vaux (a w : Nat) : (s.setAgt a w).vaux = s.vaux := rfl
@[simp] theorem setAgt_portUp (a w : Nat) : (s.setAgt a w).portUp = s.portUp := rfl
@[simp] theorem setAgt_coreUp (a w : Nat) : (s.setAgt a w).coreUp = s.coreUp := rfl
@[simp] theorem setAgt_coldRst (a w : Nat) : (s.setAgt a w).coldRst = s.coldRst := rfl
@[simp] theorem setAgt_warmRst (a w : Nat) : (s.setAgt a w).warmRst = s.warmRst := rfl
@[simp] theorem setAgt_freezeIn (a w : Nat) : (s.setAgt a w).freezeIn = s.freezeIn := rfl
@[simp] theorem setAgt_wakeIn (a w : Nat) : (s.setAgt a w).wakeIn = s.wakeIn := rfl
@[simp] theorem setAgt_regs (a w : Nat) : (s.setAgt a w).regs = s.regs := rfl
@[simp] theorem setAgt_hiLatch (a w : Nat) : (s.setAgt a w).hiLatch = s.hiLatch := rfl
@[simp] theorem setAgt_wrHold (a w : Nat) : (s.setAgt a w).wrHold = s.wrHold := rfl
@[simp] theorem setAgt_rdata (a w : Nat) : (s.setAgt a w).rdata = s.rdata := rfl
@[simp] theorem setAgt_now (a w : Nat) : (s.setAgt a w).now = s.now := rfl
@[simp] theorem setAgt_lehrNow (a w : Nat) : (s.setAgt a w).lehrNow = s.lehrNow := rfl
@[simp] theorem setAgt_port (a w : Nat) : (s.setAgt a w).port = s.port := rfl
@[simp] theorem setAgt_shadow (a w : Nat) : (s.setAgt a w).shadow = s.shadow := rfl
@[simp] theorem setAgt_sl (a w : Nat) : (s.setAgt a w).sl = s.sl := rfl
@[simp] theorem setAgt_cab (a w : Nat) : (s.setAgt a w).cab = s.cab := rfl
@[simp] theorem setAgt_mem (a w : Nat) : (s.setAgt a w).mem = s.mem := rfl
@[simp] theorem setAgt_integ (a w : Nat) : (s.setAgt a w).integ = s.integ := rfl
@[simp] theorem setAgt_repair (a w : Nat) : (s.setAgt a w).repair = s.repair := rfl
@[simp] theorem setAgt_govSlot (a w : Nat) : (s.setAgt a w).govSlot = s.govSlot := rfl
@[simp] theorem setAgt_govCap (a w : Nat) : (s.setAgt a w).govCap = s.govCap := rfl
@[simp] theorem setAgt_govBg (a w : Nat) : (s.setAgt a w).govBg = s.govBg := rfl
@[simp] theorem setAgt_stw (a w : Nat) : (s.setAgt a w).stw = s.stw := rfl
@[simp] theorem setAgt_hutch (a w : Nat) : (s.setAgt a w).hutch = s.hutch := rfl
@[simp] theorem setAgt_lehr (a w : Nat) : (s.setAgt a w).lehr = s.lehr := rfl
@[simp] theorem setAgt_pt (a w : Nat) : (s.setAgt a w).pt = s.pt := rfl
@[simp] theorem setAgt_start (a w : Nat) : (s.setAgt a w).start = s.start := rfl
@[simp] theorem setAgt_fault (a w : Nat) : (s.setAgt a w).fault = s.fault := rfl
@[simp] theorem setAgt_nq (a w : Nat) : (s.setAgt a w).nq = s.nq := rfl
@[simp] theorem setAgt_fb (a w : Nat) : (s.setAgt a w).fb = s.fb := rfl
@[simp] theorem setAgt_irq (a w : Nat) : (s.setAgt a w).irq = s.irq := rfl
@[simp] theorem setAgt_cmd (a w : Nat) : (s.setAgt a w).cmd = s.cmd := rfl
@[simp] theorem setAgt_sleepReady (a w : Nat) : (s.setAgt a w).sleepReady = s.sleepReady := rfl
@[simp] theorem setAgt_frzReq (a w : Nat) : (s.setAgt a w).frzReq = s.frzReq := rfl
@[simp] theorem setAgt_frzCode (a w : Nat) : (s.setAgt a w).frzCode = s.frzCode := rfl
@[simp] theorem setAgt_frzOrigin (a w : Nat) : (s.setAgt a w).frzOrigin = s.frzOrigin := rfl
@[simp] theorem setAgt_walks (a w : Nat) : (s.setAgt a w).walks = s.walks := rfl
@[simp] theorem setAgt_conf (a w : Nat) : (s.setAgt a w).conf = s.conf := rfl
@[simp] theorem setAgt_tx (a w : Nat) : (s.setAgt a w).tx = s.tx := rfl
@[simp] theorem setAgt_memTx (a w : Nat) : (s.setAgt a w).memTx = s.memTx := rfl
@[simp] theorem setAgt_ptTx (a w : Nat) : (s.setAgt a w).ptTx = s.ptTx := rfl
@[simp] theorem setAgt_work (a w : Nat) : (s.setAgt a w).work = s.work := rfl
@[simp] theorem setAgt_free (a w : Nat) : (s.setAgt a w).free = s.free := rfl
@[simp] theorem setAgt_pending (a w : Nat) : (s.setAgt a w).pending = s.pending := rfl

@[simp] theorem notify_dft (c : Nat) (n : Notice) : (State.notify s c n).dft = s.dft := rfl
@[simp] theorem notify_vaux (c : Nat) (n : Notice) : (State.notify s c n).vaux = s.vaux := rfl
@[simp] theorem notify_portUp (c : Nat) (n : Notice) : (State.notify s c n).portUp = s.portUp := rfl
@[simp] theorem notify_coreUp (c : Nat) (n : Notice) : (State.notify s c n).coreUp = s.coreUp := rfl
@[simp] theorem notify_coldRst (c : Nat) (n : Notice) : (State.notify s c n).coldRst = s.coldRst := rfl
@[simp] theorem notify_warmRst (c : Nat) (n : Notice) : (State.notify s c n).warmRst = s.warmRst := rfl
@[simp] theorem notify_freezeIn (c : Nat) (n : Notice) : (State.notify s c n).freezeIn = s.freezeIn := rfl
@[simp] theorem notify_wakeIn (c : Nat) (n : Notice) : (State.notify s c n).wakeIn = s.wakeIn := rfl
@[simp] theorem notify_regs (c : Nat) (n : Notice) : (State.notify s c n).regs = s.regs := rfl
@[simp] theorem notify_hiLatch (c : Nat) (n : Notice) : (State.notify s c n).hiLatch = s.hiLatch := rfl
@[simp] theorem notify_wrHold (c : Nat) (n : Notice) : (State.notify s c n).wrHold = s.wrHold := rfl
@[simp] theorem notify_rdata (c : Nat) (n : Notice) : (State.notify s c n).rdata = s.rdata := rfl
@[simp] theorem notify_now (c : Nat) (n : Notice) : (State.notify s c n).now = s.now := rfl
@[simp] theorem notify_lehrNow (c : Nat) (n : Notice) : (State.notify s c n).lehrNow = s.lehrNow := rfl
@[simp] theorem notify_agt (c : Nat) (n : Notice) : (State.notify s c n).agt = s.agt := rfl
@[simp] theorem notify_shadow (c : Nat) (n : Notice) : (State.notify s c n).shadow = s.shadow := rfl
@[simp] theorem notify_sl (c : Nat) (n : Notice) : (State.notify s c n).sl = s.sl := rfl
@[simp] theorem notify_cab (c : Nat) (n : Notice) : (State.notify s c n).cab = s.cab := rfl
@[simp] theorem notify_mem (c : Nat) (n : Notice) : (State.notify s c n).mem = s.mem := rfl
@[simp] theorem notify_integ (c : Nat) (n : Notice) : (State.notify s c n).integ = s.integ := rfl
@[simp] theorem notify_repair (c : Nat) (n : Notice) : (State.notify s c n).repair = s.repair := rfl
@[simp] theorem notify_govSlot (c : Nat) (n : Notice) : (State.notify s c n).govSlot = s.govSlot := rfl
@[simp] theorem notify_govCap (c : Nat) (n : Notice) : (State.notify s c n).govCap = s.govCap := rfl
@[simp] theorem notify_govBg (c : Nat) (n : Notice) : (State.notify s c n).govBg = s.govBg := rfl
@[simp] theorem notify_stw (c : Nat) (n : Notice) : (State.notify s c n).stw = s.stw := rfl
@[simp] theorem notify_hutch (c : Nat) (n : Notice) : (State.notify s c n).hutch = s.hutch := rfl
@[simp] theorem notify_lehr (c : Nat) (n : Notice) : (State.notify s c n).lehr = s.lehr := rfl
@[simp] theorem notify_pt (c : Nat) (n : Notice) : (State.notify s c n).pt = s.pt := rfl
@[simp] theorem notify_start (c : Nat) (n : Notice) : (State.notify s c n).start = s.start := rfl
@[simp] theorem notify_fault (c : Nat) (n : Notice) : (State.notify s c n).fault = s.fault := rfl
@[simp] theorem notify_nq (c : Nat) (n : Notice) : (State.notify s c n).nq = s.nq := rfl
@[simp] theorem notify_fb (c : Nat) (n : Notice) : (State.notify s c n).fb = s.fb := rfl
@[simp] theorem notify_irq (c : Nat) (n : Notice) : (State.notify s c n).irq = s.irq := rfl
@[simp] theorem notify_cmd (c : Nat) (n : Notice) : (State.notify s c n).cmd = s.cmd := rfl
@[simp] theorem notify_sleepReady (c : Nat) (n : Notice) : (State.notify s c n).sleepReady = s.sleepReady := rfl
@[simp] theorem notify_frzReq (c : Nat) (n : Notice) : (State.notify s c n).frzReq = s.frzReq := rfl
@[simp] theorem notify_frzCode (c : Nat) (n : Notice) : (State.notify s c n).frzCode = s.frzCode := rfl
@[simp] theorem notify_frzOrigin (c : Nat) (n : Notice) : (State.notify s c n).frzOrigin = s.frzOrigin := rfl
@[simp] theorem notify_walks (c : Nat) (n : Notice) : (State.notify s c n).walks = s.walks := rfl
@[simp] theorem notify_conf (c : Nat) (n : Notice) : (State.notify s c n).conf = s.conf := rfl
@[simp] theorem notify_tx (c : Nat) (n : Notice) : (State.notify s c n).tx = s.tx := rfl
@[simp] theorem notify_memTx (c : Nat) (n : Notice) : (State.notify s c n).memTx = s.memTx := rfl
@[simp] theorem notify_ptTx (c : Nat) (n : Notice) : (State.notify s c n).ptTx = s.ptTx := rfl
@[simp] theorem notify_work (c : Nat) (n : Notice) : (State.notify s c n).work = s.work := rfl
@[simp] theorem notify_free (c : Nat) (n : Notice) : (State.notify s c n).free = s.free := rfl
@[simp] theorem notify_pending (c : Nat) (n : Notice) : (State.notify s c n).pending = s.pending := rfl

@[simp] theorem setPred_dft (t n : Nat) (b : Bool) : (s.setPred t n b).dft = s.dft := rfl
@[simp] theorem setPred_vaux (t n : Nat) (b : Bool) : (s.setPred t n b).vaux = s.vaux := rfl
@[simp] theorem setPred_portUp (t n : Nat) (b : Bool) : (s.setPred t n b).portUp = s.portUp := rfl
@[simp] theorem setPred_coreUp (t n : Nat) (b : Bool) : (s.setPred t n b).coreUp = s.coreUp := rfl
@[simp] theorem setPred_coldRst (t n : Nat) (b : Bool) : (s.setPred t n b).coldRst = s.coldRst := rfl
@[simp] theorem setPred_warmRst (t n : Nat) (b : Bool) : (s.setPred t n b).warmRst = s.warmRst := rfl
@[simp] theorem setPred_freezeIn (t n : Nat) (b : Bool) : (s.setPred t n b).freezeIn = s.freezeIn := rfl
@[simp] theorem setPred_wakeIn (t n : Nat) (b : Bool) : (s.setPred t n b).wakeIn = s.wakeIn := rfl
@[simp] theorem setPred_regs (t n : Nat) (b : Bool) : (s.setPred t n b).regs = s.regs := rfl
@[simp] theorem setPred_hiLatch (t n : Nat) (b : Bool) : (s.setPred t n b).hiLatch = s.hiLatch := rfl
@[simp] theorem setPred_wrHold (t n : Nat) (b : Bool) : (s.setPred t n b).wrHold = s.wrHold := rfl
@[simp] theorem setPred_rdata (t n : Nat) (b : Bool) : (s.setPred t n b).rdata = s.rdata := rfl
@[simp] theorem setPred_now (t n : Nat) (b : Bool) : (s.setPred t n b).now = s.now := rfl
@[simp] theorem setPred_lehrNow (t n : Nat) (b : Bool) : (s.setPred t n b).lehrNow = s.lehrNow := rfl
@[simp] theorem setPred_port (t n : Nat) (b : Bool) : (s.setPred t n b).port = s.port := rfl
@[simp] theorem setPred_agt (t n : Nat) (b : Bool) : (s.setPred t n b).agt = s.agt := rfl
@[simp] theorem setPred_shadow (t n : Nat) (b : Bool) : (s.setPred t n b).shadow = s.shadow := rfl
@[simp] theorem setPred_sl (t n : Nat) (b : Bool) : (s.setPred t n b).sl = s.sl := rfl
@[simp] theorem setPred_cab (t n : Nat) (b : Bool) : (s.setPred t n b).cab = s.cab := rfl
@[simp] theorem setPred_mem (t n : Nat) (b : Bool) : (s.setPred t n b).mem = s.mem := rfl
@[simp] theorem setPred_integ (t n : Nat) (b : Bool) : (s.setPred t n b).integ = s.integ := rfl
@[simp] theorem setPred_repair (t n : Nat) (b : Bool) : (s.setPred t n b).repair = s.repair := rfl
@[simp] theorem setPred_govSlot (t n : Nat) (b : Bool) : (s.setPred t n b).govSlot = s.govSlot := rfl
@[simp] theorem setPred_govCap (t n : Nat) (b : Bool) : (s.setPred t n b).govCap = s.govCap := rfl
@[simp] theorem setPred_govBg (t n : Nat) (b : Bool) : (s.setPred t n b).govBg = s.govBg := rfl
@[simp] theorem setPred_hutch (t n : Nat) (b : Bool) : (s.setPred t n b).hutch = s.hutch := rfl
@[simp] theorem setPred_lehr (t n : Nat) (b : Bool) : (s.setPred t n b).lehr = s.lehr := rfl
@[simp] theorem setPred_pt (t n : Nat) (b : Bool) : (s.setPred t n b).pt = s.pt := rfl
@[simp] theorem setPred_start (t n : Nat) (b : Bool) : (s.setPred t n b).start = s.start := rfl
@[simp] theorem setPred_fault (t n : Nat) (b : Bool) : (s.setPred t n b).fault = s.fault := rfl
@[simp] theorem setPred_nq (t n : Nat) (b : Bool) : (s.setPred t n b).nq = s.nq := rfl
@[simp] theorem setPred_fb (t n : Nat) (b : Bool) : (s.setPred t n b).fb = s.fb := rfl
@[simp] theorem setPred_irq (t n : Nat) (b : Bool) : (s.setPred t n b).irq = s.irq := rfl
@[simp] theorem setPred_cmd (t n : Nat) (b : Bool) : (s.setPred t n b).cmd = s.cmd := rfl
@[simp] theorem setPred_sleepReady (t n : Nat) (b : Bool) : (s.setPred t n b).sleepReady = s.sleepReady := rfl
@[simp] theorem setPred_frzReq (t n : Nat) (b : Bool) : (s.setPred t n b).frzReq = s.frzReq := rfl
@[simp] theorem setPred_frzCode (t n : Nat) (b : Bool) : (s.setPred t n b).frzCode = s.frzCode := rfl
@[simp] theorem setPred_frzOrigin (t n : Nat) (b : Bool) : (s.setPred t n b).frzOrigin = s.frzOrigin := rfl
@[simp] theorem setPred_walks (t n : Nat) (b : Bool) : (s.setPred t n b).walks = s.walks := rfl
@[simp] theorem setPred_conf (t n : Nat) (b : Bool) : (s.setPred t n b).conf = s.conf := rfl
@[simp] theorem setPred_tx (t n : Nat) (b : Bool) : (s.setPred t n b).tx = s.tx := rfl
@[simp] theorem setPred_memTx (t n : Nat) (b : Bool) : (s.setPred t n b).memTx = s.memTx := rfl
@[simp] theorem setPred_ptTx (t n : Nat) (b : Bool) : (s.setPred t n b).ptTx = s.ptTx := rfl
@[simp] theorem setPred_work (t n : Nat) (b : Bool) : (s.setPred t n b).work = s.work := rfl
@[simp] theorem setPred_free (t n : Nat) (b : Bool) : (s.setPred t n b).free = s.free := rfl
@[simp] theorem setPred_pending (t n : Nat) (b : Bool) : (s.setPred t n b).pending = s.pending := rfl

@[simp] theorem advance_dft (t n : Nat) : (advance s t n).dft = s.dft := rfl
@[simp] theorem advance_vaux (t n : Nat) : (advance s t n).vaux = s.vaux := rfl
@[simp] theorem advance_portUp (t n : Nat) : (advance s t n).portUp = s.portUp := rfl
@[simp] theorem advance_coreUp (t n : Nat) : (advance s t n).coreUp = s.coreUp := rfl
@[simp] theorem advance_coldRst (t n : Nat) : (advance s t n).coldRst = s.coldRst := rfl
@[simp] theorem advance_warmRst (t n : Nat) : (advance s t n).warmRst = s.warmRst := rfl
@[simp] theorem advance_freezeIn (t n : Nat) : (advance s t n).freezeIn = s.freezeIn := rfl
@[simp] theorem advance_wakeIn (t n : Nat) : (advance s t n).wakeIn = s.wakeIn := rfl
@[simp] theorem advance_regs (t n : Nat) : (advance s t n).regs = s.regs := rfl
@[simp] theorem advance_hiLatch (t n : Nat) : (advance s t n).hiLatch = s.hiLatch := rfl
@[simp] theorem advance_wrHold (t n : Nat) : (advance s t n).wrHold = s.wrHold := rfl
@[simp] theorem advance_rdata (t n : Nat) : (advance s t n).rdata = s.rdata := rfl
@[simp] theorem advance_now (t n : Nat) : (advance s t n).now = s.now := rfl
@[simp] theorem advance_lehrNow (t n : Nat) : (advance s t n).lehrNow = s.lehrNow := rfl
@[simp] theorem advance_port (t n : Nat) : (advance s t n).port = s.port := rfl
@[simp] theorem advance_agt (t n : Nat) : (advance s t n).agt = s.agt := rfl
@[simp] theorem advance_shadow (t n : Nat) : (advance s t n).shadow = s.shadow := rfl
@[simp] theorem advance_sl (t n : Nat) : (advance s t n).sl = s.sl := rfl
@[simp] theorem advance_cab (t n : Nat) : (advance s t n).cab = s.cab := rfl
@[simp] theorem advance_mem (t n : Nat) : (advance s t n).mem = s.mem := rfl
@[simp] theorem advance_integ (t n : Nat) : (advance s t n).integ = s.integ := rfl
@[simp] theorem advance_repair (t n : Nat) : (advance s t n).repair = s.repair := rfl
@[simp] theorem advance_govSlot (t n : Nat) : (advance s t n).govSlot = s.govSlot := rfl
@[simp] theorem advance_govCap (t n : Nat) : (advance s t n).govCap = s.govCap := rfl
@[simp] theorem advance_govBg (t n : Nat) : (advance s t n).govBg = s.govBg := rfl
@[simp] theorem advance_hutch (t n : Nat) : (advance s t n).hutch = s.hutch := rfl
@[simp] theorem advance_lehr (t n : Nat) : (advance s t n).lehr = s.lehr := rfl
@[simp] theorem advance_pt (t n : Nat) : (advance s t n).pt = s.pt := rfl
@[simp] theorem advance_start (t n : Nat) : (advance s t n).start = s.start := rfl
@[simp] theorem advance_fault (t n : Nat) : (advance s t n).fault = s.fault := rfl
@[simp] theorem advance_nq (t n : Nat) : (advance s t n).nq = s.nq := rfl
@[simp] theorem advance_fb (t n : Nat) : (advance s t n).fb = s.fb := rfl
@[simp] theorem advance_irq (t n : Nat) : (advance s t n).irq = s.irq := rfl
@[simp] theorem advance_cmd (t n : Nat) : (advance s t n).cmd = s.cmd := rfl
@[simp] theorem advance_sleepReady (t n : Nat) : (advance s t n).sleepReady = s.sleepReady := rfl
@[simp] theorem advance_frzReq (t n : Nat) : (advance s t n).frzReq = s.frzReq := rfl
@[simp] theorem advance_frzCode (t n : Nat) : (advance s t n).frzCode = s.frzCode := rfl
@[simp] theorem advance_frzOrigin (t n : Nat) : (advance s t n).frzOrigin = s.frzOrigin := rfl
@[simp] theorem advance_walks (t n : Nat) : (advance s t n).walks = s.walks := rfl
@[simp] theorem advance_conf (t n : Nat) : (advance s t n).conf = s.conf := rfl
@[simp] theorem advance_tx (t n : Nat) : (advance s t n).tx = s.tx := rfl
@[simp] theorem advance_memTx (t n : Nat) : (advance s t n).memTx = s.memTx := rfl
@[simp] theorem advance_ptTx (t n : Nat) : (advance s t n).ptTx = s.ptTx := rfl
@[simp] theorem advance_work (t n : Nat) : (advance s t n).work = s.work := rfl
@[simp] theorem advance_free (t n : Nat) : (advance s t n).free = s.free := rfl
@[simp] theorem advance_pending (t n : Nat) : (advance s t n).pending = s.pending := rfl

@[simp] theorem jump_dft (t : Nat) (a : BitVec 64) : (jump s t a).dft = s.dft := rfl
@[simp] theorem jump_vaux (t : Nat) (a : BitVec 64) : (jump s t a).vaux = s.vaux := rfl
@[simp] theorem jump_portUp (t : Nat) (a : BitVec 64) : (jump s t a).portUp = s.portUp := rfl
@[simp] theorem jump_coreUp (t : Nat) (a : BitVec 64) : (jump s t a).coreUp = s.coreUp := rfl
@[simp] theorem jump_coldRst (t : Nat) (a : BitVec 64) : (jump s t a).coldRst = s.coldRst := rfl
@[simp] theorem jump_warmRst (t : Nat) (a : BitVec 64) : (jump s t a).warmRst = s.warmRst := rfl
@[simp] theorem jump_freezeIn (t : Nat) (a : BitVec 64) : (jump s t a).freezeIn = s.freezeIn := rfl
@[simp] theorem jump_wakeIn (t : Nat) (a : BitVec 64) : (jump s t a).wakeIn = s.wakeIn := rfl
@[simp] theorem jump_regs (t : Nat) (a : BitVec 64) : (jump s t a).regs = s.regs := rfl
@[simp] theorem jump_hiLatch (t : Nat) (a : BitVec 64) : (jump s t a).hiLatch = s.hiLatch := rfl
@[simp] theorem jump_wrHold (t : Nat) (a : BitVec 64) : (jump s t a).wrHold = s.wrHold := rfl
@[simp] theorem jump_rdata (t : Nat) (a : BitVec 64) : (jump s t a).rdata = s.rdata := rfl
@[simp] theorem jump_now (t : Nat) (a : BitVec 64) : (jump s t a).now = s.now := rfl
@[simp] theorem jump_lehrNow (t : Nat) (a : BitVec 64) : (jump s t a).lehrNow = s.lehrNow := rfl
@[simp] theorem jump_port (t : Nat) (a : BitVec 64) : (jump s t a).port = s.port := rfl
@[simp] theorem jump_agt (t : Nat) (a : BitVec 64) : (jump s t a).agt = s.agt := rfl
@[simp] theorem jump_shadow (t : Nat) (a : BitVec 64) : (jump s t a).shadow = s.shadow := rfl
@[simp] theorem jump_sl (t : Nat) (a : BitVec 64) : (jump s t a).sl = s.sl := rfl
@[simp] theorem jump_cab (t : Nat) (a : BitVec 64) : (jump s t a).cab = s.cab := rfl
@[simp] theorem jump_mem (t : Nat) (a : BitVec 64) : (jump s t a).mem = s.mem := rfl
@[simp] theorem jump_integ (t : Nat) (a : BitVec 64) : (jump s t a).integ = s.integ := rfl
@[simp] theorem jump_repair (t : Nat) (a : BitVec 64) : (jump s t a).repair = s.repair := rfl
@[simp] theorem jump_govSlot (t : Nat) (a : BitVec 64) : (jump s t a).govSlot = s.govSlot := rfl
@[simp] theorem jump_govCap (t : Nat) (a : BitVec 64) : (jump s t a).govCap = s.govCap := rfl
@[simp] theorem jump_govBg (t : Nat) (a : BitVec 64) : (jump s t a).govBg = s.govBg := rfl
@[simp] theorem jump_hutch (t : Nat) (a : BitVec 64) : (jump s t a).hutch = s.hutch := rfl
@[simp] theorem jump_lehr (t : Nat) (a : BitVec 64) : (jump s t a).lehr = s.lehr := rfl
@[simp] theorem jump_pt (t : Nat) (a : BitVec 64) : (jump s t a).pt = s.pt := rfl
@[simp] theorem jump_start (t : Nat) (a : BitVec 64) : (jump s t a).start = s.start := rfl
@[simp] theorem jump_fault (t : Nat) (a : BitVec 64) : (jump s t a).fault = s.fault := rfl
@[simp] theorem jump_nq (t : Nat) (a : BitVec 64) : (jump s t a).nq = s.nq := rfl
@[simp] theorem jump_fb (t : Nat) (a : BitVec 64) : (jump s t a).fb = s.fb := rfl
@[simp] theorem jump_irq (t : Nat) (a : BitVec 64) : (jump s t a).irq = s.irq := rfl
@[simp] theorem jump_cmd (t : Nat) (a : BitVec 64) : (jump s t a).cmd = s.cmd := rfl
@[simp] theorem jump_sleepReady (t : Nat) (a : BitVec 64) : (jump s t a).sleepReady = s.sleepReady := rfl
@[simp] theorem jump_frzReq (t : Nat) (a : BitVec 64) : (jump s t a).frzReq = s.frzReq := rfl
@[simp] theorem jump_frzCode (t : Nat) (a : BitVec 64) : (jump s t a).frzCode = s.frzCode := rfl
@[simp] theorem jump_frzOrigin (t : Nat) (a : BitVec 64) : (jump s t a).frzOrigin = s.frzOrigin := rfl
@[simp] theorem jump_walks (t : Nat) (a : BitVec 64) : (jump s t a).walks = s.walks := rfl
@[simp] theorem jump_conf (t : Nat) (a : BitVec 64) : (jump s t a).conf = s.conf := rfl
@[simp] theorem jump_tx (t : Nat) (a : BitVec 64) : (jump s t a).tx = s.tx := rfl
@[simp] theorem jump_memTx (t : Nat) (a : BitVec 64) : (jump s t a).memTx = s.memTx := rfl
@[simp] theorem jump_ptTx (t : Nat) (a : BitVec 64) : (jump s t a).ptTx = s.ptTx := rfl
@[simp] theorem jump_work (t : Nat) (a : BitVec 64) : (jump s t a).work = s.work := rfl
@[simp] theorem jump_free (t : Nat) (a : BitVec 64) : (jump s t a).free = s.free := rfl
@[simp] theorem jump_pending (t : Nat) (a : BitVec 64) : (jump s t a).pending = s.pending := rfl

/-- setHeard can change agt and nothing else. -/
theorem setHeard_eq (a : Nat) : ∃ a0, (s.setHeard a) = { s with agt := a0 } := by
  unfold State.setHeard State.setAgt; exact ⟨_, rfl⟩

@[simp] theorem setHeard_dft (a : Nat) : (s.setHeard a).dft = s.dft := by obtain ⟨_, h⟩ := setHeard_eq s a; rw [h]
@[simp] theorem setHeard_vaux (a : Nat) : (s.setHeard a).vaux = s.vaux := by obtain ⟨_, h⟩ := setHeard_eq s a; rw [h]
@[simp] theorem setHeard_portUp (a : Nat) : (s.setHeard a).portUp = s.portUp := by obtain ⟨_, h⟩ := setHeard_eq s a; rw [h]
@[simp] theorem setHeard_coreUp (a : Nat) : (s.setHeard a).coreUp = s.coreUp := by obtain ⟨_, h⟩ := setHeard_eq s a; rw [h]
@[simp] theorem setHeard_coldRst (a : Nat) : (s.setHeard a).coldRst = s.coldRst := by obtain ⟨_, h⟩ := setHeard_eq s a; rw [h]
@[simp] theorem setHeard_warmRst (a : Nat) : (s.setHeard a).warmRst = s.warmRst := by obtain ⟨_, h⟩ := setHeard_eq s a; rw [h]
@[simp] theorem setHeard_freezeIn (a : Nat) : (s.setHeard a).freezeIn = s.freezeIn := by obtain ⟨_, h⟩ := setHeard_eq s a; rw [h]
@[simp] theorem setHeard_wakeIn (a : Nat) : (s.setHeard a).wakeIn = s.wakeIn := by obtain ⟨_, h⟩ := setHeard_eq s a; rw [h]
@[simp] theorem setHeard_regs (a : Nat) : (s.setHeard a).regs = s.regs := by obtain ⟨_, h⟩ := setHeard_eq s a; rw [h]
@[simp] theorem setHeard_hiLatch (a : Nat) : (s.setHeard a).hiLatch = s.hiLatch := by obtain ⟨_, h⟩ := setHeard_eq s a; rw [h]
@[simp] theorem setHeard_wrHold (a : Nat) : (s.setHeard a).wrHold = s.wrHold := by obtain ⟨_, h⟩ := setHeard_eq s a; rw [h]
@[simp] theorem setHeard_rdata (a : Nat) : (s.setHeard a).rdata = s.rdata := by obtain ⟨_, h⟩ := setHeard_eq s a; rw [h]
@[simp] theorem setHeard_now (a : Nat) : (s.setHeard a).now = s.now := by obtain ⟨_, h⟩ := setHeard_eq s a; rw [h]
@[simp] theorem setHeard_lehrNow (a : Nat) : (s.setHeard a).lehrNow = s.lehrNow := by obtain ⟨_, h⟩ := setHeard_eq s a; rw [h]
@[simp] theorem setHeard_port (a : Nat) : (s.setHeard a).port = s.port := by obtain ⟨_, h⟩ := setHeard_eq s a; rw [h]
@[simp] theorem setHeard_shadow (a : Nat) : (s.setHeard a).shadow = s.shadow := by obtain ⟨_, h⟩ := setHeard_eq s a; rw [h]
@[simp] theorem setHeard_sl (a : Nat) : (s.setHeard a).sl = s.sl := by obtain ⟨_, h⟩ := setHeard_eq s a; rw [h]
@[simp] theorem setHeard_cab (a : Nat) : (s.setHeard a).cab = s.cab := by obtain ⟨_, h⟩ := setHeard_eq s a; rw [h]
@[simp] theorem setHeard_mem (a : Nat) : (s.setHeard a).mem = s.mem := by obtain ⟨_, h⟩ := setHeard_eq s a; rw [h]
@[simp] theorem setHeard_integ (a : Nat) : (s.setHeard a).integ = s.integ := by obtain ⟨_, h⟩ := setHeard_eq s a; rw [h]
@[simp] theorem setHeard_repair (a : Nat) : (s.setHeard a).repair = s.repair := by obtain ⟨_, h⟩ := setHeard_eq s a; rw [h]
@[simp] theorem setHeard_govSlot (a : Nat) : (s.setHeard a).govSlot = s.govSlot := by obtain ⟨_, h⟩ := setHeard_eq s a; rw [h]
@[simp] theorem setHeard_govCap (a : Nat) : (s.setHeard a).govCap = s.govCap := by obtain ⟨_, h⟩ := setHeard_eq s a; rw [h]
@[simp] theorem setHeard_govBg (a : Nat) : (s.setHeard a).govBg = s.govBg := by obtain ⟨_, h⟩ := setHeard_eq s a; rw [h]
@[simp] theorem setHeard_stw (a : Nat) : (s.setHeard a).stw = s.stw := by obtain ⟨_, h⟩ := setHeard_eq s a; rw [h]
@[simp] theorem setHeard_hutch (a : Nat) : (s.setHeard a).hutch = s.hutch := by obtain ⟨_, h⟩ := setHeard_eq s a; rw [h]
@[simp] theorem setHeard_lehr (a : Nat) : (s.setHeard a).lehr = s.lehr := by obtain ⟨_, h⟩ := setHeard_eq s a; rw [h]
@[simp] theorem setHeard_pt (a : Nat) : (s.setHeard a).pt = s.pt := by obtain ⟨_, h⟩ := setHeard_eq s a; rw [h]
@[simp] theorem setHeard_start (a : Nat) : (s.setHeard a).start = s.start := by obtain ⟨_, h⟩ := setHeard_eq s a; rw [h]
@[simp] theorem setHeard_fault (a : Nat) : (s.setHeard a).fault = s.fault := by obtain ⟨_, h⟩ := setHeard_eq s a; rw [h]
@[simp] theorem setHeard_nq (a : Nat) : (s.setHeard a).nq = s.nq := by obtain ⟨_, h⟩ := setHeard_eq s a; rw [h]
@[simp] theorem setHeard_fb (a : Nat) : (s.setHeard a).fb = s.fb := by obtain ⟨_, h⟩ := setHeard_eq s a; rw [h]
@[simp] theorem setHeard_irq (a : Nat) : (s.setHeard a).irq = s.irq := by obtain ⟨_, h⟩ := setHeard_eq s a; rw [h]
@[simp] theorem setHeard_cmd (a : Nat) : (s.setHeard a).cmd = s.cmd := by obtain ⟨_, h⟩ := setHeard_eq s a; rw [h]
@[simp] theorem setHeard_sleepReady (a : Nat) : (s.setHeard a).sleepReady = s.sleepReady := by obtain ⟨_, h⟩ := setHeard_eq s a; rw [h]
@[simp] theorem setHeard_frzReq (a : Nat) : (s.setHeard a).frzReq = s.frzReq := by obtain ⟨_, h⟩ := setHeard_eq s a; rw [h]
@[simp] theorem setHeard_frzCode (a : Nat) : (s.setHeard a).frzCode = s.frzCode := by obtain ⟨_, h⟩ := setHeard_eq s a; rw [h]
@[simp] theorem setHeard_frzOrigin (a : Nat) : (s.setHeard a).frzOrigin = s.frzOrigin := by obtain ⟨_, h⟩ := setHeard_eq s a; rw [h]
@[simp] theorem setHeard_walks (a : Nat) : (s.setHeard a).walks = s.walks := by obtain ⟨_, h⟩ := setHeard_eq s a; rw [h]
@[simp] theorem setHeard_conf (a : Nat) : (s.setHeard a).conf = s.conf := by obtain ⟨_, h⟩ := setHeard_eq s a; rw [h]
@[simp] theorem setHeard_tx (a : Nat) : (s.setHeard a).tx = s.tx := by obtain ⟨_, h⟩ := setHeard_eq s a; rw [h]
@[simp] theorem setHeard_memTx (a : Nat) : (s.setHeard a).memTx = s.memTx := by obtain ⟨_, h⟩ := setHeard_eq s a; rw [h]
@[simp] theorem setHeard_ptTx (a : Nat) : (s.setHeard a).ptTx = s.ptTx := by obtain ⟨_, h⟩ := setHeard_eq s a; rw [h]
@[simp] theorem setHeard_work (a : Nat) : (s.setHeard a).work = s.work := by obtain ⟨_, h⟩ := setHeard_eq s a; rw [h]
@[simp] theorem setHeard_free (a : Nat) : (s.setHeard a).free = s.free := by obtain ⟨_, h⟩ := setHeard_eq s a; rw [h]
@[simp] theorem setHeard_pending (a : Nat) : (s.setHeard a).pending = s.pending := by obtain ⟨_, h⟩ := setHeard_eq s a; rw [h]

/-- setGreg can change stw and nothing else. -/
theorem setGreg_eq (t n : Nat) (v : BitVec 64) : ∃ w, (s.setGreg t n v) = { s with stw := w } := by
  unfold State.setGreg; split
  · exact ⟨s.stw, rfl⟩
  · exact ⟨_, rfl⟩

@[simp] theorem setGreg_dft (t n : Nat) (v : BitVec 64) : (s.setGreg t n v).dft = s.dft := by obtain ⟨_, h⟩ := setGreg_eq s t n v; rw [h]
@[simp] theorem setGreg_vaux (t n : Nat) (v : BitVec 64) : (s.setGreg t n v).vaux = s.vaux := by obtain ⟨_, h⟩ := setGreg_eq s t n v; rw [h]
@[simp] theorem setGreg_portUp (t n : Nat) (v : BitVec 64) : (s.setGreg t n v).portUp = s.portUp := by obtain ⟨_, h⟩ := setGreg_eq s t n v; rw [h]
@[simp] theorem setGreg_coreUp (t n : Nat) (v : BitVec 64) : (s.setGreg t n v).coreUp = s.coreUp := by obtain ⟨_, h⟩ := setGreg_eq s t n v; rw [h]
@[simp] theorem setGreg_coldRst (t n : Nat) (v : BitVec 64) : (s.setGreg t n v).coldRst = s.coldRst := by obtain ⟨_, h⟩ := setGreg_eq s t n v; rw [h]
@[simp] theorem setGreg_warmRst (t n : Nat) (v : BitVec 64) : (s.setGreg t n v).warmRst = s.warmRst := by obtain ⟨_, h⟩ := setGreg_eq s t n v; rw [h]
@[simp] theorem setGreg_freezeIn (t n : Nat) (v : BitVec 64) : (s.setGreg t n v).freezeIn = s.freezeIn := by obtain ⟨_, h⟩ := setGreg_eq s t n v; rw [h]
@[simp] theorem setGreg_wakeIn (t n : Nat) (v : BitVec 64) : (s.setGreg t n v).wakeIn = s.wakeIn := by obtain ⟨_, h⟩ := setGreg_eq s t n v; rw [h]
@[simp] theorem setGreg_regs (t n : Nat) (v : BitVec 64) : (s.setGreg t n v).regs = s.regs := by obtain ⟨_, h⟩ := setGreg_eq s t n v; rw [h]
@[simp] theorem setGreg_hiLatch (t n : Nat) (v : BitVec 64) : (s.setGreg t n v).hiLatch = s.hiLatch := by obtain ⟨_, h⟩ := setGreg_eq s t n v; rw [h]
@[simp] theorem setGreg_wrHold (t n : Nat) (v : BitVec 64) : (s.setGreg t n v).wrHold = s.wrHold := by obtain ⟨_, h⟩ := setGreg_eq s t n v; rw [h]
@[simp] theorem setGreg_rdata (t n : Nat) (v : BitVec 64) : (s.setGreg t n v).rdata = s.rdata := by obtain ⟨_, h⟩ := setGreg_eq s t n v; rw [h]
@[simp] theorem setGreg_now (t n : Nat) (v : BitVec 64) : (s.setGreg t n v).now = s.now := by obtain ⟨_, h⟩ := setGreg_eq s t n v; rw [h]
@[simp] theorem setGreg_lehrNow (t n : Nat) (v : BitVec 64) : (s.setGreg t n v).lehrNow = s.lehrNow := by obtain ⟨_, h⟩ := setGreg_eq s t n v; rw [h]
@[simp] theorem setGreg_port (t n : Nat) (v : BitVec 64) : (s.setGreg t n v).port = s.port := by obtain ⟨_, h⟩ := setGreg_eq s t n v; rw [h]
@[simp] theorem setGreg_agt (t n : Nat) (v : BitVec 64) : (s.setGreg t n v).agt = s.agt := by obtain ⟨_, h⟩ := setGreg_eq s t n v; rw [h]
@[simp] theorem setGreg_shadow (t n : Nat) (v : BitVec 64) : (s.setGreg t n v).shadow = s.shadow := by obtain ⟨_, h⟩ := setGreg_eq s t n v; rw [h]
@[simp] theorem setGreg_sl (t n : Nat) (v : BitVec 64) : (s.setGreg t n v).sl = s.sl := by obtain ⟨_, h⟩ := setGreg_eq s t n v; rw [h]
@[simp] theorem setGreg_cab (t n : Nat) (v : BitVec 64) : (s.setGreg t n v).cab = s.cab := by obtain ⟨_, h⟩ := setGreg_eq s t n v; rw [h]
@[simp] theorem setGreg_mem (t n : Nat) (v : BitVec 64) : (s.setGreg t n v).mem = s.mem := by obtain ⟨_, h⟩ := setGreg_eq s t n v; rw [h]
@[simp] theorem setGreg_integ (t n : Nat) (v : BitVec 64) : (s.setGreg t n v).integ = s.integ := by obtain ⟨_, h⟩ := setGreg_eq s t n v; rw [h]
@[simp] theorem setGreg_repair (t n : Nat) (v : BitVec 64) : (s.setGreg t n v).repair = s.repair := by obtain ⟨_, h⟩ := setGreg_eq s t n v; rw [h]
@[simp] theorem setGreg_govSlot (t n : Nat) (v : BitVec 64) : (s.setGreg t n v).govSlot = s.govSlot := by obtain ⟨_, h⟩ := setGreg_eq s t n v; rw [h]
@[simp] theorem setGreg_govCap (t n : Nat) (v : BitVec 64) : (s.setGreg t n v).govCap = s.govCap := by obtain ⟨_, h⟩ := setGreg_eq s t n v; rw [h]
@[simp] theorem setGreg_govBg (t n : Nat) (v : BitVec 64) : (s.setGreg t n v).govBg = s.govBg := by obtain ⟨_, h⟩ := setGreg_eq s t n v; rw [h]
@[simp] theorem setGreg_hutch (t n : Nat) (v : BitVec 64) : (s.setGreg t n v).hutch = s.hutch := by obtain ⟨_, h⟩ := setGreg_eq s t n v; rw [h]
@[simp] theorem setGreg_lehr (t n : Nat) (v : BitVec 64) : (s.setGreg t n v).lehr = s.lehr := by obtain ⟨_, h⟩ := setGreg_eq s t n v; rw [h]
@[simp] theorem setGreg_pt (t n : Nat) (v : BitVec 64) : (s.setGreg t n v).pt = s.pt := by obtain ⟨_, h⟩ := setGreg_eq s t n v; rw [h]
@[simp] theorem setGreg_start (t n : Nat) (v : BitVec 64) : (s.setGreg t n v).start = s.start := by obtain ⟨_, h⟩ := setGreg_eq s t n v; rw [h]
@[simp] theorem setGreg_fault (t n : Nat) (v : BitVec 64) : (s.setGreg t n v).fault = s.fault := by obtain ⟨_, h⟩ := setGreg_eq s t n v; rw [h]
@[simp] theorem setGreg_nq (t n : Nat) (v : BitVec 64) : (s.setGreg t n v).nq = s.nq := by obtain ⟨_, h⟩ := setGreg_eq s t n v; rw [h]
@[simp] theorem setGreg_fb (t n : Nat) (v : BitVec 64) : (s.setGreg t n v).fb = s.fb := by obtain ⟨_, h⟩ := setGreg_eq s t n v; rw [h]
@[simp] theorem setGreg_irq (t n : Nat) (v : BitVec 64) : (s.setGreg t n v).irq = s.irq := by obtain ⟨_, h⟩ := setGreg_eq s t n v; rw [h]
@[simp] theorem setGreg_cmd (t n : Nat) (v : BitVec 64) : (s.setGreg t n v).cmd = s.cmd := by obtain ⟨_, h⟩ := setGreg_eq s t n v; rw [h]
@[simp] theorem setGreg_sleepReady (t n : Nat) (v : BitVec 64) : (s.setGreg t n v).sleepReady = s.sleepReady := by obtain ⟨_, h⟩ := setGreg_eq s t n v; rw [h]
@[simp] theorem setGreg_frzReq (t n : Nat) (v : BitVec 64) : (s.setGreg t n v).frzReq = s.frzReq := by obtain ⟨_, h⟩ := setGreg_eq s t n v; rw [h]
@[simp] theorem setGreg_frzCode (t n : Nat) (v : BitVec 64) : (s.setGreg t n v).frzCode = s.frzCode := by obtain ⟨_, h⟩ := setGreg_eq s t n v; rw [h]
@[simp] theorem setGreg_frzOrigin (t n : Nat) (v : BitVec 64) : (s.setGreg t n v).frzOrigin = s.frzOrigin := by obtain ⟨_, h⟩ := setGreg_eq s t n v; rw [h]
@[simp] theorem setGreg_walks (t n : Nat) (v : BitVec 64) : (s.setGreg t n v).walks = s.walks := by obtain ⟨_, h⟩ := setGreg_eq s t n v; rw [h]
@[simp] theorem setGreg_conf (t n : Nat) (v : BitVec 64) : (s.setGreg t n v).conf = s.conf := by obtain ⟨_, h⟩ := setGreg_eq s t n v; rw [h]
@[simp] theorem setGreg_tx (t n : Nat) (v : BitVec 64) : (s.setGreg t n v).tx = s.tx := by obtain ⟨_, h⟩ := setGreg_eq s t n v; rw [h]
@[simp] theorem setGreg_memTx (t n : Nat) (v : BitVec 64) : (s.setGreg t n v).memTx = s.memTx := by obtain ⟨_, h⟩ := setGreg_eq s t n v; rw [h]
@[simp] theorem setGreg_ptTx (t n : Nat) (v : BitVec 64) : (s.setGreg t n v).ptTx = s.ptTx := by obtain ⟨_, h⟩ := setGreg_eq s t n v; rw [h]
@[simp] theorem setGreg_work (t n : Nat) (v : BitVec 64) : (s.setGreg t n v).work = s.work := by obtain ⟨_, h⟩ := setGreg_eq s t n v; rw [h]
@[simp] theorem setGreg_free (t n : Nat) (v : BitVec 64) : (s.setGreg t n v).free = s.free := by obtain ⟨_, h⟩ := setGreg_eq s t n v; rw [h]
@[simp] theorem setGreg_pending (t n : Nat) (v : BitVec 64) : (s.setGreg t n v).pending = s.pending := by obtain ⟨_, h⟩ := setGreg_eq s t n v; rw [h]

/-- bumpCnt can change regs and frzReq and nothing else. -/
theorem bumpCnt_eq (v o : Fld) (i j id : Nat) : ∃ r q, (bumpCnt s v o i j id) = { s with regs := r, frzReq := q } := by
  unfold bumpCnt; dsimp only
  split <;> split <;> exact ⟨_, _, rfl⟩

@[simp] theorem bumpCnt_dft (v o : Fld) (i j id : Nat) : (bumpCnt s v o i j id).dft = s.dft := by obtain ⟨_, _, h⟩ := bumpCnt_eq s v o i j id; rw [h]
@[simp] theorem bumpCnt_vaux (v o : Fld) (i j id : Nat) : (bumpCnt s v o i j id).vaux = s.vaux := by obtain ⟨_, _, h⟩ := bumpCnt_eq s v o i j id; rw [h]
@[simp] theorem bumpCnt_portUp (v o : Fld) (i j id : Nat) : (bumpCnt s v o i j id).portUp = s.portUp := by obtain ⟨_, _, h⟩ := bumpCnt_eq s v o i j id; rw [h]
@[simp] theorem bumpCnt_coreUp (v o : Fld) (i j id : Nat) : (bumpCnt s v o i j id).coreUp = s.coreUp := by obtain ⟨_, _, h⟩ := bumpCnt_eq s v o i j id; rw [h]
@[simp] theorem bumpCnt_coldRst (v o : Fld) (i j id : Nat) : (bumpCnt s v o i j id).coldRst = s.coldRst := by obtain ⟨_, _, h⟩ := bumpCnt_eq s v o i j id; rw [h]
@[simp] theorem bumpCnt_warmRst (v o : Fld) (i j id : Nat) : (bumpCnt s v o i j id).warmRst = s.warmRst := by obtain ⟨_, _, h⟩ := bumpCnt_eq s v o i j id; rw [h]
@[simp] theorem bumpCnt_freezeIn (v o : Fld) (i j id : Nat) : (bumpCnt s v o i j id).freezeIn = s.freezeIn := by obtain ⟨_, _, h⟩ := bumpCnt_eq s v o i j id; rw [h]
@[simp] theorem bumpCnt_wakeIn (v o : Fld) (i j id : Nat) : (bumpCnt s v o i j id).wakeIn = s.wakeIn := by obtain ⟨_, _, h⟩ := bumpCnt_eq s v o i j id; rw [h]
@[simp] theorem bumpCnt_hiLatch (v o : Fld) (i j id : Nat) : (bumpCnt s v o i j id).hiLatch = s.hiLatch := by obtain ⟨_, _, h⟩ := bumpCnt_eq s v o i j id; rw [h]
@[simp] theorem bumpCnt_wrHold (v o : Fld) (i j id : Nat) : (bumpCnt s v o i j id).wrHold = s.wrHold := by obtain ⟨_, _, h⟩ := bumpCnt_eq s v o i j id; rw [h]
@[simp] theorem bumpCnt_rdata (v o : Fld) (i j id : Nat) : (bumpCnt s v o i j id).rdata = s.rdata := by obtain ⟨_, _, h⟩ := bumpCnt_eq s v o i j id; rw [h]
@[simp] theorem bumpCnt_now (v o : Fld) (i j id : Nat) : (bumpCnt s v o i j id).now = s.now := by obtain ⟨_, _, h⟩ := bumpCnt_eq s v o i j id; rw [h]
@[simp] theorem bumpCnt_lehrNow (v o : Fld) (i j id : Nat) : (bumpCnt s v o i j id).lehrNow = s.lehrNow := by obtain ⟨_, _, h⟩ := bumpCnt_eq s v o i j id; rw [h]
@[simp] theorem bumpCnt_port (v o : Fld) (i j id : Nat) : (bumpCnt s v o i j id).port = s.port := by obtain ⟨_, _, h⟩ := bumpCnt_eq s v o i j id; rw [h]
@[simp] theorem bumpCnt_agt (v o : Fld) (i j id : Nat) : (bumpCnt s v o i j id).agt = s.agt := by obtain ⟨_, _, h⟩ := bumpCnt_eq s v o i j id; rw [h]
@[simp] theorem bumpCnt_shadow (v o : Fld) (i j id : Nat) : (bumpCnt s v o i j id).shadow = s.shadow := by obtain ⟨_, _, h⟩ := bumpCnt_eq s v o i j id; rw [h]
@[simp] theorem bumpCnt_sl (v o : Fld) (i j id : Nat) : (bumpCnt s v o i j id).sl = s.sl := by obtain ⟨_, _, h⟩ := bumpCnt_eq s v o i j id; rw [h]
@[simp] theorem bumpCnt_cab (v o : Fld) (i j id : Nat) : (bumpCnt s v o i j id).cab = s.cab := by obtain ⟨_, _, h⟩ := bumpCnt_eq s v o i j id; rw [h]
@[simp] theorem bumpCnt_mem (v o : Fld) (i j id : Nat) : (bumpCnt s v o i j id).mem = s.mem := by obtain ⟨_, _, h⟩ := bumpCnt_eq s v o i j id; rw [h]
@[simp] theorem bumpCnt_integ (v o : Fld) (i j id : Nat) : (bumpCnt s v o i j id).integ = s.integ := by obtain ⟨_, _, h⟩ := bumpCnt_eq s v o i j id; rw [h]
@[simp] theorem bumpCnt_repair (v o : Fld) (i j id : Nat) : (bumpCnt s v o i j id).repair = s.repair := by obtain ⟨_, _, h⟩ := bumpCnt_eq s v o i j id; rw [h]
@[simp] theorem bumpCnt_govSlot (v o : Fld) (i j id : Nat) : (bumpCnt s v o i j id).govSlot = s.govSlot := by obtain ⟨_, _, h⟩ := bumpCnt_eq s v o i j id; rw [h]
@[simp] theorem bumpCnt_govCap (v o : Fld) (i j id : Nat) : (bumpCnt s v o i j id).govCap = s.govCap := by obtain ⟨_, _, h⟩ := bumpCnt_eq s v o i j id; rw [h]
@[simp] theorem bumpCnt_govBg (v o : Fld) (i j id : Nat) : (bumpCnt s v o i j id).govBg = s.govBg := by obtain ⟨_, _, h⟩ := bumpCnt_eq s v o i j id; rw [h]
@[simp] theorem bumpCnt_stw (v o : Fld) (i j id : Nat) : (bumpCnt s v o i j id).stw = s.stw := by obtain ⟨_, _, h⟩ := bumpCnt_eq s v o i j id; rw [h]
@[simp] theorem bumpCnt_hutch (v o : Fld) (i j id : Nat) : (bumpCnt s v o i j id).hutch = s.hutch := by obtain ⟨_, _, h⟩ := bumpCnt_eq s v o i j id; rw [h]
@[simp] theorem bumpCnt_lehr (v o : Fld) (i j id : Nat) : (bumpCnt s v o i j id).lehr = s.lehr := by obtain ⟨_, _, h⟩ := bumpCnt_eq s v o i j id; rw [h]
@[simp] theorem bumpCnt_pt (v o : Fld) (i j id : Nat) : (bumpCnt s v o i j id).pt = s.pt := by obtain ⟨_, _, h⟩ := bumpCnt_eq s v o i j id; rw [h]
@[simp] theorem bumpCnt_start (v o : Fld) (i j id : Nat) : (bumpCnt s v o i j id).start = s.start := by obtain ⟨_, _, h⟩ := bumpCnt_eq s v o i j id; rw [h]
@[simp] theorem bumpCnt_fault (v o : Fld) (i j id : Nat) : (bumpCnt s v o i j id).fault = s.fault := by obtain ⟨_, _, h⟩ := bumpCnt_eq s v o i j id; rw [h]
@[simp] theorem bumpCnt_nq (v o : Fld) (i j id : Nat) : (bumpCnt s v o i j id).nq = s.nq := by obtain ⟨_, _, h⟩ := bumpCnt_eq s v o i j id; rw [h]
@[simp] theorem bumpCnt_fb (v o : Fld) (i j id : Nat) : (bumpCnt s v o i j id).fb = s.fb := by obtain ⟨_, _, h⟩ := bumpCnt_eq s v o i j id; rw [h]
@[simp] theorem bumpCnt_irq (v o : Fld) (i j id : Nat) : (bumpCnt s v o i j id).irq = s.irq := by obtain ⟨_, _, h⟩ := bumpCnt_eq s v o i j id; rw [h]
@[simp] theorem bumpCnt_cmd (v o : Fld) (i j id : Nat) : (bumpCnt s v o i j id).cmd = s.cmd := by obtain ⟨_, _, h⟩ := bumpCnt_eq s v o i j id; rw [h]
@[simp] theorem bumpCnt_sleepReady (v o : Fld) (i j id : Nat) : (bumpCnt s v o i j id).sleepReady = s.sleepReady := by obtain ⟨_, _, h⟩ := bumpCnt_eq s v o i j id; rw [h]
@[simp] theorem bumpCnt_frzCode (v o : Fld) (i j id : Nat) : (bumpCnt s v o i j id).frzCode = s.frzCode := by obtain ⟨_, _, h⟩ := bumpCnt_eq s v o i j id; rw [h]
@[simp] theorem bumpCnt_frzOrigin (v o : Fld) (i j id : Nat) : (bumpCnt s v o i j id).frzOrigin = s.frzOrigin := by obtain ⟨_, _, h⟩ := bumpCnt_eq s v o i j id; rw [h]
@[simp] theorem bumpCnt_walks (v o : Fld) (i j id : Nat) : (bumpCnt s v o i j id).walks = s.walks := by obtain ⟨_, _, h⟩ := bumpCnt_eq s v o i j id; rw [h]
@[simp] theorem bumpCnt_conf (v o : Fld) (i j id : Nat) : (bumpCnt s v o i j id).conf = s.conf := by obtain ⟨_, _, h⟩ := bumpCnt_eq s v o i j id; rw [h]
@[simp] theorem bumpCnt_tx (v o : Fld) (i j id : Nat) : (bumpCnt s v o i j id).tx = s.tx := by obtain ⟨_, _, h⟩ := bumpCnt_eq s v o i j id; rw [h]
@[simp] theorem bumpCnt_memTx (v o : Fld) (i j id : Nat) : (bumpCnt s v o i j id).memTx = s.memTx := by obtain ⟨_, _, h⟩ := bumpCnt_eq s v o i j id; rw [h]
@[simp] theorem bumpCnt_ptTx (v o : Fld) (i j id : Nat) : (bumpCnt s v o i j id).ptTx = s.ptTx := by obtain ⟨_, _, h⟩ := bumpCnt_eq s v o i j id; rw [h]
@[simp] theorem bumpCnt_work (v o : Fld) (i j id : Nat) : (bumpCnt s v o i j id).work = s.work := by obtain ⟨_, _, h⟩ := bumpCnt_eq s v o i j id; rw [h]
@[simp] theorem bumpCnt_free (v o : Fld) (i j id : Nat) : (bumpCnt s v o i j id).free = s.free := by obtain ⟨_, _, h⟩ := bumpCnt_eq s v o i j id; rw [h]
@[simp] theorem bumpCnt_pending (v o : Fld) (i j id : Nat) : (bumpCnt s v o i j id).pending = s.pending := by obtain ⟨_, _, h⟩ := bumpCnt_eq s v o i j id; rw [h]

/-- A fold of steps that change counters changes counters. -/
theorem counters_fold (f : State → Nat → State) (l : List Nat)
    (h : ∀ t k, ∃ r q, f t k = { t with regs := r, frzReq := q }) :
    ∃ r q, l.foldl f s = { s with regs := r, frzReq := q } := by
  induction l generalizing s with
  | nil => exact ⟨s.regs, s.frzReq, rfl⟩
  | cons k l ih =>
    obtain ⟨r, q, h1⟩ := h s k
    obtain ⟨r2, q2, h2⟩ := ih (f s k)
    exact ⟨r2, q2, by rw [List.foldl_cons, h2, h1]⟩

/-- slEvent can change regs and frzReq and nothing else. -/
theorem slEvent_eq (l ev : Nat) : ∃ r q, (slEvent s l ev) = { s with regs := r, frzReq := q } := by
  unfold slEvent
  refine counters_fold s _ _ (fun t k => ?_)
  split
  · exact bumpCnt_eq t _ _ _ _ _
  · exact ⟨t.regs, t.frzReq, rfl⟩

@[simp] theorem slEvent_dft (l ev : Nat) : (slEvent s l ev).dft = s.dft := by obtain ⟨_, _, h⟩ := slEvent_eq s l ev; rw [h]
@[simp] theorem slEvent_vaux (l ev : Nat) : (slEvent s l ev).vaux = s.vaux := by obtain ⟨_, _, h⟩ := slEvent_eq s l ev; rw [h]
@[simp] theorem slEvent_portUp (l ev : Nat) : (slEvent s l ev).portUp = s.portUp := by obtain ⟨_, _, h⟩ := slEvent_eq s l ev; rw [h]
@[simp] theorem slEvent_coreUp (l ev : Nat) : (slEvent s l ev).coreUp = s.coreUp := by obtain ⟨_, _, h⟩ := slEvent_eq s l ev; rw [h]
@[simp] theorem slEvent_coldRst (l ev : Nat) : (slEvent s l ev).coldRst = s.coldRst := by obtain ⟨_, _, h⟩ := slEvent_eq s l ev; rw [h]
@[simp] theorem slEvent_warmRst (l ev : Nat) : (slEvent s l ev).warmRst = s.warmRst := by obtain ⟨_, _, h⟩ := slEvent_eq s l ev; rw [h]
@[simp] theorem slEvent_freezeIn (l ev : Nat) : (slEvent s l ev).freezeIn = s.freezeIn := by obtain ⟨_, _, h⟩ := slEvent_eq s l ev; rw [h]
@[simp] theorem slEvent_wakeIn (l ev : Nat) : (slEvent s l ev).wakeIn = s.wakeIn := by obtain ⟨_, _, h⟩ := slEvent_eq s l ev; rw [h]
@[simp] theorem slEvent_hiLatch (l ev : Nat) : (slEvent s l ev).hiLatch = s.hiLatch := by obtain ⟨_, _, h⟩ := slEvent_eq s l ev; rw [h]
@[simp] theorem slEvent_wrHold (l ev : Nat) : (slEvent s l ev).wrHold = s.wrHold := by obtain ⟨_, _, h⟩ := slEvent_eq s l ev; rw [h]
@[simp] theorem slEvent_rdata (l ev : Nat) : (slEvent s l ev).rdata = s.rdata := by obtain ⟨_, _, h⟩ := slEvent_eq s l ev; rw [h]
@[simp] theorem slEvent_now (l ev : Nat) : (slEvent s l ev).now = s.now := by obtain ⟨_, _, h⟩ := slEvent_eq s l ev; rw [h]
@[simp] theorem slEvent_lehrNow (l ev : Nat) : (slEvent s l ev).lehrNow = s.lehrNow := by obtain ⟨_, _, h⟩ := slEvent_eq s l ev; rw [h]
@[simp] theorem slEvent_port (l ev : Nat) : (slEvent s l ev).port = s.port := by obtain ⟨_, _, h⟩ := slEvent_eq s l ev; rw [h]
@[simp] theorem slEvent_agt (l ev : Nat) : (slEvent s l ev).agt = s.agt := by obtain ⟨_, _, h⟩ := slEvent_eq s l ev; rw [h]
@[simp] theorem slEvent_shadow (l ev : Nat) : (slEvent s l ev).shadow = s.shadow := by obtain ⟨_, _, h⟩ := slEvent_eq s l ev; rw [h]
@[simp] theorem slEvent_sl (l ev : Nat) : (slEvent s l ev).sl = s.sl := by obtain ⟨_, _, h⟩ := slEvent_eq s l ev; rw [h]
@[simp] theorem slEvent_cab (l ev : Nat) : (slEvent s l ev).cab = s.cab := by obtain ⟨_, _, h⟩ := slEvent_eq s l ev; rw [h]
@[simp] theorem slEvent_mem (l ev : Nat) : (slEvent s l ev).mem = s.mem := by obtain ⟨_, _, h⟩ := slEvent_eq s l ev; rw [h]
@[simp] theorem slEvent_integ (l ev : Nat) : (slEvent s l ev).integ = s.integ := by obtain ⟨_, _, h⟩ := slEvent_eq s l ev; rw [h]
@[simp] theorem slEvent_repair (l ev : Nat) : (slEvent s l ev).repair = s.repair := by obtain ⟨_, _, h⟩ := slEvent_eq s l ev; rw [h]
@[simp] theorem slEvent_govSlot (l ev : Nat) : (slEvent s l ev).govSlot = s.govSlot := by obtain ⟨_, _, h⟩ := slEvent_eq s l ev; rw [h]
@[simp] theorem slEvent_govCap (l ev : Nat) : (slEvent s l ev).govCap = s.govCap := by obtain ⟨_, _, h⟩ := slEvent_eq s l ev; rw [h]
@[simp] theorem slEvent_govBg (l ev : Nat) : (slEvent s l ev).govBg = s.govBg := by obtain ⟨_, _, h⟩ := slEvent_eq s l ev; rw [h]
@[simp] theorem slEvent_stw (l ev : Nat) : (slEvent s l ev).stw = s.stw := by obtain ⟨_, _, h⟩ := slEvent_eq s l ev; rw [h]
@[simp] theorem slEvent_hutch (l ev : Nat) : (slEvent s l ev).hutch = s.hutch := by obtain ⟨_, _, h⟩ := slEvent_eq s l ev; rw [h]
@[simp] theorem slEvent_lehr (l ev : Nat) : (slEvent s l ev).lehr = s.lehr := by obtain ⟨_, _, h⟩ := slEvent_eq s l ev; rw [h]
@[simp] theorem slEvent_pt (l ev : Nat) : (slEvent s l ev).pt = s.pt := by obtain ⟨_, _, h⟩ := slEvent_eq s l ev; rw [h]
@[simp] theorem slEvent_start (l ev : Nat) : (slEvent s l ev).start = s.start := by obtain ⟨_, _, h⟩ := slEvent_eq s l ev; rw [h]
@[simp] theorem slEvent_fault (l ev : Nat) : (slEvent s l ev).fault = s.fault := by obtain ⟨_, _, h⟩ := slEvent_eq s l ev; rw [h]
@[simp] theorem slEvent_nq (l ev : Nat) : (slEvent s l ev).nq = s.nq := by obtain ⟨_, _, h⟩ := slEvent_eq s l ev; rw [h]
@[simp] theorem slEvent_fb (l ev : Nat) : (slEvent s l ev).fb = s.fb := by obtain ⟨_, _, h⟩ := slEvent_eq s l ev; rw [h]
@[simp] theorem slEvent_irq (l ev : Nat) : (slEvent s l ev).irq = s.irq := by obtain ⟨_, _, h⟩ := slEvent_eq s l ev; rw [h]
@[simp] theorem slEvent_cmd (l ev : Nat) : (slEvent s l ev).cmd = s.cmd := by obtain ⟨_, _, h⟩ := slEvent_eq s l ev; rw [h]
@[simp] theorem slEvent_sleepReady (l ev : Nat) : (slEvent s l ev).sleepReady = s.sleepReady := by obtain ⟨_, _, h⟩ := slEvent_eq s l ev; rw [h]
@[simp] theorem slEvent_frzCode (l ev : Nat) : (slEvent s l ev).frzCode = s.frzCode := by obtain ⟨_, _, h⟩ := slEvent_eq s l ev; rw [h]
@[simp] theorem slEvent_frzOrigin (l ev : Nat) : (slEvent s l ev).frzOrigin = s.frzOrigin := by obtain ⟨_, _, h⟩ := slEvent_eq s l ev; rw [h]
@[simp] theorem slEvent_walks (l ev : Nat) : (slEvent s l ev).walks = s.walks := by obtain ⟨_, _, h⟩ := slEvent_eq s l ev; rw [h]
@[simp] theorem slEvent_conf (l ev : Nat) : (slEvent s l ev).conf = s.conf := by obtain ⟨_, _, h⟩ := slEvent_eq s l ev; rw [h]
@[simp] theorem slEvent_tx (l ev : Nat) : (slEvent s l ev).tx = s.tx := by obtain ⟨_, _, h⟩ := slEvent_eq s l ev; rw [h]
@[simp] theorem slEvent_memTx (l ev : Nat) : (slEvent s l ev).memTx = s.memTx := by obtain ⟨_, _, h⟩ := slEvent_eq s l ev; rw [h]
@[simp] theorem slEvent_ptTx (l ev : Nat) : (slEvent s l ev).ptTx = s.ptTx := by obtain ⟨_, _, h⟩ := slEvent_eq s l ev; rw [h]
@[simp] theorem slEvent_work (l ev : Nat) : (slEvent s l ev).work = s.work := by obtain ⟨_, _, h⟩ := slEvent_eq s l ev; rw [h]
@[simp] theorem slEvent_free (l ev : Nat) : (slEvent s l ev).free = s.free := by obtain ⟨_, _, h⟩ := slEvent_eq s l ev; rw [h]
@[simp] theorem slEvent_pending (l ev : Nat) : (slEvent s l ev).pending = s.pending := by obtain ⟨_, _, h⟩ := slEvent_eq s l ev; rw [h]

/-- slFixed can change regs and frzReq and nothing else. -/
theorem slFixed_eq (l k : Nat) : ∃ r q, (slFixed s l k) = { s with regs := r, frzReq := q } := by
  exact bumpCnt_eq s _ _ _ _ _

@[simp] theorem slFixed_dft (l k : Nat) : (slFixed s l k).dft = s.dft := by obtain ⟨_, _, h⟩ := slFixed_eq s l k; rw [h]
@[simp] theorem slFixed_vaux (l k : Nat) : (slFixed s l k).vaux = s.vaux := by obtain ⟨_, _, h⟩ := slFixed_eq s l k; rw [h]
@[simp] theorem slFixed_portUp (l k : Nat) : (slFixed s l k).portUp = s.portUp := by obtain ⟨_, _, h⟩ := slFixed_eq s l k; rw [h]
@[simp] theorem slFixed_coreUp (l k : Nat) : (slFixed s l k).coreUp = s.coreUp := by obtain ⟨_, _, h⟩ := slFixed_eq s l k; rw [h]
@[simp] theorem slFixed_coldRst (l k : Nat) : (slFixed s l k).coldRst = s.coldRst := by obtain ⟨_, _, h⟩ := slFixed_eq s l k; rw [h]
@[simp] theorem slFixed_warmRst (l k : Nat) : (slFixed s l k).warmRst = s.warmRst := by obtain ⟨_, _, h⟩ := slFixed_eq s l k; rw [h]
@[simp] theorem slFixed_freezeIn (l k : Nat) : (slFixed s l k).freezeIn = s.freezeIn := by obtain ⟨_, _, h⟩ := slFixed_eq s l k; rw [h]
@[simp] theorem slFixed_wakeIn (l k : Nat) : (slFixed s l k).wakeIn = s.wakeIn := by obtain ⟨_, _, h⟩ := slFixed_eq s l k; rw [h]
@[simp] theorem slFixed_hiLatch (l k : Nat) : (slFixed s l k).hiLatch = s.hiLatch := by obtain ⟨_, _, h⟩ := slFixed_eq s l k; rw [h]
@[simp] theorem slFixed_wrHold (l k : Nat) : (slFixed s l k).wrHold = s.wrHold := by obtain ⟨_, _, h⟩ := slFixed_eq s l k; rw [h]
@[simp] theorem slFixed_rdata (l k : Nat) : (slFixed s l k).rdata = s.rdata := by obtain ⟨_, _, h⟩ := slFixed_eq s l k; rw [h]
@[simp] theorem slFixed_now (l k : Nat) : (slFixed s l k).now = s.now := by obtain ⟨_, _, h⟩ := slFixed_eq s l k; rw [h]
@[simp] theorem slFixed_lehrNow (l k : Nat) : (slFixed s l k).lehrNow = s.lehrNow := by obtain ⟨_, _, h⟩ := slFixed_eq s l k; rw [h]
@[simp] theorem slFixed_port (l k : Nat) : (slFixed s l k).port = s.port := by obtain ⟨_, _, h⟩ := slFixed_eq s l k; rw [h]
@[simp] theorem slFixed_agt (l k : Nat) : (slFixed s l k).agt = s.agt := by obtain ⟨_, _, h⟩ := slFixed_eq s l k; rw [h]
@[simp] theorem slFixed_shadow (l k : Nat) : (slFixed s l k).shadow = s.shadow := by obtain ⟨_, _, h⟩ := slFixed_eq s l k; rw [h]
@[simp] theorem slFixed_sl (l k : Nat) : (slFixed s l k).sl = s.sl := by obtain ⟨_, _, h⟩ := slFixed_eq s l k; rw [h]
@[simp] theorem slFixed_cab (l k : Nat) : (slFixed s l k).cab = s.cab := by obtain ⟨_, _, h⟩ := slFixed_eq s l k; rw [h]
@[simp] theorem slFixed_mem (l k : Nat) : (slFixed s l k).mem = s.mem := by obtain ⟨_, _, h⟩ := slFixed_eq s l k; rw [h]
@[simp] theorem slFixed_integ (l k : Nat) : (slFixed s l k).integ = s.integ := by obtain ⟨_, _, h⟩ := slFixed_eq s l k; rw [h]
@[simp] theorem slFixed_repair (l k : Nat) : (slFixed s l k).repair = s.repair := by obtain ⟨_, _, h⟩ := slFixed_eq s l k; rw [h]
@[simp] theorem slFixed_govSlot (l k : Nat) : (slFixed s l k).govSlot = s.govSlot := by obtain ⟨_, _, h⟩ := slFixed_eq s l k; rw [h]
@[simp] theorem slFixed_govCap (l k : Nat) : (slFixed s l k).govCap = s.govCap := by obtain ⟨_, _, h⟩ := slFixed_eq s l k; rw [h]
@[simp] theorem slFixed_govBg (l k : Nat) : (slFixed s l k).govBg = s.govBg := by obtain ⟨_, _, h⟩ := slFixed_eq s l k; rw [h]
@[simp] theorem slFixed_stw (l k : Nat) : (slFixed s l k).stw = s.stw := by obtain ⟨_, _, h⟩ := slFixed_eq s l k; rw [h]
@[simp] theorem slFixed_hutch (l k : Nat) : (slFixed s l k).hutch = s.hutch := by obtain ⟨_, _, h⟩ := slFixed_eq s l k; rw [h]
@[simp] theorem slFixed_lehr (l k : Nat) : (slFixed s l k).lehr = s.lehr := by obtain ⟨_, _, h⟩ := slFixed_eq s l k; rw [h]
@[simp] theorem slFixed_pt (l k : Nat) : (slFixed s l k).pt = s.pt := by obtain ⟨_, _, h⟩ := slFixed_eq s l k; rw [h]
@[simp] theorem slFixed_start (l k : Nat) : (slFixed s l k).start = s.start := by obtain ⟨_, _, h⟩ := slFixed_eq s l k; rw [h]
@[simp] theorem slFixed_fault (l k : Nat) : (slFixed s l k).fault = s.fault := by obtain ⟨_, _, h⟩ := slFixed_eq s l k; rw [h]
@[simp] theorem slFixed_nq (l k : Nat) : (slFixed s l k).nq = s.nq := by obtain ⟨_, _, h⟩ := slFixed_eq s l k; rw [h]
@[simp] theorem slFixed_fb (l k : Nat) : (slFixed s l k).fb = s.fb := by obtain ⟨_, _, h⟩ := slFixed_eq s l k; rw [h]
@[simp] theorem slFixed_irq (l k : Nat) : (slFixed s l k).irq = s.irq := by obtain ⟨_, _, h⟩ := slFixed_eq s l k; rw [h]
@[simp] theorem slFixed_cmd (l k : Nat) : (slFixed s l k).cmd = s.cmd := by obtain ⟨_, _, h⟩ := slFixed_eq s l k; rw [h]
@[simp] theorem slFixed_sleepReady (l k : Nat) : (slFixed s l k).sleepReady = s.sleepReady := by obtain ⟨_, _, h⟩ := slFixed_eq s l k; rw [h]
@[simp] theorem slFixed_frzCode (l k : Nat) : (slFixed s l k).frzCode = s.frzCode := by obtain ⟨_, _, h⟩ := slFixed_eq s l k; rw [h]
@[simp] theorem slFixed_frzOrigin (l k : Nat) : (slFixed s l k).frzOrigin = s.frzOrigin := by obtain ⟨_, _, h⟩ := slFixed_eq s l k; rw [h]
@[simp] theorem slFixed_walks (l k : Nat) : (slFixed s l k).walks = s.walks := by obtain ⟨_, _, h⟩ := slFixed_eq s l k; rw [h]
@[simp] theorem slFixed_conf (l k : Nat) : (slFixed s l k).conf = s.conf := by obtain ⟨_, _, h⟩ := slFixed_eq s l k; rw [h]
@[simp] theorem slFixed_tx (l k : Nat) : (slFixed s l k).tx = s.tx := by obtain ⟨_, _, h⟩ := slFixed_eq s l k; rw [h]
@[simp] theorem slFixed_memTx (l k : Nat) : (slFixed s l k).memTx = s.memTx := by obtain ⟨_, _, h⟩ := slFixed_eq s l k; rw [h]
@[simp] theorem slFixed_ptTx (l k : Nat) : (slFixed s l k).ptTx = s.ptTx := by obtain ⟨_, _, h⟩ := slFixed_eq s l k; rw [h]
@[simp] theorem slFixed_work (l k : Nat) : (slFixed s l k).work = s.work := by obtain ⟨_, _, h⟩ := slFixed_eq s l k; rw [h]
@[simp] theorem slFixed_free (l k : Nat) : (slFixed s l k).free = s.free := by obtain ⟨_, _, h⟩ := slFixed_eq s l k; rw [h]
@[simp] theorem slFixed_pending (l k : Nat) : (slFixed s l k).pending = s.pending := by obtain ⟨_, _, h⟩ := slFixed_eq s l k; rw [h]

/-- clEvent can change regs and frzReq and nothing else. -/
theorem clEvent_eq (c ev : Nat) : ∃ r q, (clEvent s c ev) = { s with regs := r, frzReq := q } := by
  unfold clEvent
  refine counters_fold s _ _ (fun t k => ?_)
  split
  · exact bumpCnt_eq t _ _ _ _ _
  · exact ⟨t.regs, t.frzReq, rfl⟩

@[simp] theorem clEvent_dft (c ev : Nat) : (clEvent s c ev).dft = s.dft := by obtain ⟨_, _, h⟩ := clEvent_eq s c ev; rw [h]
@[simp] theorem clEvent_vaux (c ev : Nat) : (clEvent s c ev).vaux = s.vaux := by obtain ⟨_, _, h⟩ := clEvent_eq s c ev; rw [h]
@[simp] theorem clEvent_portUp (c ev : Nat) : (clEvent s c ev).portUp = s.portUp := by obtain ⟨_, _, h⟩ := clEvent_eq s c ev; rw [h]
@[simp] theorem clEvent_coreUp (c ev : Nat) : (clEvent s c ev).coreUp = s.coreUp := by obtain ⟨_, _, h⟩ := clEvent_eq s c ev; rw [h]
@[simp] theorem clEvent_coldRst (c ev : Nat) : (clEvent s c ev).coldRst = s.coldRst := by obtain ⟨_, _, h⟩ := clEvent_eq s c ev; rw [h]
@[simp] theorem clEvent_warmRst (c ev : Nat) : (clEvent s c ev).warmRst = s.warmRst := by obtain ⟨_, _, h⟩ := clEvent_eq s c ev; rw [h]
@[simp] theorem clEvent_freezeIn (c ev : Nat) : (clEvent s c ev).freezeIn = s.freezeIn := by obtain ⟨_, _, h⟩ := clEvent_eq s c ev; rw [h]
@[simp] theorem clEvent_wakeIn (c ev : Nat) : (clEvent s c ev).wakeIn = s.wakeIn := by obtain ⟨_, _, h⟩ := clEvent_eq s c ev; rw [h]
@[simp] theorem clEvent_hiLatch (c ev : Nat) : (clEvent s c ev).hiLatch = s.hiLatch := by obtain ⟨_, _, h⟩ := clEvent_eq s c ev; rw [h]
@[simp] theorem clEvent_wrHold (c ev : Nat) : (clEvent s c ev).wrHold = s.wrHold := by obtain ⟨_, _, h⟩ := clEvent_eq s c ev; rw [h]
@[simp] theorem clEvent_rdata (c ev : Nat) : (clEvent s c ev).rdata = s.rdata := by obtain ⟨_, _, h⟩ := clEvent_eq s c ev; rw [h]
@[simp] theorem clEvent_now (c ev : Nat) : (clEvent s c ev).now = s.now := by obtain ⟨_, _, h⟩ := clEvent_eq s c ev; rw [h]
@[simp] theorem clEvent_lehrNow (c ev : Nat) : (clEvent s c ev).lehrNow = s.lehrNow := by obtain ⟨_, _, h⟩ := clEvent_eq s c ev; rw [h]
@[simp] theorem clEvent_port (c ev : Nat) : (clEvent s c ev).port = s.port := by obtain ⟨_, _, h⟩ := clEvent_eq s c ev; rw [h]
@[simp] theorem clEvent_agt (c ev : Nat) : (clEvent s c ev).agt = s.agt := by obtain ⟨_, _, h⟩ := clEvent_eq s c ev; rw [h]
@[simp] theorem clEvent_shadow (c ev : Nat) : (clEvent s c ev).shadow = s.shadow := by obtain ⟨_, _, h⟩ := clEvent_eq s c ev; rw [h]
@[simp] theorem clEvent_sl (c ev : Nat) : (clEvent s c ev).sl = s.sl := by obtain ⟨_, _, h⟩ := clEvent_eq s c ev; rw [h]
@[simp] theorem clEvent_cab (c ev : Nat) : (clEvent s c ev).cab = s.cab := by obtain ⟨_, _, h⟩ := clEvent_eq s c ev; rw [h]
@[simp] theorem clEvent_mem (c ev : Nat) : (clEvent s c ev).mem = s.mem := by obtain ⟨_, _, h⟩ := clEvent_eq s c ev; rw [h]
@[simp] theorem clEvent_integ (c ev : Nat) : (clEvent s c ev).integ = s.integ := by obtain ⟨_, _, h⟩ := clEvent_eq s c ev; rw [h]
@[simp] theorem clEvent_repair (c ev : Nat) : (clEvent s c ev).repair = s.repair := by obtain ⟨_, _, h⟩ := clEvent_eq s c ev; rw [h]
@[simp] theorem clEvent_govSlot (c ev : Nat) : (clEvent s c ev).govSlot = s.govSlot := by obtain ⟨_, _, h⟩ := clEvent_eq s c ev; rw [h]
@[simp] theorem clEvent_govCap (c ev : Nat) : (clEvent s c ev).govCap = s.govCap := by obtain ⟨_, _, h⟩ := clEvent_eq s c ev; rw [h]
@[simp] theorem clEvent_govBg (c ev : Nat) : (clEvent s c ev).govBg = s.govBg := by obtain ⟨_, _, h⟩ := clEvent_eq s c ev; rw [h]
@[simp] theorem clEvent_stw (c ev : Nat) : (clEvent s c ev).stw = s.stw := by obtain ⟨_, _, h⟩ := clEvent_eq s c ev; rw [h]
@[simp] theorem clEvent_hutch (c ev : Nat) : (clEvent s c ev).hutch = s.hutch := by obtain ⟨_, _, h⟩ := clEvent_eq s c ev; rw [h]
@[simp] theorem clEvent_lehr (c ev : Nat) : (clEvent s c ev).lehr = s.lehr := by obtain ⟨_, _, h⟩ := clEvent_eq s c ev; rw [h]
@[simp] theorem clEvent_pt (c ev : Nat) : (clEvent s c ev).pt = s.pt := by obtain ⟨_, _, h⟩ := clEvent_eq s c ev; rw [h]
@[simp] theorem clEvent_start (c ev : Nat) : (clEvent s c ev).start = s.start := by obtain ⟨_, _, h⟩ := clEvent_eq s c ev; rw [h]
@[simp] theorem clEvent_fault (c ev : Nat) : (clEvent s c ev).fault = s.fault := by obtain ⟨_, _, h⟩ := clEvent_eq s c ev; rw [h]
@[simp] theorem clEvent_nq (c ev : Nat) : (clEvent s c ev).nq = s.nq := by obtain ⟨_, _, h⟩ := clEvent_eq s c ev; rw [h]
@[simp] theorem clEvent_fb (c ev : Nat) : (clEvent s c ev).fb = s.fb := by obtain ⟨_, _, h⟩ := clEvent_eq s c ev; rw [h]
@[simp] theorem clEvent_irq (c ev : Nat) : (clEvent s c ev).irq = s.irq := by obtain ⟨_, _, h⟩ := clEvent_eq s c ev; rw [h]
@[simp] theorem clEvent_cmd (c ev : Nat) : (clEvent s c ev).cmd = s.cmd := by obtain ⟨_, _, h⟩ := clEvent_eq s c ev; rw [h]
@[simp] theorem clEvent_sleepReady (c ev : Nat) : (clEvent s c ev).sleepReady = s.sleepReady := by obtain ⟨_, _, h⟩ := clEvent_eq s c ev; rw [h]
@[simp] theorem clEvent_frzCode (c ev : Nat) : (clEvent s c ev).frzCode = s.frzCode := by obtain ⟨_, _, h⟩ := clEvent_eq s c ev; rw [h]
@[simp] theorem clEvent_frzOrigin (c ev : Nat) : (clEvent s c ev).frzOrigin = s.frzOrigin := by obtain ⟨_, _, h⟩ := clEvent_eq s c ev; rw [h]
@[simp] theorem clEvent_walks (c ev : Nat) : (clEvent s c ev).walks = s.walks := by obtain ⟨_, _, h⟩ := clEvent_eq s c ev; rw [h]
@[simp] theorem clEvent_conf (c ev : Nat) : (clEvent s c ev).conf = s.conf := by obtain ⟨_, _, h⟩ := clEvent_eq s c ev; rw [h]
@[simp] theorem clEvent_tx (c ev : Nat) : (clEvent s c ev).tx = s.tx := by obtain ⟨_, _, h⟩ := clEvent_eq s c ev; rw [h]
@[simp] theorem clEvent_memTx (c ev : Nat) : (clEvent s c ev).memTx = s.memTx := by obtain ⟨_, _, h⟩ := clEvent_eq s c ev; rw [h]
@[simp] theorem clEvent_ptTx (c ev : Nat) : (clEvent s c ev).ptTx = s.ptTx := by obtain ⟨_, _, h⟩ := clEvent_eq s c ev; rw [h]
@[simp] theorem clEvent_work (c ev : Nat) : (clEvent s c ev).work = s.work := by obtain ⟨_, _, h⟩ := clEvent_eq s c ev; rw [h]
@[simp] theorem clEvent_free (c ev : Nat) : (clEvent s c ev).free = s.free := by obtain ⟨_, _, h⟩ := clEvent_eq s c ev; rw [h]
@[simp] theorem clEvent_pending (c ev : Nat) : (clEvent s c ev).pending = s.pending := by obtain ⟨_, _, h⟩ := clEvent_eq s c ev; rw [h]

/-- fpEvent can change regs and frzReq and nothing else. -/
theorem fpEvent_eq (p ev : Nat) : ∃ r q, (fpEvent s p ev) = { s with regs := r, frzReq := q } := by
  unfold fpEvent
  refine counters_fold s _ _ (fun t k => ?_)
  split
  · exact bumpCnt_eq t _ _ _ _ _
  · exact ⟨t.regs, t.frzReq, rfl⟩

@[simp] theorem fpEvent_dft (p ev : Nat) : (fpEvent s p ev).dft = s.dft := by obtain ⟨_, _, h⟩ := fpEvent_eq s p ev; rw [h]
@[simp] theorem fpEvent_vaux (p ev : Nat) : (fpEvent s p ev).vaux = s.vaux := by obtain ⟨_, _, h⟩ := fpEvent_eq s p ev; rw [h]
@[simp] theorem fpEvent_portUp (p ev : Nat) : (fpEvent s p ev).portUp = s.portUp := by obtain ⟨_, _, h⟩ := fpEvent_eq s p ev; rw [h]
@[simp] theorem fpEvent_coreUp (p ev : Nat) : (fpEvent s p ev).coreUp = s.coreUp := by obtain ⟨_, _, h⟩ := fpEvent_eq s p ev; rw [h]
@[simp] theorem fpEvent_coldRst (p ev : Nat) : (fpEvent s p ev).coldRst = s.coldRst := by obtain ⟨_, _, h⟩ := fpEvent_eq s p ev; rw [h]
@[simp] theorem fpEvent_warmRst (p ev : Nat) : (fpEvent s p ev).warmRst = s.warmRst := by obtain ⟨_, _, h⟩ := fpEvent_eq s p ev; rw [h]
@[simp] theorem fpEvent_freezeIn (p ev : Nat) : (fpEvent s p ev).freezeIn = s.freezeIn := by obtain ⟨_, _, h⟩ := fpEvent_eq s p ev; rw [h]
@[simp] theorem fpEvent_wakeIn (p ev : Nat) : (fpEvent s p ev).wakeIn = s.wakeIn := by obtain ⟨_, _, h⟩ := fpEvent_eq s p ev; rw [h]
@[simp] theorem fpEvent_hiLatch (p ev : Nat) : (fpEvent s p ev).hiLatch = s.hiLatch := by obtain ⟨_, _, h⟩ := fpEvent_eq s p ev; rw [h]
@[simp] theorem fpEvent_wrHold (p ev : Nat) : (fpEvent s p ev).wrHold = s.wrHold := by obtain ⟨_, _, h⟩ := fpEvent_eq s p ev; rw [h]
@[simp] theorem fpEvent_rdata (p ev : Nat) : (fpEvent s p ev).rdata = s.rdata := by obtain ⟨_, _, h⟩ := fpEvent_eq s p ev; rw [h]
@[simp] theorem fpEvent_now (p ev : Nat) : (fpEvent s p ev).now = s.now := by obtain ⟨_, _, h⟩ := fpEvent_eq s p ev; rw [h]
@[simp] theorem fpEvent_lehrNow (p ev : Nat) : (fpEvent s p ev).lehrNow = s.lehrNow := by obtain ⟨_, _, h⟩ := fpEvent_eq s p ev; rw [h]
@[simp] theorem fpEvent_port (p ev : Nat) : (fpEvent s p ev).port = s.port := by obtain ⟨_, _, h⟩ := fpEvent_eq s p ev; rw [h]
@[simp] theorem fpEvent_agt (p ev : Nat) : (fpEvent s p ev).agt = s.agt := by obtain ⟨_, _, h⟩ := fpEvent_eq s p ev; rw [h]
@[simp] theorem fpEvent_shadow (p ev : Nat) : (fpEvent s p ev).shadow = s.shadow := by obtain ⟨_, _, h⟩ := fpEvent_eq s p ev; rw [h]
@[simp] theorem fpEvent_sl (p ev : Nat) : (fpEvent s p ev).sl = s.sl := by obtain ⟨_, _, h⟩ := fpEvent_eq s p ev; rw [h]
@[simp] theorem fpEvent_cab (p ev : Nat) : (fpEvent s p ev).cab = s.cab := by obtain ⟨_, _, h⟩ := fpEvent_eq s p ev; rw [h]
@[simp] theorem fpEvent_mem (p ev : Nat) : (fpEvent s p ev).mem = s.mem := by obtain ⟨_, _, h⟩ := fpEvent_eq s p ev; rw [h]
@[simp] theorem fpEvent_integ (p ev : Nat) : (fpEvent s p ev).integ = s.integ := by obtain ⟨_, _, h⟩ := fpEvent_eq s p ev; rw [h]
@[simp] theorem fpEvent_repair (p ev : Nat) : (fpEvent s p ev).repair = s.repair := by obtain ⟨_, _, h⟩ := fpEvent_eq s p ev; rw [h]
@[simp] theorem fpEvent_govSlot (p ev : Nat) : (fpEvent s p ev).govSlot = s.govSlot := by obtain ⟨_, _, h⟩ := fpEvent_eq s p ev; rw [h]
@[simp] theorem fpEvent_govCap (p ev : Nat) : (fpEvent s p ev).govCap = s.govCap := by obtain ⟨_, _, h⟩ := fpEvent_eq s p ev; rw [h]
@[simp] theorem fpEvent_govBg (p ev : Nat) : (fpEvent s p ev).govBg = s.govBg := by obtain ⟨_, _, h⟩ := fpEvent_eq s p ev; rw [h]
@[simp] theorem fpEvent_stw (p ev : Nat) : (fpEvent s p ev).stw = s.stw := by obtain ⟨_, _, h⟩ := fpEvent_eq s p ev; rw [h]
@[simp] theorem fpEvent_hutch (p ev : Nat) : (fpEvent s p ev).hutch = s.hutch := by obtain ⟨_, _, h⟩ := fpEvent_eq s p ev; rw [h]
@[simp] theorem fpEvent_lehr (p ev : Nat) : (fpEvent s p ev).lehr = s.lehr := by obtain ⟨_, _, h⟩ := fpEvent_eq s p ev; rw [h]
@[simp] theorem fpEvent_pt (p ev : Nat) : (fpEvent s p ev).pt = s.pt := by obtain ⟨_, _, h⟩ := fpEvent_eq s p ev; rw [h]
@[simp] theorem fpEvent_start (p ev : Nat) : (fpEvent s p ev).start = s.start := by obtain ⟨_, _, h⟩ := fpEvent_eq s p ev; rw [h]
@[simp] theorem fpEvent_fault (p ev : Nat) : (fpEvent s p ev).fault = s.fault := by obtain ⟨_, _, h⟩ := fpEvent_eq s p ev; rw [h]
@[simp] theorem fpEvent_nq (p ev : Nat) : (fpEvent s p ev).nq = s.nq := by obtain ⟨_, _, h⟩ := fpEvent_eq s p ev; rw [h]
@[simp] theorem fpEvent_fb (p ev : Nat) : (fpEvent s p ev).fb = s.fb := by obtain ⟨_, _, h⟩ := fpEvent_eq s p ev; rw [h]
@[simp] theorem fpEvent_irq (p ev : Nat) : (fpEvent s p ev).irq = s.irq := by obtain ⟨_, _, h⟩ := fpEvent_eq s p ev; rw [h]
@[simp] theorem fpEvent_cmd (p ev : Nat) : (fpEvent s p ev).cmd = s.cmd := by obtain ⟨_, _, h⟩ := fpEvent_eq s p ev; rw [h]
@[simp] theorem fpEvent_sleepReady (p ev : Nat) : (fpEvent s p ev).sleepReady = s.sleepReady := by obtain ⟨_, _, h⟩ := fpEvent_eq s p ev; rw [h]
@[simp] theorem fpEvent_frzCode (p ev : Nat) : (fpEvent s p ev).frzCode = s.frzCode := by obtain ⟨_, _, h⟩ := fpEvent_eq s p ev; rw [h]
@[simp] theorem fpEvent_frzOrigin (p ev : Nat) : (fpEvent s p ev).frzOrigin = s.frzOrigin := by obtain ⟨_, _, h⟩ := fpEvent_eq s p ev; rw [h]
@[simp] theorem fpEvent_walks (p ev : Nat) : (fpEvent s p ev).walks = s.walks := by obtain ⟨_, _, h⟩ := fpEvent_eq s p ev; rw [h]
@[simp] theorem fpEvent_conf (p ev : Nat) : (fpEvent s p ev).conf = s.conf := by obtain ⟨_, _, h⟩ := fpEvent_eq s p ev; rw [h]
@[simp] theorem fpEvent_tx (p ev : Nat) : (fpEvent s p ev).tx = s.tx := by obtain ⟨_, _, h⟩ := fpEvent_eq s p ev; rw [h]
@[simp] theorem fpEvent_memTx (p ev : Nat) : (fpEvent s p ev).memTx = s.memTx := by obtain ⟨_, _, h⟩ := fpEvent_eq s p ev; rw [h]
@[simp] theorem fpEvent_ptTx (p ev : Nat) : (fpEvent s p ev).ptTx = s.ptTx := by obtain ⟨_, _, h⟩ := fpEvent_eq s p ev; rw [h]
@[simp] theorem fpEvent_work (p ev : Nat) : (fpEvent s p ev).work = s.work := by obtain ⟨_, _, h⟩ := fpEvent_eq s p ev; rw [h]
@[simp] theorem fpEvent_free (p ev : Nat) : (fpEvent s p ev).free = s.free := by obtain ⟨_, _, h⟩ := fpEvent_eq s p ev; rw [h]
@[simp] theorem fpEvent_pending (p ev : Nat) : (fpEvent s p ev).pending = s.pending := by obtain ⟨_, _, h⟩ := fpEvent_eq s p ev; rw [h]

/-- mpEvent can change regs and frzReq and nothing else. -/
theorem mpEvent_eq (m ev : Nat) : ∃ r q, (mpEvent s m ev) = { s with regs := r, frzReq := q } := by
  unfold mpEvent
  refine counters_fold s _ _ (fun t k => ?_)
  split
  · exact bumpCnt_eq t _ _ _ _ _
  · exact ⟨t.regs, t.frzReq, rfl⟩

@[simp] theorem mpEvent_dft (m ev : Nat) : (mpEvent s m ev).dft = s.dft := by obtain ⟨_, _, h⟩ := mpEvent_eq s m ev; rw [h]
@[simp] theorem mpEvent_vaux (m ev : Nat) : (mpEvent s m ev).vaux = s.vaux := by obtain ⟨_, _, h⟩ := mpEvent_eq s m ev; rw [h]
@[simp] theorem mpEvent_portUp (m ev : Nat) : (mpEvent s m ev).portUp = s.portUp := by obtain ⟨_, _, h⟩ := mpEvent_eq s m ev; rw [h]
@[simp] theorem mpEvent_coreUp (m ev : Nat) : (mpEvent s m ev).coreUp = s.coreUp := by obtain ⟨_, _, h⟩ := mpEvent_eq s m ev; rw [h]
@[simp] theorem mpEvent_coldRst (m ev : Nat) : (mpEvent s m ev).coldRst = s.coldRst := by obtain ⟨_, _, h⟩ := mpEvent_eq s m ev; rw [h]
@[simp] theorem mpEvent_warmRst (m ev : Nat) : (mpEvent s m ev).warmRst = s.warmRst := by obtain ⟨_, _, h⟩ := mpEvent_eq s m ev; rw [h]
@[simp] theorem mpEvent_freezeIn (m ev : Nat) : (mpEvent s m ev).freezeIn = s.freezeIn := by obtain ⟨_, _, h⟩ := mpEvent_eq s m ev; rw [h]
@[simp] theorem mpEvent_wakeIn (m ev : Nat) : (mpEvent s m ev).wakeIn = s.wakeIn := by obtain ⟨_, _, h⟩ := mpEvent_eq s m ev; rw [h]
@[simp] theorem mpEvent_hiLatch (m ev : Nat) : (mpEvent s m ev).hiLatch = s.hiLatch := by obtain ⟨_, _, h⟩ := mpEvent_eq s m ev; rw [h]
@[simp] theorem mpEvent_wrHold (m ev : Nat) : (mpEvent s m ev).wrHold = s.wrHold := by obtain ⟨_, _, h⟩ := mpEvent_eq s m ev; rw [h]
@[simp] theorem mpEvent_rdata (m ev : Nat) : (mpEvent s m ev).rdata = s.rdata := by obtain ⟨_, _, h⟩ := mpEvent_eq s m ev; rw [h]
@[simp] theorem mpEvent_now (m ev : Nat) : (mpEvent s m ev).now = s.now := by obtain ⟨_, _, h⟩ := mpEvent_eq s m ev; rw [h]
@[simp] theorem mpEvent_lehrNow (m ev : Nat) : (mpEvent s m ev).lehrNow = s.lehrNow := by obtain ⟨_, _, h⟩ := mpEvent_eq s m ev; rw [h]
@[simp] theorem mpEvent_port (m ev : Nat) : (mpEvent s m ev).port = s.port := by obtain ⟨_, _, h⟩ := mpEvent_eq s m ev; rw [h]
@[simp] theorem mpEvent_agt (m ev : Nat) : (mpEvent s m ev).agt = s.agt := by obtain ⟨_, _, h⟩ := mpEvent_eq s m ev; rw [h]
@[simp] theorem mpEvent_shadow (m ev : Nat) : (mpEvent s m ev).shadow = s.shadow := by obtain ⟨_, _, h⟩ := mpEvent_eq s m ev; rw [h]
@[simp] theorem mpEvent_sl (m ev : Nat) : (mpEvent s m ev).sl = s.sl := by obtain ⟨_, _, h⟩ := mpEvent_eq s m ev; rw [h]
@[simp] theorem mpEvent_cab (m ev : Nat) : (mpEvent s m ev).cab = s.cab := by obtain ⟨_, _, h⟩ := mpEvent_eq s m ev; rw [h]
@[simp] theorem mpEvent_mem (m ev : Nat) : (mpEvent s m ev).mem = s.mem := by obtain ⟨_, _, h⟩ := mpEvent_eq s m ev; rw [h]
@[simp] theorem mpEvent_integ (m ev : Nat) : (mpEvent s m ev).integ = s.integ := by obtain ⟨_, _, h⟩ := mpEvent_eq s m ev; rw [h]
@[simp] theorem mpEvent_repair (m ev : Nat) : (mpEvent s m ev).repair = s.repair := by obtain ⟨_, _, h⟩ := mpEvent_eq s m ev; rw [h]
@[simp] theorem mpEvent_govSlot (m ev : Nat) : (mpEvent s m ev).govSlot = s.govSlot := by obtain ⟨_, _, h⟩ := mpEvent_eq s m ev; rw [h]
@[simp] theorem mpEvent_govCap (m ev : Nat) : (mpEvent s m ev).govCap = s.govCap := by obtain ⟨_, _, h⟩ := mpEvent_eq s m ev; rw [h]
@[simp] theorem mpEvent_govBg (m ev : Nat) : (mpEvent s m ev).govBg = s.govBg := by obtain ⟨_, _, h⟩ := mpEvent_eq s m ev; rw [h]
@[simp] theorem mpEvent_stw (m ev : Nat) : (mpEvent s m ev).stw = s.stw := by obtain ⟨_, _, h⟩ := mpEvent_eq s m ev; rw [h]
@[simp] theorem mpEvent_hutch (m ev : Nat) : (mpEvent s m ev).hutch = s.hutch := by obtain ⟨_, _, h⟩ := mpEvent_eq s m ev; rw [h]
@[simp] theorem mpEvent_lehr (m ev : Nat) : (mpEvent s m ev).lehr = s.lehr := by obtain ⟨_, _, h⟩ := mpEvent_eq s m ev; rw [h]
@[simp] theorem mpEvent_pt (m ev : Nat) : (mpEvent s m ev).pt = s.pt := by obtain ⟨_, _, h⟩ := mpEvent_eq s m ev; rw [h]
@[simp] theorem mpEvent_start (m ev : Nat) : (mpEvent s m ev).start = s.start := by obtain ⟨_, _, h⟩ := mpEvent_eq s m ev; rw [h]
@[simp] theorem mpEvent_fault (m ev : Nat) : (mpEvent s m ev).fault = s.fault := by obtain ⟨_, _, h⟩ := mpEvent_eq s m ev; rw [h]
@[simp] theorem mpEvent_nq (m ev : Nat) : (mpEvent s m ev).nq = s.nq := by obtain ⟨_, _, h⟩ := mpEvent_eq s m ev; rw [h]
@[simp] theorem mpEvent_fb (m ev : Nat) : (mpEvent s m ev).fb = s.fb := by obtain ⟨_, _, h⟩ := mpEvent_eq s m ev; rw [h]
@[simp] theorem mpEvent_irq (m ev : Nat) : (mpEvent s m ev).irq = s.irq := by obtain ⟨_, _, h⟩ := mpEvent_eq s m ev; rw [h]
@[simp] theorem mpEvent_cmd (m ev : Nat) : (mpEvent s m ev).cmd = s.cmd := by obtain ⟨_, _, h⟩ := mpEvent_eq s m ev; rw [h]
@[simp] theorem mpEvent_sleepReady (m ev : Nat) : (mpEvent s m ev).sleepReady = s.sleepReady := by obtain ⟨_, _, h⟩ := mpEvent_eq s m ev; rw [h]
@[simp] theorem mpEvent_frzCode (m ev : Nat) : (mpEvent s m ev).frzCode = s.frzCode := by obtain ⟨_, _, h⟩ := mpEvent_eq s m ev; rw [h]
@[simp] theorem mpEvent_frzOrigin (m ev : Nat) : (mpEvent s m ev).frzOrigin = s.frzOrigin := by obtain ⟨_, _, h⟩ := mpEvent_eq s m ev; rw [h]
@[simp] theorem mpEvent_walks (m ev : Nat) : (mpEvent s m ev).walks = s.walks := by obtain ⟨_, _, h⟩ := mpEvent_eq s m ev; rw [h]
@[simp] theorem mpEvent_conf (m ev : Nat) : (mpEvent s m ev).conf = s.conf := by obtain ⟨_, _, h⟩ := mpEvent_eq s m ev; rw [h]
@[simp] theorem mpEvent_tx (m ev : Nat) : (mpEvent s m ev).tx = s.tx := by obtain ⟨_, _, h⟩ := mpEvent_eq s m ev; rw [h]
@[simp] theorem mpEvent_memTx (m ev : Nat) : (mpEvent s m ev).memTx = s.memTx := by obtain ⟨_, _, h⟩ := mpEvent_eq s m ev; rw [h]
@[simp] theorem mpEvent_ptTx (m ev : Nat) : (mpEvent s m ev).ptTx = s.ptTx := by obtain ⟨_, _, h⟩ := mpEvent_eq s m ev; rw [h]
@[simp] theorem mpEvent_work (m ev : Nat) : (mpEvent s m ev).work = s.work := by obtain ⟨_, _, h⟩ := mpEvent_eq s m ev; rw [h]
@[simp] theorem mpEvent_free (m ev : Nat) : (mpEvent s m ev).free = s.free := by obtain ⟨_, _, h⟩ := mpEvent_eq s m ev; rw [h]
@[simp] theorem mpEvent_pending (m ev : Nat) : (mpEvent s m ev).pending = s.pending := by obtain ⟨_, _, h⟩ := mpEvent_eq s m ev; rw [h]

/-- `t` differs from `s` in the registers alone. -/
theorem regs_trans {s t u : State} (h : ∃ r, t = { s with regs := r }) (k : ∃ r, u = { t with regs := r }) :
    ∃ r, u = { s with regs := r } := by
  obtain ⟨r, h⟩ := h; obtain ⟨q, k⟩ := k; exact ⟨q, by rw [k, h]⟩

theorem setFld_eq (f : Fld) (v i j : Nat) : ∃ r, s.setFld f v i j = { s with regs := r } := ⟨_, rfl⟩

theorem lcLatch_eq (a b c d e f : Fld) (i x y : Nat) (j : Bool) : ∃ r, lcLatch s a b c d e f i x y j = { s with regs := r } := by
  unfold lcLatch; split
  · exact regs_trans (regs_trans (regs_trans (regs_trans (regs_trans (setFld_eq ..) (setFld_eq ..)) (setFld_eq ..))
      (setFld_eq ..)) (setFld_eq ..)) (setFld_eq ..)
  · split
    · exact ⟨s.regs, rfl⟩
    · exact setFld_eq ..

theorem lcPass_eq (p : FPath) (c x : Nat) (b : Bool) : ∃ r, lcPass s p c x b = { s with regs := r } := by
  unfold lcPass lcRegion lcCluster lcSlice
  split
  · exact regs_trans (regs_trans (lcLatch_eq ..) (lcLatch_eq ..)) (lcLatch_eq ..)
  · exact regs_trans (lcLatch_eq ..) (lcLatch_eq ..)
  · exact lcLatch_eq ..
  · exact ⟨s.regs, rfl⟩

/-- raiseN can change regs and fault and nothing else. -/
theorem raiseN_eq (p : FPath) (c x n : Nat) (b : Bool) (d : Dom) : ∃ r e, (raiseN s p c x n b d) = { s with regs := r, fault := e } := by
  obtain ⟨r, h⟩ := lcPass_eq s p c x b
  exact ⟨r, _, by unfold raiseN; rw [h]⟩

@[simp] theorem raiseN_dft (p : FPath) (c x n : Nat) (b : Bool) (d : Dom) : (raiseN s p c x n b d).dft = s.dft := by obtain ⟨_, _, h⟩ := raiseN_eq s p c x n b d; rw [h]
@[simp] theorem raiseN_vaux (p : FPath) (c x n : Nat) (b : Bool) (d : Dom) : (raiseN s p c x n b d).vaux = s.vaux := by obtain ⟨_, _, h⟩ := raiseN_eq s p c x n b d; rw [h]
@[simp] theorem raiseN_portUp (p : FPath) (c x n : Nat) (b : Bool) (d : Dom) : (raiseN s p c x n b d).portUp = s.portUp := by obtain ⟨_, _, h⟩ := raiseN_eq s p c x n b d; rw [h]
@[simp] theorem raiseN_coreUp (p : FPath) (c x n : Nat) (b : Bool) (d : Dom) : (raiseN s p c x n b d).coreUp = s.coreUp := by obtain ⟨_, _, h⟩ := raiseN_eq s p c x n b d; rw [h]
@[simp] theorem raiseN_coldRst (p : FPath) (c x n : Nat) (b : Bool) (d : Dom) : (raiseN s p c x n b d).coldRst = s.coldRst := by obtain ⟨_, _, h⟩ := raiseN_eq s p c x n b d; rw [h]
@[simp] theorem raiseN_warmRst (p : FPath) (c x n : Nat) (b : Bool) (d : Dom) : (raiseN s p c x n b d).warmRst = s.warmRst := by obtain ⟨_, _, h⟩ := raiseN_eq s p c x n b d; rw [h]
@[simp] theorem raiseN_freezeIn (p : FPath) (c x n : Nat) (b : Bool) (d : Dom) : (raiseN s p c x n b d).freezeIn = s.freezeIn := by obtain ⟨_, _, h⟩ := raiseN_eq s p c x n b d; rw [h]
@[simp] theorem raiseN_wakeIn (p : FPath) (c x n : Nat) (b : Bool) (d : Dom) : (raiseN s p c x n b d).wakeIn = s.wakeIn := by obtain ⟨_, _, h⟩ := raiseN_eq s p c x n b d; rw [h]
@[simp] theorem raiseN_hiLatch (p : FPath) (c x n : Nat) (b : Bool) (d : Dom) : (raiseN s p c x n b d).hiLatch = s.hiLatch := by obtain ⟨_, _, h⟩ := raiseN_eq s p c x n b d; rw [h]
@[simp] theorem raiseN_wrHold (p : FPath) (c x n : Nat) (b : Bool) (d : Dom) : (raiseN s p c x n b d).wrHold = s.wrHold := by obtain ⟨_, _, h⟩ := raiseN_eq s p c x n b d; rw [h]
@[simp] theorem raiseN_rdata (p : FPath) (c x n : Nat) (b : Bool) (d : Dom) : (raiseN s p c x n b d).rdata = s.rdata := by obtain ⟨_, _, h⟩ := raiseN_eq s p c x n b d; rw [h]
@[simp] theorem raiseN_now (p : FPath) (c x n : Nat) (b : Bool) (d : Dom) : (raiseN s p c x n b d).now = s.now := by obtain ⟨_, _, h⟩ := raiseN_eq s p c x n b d; rw [h]
@[simp] theorem raiseN_lehrNow (p : FPath) (c x n : Nat) (b : Bool) (d : Dom) : (raiseN s p c x n b d).lehrNow = s.lehrNow := by obtain ⟨_, _, h⟩ := raiseN_eq s p c x n b d; rw [h]
@[simp] theorem raiseN_port (p : FPath) (c x n : Nat) (b : Bool) (d : Dom) : (raiseN s p c x n b d).port = s.port := by obtain ⟨_, _, h⟩ := raiseN_eq s p c x n b d; rw [h]
@[simp] theorem raiseN_agt (p : FPath) (c x n : Nat) (b : Bool) (d : Dom) : (raiseN s p c x n b d).agt = s.agt := by obtain ⟨_, _, h⟩ := raiseN_eq s p c x n b d; rw [h]
@[simp] theorem raiseN_shadow (p : FPath) (c x n : Nat) (b : Bool) (d : Dom) : (raiseN s p c x n b d).shadow = s.shadow := by obtain ⟨_, _, h⟩ := raiseN_eq s p c x n b d; rw [h]
@[simp] theorem raiseN_sl (p : FPath) (c x n : Nat) (b : Bool) (d : Dom) : (raiseN s p c x n b d).sl = s.sl := by obtain ⟨_, _, h⟩ := raiseN_eq s p c x n b d; rw [h]
@[simp] theorem raiseN_cab (p : FPath) (c x n : Nat) (b : Bool) (d : Dom) : (raiseN s p c x n b d).cab = s.cab := by obtain ⟨_, _, h⟩ := raiseN_eq s p c x n b d; rw [h]
@[simp] theorem raiseN_mem (p : FPath) (c x n : Nat) (b : Bool) (d : Dom) : (raiseN s p c x n b d).mem = s.mem := by obtain ⟨_, _, h⟩ := raiseN_eq s p c x n b d; rw [h]
@[simp] theorem raiseN_integ (p : FPath) (c x n : Nat) (b : Bool) (d : Dom) : (raiseN s p c x n b d).integ = s.integ := by obtain ⟨_, _, h⟩ := raiseN_eq s p c x n b d; rw [h]
@[simp] theorem raiseN_repair (p : FPath) (c x n : Nat) (b : Bool) (d : Dom) : (raiseN s p c x n b d).repair = s.repair := by obtain ⟨_, _, h⟩ := raiseN_eq s p c x n b d; rw [h]
@[simp] theorem raiseN_govSlot (p : FPath) (c x n : Nat) (b : Bool) (d : Dom) : (raiseN s p c x n b d).govSlot = s.govSlot := by obtain ⟨_, _, h⟩ := raiseN_eq s p c x n b d; rw [h]
@[simp] theorem raiseN_govCap (p : FPath) (c x n : Nat) (b : Bool) (d : Dom) : (raiseN s p c x n b d).govCap = s.govCap := by obtain ⟨_, _, h⟩ := raiseN_eq s p c x n b d; rw [h]
@[simp] theorem raiseN_govBg (p : FPath) (c x n : Nat) (b : Bool) (d : Dom) : (raiseN s p c x n b d).govBg = s.govBg := by obtain ⟨_, _, h⟩ := raiseN_eq s p c x n b d; rw [h]
@[simp] theorem raiseN_stw (p : FPath) (c x n : Nat) (b : Bool) (d : Dom) : (raiseN s p c x n b d).stw = s.stw := by obtain ⟨_, _, h⟩ := raiseN_eq s p c x n b d; rw [h]
@[simp] theorem raiseN_hutch (p : FPath) (c x n : Nat) (b : Bool) (d : Dom) : (raiseN s p c x n b d).hutch = s.hutch := by obtain ⟨_, _, h⟩ := raiseN_eq s p c x n b d; rw [h]
@[simp] theorem raiseN_lehr (p : FPath) (c x n : Nat) (b : Bool) (d : Dom) : (raiseN s p c x n b d).lehr = s.lehr := by obtain ⟨_, _, h⟩ := raiseN_eq s p c x n b d; rw [h]
@[simp] theorem raiseN_pt (p : FPath) (c x n : Nat) (b : Bool) (d : Dom) : (raiseN s p c x n b d).pt = s.pt := by obtain ⟨_, _, h⟩ := raiseN_eq s p c x n b d; rw [h]
@[simp] theorem raiseN_start (p : FPath) (c x n : Nat) (b : Bool) (d : Dom) : (raiseN s p c x n b d).start = s.start := by obtain ⟨_, _, h⟩ := raiseN_eq s p c x n b d; rw [h]
@[simp] theorem raiseN_nq (p : FPath) (c x n : Nat) (b : Bool) (d : Dom) : (raiseN s p c x n b d).nq = s.nq := by obtain ⟨_, _, h⟩ := raiseN_eq s p c x n b d; rw [h]
@[simp] theorem raiseN_fb (p : FPath) (c x n : Nat) (b : Bool) (d : Dom) : (raiseN s p c x n b d).fb = s.fb := by obtain ⟨_, _, h⟩ := raiseN_eq s p c x n b d; rw [h]
@[simp] theorem raiseN_irq (p : FPath) (c x n : Nat) (b : Bool) (d : Dom) : (raiseN s p c x n b d).irq = s.irq := by obtain ⟨_, _, h⟩ := raiseN_eq s p c x n b d; rw [h]
@[simp] theorem raiseN_cmd (p : FPath) (c x n : Nat) (b : Bool) (d : Dom) : (raiseN s p c x n b d).cmd = s.cmd := by obtain ⟨_, _, h⟩ := raiseN_eq s p c x n b d; rw [h]
@[simp] theorem raiseN_sleepReady (p : FPath) (c x n : Nat) (b : Bool) (d : Dom) : (raiseN s p c x n b d).sleepReady = s.sleepReady := by obtain ⟨_, _, h⟩ := raiseN_eq s p c x n b d; rw [h]
@[simp] theorem raiseN_frzReq (p : FPath) (c x n : Nat) (b : Bool) (d : Dom) : (raiseN s p c x n b d).frzReq = s.frzReq := by obtain ⟨_, _, h⟩ := raiseN_eq s p c x n b d; rw [h]
@[simp] theorem raiseN_frzCode (p : FPath) (c x n : Nat) (b : Bool) (d : Dom) : (raiseN s p c x n b d).frzCode = s.frzCode := by obtain ⟨_, _, h⟩ := raiseN_eq s p c x n b d; rw [h]
@[simp] theorem raiseN_frzOrigin (p : FPath) (c x n : Nat) (b : Bool) (d : Dom) : (raiseN s p c x n b d).frzOrigin = s.frzOrigin := by obtain ⟨_, _, h⟩ := raiseN_eq s p c x n b d; rw [h]
@[simp] theorem raiseN_walks (p : FPath) (c x n : Nat) (b : Bool) (d : Dom) : (raiseN s p c x n b d).walks = s.walks := by obtain ⟨_, _, h⟩ := raiseN_eq s p c x n b d; rw [h]
@[simp] theorem raiseN_conf (p : FPath) (c x n : Nat) (b : Bool) (d : Dom) : (raiseN s p c x n b d).conf = s.conf := by obtain ⟨_, _, h⟩ := raiseN_eq s p c x n b d; rw [h]
@[simp] theorem raiseN_tx (p : FPath) (c x n : Nat) (b : Bool) (d : Dom) : (raiseN s p c x n b d).tx = s.tx := by obtain ⟨_, _, h⟩ := raiseN_eq s p c x n b d; rw [h]
@[simp] theorem raiseN_memTx (p : FPath) (c x n : Nat) (b : Bool) (d : Dom) : (raiseN s p c x n b d).memTx = s.memTx := by obtain ⟨_, _, h⟩ := raiseN_eq s p c x n b d; rw [h]
@[simp] theorem raiseN_ptTx (p : FPath) (c x n : Nat) (b : Bool) (d : Dom) : (raiseN s p c x n b d).ptTx = s.ptTx := by obtain ⟨_, _, h⟩ := raiseN_eq s p c x n b d; rw [h]
@[simp] theorem raiseN_work (p : FPath) (c x n : Nat) (b : Bool) (d : Dom) : (raiseN s p c x n b d).work = s.work := by obtain ⟨_, _, h⟩ := raiseN_eq s p c x n b d; rw [h]
@[simp] theorem raiseN_free (p : FPath) (c x n : Nat) (b : Bool) (d : Dom) : (raiseN s p c x n b d).free = s.free := by obtain ⟨_, _, h⟩ := raiseN_eq s p c x n b d; rw [h]
@[simp] theorem raiseN_pending (p : FPath) (c x n : Nat) (b : Bool) (d : Dom) : (raiseN s p c x n b d).pending = s.pending := by obtain ⟨_, _, h⟩ := raiseN_eq s p c x n b d; rw [h]

/-- raiseSlice can change regs and fault and nothing else. -/
theorem raiseSlice_eq (n c x : Nat) : ∃ r e, (raiseSlice s n c x) = { s with regs := r, fault := e } := by
  exact raiseN_eq s _ _ _ _ _ _

@[simp] theorem raiseSlice_dft (n c x : Nat) : (raiseSlice s n c x).dft = s.dft := by obtain ⟨_, _, h⟩ := raiseSlice_eq s n c x; rw [h]
@[simp] theorem raiseSlice_vaux (n c x : Nat) : (raiseSlice s n c x).vaux = s.vaux := by obtain ⟨_, _, h⟩ := raiseSlice_eq s n c x; rw [h]
@[simp] theorem raiseSlice_portUp (n c x : Nat) : (raiseSlice s n c x).portUp = s.portUp := by obtain ⟨_, _, h⟩ := raiseSlice_eq s n c x; rw [h]
@[simp] theorem raiseSlice_coreUp (n c x : Nat) : (raiseSlice s n c x).coreUp = s.coreUp := by obtain ⟨_, _, h⟩ := raiseSlice_eq s n c x; rw [h]
@[simp] theorem raiseSlice_coldRst (n c x : Nat) : (raiseSlice s n c x).coldRst = s.coldRst := by obtain ⟨_, _, h⟩ := raiseSlice_eq s n c x; rw [h]
@[simp] theorem raiseSlice_warmRst (n c x : Nat) : (raiseSlice s n c x).warmRst = s.warmRst := by obtain ⟨_, _, h⟩ := raiseSlice_eq s n c x; rw [h]
@[simp] theorem raiseSlice_freezeIn (n c x : Nat) : (raiseSlice s n c x).freezeIn = s.freezeIn := by obtain ⟨_, _, h⟩ := raiseSlice_eq s n c x; rw [h]
@[simp] theorem raiseSlice_wakeIn (n c x : Nat) : (raiseSlice s n c x).wakeIn = s.wakeIn := by obtain ⟨_, _, h⟩ := raiseSlice_eq s n c x; rw [h]
@[simp] theorem raiseSlice_hiLatch (n c x : Nat) : (raiseSlice s n c x).hiLatch = s.hiLatch := by obtain ⟨_, _, h⟩ := raiseSlice_eq s n c x; rw [h]
@[simp] theorem raiseSlice_wrHold (n c x : Nat) : (raiseSlice s n c x).wrHold = s.wrHold := by obtain ⟨_, _, h⟩ := raiseSlice_eq s n c x; rw [h]
@[simp] theorem raiseSlice_rdata (n c x : Nat) : (raiseSlice s n c x).rdata = s.rdata := by obtain ⟨_, _, h⟩ := raiseSlice_eq s n c x; rw [h]
@[simp] theorem raiseSlice_now (n c x : Nat) : (raiseSlice s n c x).now = s.now := by obtain ⟨_, _, h⟩ := raiseSlice_eq s n c x; rw [h]
@[simp] theorem raiseSlice_lehrNow (n c x : Nat) : (raiseSlice s n c x).lehrNow = s.lehrNow := by obtain ⟨_, _, h⟩ := raiseSlice_eq s n c x; rw [h]
@[simp] theorem raiseSlice_port (n c x : Nat) : (raiseSlice s n c x).port = s.port := by obtain ⟨_, _, h⟩ := raiseSlice_eq s n c x; rw [h]
@[simp] theorem raiseSlice_agt (n c x : Nat) : (raiseSlice s n c x).agt = s.agt := by obtain ⟨_, _, h⟩ := raiseSlice_eq s n c x; rw [h]
@[simp] theorem raiseSlice_shadow (n c x : Nat) : (raiseSlice s n c x).shadow = s.shadow := by obtain ⟨_, _, h⟩ := raiseSlice_eq s n c x; rw [h]
@[simp] theorem raiseSlice_sl (n c x : Nat) : (raiseSlice s n c x).sl = s.sl := by obtain ⟨_, _, h⟩ := raiseSlice_eq s n c x; rw [h]
@[simp] theorem raiseSlice_cab (n c x : Nat) : (raiseSlice s n c x).cab = s.cab := by obtain ⟨_, _, h⟩ := raiseSlice_eq s n c x; rw [h]
@[simp] theorem raiseSlice_mem (n c x : Nat) : (raiseSlice s n c x).mem = s.mem := by obtain ⟨_, _, h⟩ := raiseSlice_eq s n c x; rw [h]
@[simp] theorem raiseSlice_integ (n c x : Nat) : (raiseSlice s n c x).integ = s.integ := by obtain ⟨_, _, h⟩ := raiseSlice_eq s n c x; rw [h]
@[simp] theorem raiseSlice_repair (n c x : Nat) : (raiseSlice s n c x).repair = s.repair := by obtain ⟨_, _, h⟩ := raiseSlice_eq s n c x; rw [h]
@[simp] theorem raiseSlice_govSlot (n c x : Nat) : (raiseSlice s n c x).govSlot = s.govSlot := by obtain ⟨_, _, h⟩ := raiseSlice_eq s n c x; rw [h]
@[simp] theorem raiseSlice_govCap (n c x : Nat) : (raiseSlice s n c x).govCap = s.govCap := by obtain ⟨_, _, h⟩ := raiseSlice_eq s n c x; rw [h]
@[simp] theorem raiseSlice_govBg (n c x : Nat) : (raiseSlice s n c x).govBg = s.govBg := by obtain ⟨_, _, h⟩ := raiseSlice_eq s n c x; rw [h]
@[simp] theorem raiseSlice_stw (n c x : Nat) : (raiseSlice s n c x).stw = s.stw := by obtain ⟨_, _, h⟩ := raiseSlice_eq s n c x; rw [h]
@[simp] theorem raiseSlice_hutch (n c x : Nat) : (raiseSlice s n c x).hutch = s.hutch := by obtain ⟨_, _, h⟩ := raiseSlice_eq s n c x; rw [h]
@[simp] theorem raiseSlice_lehr (n c x : Nat) : (raiseSlice s n c x).lehr = s.lehr := by obtain ⟨_, _, h⟩ := raiseSlice_eq s n c x; rw [h]
@[simp] theorem raiseSlice_pt (n c x : Nat) : (raiseSlice s n c x).pt = s.pt := by obtain ⟨_, _, h⟩ := raiseSlice_eq s n c x; rw [h]
@[simp] theorem raiseSlice_start (n c x : Nat) : (raiseSlice s n c x).start = s.start := by obtain ⟨_, _, h⟩ := raiseSlice_eq s n c x; rw [h]
@[simp] theorem raiseSlice_nq (n c x : Nat) : (raiseSlice s n c x).nq = s.nq := by obtain ⟨_, _, h⟩ := raiseSlice_eq s n c x; rw [h]
@[simp] theorem raiseSlice_fb (n c x : Nat) : (raiseSlice s n c x).fb = s.fb := by obtain ⟨_, _, h⟩ := raiseSlice_eq s n c x; rw [h]
@[simp] theorem raiseSlice_irq (n c x : Nat) : (raiseSlice s n c x).irq = s.irq := by obtain ⟨_, _, h⟩ := raiseSlice_eq s n c x; rw [h]
@[simp] theorem raiseSlice_cmd (n c x : Nat) : (raiseSlice s n c x).cmd = s.cmd := by obtain ⟨_, _, h⟩ := raiseSlice_eq s n c x; rw [h]
@[simp] theorem raiseSlice_sleepReady (n c x : Nat) : (raiseSlice s n c x).sleepReady = s.sleepReady := by obtain ⟨_, _, h⟩ := raiseSlice_eq s n c x; rw [h]
@[simp] theorem raiseSlice_frzReq (n c x : Nat) : (raiseSlice s n c x).frzReq = s.frzReq := by obtain ⟨_, _, h⟩ := raiseSlice_eq s n c x; rw [h]
@[simp] theorem raiseSlice_frzCode (n c x : Nat) : (raiseSlice s n c x).frzCode = s.frzCode := by obtain ⟨_, _, h⟩ := raiseSlice_eq s n c x; rw [h]
@[simp] theorem raiseSlice_frzOrigin (n c x : Nat) : (raiseSlice s n c x).frzOrigin = s.frzOrigin := by obtain ⟨_, _, h⟩ := raiseSlice_eq s n c x; rw [h]
@[simp] theorem raiseSlice_walks (n c x : Nat) : (raiseSlice s n c x).walks = s.walks := by obtain ⟨_, _, h⟩ := raiseSlice_eq s n c x; rw [h]
@[simp] theorem raiseSlice_conf (n c x : Nat) : (raiseSlice s n c x).conf = s.conf := by obtain ⟨_, _, h⟩ := raiseSlice_eq s n c x; rw [h]
@[simp] theorem raiseSlice_tx (n c x : Nat) : (raiseSlice s n c x).tx = s.tx := by obtain ⟨_, _, h⟩ := raiseSlice_eq s n c x; rw [h]
@[simp] theorem raiseSlice_memTx (n c x : Nat) : (raiseSlice s n c x).memTx = s.memTx := by obtain ⟨_, _, h⟩ := raiseSlice_eq s n c x; rw [h]
@[simp] theorem raiseSlice_ptTx (n c x : Nat) : (raiseSlice s n c x).ptTx = s.ptTx := by obtain ⟨_, _, h⟩ := raiseSlice_eq s n c x; rw [h]
@[simp] theorem raiseSlice_work (n c x : Nat) : (raiseSlice s n c x).work = s.work := by obtain ⟨_, _, h⟩ := raiseSlice_eq s n c x; rw [h]
@[simp] theorem raiseSlice_free (n c x : Nat) : (raiseSlice s n c x).free = s.free := by obtain ⟨_, _, h⟩ := raiseSlice_eq s n c x; rw [h]
@[simp] theorem raiseSlice_pending (n c x : Nat) : (raiseSlice s n c x).pending = s.pending := by obtain ⟨_, _, h⟩ := raiseSlice_eq s n c x; rw [h]

/-- raiseCluster can change regs and fault and nothing else. -/
theorem raiseCluster_eq (n c x : Nat) : ∃ r e, (raiseCluster s n c x) = { s with regs := r, fault := e } := by
  exact raiseN_eq s _ _ _ _ _ _

@[simp] theorem raiseCluster_dft (n c x : Nat) : (raiseCluster s n c x).dft = s.dft := by obtain ⟨_, _, h⟩ := raiseCluster_eq s n c x; rw [h]
@[simp] theorem raiseCluster_vaux (n c x : Nat) : (raiseCluster s n c x).vaux = s.vaux := by obtain ⟨_, _, h⟩ := raiseCluster_eq s n c x; rw [h]
@[simp] theorem raiseCluster_portUp (n c x : Nat) : (raiseCluster s n c x).portUp = s.portUp := by obtain ⟨_, _, h⟩ := raiseCluster_eq s n c x; rw [h]
@[simp] theorem raiseCluster_coreUp (n c x : Nat) : (raiseCluster s n c x).coreUp = s.coreUp := by obtain ⟨_, _, h⟩ := raiseCluster_eq s n c x; rw [h]
@[simp] theorem raiseCluster_coldRst (n c x : Nat) : (raiseCluster s n c x).coldRst = s.coldRst := by obtain ⟨_, _, h⟩ := raiseCluster_eq s n c x; rw [h]
@[simp] theorem raiseCluster_warmRst (n c x : Nat) : (raiseCluster s n c x).warmRst = s.warmRst := by obtain ⟨_, _, h⟩ := raiseCluster_eq s n c x; rw [h]
@[simp] theorem raiseCluster_freezeIn (n c x : Nat) : (raiseCluster s n c x).freezeIn = s.freezeIn := by obtain ⟨_, _, h⟩ := raiseCluster_eq s n c x; rw [h]
@[simp] theorem raiseCluster_wakeIn (n c x : Nat) : (raiseCluster s n c x).wakeIn = s.wakeIn := by obtain ⟨_, _, h⟩ := raiseCluster_eq s n c x; rw [h]
@[simp] theorem raiseCluster_hiLatch (n c x : Nat) : (raiseCluster s n c x).hiLatch = s.hiLatch := by obtain ⟨_, _, h⟩ := raiseCluster_eq s n c x; rw [h]
@[simp] theorem raiseCluster_wrHold (n c x : Nat) : (raiseCluster s n c x).wrHold = s.wrHold := by obtain ⟨_, _, h⟩ := raiseCluster_eq s n c x; rw [h]
@[simp] theorem raiseCluster_rdata (n c x : Nat) : (raiseCluster s n c x).rdata = s.rdata := by obtain ⟨_, _, h⟩ := raiseCluster_eq s n c x; rw [h]
@[simp] theorem raiseCluster_now (n c x : Nat) : (raiseCluster s n c x).now = s.now := by obtain ⟨_, _, h⟩ := raiseCluster_eq s n c x; rw [h]
@[simp] theorem raiseCluster_lehrNow (n c x : Nat) : (raiseCluster s n c x).lehrNow = s.lehrNow := by obtain ⟨_, _, h⟩ := raiseCluster_eq s n c x; rw [h]
@[simp] theorem raiseCluster_port (n c x : Nat) : (raiseCluster s n c x).port = s.port := by obtain ⟨_, _, h⟩ := raiseCluster_eq s n c x; rw [h]
@[simp] theorem raiseCluster_agt (n c x : Nat) : (raiseCluster s n c x).agt = s.agt := by obtain ⟨_, _, h⟩ := raiseCluster_eq s n c x; rw [h]
@[simp] theorem raiseCluster_shadow (n c x : Nat) : (raiseCluster s n c x).shadow = s.shadow := by obtain ⟨_, _, h⟩ := raiseCluster_eq s n c x; rw [h]
@[simp] theorem raiseCluster_sl (n c x : Nat) : (raiseCluster s n c x).sl = s.sl := by obtain ⟨_, _, h⟩ := raiseCluster_eq s n c x; rw [h]
@[simp] theorem raiseCluster_cab (n c x : Nat) : (raiseCluster s n c x).cab = s.cab := by obtain ⟨_, _, h⟩ := raiseCluster_eq s n c x; rw [h]
@[simp] theorem raiseCluster_mem (n c x : Nat) : (raiseCluster s n c x).mem = s.mem := by obtain ⟨_, _, h⟩ := raiseCluster_eq s n c x; rw [h]
@[simp] theorem raiseCluster_integ (n c x : Nat) : (raiseCluster s n c x).integ = s.integ := by obtain ⟨_, _, h⟩ := raiseCluster_eq s n c x; rw [h]
@[simp] theorem raiseCluster_repair (n c x : Nat) : (raiseCluster s n c x).repair = s.repair := by obtain ⟨_, _, h⟩ := raiseCluster_eq s n c x; rw [h]
@[simp] theorem raiseCluster_govSlot (n c x : Nat) : (raiseCluster s n c x).govSlot = s.govSlot := by obtain ⟨_, _, h⟩ := raiseCluster_eq s n c x; rw [h]
@[simp] theorem raiseCluster_govCap (n c x : Nat) : (raiseCluster s n c x).govCap = s.govCap := by obtain ⟨_, _, h⟩ := raiseCluster_eq s n c x; rw [h]
@[simp] theorem raiseCluster_govBg (n c x : Nat) : (raiseCluster s n c x).govBg = s.govBg := by obtain ⟨_, _, h⟩ := raiseCluster_eq s n c x; rw [h]
@[simp] theorem raiseCluster_stw (n c x : Nat) : (raiseCluster s n c x).stw = s.stw := by obtain ⟨_, _, h⟩ := raiseCluster_eq s n c x; rw [h]
@[simp] theorem raiseCluster_hutch (n c x : Nat) : (raiseCluster s n c x).hutch = s.hutch := by obtain ⟨_, _, h⟩ := raiseCluster_eq s n c x; rw [h]
@[simp] theorem raiseCluster_lehr (n c x : Nat) : (raiseCluster s n c x).lehr = s.lehr := by obtain ⟨_, _, h⟩ := raiseCluster_eq s n c x; rw [h]
@[simp] theorem raiseCluster_pt (n c x : Nat) : (raiseCluster s n c x).pt = s.pt := by obtain ⟨_, _, h⟩ := raiseCluster_eq s n c x; rw [h]
@[simp] theorem raiseCluster_start (n c x : Nat) : (raiseCluster s n c x).start = s.start := by obtain ⟨_, _, h⟩ := raiseCluster_eq s n c x; rw [h]
@[simp] theorem raiseCluster_nq (n c x : Nat) : (raiseCluster s n c x).nq = s.nq := by obtain ⟨_, _, h⟩ := raiseCluster_eq s n c x; rw [h]
@[simp] theorem raiseCluster_fb (n c x : Nat) : (raiseCluster s n c x).fb = s.fb := by obtain ⟨_, _, h⟩ := raiseCluster_eq s n c x; rw [h]
@[simp] theorem raiseCluster_irq (n c x : Nat) : (raiseCluster s n c x).irq = s.irq := by obtain ⟨_, _, h⟩ := raiseCluster_eq s n c x; rw [h]
@[simp] theorem raiseCluster_cmd (n c x : Nat) : (raiseCluster s n c x).cmd = s.cmd := by obtain ⟨_, _, h⟩ := raiseCluster_eq s n c x; rw [h]
@[simp] theorem raiseCluster_sleepReady (n c x : Nat) : (raiseCluster s n c x).sleepReady = s.sleepReady := by obtain ⟨_, _, h⟩ := raiseCluster_eq s n c x; rw [h]
@[simp] theorem raiseCluster_frzReq (n c x : Nat) : (raiseCluster s n c x).frzReq = s.frzReq := by obtain ⟨_, _, h⟩ := raiseCluster_eq s n c x; rw [h]
@[simp] theorem raiseCluster_frzCode (n c x : Nat) : (raiseCluster s n c x).frzCode = s.frzCode := by obtain ⟨_, _, h⟩ := raiseCluster_eq s n c x; rw [h]
@[simp] theorem raiseCluster_frzOrigin (n c x : Nat) : (raiseCluster s n c x).frzOrigin = s.frzOrigin := by obtain ⟨_, _, h⟩ := raiseCluster_eq s n c x; rw [h]
@[simp] theorem raiseCluster_walks (n c x : Nat) : (raiseCluster s n c x).walks = s.walks := by obtain ⟨_, _, h⟩ := raiseCluster_eq s n c x; rw [h]
@[simp] theorem raiseCluster_conf (n c x : Nat) : (raiseCluster s n c x).conf = s.conf := by obtain ⟨_, _, h⟩ := raiseCluster_eq s n c x; rw [h]
@[simp] theorem raiseCluster_tx (n c x : Nat) : (raiseCluster s n c x).tx = s.tx := by obtain ⟨_, _, h⟩ := raiseCluster_eq s n c x; rw [h]
@[simp] theorem raiseCluster_memTx (n c x : Nat) : (raiseCluster s n c x).memTx = s.memTx := by obtain ⟨_, _, h⟩ := raiseCluster_eq s n c x; rw [h]
@[simp] theorem raiseCluster_ptTx (n c x : Nat) : (raiseCluster s n c x).ptTx = s.ptTx := by obtain ⟨_, _, h⟩ := raiseCluster_eq s n c x; rw [h]
@[simp] theorem raiseCluster_work (n c x : Nat) : (raiseCluster s n c x).work = s.work := by obtain ⟨_, _, h⟩ := raiseCluster_eq s n c x; rw [h]
@[simp] theorem raiseCluster_free (n c x : Nat) : (raiseCluster s n c x).free = s.free := by obtain ⟨_, _, h⟩ := raiseCluster_eq s n c x; rw [h]
@[simp] theorem raiseCluster_pending (n c x : Nat) : (raiseCluster s n c x).pending = s.pending := by obtain ⟨_, _, h⟩ := raiseCluster_eq s n c x; rw [h]

/-- raiseRegion can change regs and fault and nothing else. -/
theorem raiseRegion_eq (n c x : Nat) : ∃ r e, (raiseRegion s n c x) = { s with regs := r, fault := e } := by
  exact raiseN_eq s _ _ _ _ _ _

@[simp] theorem raiseRegion_dft (n c x : Nat) : (raiseRegion s n c x).dft = s.dft := by obtain ⟨_, _, h⟩ := raiseRegion_eq s n c x; rw [h]
@[simp] theorem raiseRegion_vaux (n c x : Nat) : (raiseRegion s n c x).vaux = s.vaux := by obtain ⟨_, _, h⟩ := raiseRegion_eq s n c x; rw [h]
@[simp] theorem raiseRegion_portUp (n c x : Nat) : (raiseRegion s n c x).portUp = s.portUp := by obtain ⟨_, _, h⟩ := raiseRegion_eq s n c x; rw [h]
@[simp] theorem raiseRegion_coreUp (n c x : Nat) : (raiseRegion s n c x).coreUp = s.coreUp := by obtain ⟨_, _, h⟩ := raiseRegion_eq s n c x; rw [h]
@[simp] theorem raiseRegion_coldRst (n c x : Nat) : (raiseRegion s n c x).coldRst = s.coldRst := by obtain ⟨_, _, h⟩ := raiseRegion_eq s n c x; rw [h]
@[simp] theorem raiseRegion_warmRst (n c x : Nat) : (raiseRegion s n c x).warmRst = s.warmRst := by obtain ⟨_, _, h⟩ := raiseRegion_eq s n c x; rw [h]
@[simp] theorem raiseRegion_freezeIn (n c x : Nat) : (raiseRegion s n c x).freezeIn = s.freezeIn := by obtain ⟨_, _, h⟩ := raiseRegion_eq s n c x; rw [h]
@[simp] theorem raiseRegion_wakeIn (n c x : Nat) : (raiseRegion s n c x).wakeIn = s.wakeIn := by obtain ⟨_, _, h⟩ := raiseRegion_eq s n c x; rw [h]
@[simp] theorem raiseRegion_hiLatch (n c x : Nat) : (raiseRegion s n c x).hiLatch = s.hiLatch := by obtain ⟨_, _, h⟩ := raiseRegion_eq s n c x; rw [h]
@[simp] theorem raiseRegion_wrHold (n c x : Nat) : (raiseRegion s n c x).wrHold = s.wrHold := by obtain ⟨_, _, h⟩ := raiseRegion_eq s n c x; rw [h]
@[simp] theorem raiseRegion_rdata (n c x : Nat) : (raiseRegion s n c x).rdata = s.rdata := by obtain ⟨_, _, h⟩ := raiseRegion_eq s n c x; rw [h]
@[simp] theorem raiseRegion_now (n c x : Nat) : (raiseRegion s n c x).now = s.now := by obtain ⟨_, _, h⟩ := raiseRegion_eq s n c x; rw [h]
@[simp] theorem raiseRegion_lehrNow (n c x : Nat) : (raiseRegion s n c x).lehrNow = s.lehrNow := by obtain ⟨_, _, h⟩ := raiseRegion_eq s n c x; rw [h]
@[simp] theorem raiseRegion_port (n c x : Nat) : (raiseRegion s n c x).port = s.port := by obtain ⟨_, _, h⟩ := raiseRegion_eq s n c x; rw [h]
@[simp] theorem raiseRegion_agt (n c x : Nat) : (raiseRegion s n c x).agt = s.agt := by obtain ⟨_, _, h⟩ := raiseRegion_eq s n c x; rw [h]
@[simp] theorem raiseRegion_shadow (n c x : Nat) : (raiseRegion s n c x).shadow = s.shadow := by obtain ⟨_, _, h⟩ := raiseRegion_eq s n c x; rw [h]
@[simp] theorem raiseRegion_sl (n c x : Nat) : (raiseRegion s n c x).sl = s.sl := by obtain ⟨_, _, h⟩ := raiseRegion_eq s n c x; rw [h]
@[simp] theorem raiseRegion_cab (n c x : Nat) : (raiseRegion s n c x).cab = s.cab := by obtain ⟨_, _, h⟩ := raiseRegion_eq s n c x; rw [h]
@[simp] theorem raiseRegion_mem (n c x : Nat) : (raiseRegion s n c x).mem = s.mem := by obtain ⟨_, _, h⟩ := raiseRegion_eq s n c x; rw [h]
@[simp] theorem raiseRegion_integ (n c x : Nat) : (raiseRegion s n c x).integ = s.integ := by obtain ⟨_, _, h⟩ := raiseRegion_eq s n c x; rw [h]
@[simp] theorem raiseRegion_repair (n c x : Nat) : (raiseRegion s n c x).repair = s.repair := by obtain ⟨_, _, h⟩ := raiseRegion_eq s n c x; rw [h]
@[simp] theorem raiseRegion_govSlot (n c x : Nat) : (raiseRegion s n c x).govSlot = s.govSlot := by obtain ⟨_, _, h⟩ := raiseRegion_eq s n c x; rw [h]
@[simp] theorem raiseRegion_govCap (n c x : Nat) : (raiseRegion s n c x).govCap = s.govCap := by obtain ⟨_, _, h⟩ := raiseRegion_eq s n c x; rw [h]
@[simp] theorem raiseRegion_govBg (n c x : Nat) : (raiseRegion s n c x).govBg = s.govBg := by obtain ⟨_, _, h⟩ := raiseRegion_eq s n c x; rw [h]
@[simp] theorem raiseRegion_stw (n c x : Nat) : (raiseRegion s n c x).stw = s.stw := by obtain ⟨_, _, h⟩ := raiseRegion_eq s n c x; rw [h]
@[simp] theorem raiseRegion_hutch (n c x : Nat) : (raiseRegion s n c x).hutch = s.hutch := by obtain ⟨_, _, h⟩ := raiseRegion_eq s n c x; rw [h]
@[simp] theorem raiseRegion_lehr (n c x : Nat) : (raiseRegion s n c x).lehr = s.lehr := by obtain ⟨_, _, h⟩ := raiseRegion_eq s n c x; rw [h]
@[simp] theorem raiseRegion_pt (n c x : Nat) : (raiseRegion s n c x).pt = s.pt := by obtain ⟨_, _, h⟩ := raiseRegion_eq s n c x; rw [h]
@[simp] theorem raiseRegion_start (n c x : Nat) : (raiseRegion s n c x).start = s.start := by obtain ⟨_, _, h⟩ := raiseRegion_eq s n c x; rw [h]
@[simp] theorem raiseRegion_nq (n c x : Nat) : (raiseRegion s n c x).nq = s.nq := by obtain ⟨_, _, h⟩ := raiseRegion_eq s n c x; rw [h]
@[simp] theorem raiseRegion_fb (n c x : Nat) : (raiseRegion s n c x).fb = s.fb := by obtain ⟨_, _, h⟩ := raiseRegion_eq s n c x; rw [h]
@[simp] theorem raiseRegion_irq (n c x : Nat) : (raiseRegion s n c x).irq = s.irq := by obtain ⟨_, _, h⟩ := raiseRegion_eq s n c x; rw [h]
@[simp] theorem raiseRegion_cmd (n c x : Nat) : (raiseRegion s n c x).cmd = s.cmd := by obtain ⟨_, _, h⟩ := raiseRegion_eq s n c x; rw [h]
@[simp] theorem raiseRegion_sleepReady (n c x : Nat) : (raiseRegion s n c x).sleepReady = s.sleepReady := by obtain ⟨_, _, h⟩ := raiseRegion_eq s n c x; rw [h]
@[simp] theorem raiseRegion_frzReq (n c x : Nat) : (raiseRegion s n c x).frzReq = s.frzReq := by obtain ⟨_, _, h⟩ := raiseRegion_eq s n c x; rw [h]
@[simp] theorem raiseRegion_frzCode (n c x : Nat) : (raiseRegion s n c x).frzCode = s.frzCode := by obtain ⟨_, _, h⟩ := raiseRegion_eq s n c x; rw [h]
@[simp] theorem raiseRegion_frzOrigin (n c x : Nat) : (raiseRegion s n c x).frzOrigin = s.frzOrigin := by obtain ⟨_, _, h⟩ := raiseRegion_eq s n c x; rw [h]
@[simp] theorem raiseRegion_walks (n c x : Nat) : (raiseRegion s n c x).walks = s.walks := by obtain ⟨_, _, h⟩ := raiseRegion_eq s n c x; rw [h]
@[simp] theorem raiseRegion_conf (n c x : Nat) : (raiseRegion s n c x).conf = s.conf := by obtain ⟨_, _, h⟩ := raiseRegion_eq s n c x; rw [h]
@[simp] theorem raiseRegion_tx (n c x : Nat) : (raiseRegion s n c x).tx = s.tx := by obtain ⟨_, _, h⟩ := raiseRegion_eq s n c x; rw [h]
@[simp] theorem raiseRegion_memTx (n c x : Nat) : (raiseRegion s n c x).memTx = s.memTx := by obtain ⟨_, _, h⟩ := raiseRegion_eq s n c x; rw [h]
@[simp] theorem raiseRegion_ptTx (n c x : Nat) : (raiseRegion s n c x).ptTx = s.ptTx := by obtain ⟨_, _, h⟩ := raiseRegion_eq s n c x; rw [h]
@[simp] theorem raiseRegion_work (n c x : Nat) : (raiseRegion s n c x).work = s.work := by obtain ⟨_, _, h⟩ := raiseRegion_eq s n c x; rw [h]
@[simp] theorem raiseRegion_free (n c x : Nat) : (raiseRegion s n c x).free = s.free := by obtain ⟨_, _, h⟩ := raiseRegion_eq s n c x; rw [h]
@[simp] theorem raiseRegion_pending (n c x : Nat) : (raiseRegion s n c x).pending = s.pending := by obtain ⟨_, _, h⟩ := raiseRegion_eq s n c x; rw [h]

/-- raiseCore can change regs and fault and nothing else. -/
theorem raiseCore_eq (c x : Nat) : ∃ r e, (raiseCore s c x) = { s with regs := r, fault := e } := by
  exact raiseN_eq s _ _ _ _ _ _

@[simp] theorem raiseCore_dft (c x : Nat) : (raiseCore s c x).dft = s.dft := by obtain ⟨_, _, h⟩ := raiseCore_eq s c x; rw [h]
@[simp] theorem raiseCore_vaux (c x : Nat) : (raiseCore s c x).vaux = s.vaux := by obtain ⟨_, _, h⟩ := raiseCore_eq s c x; rw [h]
@[simp] theorem raiseCore_portUp (c x : Nat) : (raiseCore s c x).portUp = s.portUp := by obtain ⟨_, _, h⟩ := raiseCore_eq s c x; rw [h]
@[simp] theorem raiseCore_coreUp (c x : Nat) : (raiseCore s c x).coreUp = s.coreUp := by obtain ⟨_, _, h⟩ := raiseCore_eq s c x; rw [h]
@[simp] theorem raiseCore_coldRst (c x : Nat) : (raiseCore s c x).coldRst = s.coldRst := by obtain ⟨_, _, h⟩ := raiseCore_eq s c x; rw [h]
@[simp] theorem raiseCore_warmRst (c x : Nat) : (raiseCore s c x).warmRst = s.warmRst := by obtain ⟨_, _, h⟩ := raiseCore_eq s c x; rw [h]
@[simp] theorem raiseCore_freezeIn (c x : Nat) : (raiseCore s c x).freezeIn = s.freezeIn := by obtain ⟨_, _, h⟩ := raiseCore_eq s c x; rw [h]
@[simp] theorem raiseCore_wakeIn (c x : Nat) : (raiseCore s c x).wakeIn = s.wakeIn := by obtain ⟨_, _, h⟩ := raiseCore_eq s c x; rw [h]
@[simp] theorem raiseCore_hiLatch (c x : Nat) : (raiseCore s c x).hiLatch = s.hiLatch := by obtain ⟨_, _, h⟩ := raiseCore_eq s c x; rw [h]
@[simp] theorem raiseCore_wrHold (c x : Nat) : (raiseCore s c x).wrHold = s.wrHold := by obtain ⟨_, _, h⟩ := raiseCore_eq s c x; rw [h]
@[simp] theorem raiseCore_rdata (c x : Nat) : (raiseCore s c x).rdata = s.rdata := by obtain ⟨_, _, h⟩ := raiseCore_eq s c x; rw [h]
@[simp] theorem raiseCore_now (c x : Nat) : (raiseCore s c x).now = s.now := by obtain ⟨_, _, h⟩ := raiseCore_eq s c x; rw [h]
@[simp] theorem raiseCore_lehrNow (c x : Nat) : (raiseCore s c x).lehrNow = s.lehrNow := by obtain ⟨_, _, h⟩ := raiseCore_eq s c x; rw [h]
@[simp] theorem raiseCore_port (c x : Nat) : (raiseCore s c x).port = s.port := by obtain ⟨_, _, h⟩ := raiseCore_eq s c x; rw [h]
@[simp] theorem raiseCore_agt (c x : Nat) : (raiseCore s c x).agt = s.agt := by obtain ⟨_, _, h⟩ := raiseCore_eq s c x; rw [h]
@[simp] theorem raiseCore_shadow (c x : Nat) : (raiseCore s c x).shadow = s.shadow := by obtain ⟨_, _, h⟩ := raiseCore_eq s c x; rw [h]
@[simp] theorem raiseCore_sl (c x : Nat) : (raiseCore s c x).sl = s.sl := by obtain ⟨_, _, h⟩ := raiseCore_eq s c x; rw [h]
@[simp] theorem raiseCore_cab (c x : Nat) : (raiseCore s c x).cab = s.cab := by obtain ⟨_, _, h⟩ := raiseCore_eq s c x; rw [h]
@[simp] theorem raiseCore_mem (c x : Nat) : (raiseCore s c x).mem = s.mem := by obtain ⟨_, _, h⟩ := raiseCore_eq s c x; rw [h]
@[simp] theorem raiseCore_integ (c x : Nat) : (raiseCore s c x).integ = s.integ := by obtain ⟨_, _, h⟩ := raiseCore_eq s c x; rw [h]
@[simp] theorem raiseCore_repair (c x : Nat) : (raiseCore s c x).repair = s.repair := by obtain ⟨_, _, h⟩ := raiseCore_eq s c x; rw [h]
@[simp] theorem raiseCore_govSlot (c x : Nat) : (raiseCore s c x).govSlot = s.govSlot := by obtain ⟨_, _, h⟩ := raiseCore_eq s c x; rw [h]
@[simp] theorem raiseCore_govCap (c x : Nat) : (raiseCore s c x).govCap = s.govCap := by obtain ⟨_, _, h⟩ := raiseCore_eq s c x; rw [h]
@[simp] theorem raiseCore_govBg (c x : Nat) : (raiseCore s c x).govBg = s.govBg := by obtain ⟨_, _, h⟩ := raiseCore_eq s c x; rw [h]
@[simp] theorem raiseCore_stw (c x : Nat) : (raiseCore s c x).stw = s.stw := by obtain ⟨_, _, h⟩ := raiseCore_eq s c x; rw [h]
@[simp] theorem raiseCore_hutch (c x : Nat) : (raiseCore s c x).hutch = s.hutch := by obtain ⟨_, _, h⟩ := raiseCore_eq s c x; rw [h]
@[simp] theorem raiseCore_lehr (c x : Nat) : (raiseCore s c x).lehr = s.lehr := by obtain ⟨_, _, h⟩ := raiseCore_eq s c x; rw [h]
@[simp] theorem raiseCore_pt (c x : Nat) : (raiseCore s c x).pt = s.pt := by obtain ⟨_, _, h⟩ := raiseCore_eq s c x; rw [h]
@[simp] theorem raiseCore_start (c x : Nat) : (raiseCore s c x).start = s.start := by obtain ⟨_, _, h⟩ := raiseCore_eq s c x; rw [h]
@[simp] theorem raiseCore_nq (c x : Nat) : (raiseCore s c x).nq = s.nq := by obtain ⟨_, _, h⟩ := raiseCore_eq s c x; rw [h]
@[simp] theorem raiseCore_fb (c x : Nat) : (raiseCore s c x).fb = s.fb := by obtain ⟨_, _, h⟩ := raiseCore_eq s c x; rw [h]
@[simp] theorem raiseCore_irq (c x : Nat) : (raiseCore s c x).irq = s.irq := by obtain ⟨_, _, h⟩ := raiseCore_eq s c x; rw [h]
@[simp] theorem raiseCore_cmd (c x : Nat) : (raiseCore s c x).cmd = s.cmd := by obtain ⟨_, _, h⟩ := raiseCore_eq s c x; rw [h]
@[simp] theorem raiseCore_sleepReady (c x : Nat) : (raiseCore s c x).sleepReady = s.sleepReady := by obtain ⟨_, _, h⟩ := raiseCore_eq s c x; rw [h]
@[simp] theorem raiseCore_frzReq (c x : Nat) : (raiseCore s c x).frzReq = s.frzReq := by obtain ⟨_, _, h⟩ := raiseCore_eq s c x; rw [h]
@[simp] theorem raiseCore_frzCode (c x : Nat) : (raiseCore s c x).frzCode = s.frzCode := by obtain ⟨_, _, h⟩ := raiseCore_eq s c x; rw [h]
@[simp] theorem raiseCore_frzOrigin (c x : Nat) : (raiseCore s c x).frzOrigin = s.frzOrigin := by obtain ⟨_, _, h⟩ := raiseCore_eq s c x; rw [h]
@[simp] theorem raiseCore_walks (c x : Nat) : (raiseCore s c x).walks = s.walks := by obtain ⟨_, _, h⟩ := raiseCore_eq s c x; rw [h]
@[simp] theorem raiseCore_conf (c x : Nat) : (raiseCore s c x).conf = s.conf := by obtain ⟨_, _, h⟩ := raiseCore_eq s c x; rw [h]
@[simp] theorem raiseCore_tx (c x : Nat) : (raiseCore s c x).tx = s.tx := by obtain ⟨_, _, h⟩ := raiseCore_eq s c x; rw [h]
@[simp] theorem raiseCore_memTx (c x : Nat) : (raiseCore s c x).memTx = s.memTx := by obtain ⟨_, _, h⟩ := raiseCore_eq s c x; rw [h]
@[simp] theorem raiseCore_ptTx (c x : Nat) : (raiseCore s c x).ptTx = s.ptTx := by obtain ⟨_, _, h⟩ := raiseCore_eq s c x; rw [h]
@[simp] theorem raiseCore_work (c x : Nat) : (raiseCore s c x).work = s.work := by obtain ⟨_, _, h⟩ := raiseCore_eq s c x; rw [h]
@[simp] theorem raiseCore_free (c x : Nat) : (raiseCore s c x).free = s.free := by obtain ⟨_, _, h⟩ := raiseCore_eq s c x; rw [h]
@[simp] theorem raiseCore_pending (c x : Nat) : (raiseCore s c x).pending = s.pending := by obtain ⟨_, _, h⟩ := raiseCore_eq s c x; rw [h]

/-- raisePort can change regs and fault and nothing else. -/
theorem raisePort_eq (c x : Nat) : ∃ r e, (raisePort s c x) = { s with regs := r, fault := e } := by
  exact raiseN_eq s _ _ _ _ _ _

@[simp] theorem raisePort_dft (c x : Nat) : (raisePort s c x).dft = s.dft := by obtain ⟨_, _, h⟩ := raisePort_eq s c x; rw [h]
@[simp] theorem raisePort_vaux (c x : Nat) : (raisePort s c x).vaux = s.vaux := by obtain ⟨_, _, h⟩ := raisePort_eq s c x; rw [h]
@[simp] theorem raisePort_portUp (c x : Nat) : (raisePort s c x).portUp = s.portUp := by obtain ⟨_, _, h⟩ := raisePort_eq s c x; rw [h]
@[simp] theorem raisePort_coreUp (c x : Nat) : (raisePort s c x).coreUp = s.coreUp := by obtain ⟨_, _, h⟩ := raisePort_eq s c x; rw [h]
@[simp] theorem raisePort_coldRst (c x : Nat) : (raisePort s c x).coldRst = s.coldRst := by obtain ⟨_, _, h⟩ := raisePort_eq s c x; rw [h]
@[simp] theorem raisePort_warmRst (c x : Nat) : (raisePort s c x).warmRst = s.warmRst := by obtain ⟨_, _, h⟩ := raisePort_eq s c x; rw [h]
@[simp] theorem raisePort_freezeIn (c x : Nat) : (raisePort s c x).freezeIn = s.freezeIn := by obtain ⟨_, _, h⟩ := raisePort_eq s c x; rw [h]
@[simp] theorem raisePort_wakeIn (c x : Nat) : (raisePort s c x).wakeIn = s.wakeIn := by obtain ⟨_, _, h⟩ := raisePort_eq s c x; rw [h]
@[simp] theorem raisePort_hiLatch (c x : Nat) : (raisePort s c x).hiLatch = s.hiLatch := by obtain ⟨_, _, h⟩ := raisePort_eq s c x; rw [h]
@[simp] theorem raisePort_wrHold (c x : Nat) : (raisePort s c x).wrHold = s.wrHold := by obtain ⟨_, _, h⟩ := raisePort_eq s c x; rw [h]
@[simp] theorem raisePort_rdata (c x : Nat) : (raisePort s c x).rdata = s.rdata := by obtain ⟨_, _, h⟩ := raisePort_eq s c x; rw [h]
@[simp] theorem raisePort_now (c x : Nat) : (raisePort s c x).now = s.now := by obtain ⟨_, _, h⟩ := raisePort_eq s c x; rw [h]
@[simp] theorem raisePort_lehrNow (c x : Nat) : (raisePort s c x).lehrNow = s.lehrNow := by obtain ⟨_, _, h⟩ := raisePort_eq s c x; rw [h]
@[simp] theorem raisePort_port (c x : Nat) : (raisePort s c x).port = s.port := by obtain ⟨_, _, h⟩ := raisePort_eq s c x; rw [h]
@[simp] theorem raisePort_agt (c x : Nat) : (raisePort s c x).agt = s.agt := by obtain ⟨_, _, h⟩ := raisePort_eq s c x; rw [h]
@[simp] theorem raisePort_shadow (c x : Nat) : (raisePort s c x).shadow = s.shadow := by obtain ⟨_, _, h⟩ := raisePort_eq s c x; rw [h]
@[simp] theorem raisePort_sl (c x : Nat) : (raisePort s c x).sl = s.sl := by obtain ⟨_, _, h⟩ := raisePort_eq s c x; rw [h]
@[simp] theorem raisePort_cab (c x : Nat) : (raisePort s c x).cab = s.cab := by obtain ⟨_, _, h⟩ := raisePort_eq s c x; rw [h]
@[simp] theorem raisePort_mem (c x : Nat) : (raisePort s c x).mem = s.mem := by obtain ⟨_, _, h⟩ := raisePort_eq s c x; rw [h]
@[simp] theorem raisePort_integ (c x : Nat) : (raisePort s c x).integ = s.integ := by obtain ⟨_, _, h⟩ := raisePort_eq s c x; rw [h]
@[simp] theorem raisePort_repair (c x : Nat) : (raisePort s c x).repair = s.repair := by obtain ⟨_, _, h⟩ := raisePort_eq s c x; rw [h]
@[simp] theorem raisePort_govSlot (c x : Nat) : (raisePort s c x).govSlot = s.govSlot := by obtain ⟨_, _, h⟩ := raisePort_eq s c x; rw [h]
@[simp] theorem raisePort_govCap (c x : Nat) : (raisePort s c x).govCap = s.govCap := by obtain ⟨_, _, h⟩ := raisePort_eq s c x; rw [h]
@[simp] theorem raisePort_govBg (c x : Nat) : (raisePort s c x).govBg = s.govBg := by obtain ⟨_, _, h⟩ := raisePort_eq s c x; rw [h]
@[simp] theorem raisePort_stw (c x : Nat) : (raisePort s c x).stw = s.stw := by obtain ⟨_, _, h⟩ := raisePort_eq s c x; rw [h]
@[simp] theorem raisePort_hutch (c x : Nat) : (raisePort s c x).hutch = s.hutch := by obtain ⟨_, _, h⟩ := raisePort_eq s c x; rw [h]
@[simp] theorem raisePort_lehr (c x : Nat) : (raisePort s c x).lehr = s.lehr := by obtain ⟨_, _, h⟩ := raisePort_eq s c x; rw [h]
@[simp] theorem raisePort_pt (c x : Nat) : (raisePort s c x).pt = s.pt := by obtain ⟨_, _, h⟩ := raisePort_eq s c x; rw [h]
@[simp] theorem raisePort_start (c x : Nat) : (raisePort s c x).start = s.start := by obtain ⟨_, _, h⟩ := raisePort_eq s c x; rw [h]
@[simp] theorem raisePort_nq (c x : Nat) : (raisePort s c x).nq = s.nq := by obtain ⟨_, _, h⟩ := raisePort_eq s c x; rw [h]
@[simp] theorem raisePort_fb (c x : Nat) : (raisePort s c x).fb = s.fb := by obtain ⟨_, _, h⟩ := raisePort_eq s c x; rw [h]
@[simp] theorem raisePort_irq (c x : Nat) : (raisePort s c x).irq = s.irq := by obtain ⟨_, _, h⟩ := raisePort_eq s c x; rw [h]
@[simp] theorem raisePort_cmd (c x : Nat) : (raisePort s c x).cmd = s.cmd := by obtain ⟨_, _, h⟩ := raisePort_eq s c x; rw [h]
@[simp] theorem raisePort_sleepReady (c x : Nat) : (raisePort s c x).sleepReady = s.sleepReady := by obtain ⟨_, _, h⟩ := raisePort_eq s c x; rw [h]
@[simp] theorem raisePort_frzReq (c x : Nat) : (raisePort s c x).frzReq = s.frzReq := by obtain ⟨_, _, h⟩ := raisePort_eq s c x; rw [h]
@[simp] theorem raisePort_frzCode (c x : Nat) : (raisePort s c x).frzCode = s.frzCode := by obtain ⟨_, _, h⟩ := raisePort_eq s c x; rw [h]
@[simp] theorem raisePort_frzOrigin (c x : Nat) : (raisePort s c x).frzOrigin = s.frzOrigin := by obtain ⟨_, _, h⟩ := raisePort_eq s c x; rw [h]
@[simp] theorem raisePort_walks (c x : Nat) : (raisePort s c x).walks = s.walks := by obtain ⟨_, _, h⟩ := raisePort_eq s c x; rw [h]
@[simp] theorem raisePort_conf (c x : Nat) : (raisePort s c x).conf = s.conf := by obtain ⟨_, _, h⟩ := raisePort_eq s c x; rw [h]
@[simp] theorem raisePort_tx (c x : Nat) : (raisePort s c x).tx = s.tx := by obtain ⟨_, _, h⟩ := raisePort_eq s c x; rw [h]
@[simp] theorem raisePort_memTx (c x : Nat) : (raisePort s c x).memTx = s.memTx := by obtain ⟨_, _, h⟩ := raisePort_eq s c x; rw [h]
@[simp] theorem raisePort_ptTx (c x : Nat) : (raisePort s c x).ptTx = s.ptTx := by obtain ⟨_, _, h⟩ := raisePort_eq s c x; rw [h]
@[simp] theorem raisePort_work (c x : Nat) : (raisePort s c x).work = s.work := by obtain ⟨_, _, h⟩ := raisePort_eq s c x; rw [h]
@[simp] theorem raisePort_free (c x : Nat) : (raisePort s c x).free = s.free := by obtain ⟨_, _, h⟩ := raisePort_eq s c x; rw [h]
@[simp] theorem raisePort_pending (c x : Nat) : (raisePort s c x).pending = s.pending := by obtain ⟨_, _, h⟩ := raisePort_eq s c x; rw [h]

/-- raiseLehr can change regs and fault and nothing else. -/
theorem raiseLehr_eq (c x : Nat) : ∃ r e, (raiseLehr s c x) = { s with regs := r, fault := e } := by
  exact raiseN_eq s _ _ _ _ _ _

@[simp] theorem raiseLehr_dft (c x : Nat) : (raiseLehr s c x).dft = s.dft := by obtain ⟨_, _, h⟩ := raiseLehr_eq s c x; rw [h]
@[simp] theorem raiseLehr_vaux (c x : Nat) : (raiseLehr s c x).vaux = s.vaux := by obtain ⟨_, _, h⟩ := raiseLehr_eq s c x; rw [h]
@[simp] theorem raiseLehr_portUp (c x : Nat) : (raiseLehr s c x).portUp = s.portUp := by obtain ⟨_, _, h⟩ := raiseLehr_eq s c x; rw [h]
@[simp] theorem raiseLehr_coreUp (c x : Nat) : (raiseLehr s c x).coreUp = s.coreUp := by obtain ⟨_, _, h⟩ := raiseLehr_eq s c x; rw [h]
@[simp] theorem raiseLehr_coldRst (c x : Nat) : (raiseLehr s c x).coldRst = s.coldRst := by obtain ⟨_, _, h⟩ := raiseLehr_eq s c x; rw [h]
@[simp] theorem raiseLehr_warmRst (c x : Nat) : (raiseLehr s c x).warmRst = s.warmRst := by obtain ⟨_, _, h⟩ := raiseLehr_eq s c x; rw [h]
@[simp] theorem raiseLehr_freezeIn (c x : Nat) : (raiseLehr s c x).freezeIn = s.freezeIn := by obtain ⟨_, _, h⟩ := raiseLehr_eq s c x; rw [h]
@[simp] theorem raiseLehr_wakeIn (c x : Nat) : (raiseLehr s c x).wakeIn = s.wakeIn := by obtain ⟨_, _, h⟩ := raiseLehr_eq s c x; rw [h]
@[simp] theorem raiseLehr_hiLatch (c x : Nat) : (raiseLehr s c x).hiLatch = s.hiLatch := by obtain ⟨_, _, h⟩ := raiseLehr_eq s c x; rw [h]
@[simp] theorem raiseLehr_wrHold (c x : Nat) : (raiseLehr s c x).wrHold = s.wrHold := by obtain ⟨_, _, h⟩ := raiseLehr_eq s c x; rw [h]
@[simp] theorem raiseLehr_rdata (c x : Nat) : (raiseLehr s c x).rdata = s.rdata := by obtain ⟨_, _, h⟩ := raiseLehr_eq s c x; rw [h]
@[simp] theorem raiseLehr_now (c x : Nat) : (raiseLehr s c x).now = s.now := by obtain ⟨_, _, h⟩ := raiseLehr_eq s c x; rw [h]
@[simp] theorem raiseLehr_lehrNow (c x : Nat) : (raiseLehr s c x).lehrNow = s.lehrNow := by obtain ⟨_, _, h⟩ := raiseLehr_eq s c x; rw [h]
@[simp] theorem raiseLehr_port (c x : Nat) : (raiseLehr s c x).port = s.port := by obtain ⟨_, _, h⟩ := raiseLehr_eq s c x; rw [h]
@[simp] theorem raiseLehr_agt (c x : Nat) : (raiseLehr s c x).agt = s.agt := by obtain ⟨_, _, h⟩ := raiseLehr_eq s c x; rw [h]
@[simp] theorem raiseLehr_shadow (c x : Nat) : (raiseLehr s c x).shadow = s.shadow := by obtain ⟨_, _, h⟩ := raiseLehr_eq s c x; rw [h]
@[simp] theorem raiseLehr_sl (c x : Nat) : (raiseLehr s c x).sl = s.sl := by obtain ⟨_, _, h⟩ := raiseLehr_eq s c x; rw [h]
@[simp] theorem raiseLehr_cab (c x : Nat) : (raiseLehr s c x).cab = s.cab := by obtain ⟨_, _, h⟩ := raiseLehr_eq s c x; rw [h]
@[simp] theorem raiseLehr_mem (c x : Nat) : (raiseLehr s c x).mem = s.mem := by obtain ⟨_, _, h⟩ := raiseLehr_eq s c x; rw [h]
@[simp] theorem raiseLehr_integ (c x : Nat) : (raiseLehr s c x).integ = s.integ := by obtain ⟨_, _, h⟩ := raiseLehr_eq s c x; rw [h]
@[simp] theorem raiseLehr_repair (c x : Nat) : (raiseLehr s c x).repair = s.repair := by obtain ⟨_, _, h⟩ := raiseLehr_eq s c x; rw [h]
@[simp] theorem raiseLehr_govSlot (c x : Nat) : (raiseLehr s c x).govSlot = s.govSlot := by obtain ⟨_, _, h⟩ := raiseLehr_eq s c x; rw [h]
@[simp] theorem raiseLehr_govCap (c x : Nat) : (raiseLehr s c x).govCap = s.govCap := by obtain ⟨_, _, h⟩ := raiseLehr_eq s c x; rw [h]
@[simp] theorem raiseLehr_govBg (c x : Nat) : (raiseLehr s c x).govBg = s.govBg := by obtain ⟨_, _, h⟩ := raiseLehr_eq s c x; rw [h]
@[simp] theorem raiseLehr_stw (c x : Nat) : (raiseLehr s c x).stw = s.stw := by obtain ⟨_, _, h⟩ := raiseLehr_eq s c x; rw [h]
@[simp] theorem raiseLehr_hutch (c x : Nat) : (raiseLehr s c x).hutch = s.hutch := by obtain ⟨_, _, h⟩ := raiseLehr_eq s c x; rw [h]
@[simp] theorem raiseLehr_lehr (c x : Nat) : (raiseLehr s c x).lehr = s.lehr := by obtain ⟨_, _, h⟩ := raiseLehr_eq s c x; rw [h]
@[simp] theorem raiseLehr_pt (c x : Nat) : (raiseLehr s c x).pt = s.pt := by obtain ⟨_, _, h⟩ := raiseLehr_eq s c x; rw [h]
@[simp] theorem raiseLehr_start (c x : Nat) : (raiseLehr s c x).start = s.start := by obtain ⟨_, _, h⟩ := raiseLehr_eq s c x; rw [h]
@[simp] theorem raiseLehr_nq (c x : Nat) : (raiseLehr s c x).nq = s.nq := by obtain ⟨_, _, h⟩ := raiseLehr_eq s c x; rw [h]
@[simp] theorem raiseLehr_fb (c x : Nat) : (raiseLehr s c x).fb = s.fb := by obtain ⟨_, _, h⟩ := raiseLehr_eq s c x; rw [h]
@[simp] theorem raiseLehr_irq (c x : Nat) : (raiseLehr s c x).irq = s.irq := by obtain ⟨_, _, h⟩ := raiseLehr_eq s c x; rw [h]
@[simp] theorem raiseLehr_cmd (c x : Nat) : (raiseLehr s c x).cmd = s.cmd := by obtain ⟨_, _, h⟩ := raiseLehr_eq s c x; rw [h]
@[simp] theorem raiseLehr_sleepReady (c x : Nat) : (raiseLehr s c x).sleepReady = s.sleepReady := by obtain ⟨_, _, h⟩ := raiseLehr_eq s c x; rw [h]
@[simp] theorem raiseLehr_frzReq (c x : Nat) : (raiseLehr s c x).frzReq = s.frzReq := by obtain ⟨_, _, h⟩ := raiseLehr_eq s c x; rw [h]
@[simp] theorem raiseLehr_frzCode (c x : Nat) : (raiseLehr s c x).frzCode = s.frzCode := by obtain ⟨_, _, h⟩ := raiseLehr_eq s c x; rw [h]
@[simp] theorem raiseLehr_frzOrigin (c x : Nat) : (raiseLehr s c x).frzOrigin = s.frzOrigin := by obtain ⟨_, _, h⟩ := raiseLehr_eq s c x; rw [h]
@[simp] theorem raiseLehr_walks (c x : Nat) : (raiseLehr s c x).walks = s.walks := by obtain ⟨_, _, h⟩ := raiseLehr_eq s c x; rw [h]
@[simp] theorem raiseLehr_conf (c x : Nat) : (raiseLehr s c x).conf = s.conf := by obtain ⟨_, _, h⟩ := raiseLehr_eq s c x; rw [h]
@[simp] theorem raiseLehr_tx (c x : Nat) : (raiseLehr s c x).tx = s.tx := by obtain ⟨_, _, h⟩ := raiseLehr_eq s c x; rw [h]
@[simp] theorem raiseLehr_memTx (c x : Nat) : (raiseLehr s c x).memTx = s.memTx := by obtain ⟨_, _, h⟩ := raiseLehr_eq s c x; rw [h]
@[simp] theorem raiseLehr_ptTx (c x : Nat) : (raiseLehr s c x).ptTx = s.ptTx := by obtain ⟨_, _, h⟩ := raiseLehr_eq s c x; rw [h]
@[simp] theorem raiseLehr_work (c x : Nat) : (raiseLehr s c x).work = s.work := by obtain ⟨_, _, h⟩ := raiseLehr_eq s c x; rw [h]
@[simp] theorem raiseLehr_free (c x : Nat) : (raiseLehr s c x).free = s.free := by obtain ⟨_, _, h⟩ := raiseLehr_eq s c x; rw [h]
@[simp] theorem raiseLehr_pending (c x : Nat) : (raiseLehr s c x).pending = s.pending := by obtain ⟨_, _, h⟩ := raiseLehr_eq s c x; rw [h]

/-- irqSet can change irq and nothing else. -/
theorem irqSet_eq (n : Nat) : ∃ q, (irqSet s n) = { s with irq := q } := by
  unfold irqSet; split
  · exact ⟨_, rfl⟩
  · exact ⟨s.irq, rfl⟩

@[simp] theorem irqSet_dft (n : Nat) : (irqSet s n).dft = s.dft := by obtain ⟨_, h⟩ := irqSet_eq s n; rw [h]
@[simp] theorem irqSet_vaux (n : Nat) : (irqSet s n).vaux = s.vaux := by obtain ⟨_, h⟩ := irqSet_eq s n; rw [h]
@[simp] theorem irqSet_portUp (n : Nat) : (irqSet s n).portUp = s.portUp := by obtain ⟨_, h⟩ := irqSet_eq s n; rw [h]
@[simp] theorem irqSet_coreUp (n : Nat) : (irqSet s n).coreUp = s.coreUp := by obtain ⟨_, h⟩ := irqSet_eq s n; rw [h]
@[simp] theorem irqSet_coldRst (n : Nat) : (irqSet s n).coldRst = s.coldRst := by obtain ⟨_, h⟩ := irqSet_eq s n; rw [h]
@[simp] theorem irqSet_warmRst (n : Nat) : (irqSet s n).warmRst = s.warmRst := by obtain ⟨_, h⟩ := irqSet_eq s n; rw [h]
@[simp] theorem irqSet_freezeIn (n : Nat) : (irqSet s n).freezeIn = s.freezeIn := by obtain ⟨_, h⟩ := irqSet_eq s n; rw [h]
@[simp] theorem irqSet_wakeIn (n : Nat) : (irqSet s n).wakeIn = s.wakeIn := by obtain ⟨_, h⟩ := irqSet_eq s n; rw [h]
@[simp] theorem irqSet_regs (n : Nat) : (irqSet s n).regs = s.regs := by obtain ⟨_, h⟩ := irqSet_eq s n; rw [h]
@[simp] theorem irqSet_hiLatch (n : Nat) : (irqSet s n).hiLatch = s.hiLatch := by obtain ⟨_, h⟩ := irqSet_eq s n; rw [h]
@[simp] theorem irqSet_wrHold (n : Nat) : (irqSet s n).wrHold = s.wrHold := by obtain ⟨_, h⟩ := irqSet_eq s n; rw [h]
@[simp] theorem irqSet_rdata (n : Nat) : (irqSet s n).rdata = s.rdata := by obtain ⟨_, h⟩ := irqSet_eq s n; rw [h]
@[simp] theorem irqSet_now (n : Nat) : (irqSet s n).now = s.now := by obtain ⟨_, h⟩ := irqSet_eq s n; rw [h]
@[simp] theorem irqSet_lehrNow (n : Nat) : (irqSet s n).lehrNow = s.lehrNow := by obtain ⟨_, h⟩ := irqSet_eq s n; rw [h]
@[simp] theorem irqSet_port (n : Nat) : (irqSet s n).port = s.port := by obtain ⟨_, h⟩ := irqSet_eq s n; rw [h]
@[simp] theorem irqSet_agt (n : Nat) : (irqSet s n).agt = s.agt := by obtain ⟨_, h⟩ := irqSet_eq s n; rw [h]
@[simp] theorem irqSet_shadow (n : Nat) : (irqSet s n).shadow = s.shadow := by obtain ⟨_, h⟩ := irqSet_eq s n; rw [h]
@[simp] theorem irqSet_sl (n : Nat) : (irqSet s n).sl = s.sl := by obtain ⟨_, h⟩ := irqSet_eq s n; rw [h]
@[simp] theorem irqSet_cab (n : Nat) : (irqSet s n).cab = s.cab := by obtain ⟨_, h⟩ := irqSet_eq s n; rw [h]
@[simp] theorem irqSet_mem (n : Nat) : (irqSet s n).mem = s.mem := by obtain ⟨_, h⟩ := irqSet_eq s n; rw [h]
@[simp] theorem irqSet_integ (n : Nat) : (irqSet s n).integ = s.integ := by obtain ⟨_, h⟩ := irqSet_eq s n; rw [h]
@[simp] theorem irqSet_repair (n : Nat) : (irqSet s n).repair = s.repair := by obtain ⟨_, h⟩ := irqSet_eq s n; rw [h]
@[simp] theorem irqSet_govSlot (n : Nat) : (irqSet s n).govSlot = s.govSlot := by obtain ⟨_, h⟩ := irqSet_eq s n; rw [h]
@[simp] theorem irqSet_govCap (n : Nat) : (irqSet s n).govCap = s.govCap := by obtain ⟨_, h⟩ := irqSet_eq s n; rw [h]
@[simp] theorem irqSet_govBg (n : Nat) : (irqSet s n).govBg = s.govBg := by obtain ⟨_, h⟩ := irqSet_eq s n; rw [h]
@[simp] theorem irqSet_stw (n : Nat) : (irqSet s n).stw = s.stw := by obtain ⟨_, h⟩ := irqSet_eq s n; rw [h]
@[simp] theorem irqSet_hutch (n : Nat) : (irqSet s n).hutch = s.hutch := by obtain ⟨_, h⟩ := irqSet_eq s n; rw [h]
@[simp] theorem irqSet_lehr (n : Nat) : (irqSet s n).lehr = s.lehr := by obtain ⟨_, h⟩ := irqSet_eq s n; rw [h]
@[simp] theorem irqSet_pt (n : Nat) : (irqSet s n).pt = s.pt := by obtain ⟨_, h⟩ := irqSet_eq s n; rw [h]
@[simp] theorem irqSet_start (n : Nat) : (irqSet s n).start = s.start := by obtain ⟨_, h⟩ := irqSet_eq s n; rw [h]
@[simp] theorem irqSet_fault (n : Nat) : (irqSet s n).fault = s.fault := by obtain ⟨_, h⟩ := irqSet_eq s n; rw [h]
@[simp] theorem irqSet_nq (n : Nat) : (irqSet s n).nq = s.nq := by obtain ⟨_, h⟩ := irqSet_eq s n; rw [h]
@[simp] theorem irqSet_fb (n : Nat) : (irqSet s n).fb = s.fb := by obtain ⟨_, h⟩ := irqSet_eq s n; rw [h]
@[simp] theorem irqSet_cmd (n : Nat) : (irqSet s n).cmd = s.cmd := by obtain ⟨_, h⟩ := irqSet_eq s n; rw [h]
@[simp] theorem irqSet_sleepReady (n : Nat) : (irqSet s n).sleepReady = s.sleepReady := by obtain ⟨_, h⟩ := irqSet_eq s n; rw [h]
@[simp] theorem irqSet_frzReq (n : Nat) : (irqSet s n).frzReq = s.frzReq := by obtain ⟨_, h⟩ := irqSet_eq s n; rw [h]
@[simp] theorem irqSet_frzCode (n : Nat) : (irqSet s n).frzCode = s.frzCode := by obtain ⟨_, h⟩ := irqSet_eq s n; rw [h]
@[simp] theorem irqSet_frzOrigin (n : Nat) : (irqSet s n).frzOrigin = s.frzOrigin := by obtain ⟨_, h⟩ := irqSet_eq s n; rw [h]
@[simp] theorem irqSet_walks (n : Nat) : (irqSet s n).walks = s.walks := by obtain ⟨_, h⟩ := irqSet_eq s n; rw [h]
@[simp] theorem irqSet_conf (n : Nat) : (irqSet s n).conf = s.conf := by obtain ⟨_, h⟩ := irqSet_eq s n; rw [h]
@[simp] theorem irqSet_tx (n : Nat) : (irqSet s n).tx = s.tx := by obtain ⟨_, h⟩ := irqSet_eq s n; rw [h]
@[simp] theorem irqSet_memTx (n : Nat) : (irqSet s n).memTx = s.memTx := by obtain ⟨_, h⟩ := irqSet_eq s n; rw [h]
@[simp] theorem irqSet_ptTx (n : Nat) : (irqSet s n).ptTx = s.ptTx := by obtain ⟨_, h⟩ := irqSet_eq s n; rw [h]
@[simp] theorem irqSet_work (n : Nat) : (irqSet s n).work = s.work := by obtain ⟨_, h⟩ := irqSet_eq s n; rw [h]
@[simp] theorem irqSet_free (n : Nat) : (irqSet s n).free = s.free := by obtain ⟨_, h⟩ := irqSet_eq s n; rw [h]
@[simp] theorem irqSet_pending (n : Nat) : (irqSet s n).pending = s.pending := by obtain ⟨_, h⟩ := irqSet_eq s n; rw [h]

/-- `t` differs from `s` in the registers and the deviations of stored words alone. -/
theorem integ_trans {s t u : State} (h : ∃ r g, t = { s with regs := r, integ := g })
    (k : ∃ r g, u = { t with regs := r, integ := g }) : ∃ r g, u = { s with regs := r, integ := g } := by
  obtain ⟨r, g, h⟩ := h; obtain ⟨q, e, k⟩ := k; exact ⟨q, e, by rw [k, h]⟩

theorem setMask_eq (st : Store) (u w m : Nat) : ∃ r g, setMask s st u w m = { s with regs := r, integ := g } := ⟨s.regs, _, rfl⟩
theorem setInj_eq (st : Store) (u w : Nat) (b : Bool) : ∃ r g, setInj s st u w b = { s with regs := r, integ := g } :=
  ⟨s.regs, _, rfl⟩
theorem setFld_eq2 (f : Fld) (v i j : Nat) : ∃ r g, s.setFld f v i j = { s with regs := r, integ := g } := ⟨_, s.integ, rfl⟩

/-- wordWritten can change regs and integ and nothing else. -/
theorem wordWritten_eq (st : Store) (u w : Nat) : ∃ r g, (wordWritten s st u w) = { s with regs := r, integ := g } := by
  unfold wordWritten
  have h0 : ∃ r g, (if maskOf s st u w ≠ 0 ∧ st ≠ .drawer ∧ st ≠ .spare ∧ wordLook s st u w = none then pageFresh s st u w
      else s) = { s with regs := r, integ := g } := by
    split
    · exact ⟨s.regs, _, rfl⟩
    · exact ⟨s.regs, s.integ, rfl⟩
  generalize (if maskOf s st u w ≠ 0 ∧ st ≠ .drawer ∧ st ≠ .spare ∧ wordLook s st u w = none then pageFresh s st u w
      else s) = z at h0
  dsimp only
  split
  · split
    · exact integ_trans (integ_trans (integ_trans (integ_trans h0 (setMask_eq ..)) (setInj_eq ..)) (setFld_eq2 ..))
        (setFld_eq2 ..)
    · exact integ_trans (integ_trans (integ_trans h0 (setMask_eq ..)) (setInj_eq ..)) (setFld_eq2 ..)
  · exact integ_trans (integ_trans h0 (setMask_eq ..)) (setInj_eq ..)

@[simp] theorem wordWritten_dft (st : Store) (u w : Nat) : (wordWritten s st u w).dft = s.dft := by obtain ⟨_, _, h⟩ := wordWritten_eq s st u w; rw [h]
@[simp] theorem wordWritten_vaux (st : Store) (u w : Nat) : (wordWritten s st u w).vaux = s.vaux := by obtain ⟨_, _, h⟩ := wordWritten_eq s st u w; rw [h]
@[simp] theorem wordWritten_portUp (st : Store) (u w : Nat) : (wordWritten s st u w).portUp = s.portUp := by obtain ⟨_, _, h⟩ := wordWritten_eq s st u w; rw [h]
@[simp] theorem wordWritten_coreUp (st : Store) (u w : Nat) : (wordWritten s st u w).coreUp = s.coreUp := by obtain ⟨_, _, h⟩ := wordWritten_eq s st u w; rw [h]
@[simp] theorem wordWritten_coldRst (st : Store) (u w : Nat) : (wordWritten s st u w).coldRst = s.coldRst := by obtain ⟨_, _, h⟩ := wordWritten_eq s st u w; rw [h]
@[simp] theorem wordWritten_warmRst (st : Store) (u w : Nat) : (wordWritten s st u w).warmRst = s.warmRst := by obtain ⟨_, _, h⟩ := wordWritten_eq s st u w; rw [h]
@[simp] theorem wordWritten_freezeIn (st : Store) (u w : Nat) : (wordWritten s st u w).freezeIn = s.freezeIn := by obtain ⟨_, _, h⟩ := wordWritten_eq s st u w; rw [h]
@[simp] theorem wordWritten_wakeIn (st : Store) (u w : Nat) : (wordWritten s st u w).wakeIn = s.wakeIn := by obtain ⟨_, _, h⟩ := wordWritten_eq s st u w; rw [h]
@[simp] theorem wordWritten_hiLatch (st : Store) (u w : Nat) : (wordWritten s st u w).hiLatch = s.hiLatch := by obtain ⟨_, _, h⟩ := wordWritten_eq s st u w; rw [h]
@[simp] theorem wordWritten_wrHold (st : Store) (u w : Nat) : (wordWritten s st u w).wrHold = s.wrHold := by obtain ⟨_, _, h⟩ := wordWritten_eq s st u w; rw [h]
@[simp] theorem wordWritten_rdata (st : Store) (u w : Nat) : (wordWritten s st u w).rdata = s.rdata := by obtain ⟨_, _, h⟩ := wordWritten_eq s st u w; rw [h]
@[simp] theorem wordWritten_now (st : Store) (u w : Nat) : (wordWritten s st u w).now = s.now := by obtain ⟨_, _, h⟩ := wordWritten_eq s st u w; rw [h]
@[simp] theorem wordWritten_lehrNow (st : Store) (u w : Nat) : (wordWritten s st u w).lehrNow = s.lehrNow := by obtain ⟨_, _, h⟩ := wordWritten_eq s st u w; rw [h]
@[simp] theorem wordWritten_port (st : Store) (u w : Nat) : (wordWritten s st u w).port = s.port := by obtain ⟨_, _, h⟩ := wordWritten_eq s st u w; rw [h]
@[simp] theorem wordWritten_agt (st : Store) (u w : Nat) : (wordWritten s st u w).agt = s.agt := by obtain ⟨_, _, h⟩ := wordWritten_eq s st u w; rw [h]
@[simp] theorem wordWritten_shadow (st : Store) (u w : Nat) : (wordWritten s st u w).shadow = s.shadow := by obtain ⟨_, _, h⟩ := wordWritten_eq s st u w; rw [h]
@[simp] theorem wordWritten_sl (st : Store) (u w : Nat) : (wordWritten s st u w).sl = s.sl := by obtain ⟨_, _, h⟩ := wordWritten_eq s st u w; rw [h]
@[simp] theorem wordWritten_cab (st : Store) (u w : Nat) : (wordWritten s st u w).cab = s.cab := by obtain ⟨_, _, h⟩ := wordWritten_eq s st u w; rw [h]
@[simp] theorem wordWritten_mem (st : Store) (u w : Nat) : (wordWritten s st u w).mem = s.mem := by obtain ⟨_, _, h⟩ := wordWritten_eq s st u w; rw [h]
@[simp] theorem wordWritten_repair (st : Store) (u w : Nat) : (wordWritten s st u w).repair = s.repair := by obtain ⟨_, _, h⟩ := wordWritten_eq s st u w; rw [h]
@[simp] theorem wordWritten_govSlot (st : Store) (u w : Nat) : (wordWritten s st u w).govSlot = s.govSlot := by obtain ⟨_, _, h⟩ := wordWritten_eq s st u w; rw [h]
@[simp] theorem wordWritten_govCap (st : Store) (u w : Nat) : (wordWritten s st u w).govCap = s.govCap := by obtain ⟨_, _, h⟩ := wordWritten_eq s st u w; rw [h]
@[simp] theorem wordWritten_govBg (st : Store) (u w : Nat) : (wordWritten s st u w).govBg = s.govBg := by obtain ⟨_, _, h⟩ := wordWritten_eq s st u w; rw [h]
@[simp] theorem wordWritten_stw (st : Store) (u w : Nat) : (wordWritten s st u w).stw = s.stw := by obtain ⟨_, _, h⟩ := wordWritten_eq s st u w; rw [h]
@[simp] theorem wordWritten_hutch (st : Store) (u w : Nat) : (wordWritten s st u w).hutch = s.hutch := by obtain ⟨_, _, h⟩ := wordWritten_eq s st u w; rw [h]
@[simp] theorem wordWritten_lehr (st : Store) (u w : Nat) : (wordWritten s st u w).lehr = s.lehr := by obtain ⟨_, _, h⟩ := wordWritten_eq s st u w; rw [h]
@[simp] theorem wordWritten_pt (st : Store) (u w : Nat) : (wordWritten s st u w).pt = s.pt := by obtain ⟨_, _, h⟩ := wordWritten_eq s st u w; rw [h]
@[simp] theorem wordWritten_start (st : Store) (u w : Nat) : (wordWritten s st u w).start = s.start := by obtain ⟨_, _, h⟩ := wordWritten_eq s st u w; rw [h]
@[simp] theorem wordWritten_fault (st : Store) (u w : Nat) : (wordWritten s st u w).fault = s.fault := by obtain ⟨_, _, h⟩ := wordWritten_eq s st u w; rw [h]
@[simp] theorem wordWritten_nq (st : Store) (u w : Nat) : (wordWritten s st u w).nq = s.nq := by obtain ⟨_, _, h⟩ := wordWritten_eq s st u w; rw [h]
@[simp] theorem wordWritten_fb (st : Store) (u w : Nat) : (wordWritten s st u w).fb = s.fb := by obtain ⟨_, _, h⟩ := wordWritten_eq s st u w; rw [h]
@[simp] theorem wordWritten_irq (st : Store) (u w : Nat) : (wordWritten s st u w).irq = s.irq := by obtain ⟨_, _, h⟩ := wordWritten_eq s st u w; rw [h]
@[simp] theorem wordWritten_cmd (st : Store) (u w : Nat) : (wordWritten s st u w).cmd = s.cmd := by obtain ⟨_, _, h⟩ := wordWritten_eq s st u w; rw [h]
@[simp] theorem wordWritten_sleepReady (st : Store) (u w : Nat) : (wordWritten s st u w).sleepReady = s.sleepReady := by obtain ⟨_, _, h⟩ := wordWritten_eq s st u w; rw [h]
@[simp] theorem wordWritten_frzReq (st : Store) (u w : Nat) : (wordWritten s st u w).frzReq = s.frzReq := by obtain ⟨_, _, h⟩ := wordWritten_eq s st u w; rw [h]
@[simp] theorem wordWritten_frzCode (st : Store) (u w : Nat) : (wordWritten s st u w).frzCode = s.frzCode := by obtain ⟨_, _, h⟩ := wordWritten_eq s st u w; rw [h]
@[simp] theorem wordWritten_frzOrigin (st : Store) (u w : Nat) : (wordWritten s st u w).frzOrigin = s.frzOrigin := by obtain ⟨_, _, h⟩ := wordWritten_eq s st u w; rw [h]
@[simp] theorem wordWritten_walks (st : Store) (u w : Nat) : (wordWritten s st u w).walks = s.walks := by obtain ⟨_, _, h⟩ := wordWritten_eq s st u w; rw [h]
@[simp] theorem wordWritten_conf (st : Store) (u w : Nat) : (wordWritten s st u w).conf = s.conf := by obtain ⟨_, _, h⟩ := wordWritten_eq s st u w; rw [h]
@[simp] theorem wordWritten_tx (st : Store) (u w : Nat) : (wordWritten s st u w).tx = s.tx := by obtain ⟨_, _, h⟩ := wordWritten_eq s st u w; rw [h]
@[simp] theorem wordWritten_memTx (st : Store) (u w : Nat) : (wordWritten s st u w).memTx = s.memTx := by obtain ⟨_, _, h⟩ := wordWritten_eq s st u w; rw [h]
@[simp] theorem wordWritten_ptTx (st : Store) (u w : Nat) : (wordWritten s st u w).ptTx = s.ptTx := by obtain ⟨_, _, h⟩ := wordWritten_eq s st u w; rw [h]
@[simp] theorem wordWritten_work (st : Store) (u w : Nat) : (wordWritten s st u w).work = s.work := by obtain ⟨_, _, h⟩ := wordWritten_eq s st u w; rw [h]
@[simp] theorem wordWritten_free (st : Store) (u w : Nat) : (wordWritten s st u w).free = s.free := by obtain ⟨_, _, h⟩ := wordWritten_eq s st u w; rw [h]
@[simp] theorem wordWritten_pending (st : Store) (u w : Nat) : (wordWritten s st u w).pending = s.pending := by obtain ⟨_, _, h⟩ := wordWritten_eq s st u w; rw [h]

/-- sampleIrq can change irq and nothing else. -/
theorem sampleIrq_eq : ∃ q, (sampleIrq s) = { s with irq := q } := by
  unfold sampleIrq; split
  · exact ⟨_, rfl⟩
  · exact ⟨s.irq, rfl⟩

@[simp] theorem sampleIrq_dft : (sampleIrq s).dft = s.dft := by obtain ⟨_, h⟩ := sampleIrq_eq s ; rw [h]
@[simp] theorem sampleIrq_vaux : (sampleIrq s).vaux = s.vaux := by obtain ⟨_, h⟩ := sampleIrq_eq s ; rw [h]
@[simp] theorem sampleIrq_portUp : (sampleIrq s).portUp = s.portUp := by obtain ⟨_, h⟩ := sampleIrq_eq s ; rw [h]
@[simp] theorem sampleIrq_coreUp : (sampleIrq s).coreUp = s.coreUp := by obtain ⟨_, h⟩ := sampleIrq_eq s ; rw [h]
@[simp] theorem sampleIrq_coldRst : (sampleIrq s).coldRst = s.coldRst := by obtain ⟨_, h⟩ := sampleIrq_eq s ; rw [h]
@[simp] theorem sampleIrq_warmRst : (sampleIrq s).warmRst = s.warmRst := by obtain ⟨_, h⟩ := sampleIrq_eq s ; rw [h]
@[simp] theorem sampleIrq_freezeIn : (sampleIrq s).freezeIn = s.freezeIn := by obtain ⟨_, h⟩ := sampleIrq_eq s ; rw [h]
@[simp] theorem sampleIrq_wakeIn : (sampleIrq s).wakeIn = s.wakeIn := by obtain ⟨_, h⟩ := sampleIrq_eq s ; rw [h]
@[simp] theorem sampleIrq_regs : (sampleIrq s).regs = s.regs := by obtain ⟨_, h⟩ := sampleIrq_eq s ; rw [h]
@[simp] theorem sampleIrq_hiLatch : (sampleIrq s).hiLatch = s.hiLatch := by obtain ⟨_, h⟩ := sampleIrq_eq s ; rw [h]
@[simp] theorem sampleIrq_wrHold : (sampleIrq s).wrHold = s.wrHold := by obtain ⟨_, h⟩ := sampleIrq_eq s ; rw [h]
@[simp] theorem sampleIrq_rdata : (sampleIrq s).rdata = s.rdata := by obtain ⟨_, h⟩ := sampleIrq_eq s ; rw [h]
@[simp] theorem sampleIrq_now : (sampleIrq s).now = s.now := by obtain ⟨_, h⟩ := sampleIrq_eq s ; rw [h]
@[simp] theorem sampleIrq_lehrNow : (sampleIrq s).lehrNow = s.lehrNow := by obtain ⟨_, h⟩ := sampleIrq_eq s ; rw [h]
@[simp] theorem sampleIrq_port : (sampleIrq s).port = s.port := by obtain ⟨_, h⟩ := sampleIrq_eq s ; rw [h]
@[simp] theorem sampleIrq_agt : (sampleIrq s).agt = s.agt := by obtain ⟨_, h⟩ := sampleIrq_eq s ; rw [h]
@[simp] theorem sampleIrq_shadow : (sampleIrq s).shadow = s.shadow := by obtain ⟨_, h⟩ := sampleIrq_eq s ; rw [h]
@[simp] theorem sampleIrq_sl : (sampleIrq s).sl = s.sl := by obtain ⟨_, h⟩ := sampleIrq_eq s ; rw [h]
@[simp] theorem sampleIrq_cab : (sampleIrq s).cab = s.cab := by obtain ⟨_, h⟩ := sampleIrq_eq s ; rw [h]
@[simp] theorem sampleIrq_mem : (sampleIrq s).mem = s.mem := by obtain ⟨_, h⟩ := sampleIrq_eq s ; rw [h]
@[simp] theorem sampleIrq_integ : (sampleIrq s).integ = s.integ := by obtain ⟨_, h⟩ := sampleIrq_eq s ; rw [h]
@[simp] theorem sampleIrq_repair : (sampleIrq s).repair = s.repair := by obtain ⟨_, h⟩ := sampleIrq_eq s ; rw [h]
@[simp] theorem sampleIrq_govSlot : (sampleIrq s).govSlot = s.govSlot := by obtain ⟨_, h⟩ := sampleIrq_eq s ; rw [h]
@[simp] theorem sampleIrq_govCap : (sampleIrq s).govCap = s.govCap := by obtain ⟨_, h⟩ := sampleIrq_eq s ; rw [h]
@[simp] theorem sampleIrq_govBg : (sampleIrq s).govBg = s.govBg := by obtain ⟨_, h⟩ := sampleIrq_eq s ; rw [h]
@[simp] theorem sampleIrq_stw : (sampleIrq s).stw = s.stw := by obtain ⟨_, h⟩ := sampleIrq_eq s ; rw [h]
@[simp] theorem sampleIrq_hutch : (sampleIrq s).hutch = s.hutch := by obtain ⟨_, h⟩ := sampleIrq_eq s ; rw [h]
@[simp] theorem sampleIrq_lehr : (sampleIrq s).lehr = s.lehr := by obtain ⟨_, h⟩ := sampleIrq_eq s ; rw [h]
@[simp] theorem sampleIrq_pt : (sampleIrq s).pt = s.pt := by obtain ⟨_, h⟩ := sampleIrq_eq s ; rw [h]
@[simp] theorem sampleIrq_start : (sampleIrq s).start = s.start := by obtain ⟨_, h⟩ := sampleIrq_eq s ; rw [h]
@[simp] theorem sampleIrq_fault : (sampleIrq s).fault = s.fault := by obtain ⟨_, h⟩ := sampleIrq_eq s ; rw [h]
@[simp] theorem sampleIrq_nq : (sampleIrq s).nq = s.nq := by obtain ⟨_, h⟩ := sampleIrq_eq s ; rw [h]
@[simp] theorem sampleIrq_fb : (sampleIrq s).fb = s.fb := by obtain ⟨_, h⟩ := sampleIrq_eq s ; rw [h]
@[simp] theorem sampleIrq_cmd : (sampleIrq s).cmd = s.cmd := by obtain ⟨_, h⟩ := sampleIrq_eq s ; rw [h]
@[simp] theorem sampleIrq_sleepReady : (sampleIrq s).sleepReady = s.sleepReady := by obtain ⟨_, h⟩ := sampleIrq_eq s ; rw [h]
@[simp] theorem sampleIrq_frzReq : (sampleIrq s).frzReq = s.frzReq := by obtain ⟨_, h⟩ := sampleIrq_eq s ; rw [h]
@[simp] theorem sampleIrq_frzCode : (sampleIrq s).frzCode = s.frzCode := by obtain ⟨_, h⟩ := sampleIrq_eq s ; rw [h]
@[simp] theorem sampleIrq_frzOrigin : (sampleIrq s).frzOrigin = s.frzOrigin := by obtain ⟨_, h⟩ := sampleIrq_eq s ; rw [h]
@[simp] theorem sampleIrq_walks : (sampleIrq s).walks = s.walks := by obtain ⟨_, h⟩ := sampleIrq_eq s ; rw [h]
@[simp] theorem sampleIrq_conf : (sampleIrq s).conf = s.conf := by obtain ⟨_, h⟩ := sampleIrq_eq s ; rw [h]
@[simp] theorem sampleIrq_tx : (sampleIrq s).tx = s.tx := by obtain ⟨_, h⟩ := sampleIrq_eq s ; rw [h]
@[simp] theorem sampleIrq_memTx : (sampleIrq s).memTx = s.memTx := by obtain ⟨_, h⟩ := sampleIrq_eq s ; rw [h]
@[simp] theorem sampleIrq_ptTx : (sampleIrq s).ptTx = s.ptTx := by obtain ⟨_, h⟩ := sampleIrq_eq s ; rw [h]
@[simp] theorem sampleIrq_work : (sampleIrq s).work = s.work := by obtain ⟨_, h⟩ := sampleIrq_eq s ; rw [h]
@[simp] theorem sampleIrq_free : (sampleIrq s).free = s.free := by obtain ⟨_, h⟩ := sampleIrq_eq s ; rw [h]
@[simp] theorem sampleIrq_pending : (sampleIrq s).pending = s.pending := by obtain ⟨_, h⟩ := sampleIrq_eq s ; rw [h]

/-- shadowAgt can change shadow and nothing else. -/
theorem shadowAgt_eq (a w : Nat) : ∃ h0, (shadowAgt s a w) = { s with shadow := h0 } := by
  unfold shadowAgt; split
  · exact ⟨s.shadow, rfl⟩
  · exact ⟨_, rfl⟩

@[simp] theorem shadowAgt_dft (a w : Nat) : (shadowAgt s a w).dft = s.dft := by obtain ⟨_, h⟩ := shadowAgt_eq s a w; rw [h]
@[simp] theorem shadowAgt_vaux (a w : Nat) : (shadowAgt s a w).vaux = s.vaux := by obtain ⟨_, h⟩ := shadowAgt_eq s a w; rw [h]
@[simp] theorem shadowAgt_portUp (a w : Nat) : (shadowAgt s a w).portUp = s.portUp := by obtain ⟨_, h⟩ := shadowAgt_eq s a w; rw [h]
@[simp] theorem shadowAgt_coreUp (a w : Nat) : (shadowAgt s a w).coreUp = s.coreUp := by obtain ⟨_, h⟩ := shadowAgt_eq s a w; rw [h]
@[simp] theorem shadowAgt_coldRst (a w : Nat) : (shadowAgt s a w).coldRst = s.coldRst := by obtain ⟨_, h⟩ := shadowAgt_eq s a w; rw [h]
@[simp] theorem shadowAgt_warmRst (a w : Nat) : (shadowAgt s a w).warmRst = s.warmRst := by obtain ⟨_, h⟩ := shadowAgt_eq s a w; rw [h]
@[simp] theorem shadowAgt_freezeIn (a w : Nat) : (shadowAgt s a w).freezeIn = s.freezeIn := by obtain ⟨_, h⟩ := shadowAgt_eq s a w; rw [h]
@[simp] theorem shadowAgt_wakeIn (a w : Nat) : (shadowAgt s a w).wakeIn = s.wakeIn := by obtain ⟨_, h⟩ := shadowAgt_eq s a w; rw [h]
@[simp] theorem shadowAgt_regs (a w : Nat) : (shadowAgt s a w).regs = s.regs := by obtain ⟨_, h⟩ := shadowAgt_eq s a w; rw [h]
@[simp] theorem shadowAgt_hiLatch (a w : Nat) : (shadowAgt s a w).hiLatch = s.hiLatch := by obtain ⟨_, h⟩ := shadowAgt_eq s a w; rw [h]
@[simp] theorem shadowAgt_wrHold (a w : Nat) : (shadowAgt s a w).wrHold = s.wrHold := by obtain ⟨_, h⟩ := shadowAgt_eq s a w; rw [h]
@[simp] theorem shadowAgt_rdata (a w : Nat) : (shadowAgt s a w).rdata = s.rdata := by obtain ⟨_, h⟩ := shadowAgt_eq s a w; rw [h]
@[simp] theorem shadowAgt_now (a w : Nat) : (shadowAgt s a w).now = s.now := by obtain ⟨_, h⟩ := shadowAgt_eq s a w; rw [h]
@[simp] theorem shadowAgt_lehrNow (a w : Nat) : (shadowAgt s a w).lehrNow = s.lehrNow := by obtain ⟨_, h⟩ := shadowAgt_eq s a w; rw [h]
@[simp] theorem shadowAgt_port (a w : Nat) : (shadowAgt s a w).port = s.port := by obtain ⟨_, h⟩ := shadowAgt_eq s a w; rw [h]
@[simp] theorem shadowAgt_agt (a w : Nat) : (shadowAgt s a w).agt = s.agt := by obtain ⟨_, h⟩ := shadowAgt_eq s a w; rw [h]
@[simp] theorem shadowAgt_sl (a w : Nat) : (shadowAgt s a w).sl = s.sl := by obtain ⟨_, h⟩ := shadowAgt_eq s a w; rw [h]
@[simp] theorem shadowAgt_cab (a w : Nat) : (shadowAgt s a w).cab = s.cab := by obtain ⟨_, h⟩ := shadowAgt_eq s a w; rw [h]
@[simp] theorem shadowAgt_mem (a w : Nat) : (shadowAgt s a w).mem = s.mem := by obtain ⟨_, h⟩ := shadowAgt_eq s a w; rw [h]
@[simp] theorem shadowAgt_integ (a w : Nat) : (shadowAgt s a w).integ = s.integ := by obtain ⟨_, h⟩ := shadowAgt_eq s a w; rw [h]
@[simp] theorem shadowAgt_repair (a w : Nat) : (shadowAgt s a w).repair = s.repair := by obtain ⟨_, h⟩ := shadowAgt_eq s a w; rw [h]
@[simp] theorem shadowAgt_govSlot (a w : Nat) : (shadowAgt s a w).govSlot = s.govSlot := by obtain ⟨_, h⟩ := shadowAgt_eq s a w; rw [h]
@[simp] theorem shadowAgt_govCap (a w : Nat) : (shadowAgt s a w).govCap = s.govCap := by obtain ⟨_, h⟩ := shadowAgt_eq s a w; rw [h]
@[simp] theorem shadowAgt_govBg (a w : Nat) : (shadowAgt s a w).govBg = s.govBg := by obtain ⟨_, h⟩ := shadowAgt_eq s a w; rw [h]
@[simp] theorem shadowAgt_stw (a w : Nat) : (shadowAgt s a w).stw = s.stw := by obtain ⟨_, h⟩ := shadowAgt_eq s a w; rw [h]
@[simp] theorem shadowAgt_hutch (a w : Nat) : (shadowAgt s a w).hutch = s.hutch := by obtain ⟨_, h⟩ := shadowAgt_eq s a w; rw [h]
@[simp] theorem shadowAgt_lehr (a w : Nat) : (shadowAgt s a w).lehr = s.lehr := by obtain ⟨_, h⟩ := shadowAgt_eq s a w; rw [h]
@[simp] theorem shadowAgt_pt (a w : Nat) : (shadowAgt s a w).pt = s.pt := by obtain ⟨_, h⟩ := shadowAgt_eq s a w; rw [h]
@[simp] theorem shadowAgt_start (a w : Nat) : (shadowAgt s a w).start = s.start := by obtain ⟨_, h⟩ := shadowAgt_eq s a w; rw [h]
@[simp] theorem shadowAgt_fault (a w : Nat) : (shadowAgt s a w).fault = s.fault := by obtain ⟨_, h⟩ := shadowAgt_eq s a w; rw [h]
@[simp] theorem shadowAgt_nq (a w : Nat) : (shadowAgt s a w).nq = s.nq := by obtain ⟨_, h⟩ := shadowAgt_eq s a w; rw [h]
@[simp] theorem shadowAgt_fb (a w : Nat) : (shadowAgt s a w).fb = s.fb := by obtain ⟨_, h⟩ := shadowAgt_eq s a w; rw [h]
@[simp] theorem shadowAgt_irq (a w : Nat) : (shadowAgt s a w).irq = s.irq := by obtain ⟨_, h⟩ := shadowAgt_eq s a w; rw [h]
@[simp] theorem shadowAgt_cmd (a w : Nat) : (shadowAgt s a w).cmd = s.cmd := by obtain ⟨_, h⟩ := shadowAgt_eq s a w; rw [h]
@[simp] theorem shadowAgt_sleepReady (a w : Nat) : (shadowAgt s a w).sleepReady = s.sleepReady := by obtain ⟨_, h⟩ := shadowAgt_eq s a w; rw [h]
@[simp] theorem shadowAgt_frzReq (a w : Nat) : (shadowAgt s a w).frzReq = s.frzReq := by obtain ⟨_, h⟩ := shadowAgt_eq s a w; rw [h]
@[simp] theorem shadowAgt_frzCode (a w : Nat) : (shadowAgt s a w).frzCode = s.frzCode := by obtain ⟨_, h⟩ := shadowAgt_eq s a w; rw [h]
@[simp] theorem shadowAgt_frzOrigin (a w : Nat) : (shadowAgt s a w).frzOrigin = s.frzOrigin := by obtain ⟨_, h⟩ := shadowAgt_eq s a w; rw [h]
@[simp] theorem shadowAgt_walks (a w : Nat) : (shadowAgt s a w).walks = s.walks := by obtain ⟨_, h⟩ := shadowAgt_eq s a w; rw [h]
@[simp] theorem shadowAgt_conf (a w : Nat) : (shadowAgt s a w).conf = s.conf := by obtain ⟨_, h⟩ := shadowAgt_eq s a w; rw [h]
@[simp] theorem shadowAgt_tx (a w : Nat) : (shadowAgt s a w).tx = s.tx := by obtain ⟨_, h⟩ := shadowAgt_eq s a w; rw [h]
@[simp] theorem shadowAgt_memTx (a w : Nat) : (shadowAgt s a w).memTx = s.memTx := by obtain ⟨_, h⟩ := shadowAgt_eq s a w; rw [h]
@[simp] theorem shadowAgt_ptTx (a w : Nat) : (shadowAgt s a w).ptTx = s.ptTx := by obtain ⟨_, h⟩ := shadowAgt_eq s a w; rw [h]
@[simp] theorem shadowAgt_work (a w : Nat) : (shadowAgt s a w).work = s.work := by obtain ⟨_, h⟩ := shadowAgt_eq s a w; rw [h]
@[simp] theorem shadowAgt_free (a w : Nat) : (shadowAgt s a w).free = s.free := by obtain ⟨_, h⟩ := shadowAgt_eq s a w; rw [h]
@[simp] theorem shadowAgt_pending (a w : Nat) : (shadowAgt s a w).pending = s.pending := by obtain ⟨_, h⟩ := shadowAgt_eq s a w; rw [h]

/-- wdogArm can change sl and nothing else. -/
theorem wdogArm_eq (n : Nat) : ∃ l, (s.wdogArm n) = { s with sl := l } := by
  unfold State.wdogArm; dsimp only
  split
  · exact ⟨_, rfl⟩
  · exact ⟨s.sl, rfl⟩

@[simp] theorem wdogArm_dft (n : Nat) : (s.wdogArm n).dft = s.dft := by obtain ⟨_, h⟩ := wdogArm_eq s n; rw [h]
@[simp] theorem wdogArm_vaux (n : Nat) : (s.wdogArm n).vaux = s.vaux := by obtain ⟨_, h⟩ := wdogArm_eq s n; rw [h]
@[simp] theorem wdogArm_portUp (n : Nat) : (s.wdogArm n).portUp = s.portUp := by obtain ⟨_, h⟩ := wdogArm_eq s n; rw [h]
@[simp] theorem wdogArm_coreUp (n : Nat) : (s.wdogArm n).coreUp = s.coreUp := by obtain ⟨_, h⟩ := wdogArm_eq s n; rw [h]
@[simp] theorem wdogArm_coldRst (n : Nat) : (s.wdogArm n).coldRst = s.coldRst := by obtain ⟨_, h⟩ := wdogArm_eq s n; rw [h]
@[simp] theorem wdogArm_warmRst (n : Nat) : (s.wdogArm n).warmRst = s.warmRst := by obtain ⟨_, h⟩ := wdogArm_eq s n; rw [h]
@[simp] theorem wdogArm_freezeIn (n : Nat) : (s.wdogArm n).freezeIn = s.freezeIn := by obtain ⟨_, h⟩ := wdogArm_eq s n; rw [h]
@[simp] theorem wdogArm_wakeIn (n : Nat) : (s.wdogArm n).wakeIn = s.wakeIn := by obtain ⟨_, h⟩ := wdogArm_eq s n; rw [h]
@[simp] theorem wdogArm_regs (n : Nat) : (s.wdogArm n).regs = s.regs := by obtain ⟨_, h⟩ := wdogArm_eq s n; rw [h]
@[simp] theorem wdogArm_hiLatch (n : Nat) : (s.wdogArm n).hiLatch = s.hiLatch := by obtain ⟨_, h⟩ := wdogArm_eq s n; rw [h]
@[simp] theorem wdogArm_wrHold (n : Nat) : (s.wdogArm n).wrHold = s.wrHold := by obtain ⟨_, h⟩ := wdogArm_eq s n; rw [h]
@[simp] theorem wdogArm_rdata (n : Nat) : (s.wdogArm n).rdata = s.rdata := by obtain ⟨_, h⟩ := wdogArm_eq s n; rw [h]
@[simp] theorem wdogArm_now (n : Nat) : (s.wdogArm n).now = s.now := by obtain ⟨_, h⟩ := wdogArm_eq s n; rw [h]
@[simp] theorem wdogArm_lehrNow (n : Nat) : (s.wdogArm n).lehrNow = s.lehrNow := by obtain ⟨_, h⟩ := wdogArm_eq s n; rw [h]
@[simp] theorem wdogArm_port (n : Nat) : (s.wdogArm n).port = s.port := by obtain ⟨_, h⟩ := wdogArm_eq s n; rw [h]
@[simp] theorem wdogArm_agt (n : Nat) : (s.wdogArm n).agt = s.agt := by obtain ⟨_, h⟩ := wdogArm_eq s n; rw [h]
@[simp] theorem wdogArm_shadow (n : Nat) : (s.wdogArm n).shadow = s.shadow := by obtain ⟨_, h⟩ := wdogArm_eq s n; rw [h]
@[simp] theorem wdogArm_cab (n : Nat) : (s.wdogArm n).cab = s.cab := by obtain ⟨_, h⟩ := wdogArm_eq s n; rw [h]
@[simp] theorem wdogArm_mem (n : Nat) : (s.wdogArm n).mem = s.mem := by obtain ⟨_, h⟩ := wdogArm_eq s n; rw [h]
@[simp] theorem wdogArm_integ (n : Nat) : (s.wdogArm n).integ = s.integ := by obtain ⟨_, h⟩ := wdogArm_eq s n; rw [h]
@[simp] theorem wdogArm_repair (n : Nat) : (s.wdogArm n).repair = s.repair := by obtain ⟨_, h⟩ := wdogArm_eq s n; rw [h]
@[simp] theorem wdogArm_govSlot (n : Nat) : (s.wdogArm n).govSlot = s.govSlot := by obtain ⟨_, h⟩ := wdogArm_eq s n; rw [h]
@[simp] theorem wdogArm_govCap (n : Nat) : (s.wdogArm n).govCap = s.govCap := by obtain ⟨_, h⟩ := wdogArm_eq s n; rw [h]
@[simp] theorem wdogArm_govBg (n : Nat) : (s.wdogArm n).govBg = s.govBg := by obtain ⟨_, h⟩ := wdogArm_eq s n; rw [h]
@[simp] theorem wdogArm_stw (n : Nat) : (s.wdogArm n).stw = s.stw := by obtain ⟨_, h⟩ := wdogArm_eq s n; rw [h]
@[simp] theorem wdogArm_hutch (n : Nat) : (s.wdogArm n).hutch = s.hutch := by obtain ⟨_, h⟩ := wdogArm_eq s n; rw [h]
@[simp] theorem wdogArm_lehr (n : Nat) : (s.wdogArm n).lehr = s.lehr := by obtain ⟨_, h⟩ := wdogArm_eq s n; rw [h]
@[simp] theorem wdogArm_pt (n : Nat) : (s.wdogArm n).pt = s.pt := by obtain ⟨_, h⟩ := wdogArm_eq s n; rw [h]
@[simp] theorem wdogArm_start (n : Nat) : (s.wdogArm n).start = s.start := by obtain ⟨_, h⟩ := wdogArm_eq s n; rw [h]
@[simp] theorem wdogArm_fault (n : Nat) : (s.wdogArm n).fault = s.fault := by obtain ⟨_, h⟩ := wdogArm_eq s n; rw [h]
@[simp] theorem wdogArm_nq (n : Nat) : (s.wdogArm n).nq = s.nq := by obtain ⟨_, h⟩ := wdogArm_eq s n; rw [h]
@[simp] theorem wdogArm_fb (n : Nat) : (s.wdogArm n).fb = s.fb := by obtain ⟨_, h⟩ := wdogArm_eq s n; rw [h]
@[simp] theorem wdogArm_irq (n : Nat) : (s.wdogArm n).irq = s.irq := by obtain ⟨_, h⟩ := wdogArm_eq s n; rw [h]
@[simp] theorem wdogArm_cmd (n : Nat) : (s.wdogArm n).cmd = s.cmd := by obtain ⟨_, h⟩ := wdogArm_eq s n; rw [h]
@[simp] theorem wdogArm_sleepReady (n : Nat) : (s.wdogArm n).sleepReady = s.sleepReady := by obtain ⟨_, h⟩ := wdogArm_eq s n; rw [h]
@[simp] theorem wdogArm_frzReq (n : Nat) : (s.wdogArm n).frzReq = s.frzReq := by obtain ⟨_, h⟩ := wdogArm_eq s n; rw [h]
@[simp] theorem wdogArm_frzCode (n : Nat) : (s.wdogArm n).frzCode = s.frzCode := by obtain ⟨_, h⟩ := wdogArm_eq s n; rw [h]
@[simp] theorem wdogArm_frzOrigin (n : Nat) : (s.wdogArm n).frzOrigin = s.frzOrigin := by obtain ⟨_, h⟩ := wdogArm_eq s n; rw [h]
@[simp] theorem wdogArm_walks (n : Nat) : (s.wdogArm n).walks = s.walks := by obtain ⟨_, h⟩ := wdogArm_eq s n; rw [h]
@[simp] theorem wdogArm_conf (n : Nat) : (s.wdogArm n).conf = s.conf := by obtain ⟨_, h⟩ := wdogArm_eq s n; rw [h]
@[simp] theorem wdogArm_tx (n : Nat) : (s.wdogArm n).tx = s.tx := by obtain ⟨_, h⟩ := wdogArm_eq s n; rw [h]
@[simp] theorem wdogArm_memTx (n : Nat) : (s.wdogArm n).memTx = s.memTx := by obtain ⟨_, h⟩ := wdogArm_eq s n; rw [h]
@[simp] theorem wdogArm_ptTx (n : Nat) : (s.wdogArm n).ptTx = s.ptTx := by obtain ⟨_, h⟩ := wdogArm_eq s n; rw [h]
@[simp] theorem wdogArm_work (n : Nat) : (s.wdogArm n).work = s.work := by obtain ⟨_, h⟩ := wdogArm_eq s n; rw [h]
@[simp] theorem wdogArm_free (n : Nat) : (s.wdogArm n).free = s.free := by obtain ⟨_, h⟩ := wdogArm_eq s n; rw [h]
@[simp] theorem wdogArm_pending (n : Nat) : (s.wdogArm n).pending = s.pending := by obtain ⟨_, h⟩ := wdogArm_eq s n; rw [h]

/-- slIssued can change sl and nothing else. -/
theorem slIssued_eq (n c : Nat) : ∃ l, (slIssued s n c) = { s with sl := l } := by
  exact ⟨_, rfl⟩

@[simp] theorem slIssued_dft (n c : Nat) : (slIssued s n c).dft = s.dft := by obtain ⟨_, h⟩ := slIssued_eq s n c; rw [h]
@[simp] theorem slIssued_vaux (n c : Nat) : (slIssued s n c).vaux = s.vaux := by obtain ⟨_, h⟩ := slIssued_eq s n c; rw [h]
@[simp] theorem slIssued_portUp (n c : Nat) : (slIssued s n c).portUp = s.portUp := by obtain ⟨_, h⟩ := slIssued_eq s n c; rw [h]
@[simp] theorem slIssued_coreUp (n c : Nat) : (slIssued s n c).coreUp = s.coreUp := by obtain ⟨_, h⟩ := slIssued_eq s n c; rw [h]
@[simp] theorem slIssued_coldRst (n c : Nat) : (slIssued s n c).coldRst = s.coldRst := by obtain ⟨_, h⟩ := slIssued_eq s n c; rw [h]
@[simp] theorem slIssued_warmRst (n c : Nat) : (slIssued s n c).warmRst = s.warmRst := by obtain ⟨_, h⟩ := slIssued_eq s n c; rw [h]
@[simp] theorem slIssued_freezeIn (n c : Nat) : (slIssued s n c).freezeIn = s.freezeIn := by obtain ⟨_, h⟩ := slIssued_eq s n c; rw [h]
@[simp] theorem slIssued_wakeIn (n c : Nat) : (slIssued s n c).wakeIn = s.wakeIn := by obtain ⟨_, h⟩ := slIssued_eq s n c; rw [h]
@[simp] theorem slIssued_regs (n c : Nat) : (slIssued s n c).regs = s.regs := by obtain ⟨_, h⟩ := slIssued_eq s n c; rw [h]
@[simp] theorem slIssued_hiLatch (n c : Nat) : (slIssued s n c).hiLatch = s.hiLatch := by obtain ⟨_, h⟩ := slIssued_eq s n c; rw [h]
@[simp] theorem slIssued_wrHold (n c : Nat) : (slIssued s n c).wrHold = s.wrHold := by obtain ⟨_, h⟩ := slIssued_eq s n c; rw [h]
@[simp] theorem slIssued_rdata (n c : Nat) : (slIssued s n c).rdata = s.rdata := by obtain ⟨_, h⟩ := slIssued_eq s n c; rw [h]
@[simp] theorem slIssued_now (n c : Nat) : (slIssued s n c).now = s.now := by obtain ⟨_, h⟩ := slIssued_eq s n c; rw [h]
@[simp] theorem slIssued_lehrNow (n c : Nat) : (slIssued s n c).lehrNow = s.lehrNow := by obtain ⟨_, h⟩ := slIssued_eq s n c; rw [h]
@[simp] theorem slIssued_port (n c : Nat) : (slIssued s n c).port = s.port := by obtain ⟨_, h⟩ := slIssued_eq s n c; rw [h]
@[simp] theorem slIssued_agt (n c : Nat) : (slIssued s n c).agt = s.agt := by obtain ⟨_, h⟩ := slIssued_eq s n c; rw [h]
@[simp] theorem slIssued_shadow (n c : Nat) : (slIssued s n c).shadow = s.shadow := by obtain ⟨_, h⟩ := slIssued_eq s n c; rw [h]
@[simp] theorem slIssued_cab (n c : Nat) : (slIssued s n c).cab = s.cab := by obtain ⟨_, h⟩ := slIssued_eq s n c; rw [h]
@[simp] theorem slIssued_mem (n c : Nat) : (slIssued s n c).mem = s.mem := by obtain ⟨_, h⟩ := slIssued_eq s n c; rw [h]
@[simp] theorem slIssued_integ (n c : Nat) : (slIssued s n c).integ = s.integ := by obtain ⟨_, h⟩ := slIssued_eq s n c; rw [h]
@[simp] theorem slIssued_repair (n c : Nat) : (slIssued s n c).repair = s.repair := by obtain ⟨_, h⟩ := slIssued_eq s n c; rw [h]
@[simp] theorem slIssued_govSlot (n c : Nat) : (slIssued s n c).govSlot = s.govSlot := by obtain ⟨_, h⟩ := slIssued_eq s n c; rw [h]
@[simp] theorem slIssued_govCap (n c : Nat) : (slIssued s n c).govCap = s.govCap := by obtain ⟨_, h⟩ := slIssued_eq s n c; rw [h]
@[simp] theorem slIssued_govBg (n c : Nat) : (slIssued s n c).govBg = s.govBg := by obtain ⟨_, h⟩ := slIssued_eq s n c; rw [h]
@[simp] theorem slIssued_stw (n c : Nat) : (slIssued s n c).stw = s.stw := by obtain ⟨_, h⟩ := slIssued_eq s n c; rw [h]
@[simp] theorem slIssued_hutch (n c : Nat) : (slIssued s n c).hutch = s.hutch := by obtain ⟨_, h⟩ := slIssued_eq s n c; rw [h]
@[simp] theorem slIssued_lehr (n c : Nat) : (slIssued s n c).lehr = s.lehr := by obtain ⟨_, h⟩ := slIssued_eq s n c; rw [h]
@[simp] theorem slIssued_pt (n c : Nat) : (slIssued s n c).pt = s.pt := by obtain ⟨_, h⟩ := slIssued_eq s n c; rw [h]
@[simp] theorem slIssued_start (n c : Nat) : (slIssued s n c).start = s.start := by obtain ⟨_, h⟩ := slIssued_eq s n c; rw [h]
@[simp] theorem slIssued_fault (n c : Nat) : (slIssued s n c).fault = s.fault := by obtain ⟨_, h⟩ := slIssued_eq s n c; rw [h]
@[simp] theorem slIssued_nq (n c : Nat) : (slIssued s n c).nq = s.nq := by obtain ⟨_, h⟩ := slIssued_eq s n c; rw [h]
@[simp] theorem slIssued_fb (n c : Nat) : (slIssued s n c).fb = s.fb := by obtain ⟨_, h⟩ := slIssued_eq s n c; rw [h]
@[simp] theorem slIssued_irq (n c : Nat) : (slIssued s n c).irq = s.irq := by obtain ⟨_, h⟩ := slIssued_eq s n c; rw [h]
@[simp] theorem slIssued_cmd (n c : Nat) : (slIssued s n c).cmd = s.cmd := by obtain ⟨_, h⟩ := slIssued_eq s n c; rw [h]
@[simp] theorem slIssued_sleepReady (n c : Nat) : (slIssued s n c).sleepReady = s.sleepReady := by obtain ⟨_, h⟩ := slIssued_eq s n c; rw [h]
@[simp] theorem slIssued_frzReq (n c : Nat) : (slIssued s n c).frzReq = s.frzReq := by obtain ⟨_, h⟩ := slIssued_eq s n c; rw [h]
@[simp] theorem slIssued_frzCode (n c : Nat) : (slIssued s n c).frzCode = s.frzCode := by obtain ⟨_, h⟩ := slIssued_eq s n c; rw [h]
@[simp] theorem slIssued_frzOrigin (n c : Nat) : (slIssued s n c).frzOrigin = s.frzOrigin := by obtain ⟨_, h⟩ := slIssued_eq s n c; rw [h]
@[simp] theorem slIssued_walks (n c : Nat) : (slIssued s n c).walks = s.walks := by obtain ⟨_, h⟩ := slIssued_eq s n c; rw [h]
@[simp] theorem slIssued_conf (n c : Nat) : (slIssued s n c).conf = s.conf := by obtain ⟨_, h⟩ := slIssued_eq s n c; rw [h]
@[simp] theorem slIssued_tx (n c : Nat) : (slIssued s n c).tx = s.tx := by obtain ⟨_, h⟩ := slIssued_eq s n c; rw [h]
@[simp] theorem slIssued_memTx (n c : Nat) : (slIssued s n c).memTx = s.memTx := by obtain ⟨_, h⟩ := slIssued_eq s n c; rw [h]
@[simp] theorem slIssued_ptTx (n c : Nat) : (slIssued s n c).ptTx = s.ptTx := by obtain ⟨_, h⟩ := slIssued_eq s n c; rw [h]
@[simp] theorem slIssued_work (n c : Nat) : (slIssued s n c).work = s.work := by obtain ⟨_, h⟩ := slIssued_eq s n c; rw [h]
@[simp] theorem slIssued_free (n c : Nat) : (slIssued s n c).free = s.free := by obtain ⟨_, h⟩ := slIssued_eq s n c; rw [h]
@[simp] theorem slIssued_pending (n c : Nat) : (slIssued s n c).pending = s.pending := by obtain ⟨_, h⟩ := slIssued_eq s n c; rw [h]

end Sys2Proof.Machine
end

