-- ==== Sys2Proof/Laws/Regs.lean ====
section
/-! SUPPORT. Reading fields back: a field after a write of it, of another field of its register, or of another register. -/

namespace Sys2Proof.Machine

variable (s : State)

theorem reg_setReg_ne (r q : RegName) (v : BitVec 64) (i j k l : Nat) (h : q.addr k l ≠ r.addr i j) :
    (s.setReg r v i j).reg q k l = s.reg q k l := by
  simp only [State.reg, State.setReg]; exact SMap.getD_set_other _ _ _ _ _ _ h

/-- A bit of a field's value. -/
theorem get_testBit (f : Fld) (w : BitVec 64) (k : Nat) (hk : k < f.hi + 1 - f.lo) :
    (f.get w).testBit k = w.getLsbD (f.lo + k) := by
  simp [Fld.get, Nat.testBit_mod_two_pow, hk, Nat.testBit_div_two_pow, BitVec.getLsbD, Nat.add_comm]

theorem get_testBit_hi (f : Fld) (w : BitVec 64) (k : Nat) (hk : f.hi + 1 - f.lo ≤ k) : (f.get w).testBit k = false := by
  simp [Fld.get, Nat.testBit_mod_two_pow, Nat.not_lt.2 hk]

theorem mask_bit (f : Fld) (k : Nat) : f.mask.getLsbD k = (decide (k < 64) && decide (f.lo ≤ k) && decide (k < f.lo + (f.hi + 1 - f.lo))) := by
  simp only [Fld.mask, BitVec.getLsbD_ofNat, Nat.testBit_mul_two_pow, Nat.testBit_two_pow_sub_one, Bool.and_assoc]
  by_cases h : f.lo ≤ k
  · have : (k - f.lo < f.hi + 1 - f.lo) ↔ (k < f.lo + (f.hi + 1 - f.lo)) := by omega
    simp [h, this]
  · simp [h]

theorem put_bit (f : Fld) (v k : Nat) :
    (f.put v).getLsbD k = (decide (k < 64) && decide (f.lo ≤ k) && decide (k < f.lo + (f.hi + 1 - f.lo)) && v.testBit (k - f.lo)) := by
  simp only [Fld.put, BitVec.getLsbD_ofNat, Nat.testBit_mul_two_pow, Nat.testBit_mod_two_pow, Bool.and_assoc]
  by_cases h : f.lo ≤ k
  · have : (k - f.lo < f.hi + 1 - f.lo) ↔ (k < f.lo + (f.hi + 1 - f.lo)) := by omega
    simp [h, this]
  · simp [h]

/-- A field reads back what was written, cut to its width. -/
theorem fld_setFld_same (f : Fld) (v i j : Nat) (h : f.hi < 64) :
    (s.setFld f v i j).fld f i j = v % 2 ^ (f.hi + 1 - f.lo) := by
  apply Nat.eq_of_testBit_eq
  intro k
  simp only [State.fld, State.setFld, State.reg, State.setReg, SMap.getD_set_same]
  by_cases hk : k < f.hi + 1 - f.lo
  · rw [get_testBit _ _ _ hk, BitVec.getLsbD_or, BitVec.getLsbD_and, BitVec.getLsbD_not, mask_bit, put_bit,
      Nat.testBit_mod_two_pow]
    have h1 : f.lo + k < 64 := by omega
    have h2 : f.lo + k < f.lo + (f.hi + 1 - f.lo) := by omega
    simp [h1, hk]
  · rw [get_testBit_hi _ _ _ (Nat.not_lt.1 hk), Nat.testBit_mod_two_pow]; simp [hk]

/-- A write of a field leaves a field of the same register with other bits. -/
theorem fld_setFld_disj (f g : Fld) (v i j : Nat) (hr : g.reg = f.reg) (hd : g.hi < f.lo ∨ f.hi < g.lo) :
    (s.setFld f v i j).fld g i j = s.fld g i j := by
  apply Nat.eq_of_testBit_eq
  intro k
  simp only [State.fld, State.setFld, State.reg, State.setReg, hr, SMap.getD_set_same]
  by_cases hk : k < g.hi + 1 - g.lo
  · rw [get_testBit _ _ _ hk, get_testBit _ _ _ hk, BitVec.getLsbD_or, BitVec.getLsbD_and, BitVec.getLsbD_not, mask_bit,
      put_bit]
    have : ¬ (f.lo ≤ g.lo + k ∧ g.lo + k < f.lo + (f.hi + 1 - f.lo)) := by omega
    rcases Nat.lt_or_ge (g.lo + k) f.lo with h1 | h1
    · have : ¬ f.lo ≤ g.lo + k := by omega
      by_cases h2 : g.lo + k < 64
      · simp [this, h2]
      · simp [h2, BitVec.getLsbD_of_ge _ _ (Nat.not_lt.1 h2)]
    · have : ¬ g.lo + k < f.lo + (f.hi + 1 - f.lo) := by omega
      by_cases h2 : g.lo + k < 64
      · simp [this, h2]
      · simp [h2, BitVec.getLsbD_of_ge _ _ (Nat.not_lt.1 h2)]
  · rw [get_testBit_hi _ _ _ (Nat.not_lt.1 hk), get_testBit_hi _ _ _ (Nat.not_lt.1 hk)]

/-- A write of a field leaves every other register. -/
theorem fld_setFld_ne (f g : Fld) (v i j k l : Nat) (h : g.reg.addr k l ≠ f.reg.addr i j) :
    (s.setFld f v i j).fld g k l = s.fld g k l := by
  simp only [State.fld, State.setFld, reg_setReg_ne _ _ _ _ _ _ _ _ h]

theorem fld_lt (f : Fld) (i j : Nat) : s.fld f i j < 2 ^ (f.hi + 1 - f.lo) := Nat.mod_lt _ (Nat.two_pow_pos _)

end Sys2Proof.Machine
end

