-- ==== Sys2Proof/Laws/Run.lean ====
section
/-! SUPPORT. What a run of a command can do, said once: `run` answers a next state unless DFT_MODE = 1, `finish` of a restful
state changes the interrupt controller alone, and the reads and writes of the repeated pieces of state. -/

namespace Sys2Proof.Machine

theorem run_next (f : State → State) (s : State) (h : s.dft = false) : run f s = .next (finish (f (freshOut s))) := by
  simp [run, h]

theorem run_dft (f : State → State) (s : State) (h : s.dft = true) : run f s = .refused .dftMode := by simp [run, h]

/-- A command whose meaning is `run f` completes with what `f` gives. -/
theorem completes_run {c : Instr} {s : State} {P : State → Prop} (f : State → State) (hx : exec c s = run f s)
    (h : s.dft = false) (hp : P (f (freshOut s))) : Completes c s P :=
  ⟨f (freshOut s), by rw [hx, run_next f s h], hp⟩

theorem finish_restful (s : State) (h : restful s = true) : finish s = sampleIrq s := by simp [finish, h]

/-! ### Reading back -/

@[simp] theorem reg_setReg (s : State) (r : RegName) (v : BitVec 64) (i j : Nat) : (s.setReg r v i j).reg r i j = v := by
  simp [State.reg, State.setReg]

@[simp] theorem fport_setFport (s : State) (p : Nat) (v : FPort) : (s.setFport p v).fport p = v := by
  simp [State.fport, State.setFport]

@[simp] theorem thr_setThr (s : State) (t : Nat) (v : Thread) : (s.setThr t v).thr t = v := by
  simp [State.thr, State.setThr]

theorem thr_setThr_ne (s : State) (t k : Nat) (v : Thread) (h : k ≠ t) : (s.setThr t v).thr k = s.thr k := by
  simp [State.thr, State.setThr, SMap.getD_set_ne _ _ _ _ _ h]

@[simp] theorem trkE_setTrkE (s : State) (n : Nat) (v : Trk) : (s.setTrkE n v).trkE n = v := by
  simp [State.trkE, State.setTrkE]

@[simp] theorem holdE_setHoldE (s : State) (n : Nat) (v : HoldSlot) : (s.setHoldE n v).holdE n = v := by
  simp [State.holdE, State.setHoldE]

@[simp] theorem recE_setRecE (s : State) (n : Nat) (v : AccRec) : (s.setRecE n v).recE n = v := by
  simp [State.recE, State.setRecE]

@[simp] theorem datE_setDatE (s : State) (p e : Nat) (v : DatEntry) : (s.setDatE p e v).datE p e = v := by
  simp [State.datE, State.setDatE]

@[simp] theorem mport_setMport (s : State) (n : Nat) (v : MPort) : (s.setMport n v).mport n = v := by
  simp [State.mport, State.setMport]

@[simp] theorem hut_setHut (s : State) (n : Nat) (v : Hutch) : (s.setHut n v).hut n = v := by
  simp [State.hut, State.setHut]

@[simp] theorem slq_setSlq (s : State) (n : Nat) (v : SliceQ) : (s.setSlq n v).slq n = v := by
  simp [State.slq, State.setSlq]

@[simp] theorem drq_setDrq (s : State) (n : Nat) (v : DrawerQ) : (s.setDrq n v).drq n = v := by
  simp [State.drq, State.setDrq]

/-- A general register other than g0 reads back what was written; g0 reads 0 (R237). -/
theorem greg_setGreg (s : State) (t n : Nat) (v : BitVec 64) : (s.setGreg t n v).greg t n = if n = 0 then 0 else v := by
  by_cases h : n = 0 <;> simp [State.greg, State.setGreg, h]

/-! ### The memories keep their canonical form -/

/-- A write of a local memory word keeps the canonical form. -/
theorem lwrite_wf (s : State) (t w : Nat) (v : BitVec 64) (h : Memory.wf s) : Memory.wf (lwrite s t w v) := by
  simp only [Memory.wf, lwrite, wordWritten_stw, wordWritten_cab, wordWritten_agt]
  exact ⟨SMap.wf_set _ _ _ _ h.1, h.2.1, h.2.2.1, h.2.2.2⟩

/-- A write of the agent table keeps it. -/
theorem agtWrite_wf (s : State) (a w : Nat) (h : Memory.wf s) : Memory.wf (agtWrite s a w) := by
  simp only [Memory.wf, agtWrite, shadowAgt_stw, shadowAgt_cab, shadowAgt_agt, wordWritten_stw, wordWritten_cab, wordWritten_agt]
  exact ⟨h.1, h.2.1, h.2.2.1, SMap.wf_set _ _ _ _ h.2.2.2⟩

theorem noteWritten_stw (s : State) (d w : Nat) : (noteWritten s d w).stw = s.stw := rfl
theorem noteWritten_agt (s : State) (d w : Nat) : (noteWritten s d w).agt = s.agt := rfl
theorem noteWritten_words (s : State) (d w : Nat) : (noteWritten s d w).cab.words = s.cab.words := rfl
theorem noteWritten_spare (s : State) (d w : Nat) : (noteWritten s d w).cab.spare = s.cab.spare := rfl

/-- A write of a Drawer word keeps it. -/
theorem drawerPut_wf (s : State) (d w : Nat) (v : BitVec 120) (h : Memory.wf s) : Memory.wf (drawerPut s d w v) := by
  unfold drawerPut
  cases spareOf s d w with
  | some k =>
    simp only [Memory.wf, noteWritten_stw, noteWritten_agt, noteWritten_words, noteWritten_spare, wordWritten_stw,
      wordWritten_cab, wordWritten_agt]
    exact ⟨h.1, h.2.1, SMap.wf_set _ _ _ _ h.2.2.1, h.2.2.2⟩
  | none =>
    simp only [Memory.wf, noteWritten_stw, noteWritten_agt, noteWritten_words, noteWritten_spare, wordWritten_stw,
      wordWritten_cab, wordWritten_agt]
    exact ⟨h.1, SMap.wf_set _ _ _ _ h.2.1, h.2.2.1, h.2.2.2⟩

theorem reset_wf : Memory.wf State.reset := ⟨rfl, rfl, rfl, rfl⟩

end Sys2Proof.Machine
end

