-- ==== Sys2Proof/Laws/Yelgar.lean ====
section
/-! SUPPORT. What issuing an instruction does, said once: a thread that can issue runs the instruction's body in the state
`issued`, which differs from the state before in the thread's last PC and, by telemetry, in counters. -/

namespace Sys2Proof.Machine

variable (s : State)

/-- The state in which an instruction's body runs. -/
def issued (s : State) (t : Nat) : State := clEvent (s.setThr t { s.thr t with last := (s.thr t).pc }) (t / 4) 2

theorem cnt_addr (c k : Nat) (hc : c < 16) (hk : k < 8) : isCntOff (RegName.CL_TEL_CNT.addr c k) = true := by
  have e : RegName.CL_TEL_CNT.addr c k = 0x100620 + 0x10000 * c + 8 * k := rfl
  rw [e]
  simp only [isCntOff, Bool.or_eq_true, Bool.and_eq_true, decide_eq_true_eq]
  left; right; omega

theorem kept_setFld (s : State) (f : Fld) (v i j : Nat) (h : isCntOff (f.reg.addr i j) = true) : RegsKept s (s.setFld f v i j) := by
  intro d k hk
  have : k ≠ f.reg.addr i j := by rintro rfl; simp [h] at hk
  simp only [State.setFld, State.setReg]
  exact SMap.getD_set_other _ _ _ _ _ _ this

theorem kept_refl (s : State) : RegsKept s s := fun _ _ _ => rfl
theorem kept_trans {s t u : State} (h : RegsKept s t) (k : RegsKept t u) : RegsKept s u :=
  fun d i hi => (k d i hi).trans (h d i hi)

theorem kept_bump (v o : Fld) (i j id : Nat) (hv : isCntOff (v.reg.addr i j) = true) (ho : isCntOff (o.reg.addr i j) = true) :
    RegsKept s (bumpCnt s v o i j id) := by
  have key : ∀ z : State, RegsKept s z → RegsKept s
      (if z.fld Fld.FRZ_CTL_CNT_EN = 1 ∧ z.fld Fld.FRZ_CNT_SEL_ID = id ∧ s.fld v i j < z.fld Fld.FRZ_CNT_VAL_VALUE ∧
        z.fld Fld.FRZ_CNT_VAL_VALUE ≤ (s.fld v i j + 1) % 2 ^ 48 then { z with frzReq := z.frzReq ||| 8 } else z) := by
    intro z hz; split <;> exact hz
  unfold bumpCnt
  dsimp only
  refine key _ ?_
  split
  · exact kept_trans (kept_setFld s v _ i j hv) (kept_setFld _ o 1 i j ho)
  · exact kept_setFld s v _ i j hv

theorem kept_clEvent (c ev : Nat) (hc : c < 16) : RegsKept s (clEvent s c ev) := by
  have key : ∀ l : List Nat, (∀ k ∈ l, k < 8) → ∀ z : State, RegsKept s z → RegsKept s (l.foldl (fun t k =>
      if t.fld Fld.CL_TEL_SEL_EVENT c k = ev then
        bumpCnt t Fld.CL_TEL_CNT_VALUE Fld.CL_TEL_CNT_OVF c k (1152 + 8 * c + k) else t) z) := by
    intro l
    induction l with
    | nil => intro _ z hz; exact hz
    | cons k l ih =>
      intro hl z hz
      refine ih (fun x hx => hl x (List.mem_cons_of_mem _ hx)) _ ?_
      have hk := hl k List.mem_cons_self
      show RegsKept s (if _ then _ else _)
      split
      · exact kept_trans hz (kept_bump z _ _ _ _ _ (cnt_addr c k hc hk) (cnt_addr c k hc hk))
      · exact hz
  exact key _ (fun k hk => List.mem_range.1 hk) s (kept_refl s)

/-- Issuing changes the thread's last PC and counters alone. -/
theorem issued_thr (t : Nat) : (issued s t).thr t = { s.thr t with last := (s.thr t).pc } := by
  simp [issued, State.thr, State.setThr]

theorem issued_thr_ne (t k : Nat) (h : k ≠ t) : (issued s t).thr k = s.thr k := by
  simp [issued, State.thr, State.setThr, SMap.getD_set_ne _ _ _ _ _ h]

@[simp] theorem issued_greg (t n : Nat) : (issued s t).greg t n = s.greg t n := by
  simp [State.greg, issued_thr]

@[simp] theorem issued_pred (t n : Nat) : (issued s t).pred t n = s.pred t n := by
  simp [State.pred, issued_thr]

@[simp] theorem issued_lmem (t : Nat) : (issued s t).stw.lmem = s.stw.lmem := by simp [issued, State.setThr]
@[simp] theorem issued_gaV (t : Nat) (i : Ins) : gaV (issued s t) t i = gaV s t i := issued_greg ..
@[simp] theorem issued_gbV (t : Nat) (i : Ins) : gbV (issued s t) t i = gbV s t i := issued_greg ..
@[simp] theorem issued_op2 (t : Nat) (i : Ins) : op2 (issued s t) t i = op2 s t i := by
  unfold op2; split <;> simp

theorem issued_only (t : Nat) (h : t < 64) : StwOnly s (issued (freshOut s) t) := by
  refine ⟨?_, fun d k hk => ?_⟩
  · obtain ⟨r, q, e⟩ := clEvent_eq ((freshOut s).setThr t { (freshOut s).thr t with last := ((freshOut s).thr t).pc }) (t / 4) 2
    simp only [issued]
    rw [e]
    rfl
  · have := kept_clEvent ((freshOut s).setThr t { (freshOut s).thr t with last := ((freshOut s).thr t).pc }) (t / 4) 2
      (by omega)
    exact (this d k hk).trans rfl

/-! ### Fetch and issue -/

theorem fetch_local (t a : Nat) (ha : a % 4 = 0) (hl : a < 0x10000) (hm : maskOf s .stw t (a / 8) = 0) :
    fetch1 s t a = (s, true) := by
  simp [fetch1, regionOf, hl, ha, lread, wordRead, hm]

/-- A thread that can issue runs the body in the state `issued`. -/
theorem issue_run (t n w : Nat) (body : State → State) (h : Issues s t n) (hn : n = 4 ∨ n = 8) :
    issue s t n false w body = body (issued s t) := by
  obtain ⟨h1, h2, h3, h4, h5⟩ := h
  unfold issue
  rw [if_neg (by simp [h1])]
  dsimp only
  rw [fetch_local s t _ h2 (by omega) h4]
  rcases hn with rfl | rfl
  · simp [issued]
  · have e : ((s.thr t).pc.toNat + 4) % 2 ^ 64 = (s.thr t).pc.toNat + 4 := Nat.mod_eq_of_lt (by omega)
    simp only [if_true, e]
    rw [fetch_local s t ((s.thr t).pc.toNat + 4) (by omega) (by omega) (by
      rw [show (s.thr t).pc.toNat + 8 - 4 = (s.thr t).pc.toNat + 4 by omega] at h5; exact h5)]
    simp [issued]

/-- An illegal form traps (R275). -/
theorem issue_bad (t n w : Nat) (body : State → State) (h : Issues s t n) (hn : n = 4 ∨ n = 8) :
    issue s t n true w body = trap (issued s t) t 1 (BitVec.ofNat 64 w) := by
  obtain ⟨h1, h2, h3, h4, h5⟩ := h
  unfold issue
  rw [if_neg (by simp [h1])]
  dsimp only
  rw [fetch_local s t _ h2 (by omega) h4]
  rcases hn with rfl | rfl
  · simp [issued]
  · have e : ((s.thr t).pc.toNat + 4) % 2 ^ 64 = (s.thr t).pc.toNat + 4 := Nat.mod_eq_of_lt (by omega)
    simp only [if_true, e]
    rw [fetch_local s t ((s.thr t).pc.toNat + 4) (by omega) (by omega) (by
      rw [show (s.thr t).pc.toNat + 8 - 4 = (s.thr t).pc.toNat + 4 by omega] at h5; exact h5)]
    simp [issued]

/-- `Issues` speaks of no message of the last command. -/
theorem issues_fresh (t n : Nat) (h : Issues s t n) : Issues (freshOut s) t n := h

/-! ### Changes of one thread -/

@[simp] theorem advance_thr (t n : Nat) : (advance s t n).thr t = { s.thr t with
    pc := (s.thr t).pc + BitVec.ofNat 64 n, blk := .none_, fetched := [] } := by simp [advance]

@[simp] theorem jump_thr (t : Nat) (a : BitVec 64) : (jump s t a).thr t = { s.thr t with
    pc := a, blk := .none_, fetched := [] } := by simp [jump]

@[simp] theorem setThr_lmem (t : Nat) (v : Thread) : (s.setThr t v).stw.lmem = s.stw.lmem := rfl
@[simp] theorem setGreg_lmem (t n : Nat) (v : BitVec 64) : (s.setGreg t n v).stw.lmem = s.stw.lmem := by
  unfold State.setGreg; split <;> rfl

/-- A write of a general register changes the register file of its thread alone. -/
theorem setGreg_thr (t n : Nat) (v : BitVec 64) : (s.setGreg t n v).thr t = { s.thr t with g := ((s.setGreg t n v).thr t).g } := by
  unfold State.setGreg; split
  · rfl
  · simp

theorem setGreg_thr_ne (t k n : Nat) (v : BitVec 64) (h : k ≠ t) : (s.setGreg t n v).thr k = s.thr k := by
  unfold State.setGreg; split
  · rfl
  · exact thr_setThr_ne s t k _ h

theorem greg_setGreg_all (t n k : Nat) (v : BitVec 64) :
    (s.setGreg t n v).greg t k = if k = n ∧ k ≠ 0 then v else s.greg t k := by
  unfold State.setGreg
  by_cases hn : n = 0
  · subst hn; rw [if_pos rfl, if_neg (by tauto)]
  · rw [if_neg hn]
    by_cases hk : k = 0
    · simp [State.greg, hk]
    · by_cases h : k = n
      · subst h; simp [State.greg, hk]
      · simp [State.greg, hk, h, SMap.getD_set_ne _ _ _ _ _ h]

/-- An instruction body that changes stewards' state alone keeps what issuing keeps. -/
theorem stwOnly_of (t : Nat) (u : State) (h : t < 64) (hu : ∃ w, u = { issued (freshOut s) t with stw := w }) : StwOnly s u := by
  obtain ⟨w, rfl⟩ := hu
  have h1 := issued_only s t h
  refine ⟨?_, h1.2⟩
  conv_lhs => rw [h1.1]

theorem blk_of_issues (t n : Nat) (h : Issues s t n) : (s.thr t).blk = .none_ := by
  have := h.1; simp [canIssue] at this; exact this.2

/-- What every instruction that writes gd and ends does. -/
theorem retGd_returns (t : Nat) (i : Ins) (v : BitVec 64) (ht : t < 64) (hi : Issues s t (insLen i)) :
    Returns s t i.gd.toNat (insLen i) v (retGd (issued (freshOut s) t) t i v) := by
  have hb := blk_of_issues s t _ hi
  refine ⟨⟨stwOnly_of s t _ ht ?_, ?_, fun k hk => ?_⟩, fun k => ?_, ?_⟩
  · obtain ⟨w, e⟩ := setGreg_eq (issued (freshOut s) t) t i.gd.toNat v
    simp only [retGd, advance, State.setThr]
    rw [e]
    exact ⟨_, rfl⟩
  · simp only [retGd, advance]
    rw [setThr_lmem, setGreg_lmem, issued_lmem]; rfl
  · simp only [retGd, advance]
    rw [thr_setThr_ne _ _ _ _ hk, setGreg_thr_ne _ _ _ _ _ hk, issued_thr_ne _ _ _ hk]; rfl
  · have e : (retGd (issued (freshOut s) t) t i v).greg t k = ((issued (freshOut s) t).setGreg t i.gd.toNat v).greg t k := by
      simp [State.greg, retGd]
    rw [e, greg_setGreg_all, issued_greg]; rfl
  · simp only [retGd, advance_thr]
    rw [setGreg_thr, issued_thr]
    simp [freshOut, State.thr] at hb ⊢
    simp [hb]

end Sys2Proof.Machine
end

