-- ==== Sys2Proof/Machine/Lanes.lean ====
section
/-! DEFINITION. The lanes of a Punty port below its frames (R488, R489, R494, R495): the ordered sets, the bytes and the striping
of a frame, deskew, and the command that a received frame is. The 8b/10b and 64b/66b line codes and the scrambler are those the
spec names; a character or a block stands here for its coded bits. -/

namespace Sys2Proof.Machine

/-! ### Ordered sets (R489) -/

/-- A NATIVE character: a control character Kx.y or a data character, whose byte has y in [7:5] and x in [4:0]. -/
inductive PtChar
  | k (x y : Nat)
  | d (byte : BitVec 8)
  deriving DecidableEq, Repr

/-- The data character Dx.y. -/
def charD (x y : Nat) : PtChar := .d (BitVec.ofNat 8 (32 * y + x))

inductive PtSet
  | idle
  | align
  | frameStart
  deriving DecidableEq, Repr

/-- The characters of a set in NATIVE, the same on both lanes. FRAME START is followed by the frame's first data character. -/
def PtSet.native : PtSet → List PtChar
  | .idle => [.k 28 5, charD 21 5]
  | .align => [.k 28 1, charD 10 2]
  | .frameStart => [.k 28 3]

/-- The COMPAT block of a set: its block type, and the O-code of an ordered-set block. -/
def PtSet.compat : PtSet → Nat × Option Nat
  | .idle => (0x1E, none)
  | .align => (0x4B, some 0xA)
  | .frameStart => (0x78, none)

/-- The set that fills between frames at character time, or block time, `n`: ALIGN every 1,024 in place of an IDLE. -/
def ptFill (n : Nat) : PtSet := if n % 1024 = 0 then .align else .idle

/-- A lane that carries no frame for `n` pairs of character times from character time 2 `t` on. -/
def fillChars : Nat → Nat → List PtChar
  | _, 0 => []
  | t, n + 1 => (ptFill (2 * t)).native ++ fillChars (t + 1) n

/-- The characters of a lane from its first ALIGN on, and how many stood before it. -/
def fromAlign : List PtChar → Option (Nat × List PtChar)
  | [] => none
  | c :: l => if c = .k 28 1 then some (0, c :: l) else (fromAlign l).map (fun r => (r.1 + 1, r.2))

/-- Deskew: both lanes from their ALIGN on, where they are at most 4 characters apart (R57, R489). -/
def deskew (a b : List PtChar) : Option (List PtChar × List PtChar) :=
  match fromAlign a, fromAlign b with
  | some (m, a'), some (n, b') => if m ≤ n + 4 ∧ n ≤ m + 4 then some (a', b') else none
  | _, _ => none

/-! ### Frames on the lanes (R494) -/

/-- The first 36 bytes of a frame. -/
def frameBody (f : PtFrame) : List Nat :=
  [f.typ, f.seq % 64 + 64 * b2n f.nak, f.ack % 64, 0] ++ (List.range 32).map (fun k => bits f.pay.toNat (8 * k) 8)

/-- The 40 bytes of a frame: the CRC-32 of the others comes last, little-endian. -/
def frameBytes (f : PtFrame) : List Nat :=
  frameBody f ++ (List.range 4).map (fun k => bits (crc32 (frameBody f)) (8 * k) 8)

/-- Every second element from the first, and from the second: what striping sends on lane 0 and lane 1. -/
def evens {α : Type} : List α → List α
  | [] => []
  | [a] => [a]
  | a :: _ :: l => a :: evens l
def odds {α : Type} : List α → List α
  | [] => []
  | [_] => []
  | _ :: b :: l => b :: odds l

/-- Two lanes' bytes in frame order. -/
def unstripe {α : Type} : List α → List α → List α
  | a :: l, b :: m => a :: b :: unstripe l m
  | l, [] => l
  | [], m => m

/-- A frame on a lane in NATIVE: FRAME START, then every second byte, or all of them on the one lane of UP_1LANE (R492). -/
def frameChars (one : Bool) (lane : Nat) (f : PtFrame) : List PtChar :=
  let bs := if one then frameBytes f else if lane = 0 then evens (frameBytes f) else odds (frameBytes f)
  PtSet.frameStart.native ++ bs.map (fun b => .d (BitVec.ofNat 8 b))

/-- The data bytes that follow FRAME START. -/
def charBytes : List PtChar → List Nat
  | .k 28 3 :: l => l.filterMap (fun c => match c with | .d b => some b.toNat | .k _ _ => none)
  | _ => []

/-! ### What a received frame is (R495, R496) -/

/-- The number of `n` bytes from byte `b` of a frame, little-endian. -/
def frameNum (bs : List Nat) (b n : Nat) : Nat := (List.range n).foldl (fun a k => a + bs.getD (b + k) 0 * 256 ^ k) 0

def frameFlood (bs : List Nat) : Flood :=
  ⟨BitVec.ofNat 8 (bs.getD 4 0), BitVec.ofNat 16 (frameNum bs 5 2), BitVec.ofNat 8 (bs.getD 7 0)⟩

/-- SEQ, NAK and ACK of a frame, and whether its CRC is that of its first 36 bytes. -/
def frameHdr (bs : List Nat) : PtHdr :=
  let b := bs.getD 1 0
  ⟨BitVec.ofNat 6 b, bit1 b 6, BitVec.ofNat 6 (bs.getD 2 0), decide (frameNum bs 36 4 = crc32 (bs.take 36))⟩

/-- The command that a frame of 40 bytes received on a port is; none for a reserved type. -/
def frameCmd (p : BitVec 2) (bs : List Nat) : Option Instr :=
  let h := frameHdr bs
  let f := frameFlood bs
  let n8 := fun b => BitVec.ofNat 8 (bs.getD b 0)
  let n16 := fun b => BitVec.ofNat 16 (frameNum bs b 2)
  let n64 := fun b => BitVec.ofNat 64 (frameNum bs b 8)
  match bs.getD 0 0 with
  | 1 => some (.cap p h (n8 4) (n8 5) (BitVec.ofNat 2 (bs.getD 6 0)) (n16 8))
  | 2 => some (.hb p h (n8 4) (n8 6))
  | 3 => some (.faultFrame p h f (n8 8) (n16 10) (BitVec.ofNat 2 (bs.getD 9 0)) (bit1 (bs.getD 9 0) 2))
  | 4 => some (.freezeFrame p h f (n8 8))
  | 5 => some (.tsyncReq p h (n64 4))
  | 6 => some (.tsyncRsp p h (n64 4) (n64 12) (n64 20))
  | 7 => some (.pwr p h (n8 4) (n16 6) (n16 8))
  | 8 => some (.hmapSet p h f (BitVec.ofNat 12 (frameNum bs 8 2)) (n8 10) (n8 11) (bit1 (bs.getD 12 0) 0) (n8 13))
  | 9 => some (.deadFrame p h f (n16 8) (n8 10))
  | 10 => some (.lostFrame p h f (n8 8))
  | _ => none

/-- The command that one frame on two lanes is. -/
def laneCmd (p : BitVec 2) (a b : List PtChar) : Option Instr :=
  let bs := unstripe (charBytes a) (charBytes b)
  if bs.length = 40 then frameCmd p bs else none

end Sys2Proof.Machine
end

