-- ==== Sys2Proof/WellFormed.lean ====
section
/-! DEFINITION. Which operands a command can have: a value outside these checks names nothing that the spec describes. -/

namespace Sys2Proof

open Machine (locate RegName Acc illegalWord unmapped)

/-- What a self-test can find: slice logics 0 to 143, stewards 0 to 15, Drawer words (R11, R133). -/
def SelfTest.wf (t : SelfTest) : Bool :=
  t.logics.all (· < 144) && t.stewards.all (· < 16) && t.words.all (fun e => e.1 < 128 && e.2 < 65536)

/-- An instruction of one word, of two, and an ALU operation with its func (R245, R247). -/
def oneWf (i : Ins) : Bool := i.ext.isNone
def twoWf (i : Ins) : Bool := i.ext.isSome
def aluWf (i : Ins) (k : Nat) : Bool := i.fn.toNat % 64 == k

/-- An offset is the low (0) or high (1) word of a 64-bit register. -/
def half64 (off half : Nat) : Bool :=
  match locate off with
  | some (r, _, _, h) => r.desc.words == 2 && h == half
  | none => false

/-- An offset holds an RC field. -/
def hasRc (off : Nat) : Bool :=
  match locate off with
  | some (r, _, _, _) => r.accMask (fun a => a == Acc.rc) != 0
  | none => false

def Instr.wf (i : Instr) : Bool :=
  match i with
  | .vauxRise _ _ xs _ _ => xs.length == 32
  | .thermSample xs => xs.length == 32
  | .coldStart _ _ t => t.wf
  | .startRetry t => t.wf
  | .startCtlRetry t => t.wf
  | .wakeSourceFire srcs _ => ! srcs.getLsbD 2
  | .wb _ k _ _ => k != 3
  | .wbp _ k _ _ => k != 3
  | .birsp _ st h => st != 3 && h.tag.toNat < 4096
  | .txCredit _ c => c != 3
  | .txStallTimeout _ c => c != 3
  | .arbAgeGuard _ r => r.toNat < 17
  | .arbPrioWrite _ k _ => k != 3
  | .slTrkIdxWrite l _ => l.toNat < 144
  | .logicParError l => l.toNat < 144
  | .hutchEvictWriteDone _ k => k.toNat < 5
  | .bucketLeak src => 64 ≤ src.toNat && src.toNat < 326
  | .telCntWrite id _ => id.toNat < 1664
  | .unmappedOpcode _ typ _ => unmapped typ.toNat
  | .illegalInstruction _ w => illegalWord w
  | .diagRead off => 0x800000 ≤ off.toNat && off.toNat % 4 == 0
  | .reg64LowRead off => half64 off.toNat 0
  | .reg64LowWrite off _ => half64 off.toNat 0
  | .reg64HighWrite off _ => half64 off.toNat 1
  | .rcRead off => hasRc off.toNat
  | .registerWrite off _ => off.toNat % 4 == 0 && off.toNat < 0x800000
  | .add _ i => aluWf i 0x00
  | .sub _ i => aluWf i 0x01
  | .and _ i => aluWf i 0x02
  | .or _ i => aluWf i 0x03
  | .xor _ i => aluWf i 0x04
  | .shl _ i => aluWf i 0x05
  | .shr _ i => aluWf i 0x06
  | .sar _ i => aluWf i 0x07
  | .mul _ i => aluWf i 0x08
  | .popc _ i => aluWf i 0x09
  | .clz _ i => aluWf i 0x0A
  | .min _ i => aluWf i 0x0B
  | .max _ i => aluWf i 0x0C
  | .minu _ i => aluWf i 0x0D
  | .maxu _ i => aluWf i 0x0E
  | .ins _ i => aluWf i 0x0F
  | .ext _ i => aluWf i 0x10
  | .exts _ i => aluWf i 0x11
  | .hi _ i => aluWf i 0x12
  | .addi _ i => oneWf i
  | .cmp _ i => oneWf i
  | .ld8u _ i => oneWf i
  | .ld16u _ i => oneWf i
  | .ld32u _ i => oneWf i
  | .ld64 _ i => oneWf i
  | .ld8s _ i => oneWf i
  | .ld16s _ i => oneWf i
  | .ld32s _ i => oneWf i
  | .st64 _ i => oneWf i
  | .jmpr _ i => oneWf i
  | .dlook _ i => oneWf i
  | .dput _ i => oneWf i
  | .devict _ i => oneWf i
  | .dlock _ i => oneWf i
  | .dunlock _ i => oneWf i
  | .msend _ i => oneWf i
  | .mwait _ i => oneWf i
  | .mrd _ i => oneWf i
  | .mwr _ i => oneWf i
  | .mpoison _ i => oneWf i
  | .mlock _ i => oneWf i
  | .munlock _ i => oneWf i
  | .nqput _ i => oneWf i
  | .irq _ i => oneWf i
  | .fence _ i => oneWf i
  | .yield _ i => oneWf i
  | .trap _ i => oneWf i
  | .halt _ i => oneWf i
  | .rload _ i => oneWf i
  | .rswap _ i => oneWf i
  | .cmpX _ i => twoWf i
  | .cr _ i => twoWf i
  | .cw _ i => twoWf i
  | .vauxLoss | .coldResetAssert | .warmResetAssert | .warmStart => true
  | .wakeStart | .sleepCommit | .freezeIn _ | .fpLinkDown _ => true
  | .ctelFrame _ _ | .govSlotStart | .govCompute | .mclkMonitorTimeout _ => true
  | .ageingMeasurement _ _ | .poweredHourTick | .rdS _ _ | .rdAny _ _ => true
  | .rdE _ _ | .rdNa _ _ | .own _ _ | .ownNt _ _ => true
  | .drop _ _ | .spec _ _ | .clnEv _ _ | .biconf _ _ => true
  | .wrNa _ _ _ | .wrpNa _ _ _ | .dfDone _ _ | .dfHb _ _ => true
  | .holdSlotPresent | .sliceReqIssue _ | .acceptanceNotice _ | .retryRelease _ => true
  | .refusalNotice _ | .retireNotice _ | .heldRetryTimeout _ | .cqGuardTimeout _ _ => true
  | .snoopPhase _ | .snpdone _ | .snoopTimeout _ _ | .directoryEviction _ => true
  | .memCredit _ _ _ | .memCompletion _ _ _ _ _ | .mpTimeout _ | .arbModeWrite _ _ => true
  | .amapWrite _ _ | .hmapWrite _ _ | .memResilver | .bulkGo _ _ _ => true
  | .bulkChunk _ | .ageWalkerVisit _ | .slWdogTimeout _ | .clAdoptGo _ _ => true
  | .modeReqWrite _ | .settle _ | .agtBind | .bindHbTimeout => true
  | .agtRelease | .releaseWaitTimeout | .release _ | .agtKill => true
  | .agtProbe | .probe _ | .probeTimeout _ _ | .linkGraceTimeout _ => true
  | .heartbeatMiss _ | .reclaim _ | .census _ | .censusRepeatTimeout _ => true
  | .censusDone | .b _ _ | .bp _ _ _ _ | .call _ _ => true
  | .dlockGrant _ | .mwaitTimeout _ | .blkTmoExpiry _ | .yieldWake _ => true
  | .rloadUnblock _ | .stewardFailure _ | .stwStart _ | .stwStop _ => true
  | .stwPcWrite _ _ | .rbLoad | .rbSwap | .mboxTmo => true
  | .bootMbox _ | .bootMboxPop | .hutchFill _ _ _ _ | .hutchPrefetchFill _ _ _ _ => true
  | .hutchTick _ | .hutchZero _ _ _ _ | .hutchClean _ _ _ | .hutchInval _ _ _ => true
  | .hutchCleanInval _ _ _ | .hutchEnWrite _ _ | .correctionWriteback _ | .culletCopy _ => true
  | .wayRetire _ | .scrubVisit _ | .scrubLapTimeout _ | .scrubEnWrite _ _ => true
  | .siInjWrite _ _ | .faultReport | .faultWindowEnd _ | .faultNPulseEnd => true
  | .fcClear | .fcPinRelease | .fcInjGo _ _ | .packetCommit => true
  | .nqPop | .nqDropPkt | .nqMark _ | .nqRewind _ => true
  | .nqEnWrite _ | .lehrMessage | .nqFbPop | .icPendWrite _ _ => true
  | .icPclrWrite _ _ | .icClaim _ | .cmdGo | .cmdPost _ _ _ _ => true
  | .sleepCtlWake | .ldgPush | .ldgCommit _ | .ldgClear => true
  | .mgnGo | .ledgerLoad | .ptEnable _ _ | .ptAttemptTimeout _ => true
  | .ptBackoffEnd _ | .ptBgRetry _ | .ptIdleExit _ | .ptLockLoss _ _ => true
  | .ptLaneRelock _ | .ptReplayTimeout _ | .cap _ _ _ _ _ _ | .hb _ _ _ _ => true
  | .hbSend | .peerHbLoss _ | .faultFrame _ _ _ _ _ _ _ | .freezeFrame _ _ _ _ => true
  | .tsyncPeriod | .tsyncReq _ _ _ | .tsyncRsp _ _ _ _ _ | .pwrSend => true
  | .pwr _ _ _ _ _ | .hmapSet _ _ _ _ _ _ _ _ | .deadFrame _ _ _ _ _ | .lostFrame _ _ _ _ => true
  | .hmapMove | .startStepTimeout | .mapsReadyWrite | .telSweep => true
  | .frzTrig | .frzRearm | .homeCtlWrite _ | .fpEnWrite _ _ => true
  | .fpLinkUp _ | .repeatEntryExpiry _ => true

end Sys2Proof
end

