-- ==== Sys2Proof/Tests/Slice0.lean ====
section
/-! SUPPORT. Tests of the model: ill-formed commands are refused; words, header slots and frames written out from the spec are
the commands they stand for; a few single commands whose results the spec states; and for each statement with hypotheses a
witness: states and operands that meet them. -/

namespace Sys2Proof.Tests

open Machine

set_option maxRecDepth 4000
set_option Elab.async false

/-! ### Ill-formed commands -/

def hdr (a : BitVec 16) (pa : BitVec 42) : Hdr := ⟨a, pa, 7, 0, 0, 0, 0, false, 0, 0⟩
def test0 : SelfTest := ⟨[], [], [], true⟩
/-- An instruction of one word, and the same with an extension word. -/
def ins (gd ga gb : BitVec 5) (fn : BitVec 11) : Ins := ⟨gd, ga, gb, fn, none⟩
def insX (gd ga gb : BitVec 5) (fn : BitVec 11) (x : BitVec 32) : Ins := ⟨gd, ga, gb, fn, some x⟩

theorem wf_supply : (Instr.vauxRise 0 0 [0] true true).wf = false ∧ (Instr.vauxRise 0 0 (List.replicate 32 0) true true).wf = true := by decide
theorem wf_sensors : (Instr.thermSample []).wf = false := by decide
theorem wf_selftest : (Instr.coldStart 0 0 ⟨[144], [], [], true⟩).wf = false ∧ (Instr.startRetry ⟨[], [16], [], true⟩).wf = false ∧
    (Instr.startCtlRetry ⟨[], [], [(128, 0)], true⟩).wf = false ∧ (Instr.startRetry ⟨[], [], [(0, 65536)], true⟩).wf = false := by decide
theorem wf_wakeSources : (Instr.wakeSourceFire 4 0).wf = false := by decide
theorem wf_writebacks : (Instr.wb 0 3 (hdr 0 0) 0).wf = false ∧ (Instr.wbp 0 3 (hdr 0 0) 0).wf = false := by decide
theorem wf_birsp : (Instr.birsp 0 3 (hdr 0 0)).wf = false ∧ (Instr.birsp 0 0 { hdr 0 0 with tag := 4096 }).wf = false := by decide
theorem wf_classes : (Instr.txCredit 0 3).wf = false ∧ (Instr.txStallTimeout 0 3).wf = false ∧ (Instr.arbPrioWrite 0 3 0).wf = false := by
  decide
theorem wf_requesters : (Instr.arbAgeGuard 0 17).wf = false ∧ (Instr.hutchEvictWriteDone 0 5).wf = false := by decide
theorem wf_logics : (Instr.slTrkIdxWrite 144 0).wf = false ∧ (Instr.logicParError 144).wf = false := by decide
theorem wf_buckets : (Instr.bucketLeak 63).wf = false ∧ (Instr.bucketLeak 326).wf = false ∧ (Instr.bucketLeak 325).wf = true := by decide
theorem wf_counters : (Instr.telCntWrite 1664 0).wf = false ∧ (Instr.telCntWrite 1663 0).wf = true := by decide
theorem wf_types : (Instr.unmappedOpcode 0 0x01 (hdr 0 0)).wf = false ∧ (Instr.unmappedOpcode 0 0x0B (hdr 0 0)).wf = true := by decide
theorem wf_words : (Instr.illegalInstruction 0 0x04000003).wf = false ∧ (Instr.illegalInstruction 0 0).wf = true := by decide
theorem wf_offsets : (Instr.diagRead 0x7FFFFC).wf = false ∧ (Instr.registerWrite 0x800000 0).wf = false ∧
    (Instr.registerWrite 2 0).wf = false := by decide
theorem wf_halves : (Instr.reg64LowRead 0x0C0000).wf = false ∧ (Instr.reg64LowWrite 0x0E0004 0).wf = false ∧
    (Instr.reg64HighWrite 0x0E0000 0).wf = false ∧ (Instr.reg64LowRead 0x0E0000).wf = true ∧ (Instr.rcRead 0x0E0000).wf = false := by
  decide +kernel
theorem wf_alu : (Instr.add 0 (ins 1 1 1 1)).wf = false ∧ (Instr.hi 0 (ins 1 1 1 0x12)).wf = true := by decide
theorem wf_lengths : (Instr.addi 0 (insX 1 1 0 0 0)).wf = false ∧ (Instr.cr 0 (ins 1 1 0 0)).wf = false := by decide

/-! ### Words, slots and frames written out from the spec -/

/-- R245, R246: one word of every format: nop (or g0, g0, g0), li g5, 7 (add.x), addi g10, g10, −1, st64 gb = g3, 16(g2),
b −1, bp p2, sense 1, +3, jmpr g31, dlook g2:g3, g10, a word of zeros. -/
theorem test_word_formats : wordInstr 9 0x04000003 0 = .or 9 (ins 0 0 0 3) ∧ wordInstr 9 0x08A00000 7 = .add 9 (insX 5 0 0 0 7) ∧
    wordInstr 9 0x0D4A07FF 0 = .addi 9 (ins 10 10 0 2047) ∧ wordInstr 9 0x3C021810 0 = .st64 9 (ins 0 2 3 16) ∧
    wordInstr 9 0x43FFFFFF 0 = .b 9 0x3FFFFFF ∧ wordInstr 9 0x45400003 0 = .bp 9 2 true 3 ∧
    wordInstr 9 0x4C1F0000 0 = .jmpr 9 (ins 0 31 0 0) ∧ wordInstr 9 0x604A0000 0 = .dlook 9 (ins 2 10 0 0) ∧
    wordInstr 9 0 0 = .illegalInstruction 9 0 := by decide

/-- R246, R247: one word of every other group of majors: exts, cmp.x, ld16s, mwait, mrd, nqput, cw, trap, rload; func 0x13 is no
operation. -/
theorem test_word_majors : wordInstr 0 0x04220811 0 = .exts 0 (ins 1 2 1 0x11) ∧ wordInstr 0 0x14410012 5 = .cmpX 0 (insX 2 1 0 0x12 5) ∧
    wordInstr 0 0x34220004 0 = .ld16s 0 (ins 1 2 0 4) ∧ wordInstr 0 0x84410003 0 = .mwait 0 (ins 2 1 0 3) ∧
    wordInstr 0 0x90620800 0 = .mrd 0 (ins 3 2 1 0) ∧ wordInstr 0 0xB0020001 0 = .nqput 0 (ins 0 2 0 1) ∧
    wordInstr 0 0xC4010800 8 = .cw 0 (insX 0 1 1 0 8) ∧ wordInstr 0 0xE800000B 0 = .trap 0 (ins 0 0 0 11) ∧
    wordInstr 0 0xF0220800 0 = .rload 0 (ins 1 2 1 0) ∧ wordInstr 0 0x04000013 0 = .illegalInstruction 0 0x04000013 := by decide

/-- R58 to R60: a header beat: slot 0 an RD_S of agent 3 for line 0x40 with TAG 7, slot 1 not valid, slot 2 a WRP_NA with
BE_NEXT, whose byte enables are slot 3; its line is the data beat that follows. -/
theorem test_beat : beatCmds 5
    ((BitVec.ofNat 512 (0x01 + 3 * 2 ^ 6 + 0x40 * 2 ^ 22 + 7 * 2 ^ 64 + 2 ^ 100)) |||
      (BitVec.ofNat 512 (0x17 + 3 * 2 ^ 6 + 0x41 * 2 ^ 22 + 2 ^ 100 + 2 ^ 101) <<< 256) ||| (BitVec.ofNat 512 0xFF <<< 384)) [9] =
    [.rdS 5 ⟨3, 0x40, 7, 0, 0, 0, 0, false, 0, 0⟩, .wrpNa 5 ⟨3, 0x41, 0, 0, 0, 0, 0, false, 0xFF, 0⟩ 9] := by decide +kernel

/-- R489, R494: a frame on two lanes, 21 characters a lane, read back; its CRC is right, and with one wrong byte it is not. -/
theorem test_frame_lanes :
    let f : PtFrame := ⟨10, 5, false, 4, payOf [(2, 4, 1), (9, 5, 2), (3, 7, 1), (0x21, 8, 1)]⟩
    (frameChars false 0 f).length = 21 ∧ (frameChars false 1 f).length = 21 ∧ (frameBytes f).length = 40 ∧
    laneCmd 1 (frameChars false 0 f) (frameChars false 1 f) = some (.lostFrame 1 ⟨5, false, 4, true⟩ ⟨2, 9, 3⟩ 0x21) ∧
    laneCmd 1 ((frameChars false 0 f).set 3 (.d 1)) (frameChars false 1 f) =
      some (.lostFrame 1 ⟨5, false, 4, false⟩ ⟨1, 9, 3⟩ 0x21) := by decide +kernel

/-- R489: lanes 4 characters apart are brought to their ALIGN together, lanes 5 apart are not. -/
theorem test_deskew : (deskew (PtSet.align.native) (PtSet.idle.native ++ PtSet.idle.native ++ PtSet.align.native)).isSome = true ∧
    deskew PtSet.align.native ([charD 0 0] ++ PtSet.idle.native ++ PtSet.idle.native ++ PtSet.align.native) = none := by decide

/-- R494: the CRC-32 with the IEEE 802.3 polynomial, of its check string "123456789". -/
theorem test_crc : crc32 [0x31, 0x32, 0x33, 0x34, 0x35, 0x36, 0x37, 0x38, 0x39] = 0xCBF43926 := by decide +kernel

/-- R369: the word code of a 64-bit word corrects bit 5 and flags bits 5 and 6 together. -/
theorem test_wordCode : verdict 64 (2 ^ 5) = .corrected 0 ∧ verdict 64 (2 ^ 5 + 2 ^ 6) = .flagged := by decide +kernel

/-! ### States in which the block runs -/

def setF (l : List (Fld × Nat × Nat)) (s : State) : State := l.foldl (fun s e => s.setFld e.1 e.2.2 e.2.1) s

/-- A running instance in SERVICE with the default bank loaded. -/
def up : State := setF [(.MODE_CUR, 0, 4), (.RB_STATUS_LOADED, 0, 1), (.LEHR_STATUS_SELFCHK, 0, 1), (.BOOT_STATUS_CODE, 0, 2)]
  { State.reset with vaux := true, portUp := true, coreUp := true, now := 1000, lehrNow := 2000, lehr := { lehr0 with railReq := true } }

/-- The same with address map entry 0 (tenant 1, port 3) and entry 1 (tenant 1, port 3 mirrored on 5), window 0 homed here, FP 5 up
with credits, and agents: 3 LIVE and 4 LIVE with DC of tenant 1, 5 BINDING with HB, 6 LIVE of tenant 2, 7 DEAD, 8 RECLAIMED. -/
def agtWord (st extra ten : Nat) : Nat := st + extra + 256 * ten + 2 ^ 18 * 5
def net : State :=
  let s := up.setReg .AMAP (BitVec.ofNat 64 (1 + 1 * 4 + 3 * 2 ^ 14)) 0
  let s := s.setReg .AMAP (BitVec.ofNat 64 (1 + 1 * 4 + 3 * 2 ^ 14 + 5 * 2 ^ 19 + 2 ^ 24)) 1
  let s := s.setReg .HMAP (BitVec.ofNat 64 (2 ^ 18)) 0
  let s := s.setFport 5 { s.fport 5 with
    link := true, reqCred := 32, datCred := 32, rspCred := 64, txSnp := 10, txRsp := 10, txDat := 10 }
  shadowStream (setF [(.FP_CTL_EN, 5, 1)] { s with
    agt := [(3, agtWord 2 0 1), (4, agtWord 2 8 1), (5, agtWord 1 32 1), (6, agtWord 2 0 2), (7, agtWord 4 0 1), (8, agtWord 5 0 1)]
    port := { s.port with biidSet := true } })

/-- A thread that runs at 0x100 with a handler, and the instance in which thread `t` is it. -/
def runs : Thread := { thr0 with run := 1, pc := 0x100, tvec := 0x200, g := [(1, 0x1000040), (2, 0x40), (4, 0x10008), (31, 9)] }
def on (t : Nat) (th : Thread) (s : State := net) : State := s.setThr t th
/-- A held request of agent `a` for line `pa`, from port 5. -/
def held (a : BitVec 16) (pa : BitVec 42) : HoldSlot := ⟨true, 1, hdr a pa, 5, none, 0, 3, .presented, 0⟩
def withHold (l : List (Nat × HoldSlot)) (s : State := net) : State := { s with port := { s.port with hold := l } }

theorem intact_of {s : State} (h : s.integ.mask = [] ∧ s.integ.pq = [] ∧ (∀ d ∈ List.range 128, s.fld Fld.SI_INJ_ARM d = 0) ∧
    (∀ c ∈ List.range 16, ∀ x ∈ List.range 5, s.fld Fld.CL_INJ_ARM c x = 0) ∧
    (∀ x ∈ List.range 4, s.fld Fld.DIE_INJ_P_ARM x = 0) ∧ s.fld Fld.DIE_INJ_NQ_ARM = 0 ∧ s.fld Fld.DIE_INJ_L_ARM = 0) : Intact s :=
  ⟨h.1, h.2.1, fun d hd => h.2.2.1 d (List.mem_range.2 hd),
    fun c x hc hx => h.2.2.2.1 c (List.mem_range.2 hc) x (List.mem_range.2 hx),
    fun x hx => h.2.2.2.2.1 x (List.mem_range.2 hx), h.2.2.2.2.2⟩

/-- Most witnesses are of the running instance: no DFT_MODE, every domain up, nothing damaged. -/
def Well (s : State) : Prop := s.dft = false ∧ Awake s ∧ Intact s

theorem up_well : Well up := ⟨rfl, by unfold Awake; decide +kernel, intact_of (by decide +kernel)⟩
theorem net_well : Well net := ⟨rfl, by unfold Awake; decide +kernel, intact_of (by decide +kernel)⟩

/-- Only the registers, the mode and the supply say whether an instance is well. -/
theorem well_of {s t : State} (h : Well s) (hr : t.regs = s.regs) (hd : t.dft = s.dft) (hv : t.vaux = s.vaux)
    (hp : t.portUp = s.portUp) (hc : t.coreUp = s.coreUp) (hi : t.integ = s.integ) : Well t := by
  unfold Well Awake Intact State.mode State.fld State.reg at *
  rw [hr, hd, hv, hp, hc, hi]; exact h

theorem on_well (t : Nat) (th : Thread) : Well (on t th) := well_of net_well rfl rfl rfl rfl rfl rfl
theorem hold_well (l : List (Nat × HoldSlot)) : Well (withHold l) := well_of net_well rfl rfl rfl rfl rfl rfl

/-! ### Single commands -/

/-- What command `c` leaves in `s`, and what `f` reads of it. -/
def after (c : Instr) (s : State) : Option State :=
  match exec c s with
  | .next u => some u
  | _ => none

/-- R511, R412: VAUX rises: mode LEHR, COLD_RST_N asserted. -/
theorem test_vaux : (after (.vauxRise 9 0 (List.replicate 32 100) true true) State.reset).map
    (fun u => (u.vaux, u.coldRst, u.mode, u.fld Fld.STRAP_INST_ID)) = some (true, true, 1, 9) := by decide +kernel
/-- R38: DFT_MODE refuses every command. -/
theorem test_dft : after .telSweep { up with dft := true } = none := by decide +kernel
/-- R247: addi adds its sign-extended immediate; g0 stays 0. -/
theorem test_addi : (after (.addi 9 (ins 10 2 0 2047)) (on 9 runs)).map (fun u => (u.greg 9 10, (u.thr 9).pc)) =
    some (0x3F, 0x104) ∧ (after (.addi 9 (ins 0 2 0 1)) (on 9 runs)).map (fun u => u.greg 9 0) = some 0 := by decide +kernel
/-- R277: trap saves its PC and goes to the handler. -/
theorem test_trap : (after (.trap 9 (ins 0 0 0 2)) (on 9 runs)).map
    (fun u => ((u.thr 9).pc, (u.thr 9).epc, (u.thr 9).tcause, (u.thr 9).tinfo, (u.thr 9).inTrap)) =
    some (0x200, 0x100, 0x0B, 2, true) := by decide +kernel
/-- R63: CLN_EV is answered with CMP, which leaves at once where there is credit. -/
theorem test_clnEv : (after (.clnEv 5 (hdr 3 0x40)) net).map (fun u => u.tx) = some [(5, plainMsg 0x28 3 0x40 7)] := by
  decide +kernel
/-- R4: the window answers 0 for an unassigned offset, R49 the ID register, whose value is constant. -/
theorem test_window : (after (.rcRead 0x400000) up).map (·.rdata) = some 0 ∧
    (after (.rcRead (BitVec.ofNat 24 (RegName.ID.addr 0 0))) up).map (·.rdata) = some 0xD5014B08 := by decide +kernel
/-- R445: CMD_GO with a code that is not listed ends with 1 (BAD_CODE). -/
theorem test_cmdGo : (after .cmdGo up).map (fun u => (u.fld Fld.CMD_RES_DONE, u.fld Fld.CMD_RES_CODE)) = some (1, 1) := by
  decide +kernel

/-! ### Witnesses: the register window, supply, starts, sleep, modes -/

/-- An instance in LEHR mode after VAUX rose, COLD_RST_N still asserted. -/
def lehrUp : State := setF [(.MODE_CUR, 0, 1), (.LEHR_STATUS_SELFCHK, 0, 1)]
  { State.reset with vaux := true, coldRst := true, lehr := { lehr0 with railReq := true } }
/-- The running instance with a start in progress at a step, in a mode. -/
def starting (kind step mode : Nat) (s : State := up) : State := setF [(.START_STATUS_STEP, 0, step), (.MODE_CUR, 0, mode)]
  { s with start := { s.start with run := some ⟨kind, 0, 5000, 0, [], [], test0⟩ } }
def withCmd (code : Nat) (args : List (BitVec 32)) (phase : Nat := 0) (s : State := net) : State :=
  setF [(.CMD_RES_DONE, 0, 0)] { s with cmd := some ⟨code, args, phase, 0, 5000, []⟩ }

theorem wit_StepRunsFrontOrTicks : State.reset.pending = [] ∧ State.reset.vaux = false ∧ up.pending = [] ∧ up.vaux = true ∧
    up.sl.banks.swap = none := by decide +kernel
theorem wit_DftIsTheOnlyStop : { up with dft := true }.dft = true ∧ up.dft = false := by decide +kernel
theorem wit_EdgesHeldKept : EdgesHeld State.reset ∧ step State.reset = .next State.reset := ⟨fun h => Bool.noConfusion h, rfl⟩
theorem wit_EdgesHeldKept_sampled : { up with pending := [.telSweep] }.pending = [.telSweep] ∧
    (match step { up with pending := [.telSweep] } with | .next t => t.coreUp | _ => false) = true := by decide +kernel

/-- Offsets at the ends of the clauses: the last register offset, an unassigned one, the first of the diagnostic window; AMAP
entry 0 (64 bits, low and high), FC_CTL (32 bits). -/
theorem wit_RegisterWindow : State.reset.dft = false ∧ State.reset.vaux = false ∧ up.vaux = true ∧ locate 0x7FFFFC = none ∧
    locate 0x0E0000 = some (.AMAP, 0, 0, 0) ∧ locate 0x0E0004 = some (.AMAP, 0, 0, 1) ∧ RegName.AMAP.desc.words = 2 ∧
    domUp up RegName.AMAP.desc.dom = true ∧ domUp lehrUp RegName.AMAP.desc.dom = false ∧
    locate (RegName.FC_CTL.addr 0 0) = some (.FC_CTL, 0, 0, 0) ∧ RegName.FC_CTL.desc.words = 1 ∧
    domUp up RegName.FC_CTL.desc.dom = true ∧ RegName.WAKE_TIME.desc.words = 2 ∧
    SMap.getD (fun _ => none) { up with wrHold := [(RegName.WAKE_TIME.addr 0 0, some 5)] }.wrHold (RegName.WAKE_TIME.addr 0 0) = some 5 := by
  decide +kernel

def telOn : State := setF [(.TEL_CTL_EN, 0, 1)] up
def telWaits : State := { telOn with nq := { nq0 with readyTel := [[0x69]] } }
def diag : State := setF [(.MODE_CUR, 0, 7), (.DIAG_CTL_EN, 0, 1), (.DIAG_CTL_UNIT, 0, 127)] up
theorem wit_TelemetryAndDiagnostics : up.dft = false ∧ up.vaux = true ∧ up.portUp = true ∧ up.coreUp = true ∧
    up.fld Fld.TEL_CTL_EN = 0 ∧ telOn.fld Fld.TEL_CTL_EN = 1 ∧ telBusy telOn = false ∧ telWaits.fld Fld.TEL_CTL_EN = 1 ∧
    telBusy telWaits = true ∧ (1663#11).toNat < 1664 ∧ diag.mode = 7 ∧ diag.fld Fld.DIAG_CTL_EN = 1 ∧
    diag.fld Fld.DIAG_CTL_ARRAY = 0 ∧ diag.fld Fld.DIAG_CTL_UNIT < 128 ∧
    (BitVec.ofNat 24 (0x800000 + 32 * 65535 + 4 * 3)).toNat = 0x800000 + 32 * 65535 + 4 * 3 ∧ maskOf diag .drawer 127 65535 = 0 := by
  decide +kernel

theorem wit_SupplyAndColdReset : State.reset.vaux = false ∧ State.reset.regs = [] ∧ lehrUp.vaux = true ∧ lehrUp.coldRst = true ∧
    SMap.sorted net.port.fp = true ∧ lehrUp.fld Fld.LEHR_STATUS_SELFCHK = 1 ∧ lehrUp.fld Fld.START_STATUS_EXHAUSTED = 0 ∧
    maskOf lehrUp .lehr 0 1664 = 0 ∧ lehrUp.fld Fld.DIE_INJ_L_ARM = 0 ∧ up.coldRst = false ∧ up.start.run = none ∧ 2 ≤ up.mode ∧
    (starting 0 2 2).start.run ≠ none ∧ (setF [(.LEHR_STATUS_SELFCHK, 0, 0)] lehrUp).fld Fld.LEHR_STATUS_SELFCHK = 0 ∧
    lehrUp.fld Fld.FP_CTL_EN 63 = 1 ∧ (setF [(.MODE_CUR, 0, 1)] up).mode < 2 := by decide +kernel

/-- The running instance with WARM_RST_N asserted, CORE in reset, mode WARM_START. -/
def inWarm : State := setF [(.MODE_CUR, 0, 3)] { up with warmRst := true, coreUp := false }
theorem wit_WarmReset : up.vaux = true ∧ up.warmRst = false ∧ up.coldRst = false ∧ 3 ≤ up.mode ∧ up.start.run = none ∧
    (∀ c ∈ List.range 16, up.fld Fld.STW_STATUS_FAILED c = 0) ∧ lehrUp.warmRst = false ∧ lehrUp.mode < 3 ∧
    { up with coldRst := true }.coldRst = true ∧ (starting 1 5 3).start.run ≠ none ∧ (starting 1 5 3).mode = 3 ∧
    inWarm.warmRst = true ∧ inWarm.mode = 3 ∧ inWarm.coreUp = false ∧ inWarm.coldRst = false ∧
    inWarm.fld Fld.LEHR_STATUS_SELFCHK = 1 ∧ maskOf inWarm .lehr 0 1664 = 0 ∧ inWarm.fld Fld.DIE_INJ_L_ARM = 0 ∧
    { up with warmRst := true }.coreUp = true := by decide +kernel

def asleepAt (st : Nat) (s : State := up) : State := setF [(.SLEEP_STATUS_STATE, 0, st), (.SLEEP_CTL_EN_LO, 0, 3),
  (.SLEEP_CTL_EN_HI, 0, 15)] s
def ready : State := { asleepAt 1 with sleepReady := true }
/-- Asleep with retention, woken: word 8191 of thread 0's memory is its start PC. -/
def woken : State := setF [(.MODE_CUR, 0, 1), (.SLEEP_STATUS_STATE, 0, 4), (.MODE_RETAINED, 0, 1), (.LEHR_STATUS_SELFCHK, 0, 1)]
  { State.reset with vaux := true, portUp := true, stw := ⟨[], [(8191, 0x200)]⟩ }
theorem wit_SleepAndWake : wakeEnabled (asleepAt 2) 1 = true ∧ (asleepAt 1).fld Fld.SLEEP_STATUS_STATE = 1 ∧
    (asleepAt 2).fld Fld.SLEEP_STATUS_STATE = 2 ∧ (asleepAt 3).fld Fld.SLEEP_STATUS_STATE = 3 ∧ (asleepAt 2).vaux = true ∧
    (asleepAt 2).fld Fld.START_STATUS_EXHAUSTED = 0 ∧ up.fld Fld.SLEEP_STATUS_STATE = 0 ∧ ready.sleepReady = true ∧
    ready.fld Fld.SLEEP_STATUS_STATE = 1 ∧ ready.lehr.fired = 0 ∧ { ready with lehr := { lehr0 with fired := 4 } }.lehr.fired ≠ 0 ∧
    ready.fld Fld.MODE_RETAINED = 0 ∧ (setF [(.MODE_RETAINED, 0, 1)] ready).fld Fld.MODE_RETAINED = 1 ∧ up.coreUp = true := by
  decide +kernel
theorem wit_SleepAndWake_wake : woken.dft = false ∧ woken.vaux = true ∧ woken.portUp = true ∧ woken.coreUp = false ∧
    woken.coldRst = false ∧ woken.fld Fld.SLEEP_STATUS_STATE = 4 ∧ woken.fld Fld.MODE_RETAINED = 1 ∧
    woken.fld Fld.LEHR_STATUS_SELFCHK = 1 ∧ woken.lword 0 8191 = 0x200 := by decide +kernel
theorem woken_intact : Intact woken := intact_of (by decide +kernel)

def retrying (kind : Nat) : State := setF [(.MODE_CUR, 0, 1)] { up with start := { up.start with retry := some kind, retryAt := 9000 } }
theorem wit_StartControl : up.start.run = none ∧ maskOf up .lehr 0 1664 = 0 ∧ up.fld Fld.DIE_INJ_L_ARM = 0 ∧
    (starting 0 8 2).start.run = some ⟨0, 0, 5000, 0, [], [], test0⟩ ∧ (starting 0 8 2).fld Fld.START_STATUS_STEP = 8 ∧
    (starting 1 9 3).fld Fld.START_STATUS_STEP = 9 ∧ (starting 1 3 3).fld Fld.START_STATUS_STEP ≤ 8 ∧
    (starting 0 7 2).fld Fld.START_STATUS_STEP = 7 ∧ (retrying 1).start.retry = some 1 ∧ (retrying 0).start.retry = some 0 ∧
    (retrying 0).coldRst = false ∧ (retrying 0).fld Fld.LEHR_STATUS_SELFCHK = 1 ∧ up.start.retry = none ∧
    (setF [(.START_STATUS_EXHAUSTED, 0, 1)] up).fld Fld.START_STATUS_EXHAUSTED = 1 ∧
    (withCmd 0x40 [] 0 (starting 0 9 2)).cmd = some ⟨0x40, [], 0, 0, 5000, []⟩ ∧ progsUp (withCmd 0x40 [] 0 (starting 0 9 2)) = true ∧
    (starting 0 9 2).mode = 2 ∧ progsUp (withCmd 0x40 []) = true := by decide +kernel

def inMode (m : Nat) (s : State := up) : State := setF [(.MODE_CUR, 0, m)] s
theorem wit_ModeRequests : up.dft = false ∧ up.vaux = true ∧ up.fld Fld.START_STATUS_EXHAUSTED = 0 ∧ (inMode 4).mode = 4 ∧
    (inMode 5).mode = 5 ∧ (inMode 6).mode = 6 ∧ (inMode 7).mode = 7 ∧ up.walks = [] ∧ up.fld Fld.SLEEP_STATUS_STATE = 0 ∧
    (∃ w ∈ { up with walks := [⟨1, 0, 0⟩] }.walks, w.kind ∈ [1, 4, 5, 6]) ∧ (4, (6#32).toNat % 8) = (up.mode, 6) := by decide +kernel

/-! ### Witnesses: the Lehr -/

theorem wit_LehrSamplesAndSlots : { up with lehr := lehr0 }.lehr.railReq = false ∧ up.lehr.railReq = true ∧
    up.fld Fld.SLEEP_STATUS_STATE = 0 ∧ (asleepAt 2).fld Fld.START_STATUS_EXHAUSTED = 0 ∧
    bit1 ((asleepAt 2).fld Fld.SLEEP_CTL_EN_HI) 1 = true ∧ up.coreUp = true ∧ up.mode ≠ 1 ∧ (inMode 1).mode = 1 ∧
    up.govSlot = 64 ∧ { up with govSlot := 63 }.govSlot = 63 ∧ (setF [(.GOV_CTL_AUTO, 0, 1)] up).fld Fld.GOV_CTL_AUTO = 1 ∧
    (setF [(.GOV_CTL_AUTO, 0, 0)] up).fld Fld.GOV_CTL_AUTO = 0 := by decide +kernel

def passing (k : Nat) (s : State := up) : State := { s with lehr := { s.lehr with pass := some ⟨k, 0, false⟩ } }
theorem wit_AgeingPasses : up.lehr.pass = none ∧ (passing 30).lehr.pass = some ⟨30, 0, false⟩ ∧
    (passing 31).lehr.pass = some ⟨31, 0, false⟩ ∧ up.lehr.railReq = true ∧ up.coldRst = false ∧ up.mode ≠ 1 ∧ up.integ.mask = [] ∧
    up.fld Fld.DIE_INJ_L_ARM = 0 ∧ up.fld Fld.LEHR_STATUS_LDG_VALID = 0 ∧ lehrUp.coldRst = true := by decide +kernel

/-- The 34 records of a ledger of instance 0, generation 5: header, profile, a base value for each pair. -/
def ledger : List (BitVec 128) := [BitVec.ofNat 128 (0x62 + 5 * 2 ^ 16 + 9 * 2 ^ 32), BitVec.ofNat 128 (0x61 + 5 * 2 ^ 40)] ++
  (List.range 32).map (fun k => BitVec.ofNat 128 (0x60 + k * 2 ^ 8 + 100 * 2 ^ 16 + 5 * 2 ^ 48))
def staged : State := { up with lehr := { up.lehr with staged := ledger } }
theorem wit_AgeingLedger : up.lehr.staged = [] ∧ ldgVerdict up false = 2 ∧ ldgVerdict up true = 1 ∧
    up.fld Fld.LEHR_STATUS_LDG_VALID = 0 ∧ staged.lehr.staged ≠ [] ∧ ldgVerdict staged false = 1 ∧
    stagedOf staged 0x62 = [0x62 + 5 * 2 ^ 16 + 9 * 2 ^ 32] ∧ (withCmd 0x60 [0, 0, 1]).cmd = some ⟨0x60, [0, 0, 1], 0, 0, 5000, []⟩ ∧
    progsUp (withCmd 0x60 [0, 0, 1]) = true ∧ cmdArg ⟨0x60, [0, 0, 1], 0, 0, 5000, []⟩ 2 % 2 = 1 ∧
    (setF [(.LEHR_STATUS_LDG_VALID, 0, 1)] (withCmd 0x60 [0, 0, 1])).fld Fld.LEHR_STATUS_LDG_VALID = 1 ∧
    namedLines (withCmd 0x60 [0x1000]) (cmdPa ⟨0x60, [0x1000], 0, 0, 5000, []⟩ / 64) (ledgerLines ⟨0x60, [0x1000], 0, 0, 5000, []⟩) = true ∧
    readPort (withCmd 0x60 [0x1000]) 0x40 = some 3 ∧
    namedLines up (cmdPa ⟨0x60, [0x1000], 0, 0, 5000, []⟩ / 64) (ledgerLines ⟨0x60, [0x1000], 0, 0, 5000, []⟩) = false := by
  decide +kernel

def frozen : State := setF [(.FRZ_STATUS_FROZEN, 0, 1)] { up with frzReq := 31 }
theorem wit_Freezes : up.freezeIn = false ∧ up.vaux = true ∧ up.coreUp = true ∧ { up with frzReq := 1 }.frzReq = 1 ∧ up.mode ≠ 1 ∧
    up.fld Fld.FRZ_STATUS_FROZEN = 0 ∧ frozen.frzReq = 31 ∧ frozen.fld Fld.FRZ_STATUS_FROZEN = 1 ∧
    bit1 { lehrUp with frzReq := 2 }.frzReq 0 = false ∧ lehrUp.coreUp = false := by decide +kernel

/-! ### Witnesses: agents -/

theorem wit_AgentBindingAndRelease : progsUp (withCmd 0x10 [9, 0x10005]) = true ∧ net.agtState 9 = 0 ∧ net.agtState 8 = 5 ∧
    net.agtState 3 = 2 ∧ net.agtState 5 = 1 ∧ net.port.biidSet = true ∧ up.port.biidSet = false ∧ bits 0x10005 18 1 = 0 ∧
    bits 0x40005 18 1 = 1 ∧ net.port.deaths = [] ∧ (withCmd 0x10 [5] 1).cmd = some ⟨0x10, [5], 1, 0, 5000, []⟩ ∧
    (withCmd 0x11 [3]).cmd = some ⟨0x11, [3], 0, 0, 5000, []⟩ ∧ cmdArg ⟨0x11, [3], 0, 0, 5000, []⟩ 0 % 65536 = 3 ∧
    net.port.hold = [] := by decide +kernel
theorem cmd_well (code : Nat) (args : List (BitVec 32)) (phase : Nat) : Well { net with cmd := some ⟨code, args, phase, 0, 5000, []⟩ } :=
  well_of net_well rfl rfl rfl rfl rfl rfl

/-- No agent is DEAD; agent 3 is under confirmation: in a link grace, or in a round whose probe has retired. -/
def calm : State := { net with agt := [(3, agtWord 2 32 1), (4, agtWord 2 8 1)] }
def confirming (c : Conf) : State := { calm with conf := [(3, some c)] }
theorem wit_AgentDeath : progsUp net = true ∧ calm.agtState 3 = 2 ∧ calm.port.dying = none ∧ calm.port.deaths = [] ∧
    (∀ b ∈ calm.agents, calm.agtState b ≠ 4) ∧ (∃ b ∈ net.agents, net.agtState b = 4) ∧ net.agtState 9 = 0 ∧
    { net with port := { net.port with deaths := [(3, 1)] } }.port.deaths = [(3, 1)] ∧
    SMap.getD (fun _ => none) (confirming ⟨1, 0, [], false, 7000, true, false, 0⟩).conf 3 =
      some ⟨1, 0, [], false, 7000, true, false, 0⟩ ∧
    ((confirming ⟨1, 2, [496], false, 7000, false, false, 0⟩).trkE 496).valid = false ∧
    max 1 (calm.fld Fld.LIVE_CTL_PROBE_N) ≤ 2 + 1 ∧ SMap.getD (fun _ => none) calm.conf 3 = none := by decide +kernel
theorem calm_well : Well calm := well_of net_well rfl rfl rfl rfl rfl rfl

/-- Agent 3's tracker entry of an AGT_PROBE that has not been answered. -/
def probing : State := { calm with sl := { calm.sl with trk := [(0, { trk0 with
  valid := true, cls := 2, typ := 0x3F, lostBy := 1, operand := 3, deadline := 9000 })] } }
theorem wit_AgentLiveness : probeLine calm 3 = some 0 ∧ linkOf calm 3 = true ∧ probeLine net 6 = none ∧ net.agtState 9 = 0 ∧
    calm.agtHb 3 = true ∧ (probing.sl.trk.find? (fun e => e.2.valid && e.2.typ == 0x3F && e.2.cls == 2 &&
      (e.2.lostBy == 1 || e.2.msg.isSome) && ! e.2.ended && e.2.operand == (3#16).toNat)).map (·.1) = some 0 ∧
    expiredOut calm 3 = false ∧ (0 : Nat) + 1 < max 1 (calm.fld Fld.LIVE_CTL_PROBE_N) ∧
    calm.fld Fld.LIVE_CTL_LINK_GRACE ≠ 0 ∧ linkOf { calm with port := { calm.port with fp := [] } } 3 = false := by decide +kernel

/-! ### Witnesses: memory ports and the bulk engine -/

/-- A read of thread 9 outstanding on port 3 with RTAG 2, a write waiting behind it, and port 3's partners. -/
def reading : State := { (setF [(.MP_STATE_STATE, 3, 1), (.MP_STATE_STATE, 5, 1)] net) with
  mem := { mem0 with
    nextId := 2
    ops := [(0, some ⟨0, .thread 9 0, 0x40, 0x40, 0, 0, false, 2, [3]⟩), (1, some ⟨1, .thread 9 1, 0x41, 0x41, 0, 0, false, 2, [3]⟩)]
    mp := [(3, { mport0 with out := [⟨2, 0, 9000⟩], wait := [1] })] } }
theorem wit_MemoryPorts : (reading.mport 3).out.find? (fun q => q.rtag = 2) = some ⟨2, 0, 9000⟩ ∧ (opOf reading 0).isSome = true ∧
    reading.fld Fld.MP_STATE_STATE 3 = 1 ∧ (reading.mport 4).out = [] ∧ (reading.mport 3).out.find? (fun q => q.rtag = 3) = none ∧
    (presented reading 3 2).isSome = true ∧ 2 ∉ (reading.mport 3).aged ∧ presented reading 3 5 = none ∧
    3 ∈ (amapValid reading).flatMap (fun e => if entryNames reading e 3 then [3] else []) := by decide +kernel

/-- An entry word whose mirror (port 20) does not overlap its primary (port 10), and one whose two ways run past port 31. -/
def mirrored : BitVec 64 := BitVec.ofNat 64 (1 + 10 * 2 ^ 14 + 20 * 2 ^ 19 + 2 ^ 24)
theorem wit_ArbiterAndMapWrites : bits mirrored.toNat 25 2 = 0 ∧ bits mirrored.toNat 14 5 = 10 ∧ bits mirrored.toNat 19 5 = 20 ∧
    bits mirrored.toNat 29 3 = 0 ∧ bits mirrored.toNat 57 7 = 0 ∧ bits mirrored.toNat 27 2 ≠ 3 ∧ mirrored.getLsbD 24 = true ∧
    32 < 31 + 2 ^ bits (BitVec.ofNat 64 (31 * 2 ^ 14 + 2 ^ 25)).toNat 25 2 ∧ (1#2).toNat < 2 := by decide +kernel

def resil : State := setF [(.MP_STATE_STATE, 3, 2), (.MP_STATE_STATE, 5, 1)] net
def bulking (b : BulkRun) : State := { net with govBg := 0xFFFF, mem := { mem0 with bulk := [(0, ⟨[], some b, false⟩)] } }
def zeroRun : BulkRun := ⟨0x1000, 2, 1, 0, 0x40, 70, 64, none, 0, 0, 0, false, false, 0⟩
def missing : State := { net with hutch := [(2, { (net.hut 2) with miss := some ⟨⟨some 8, 0, 0, .fetch 0, 0x40, false⟩, none, false, false⟩ })] }
theorem wit_BulkEngine : progsUp (withCmd 0x50 [3] 0 resil) = true ∧ resil.fld Fld.MP_STATE_STATE 3 = 2 ∧ partners resil 3 = [5] ∧
    resil.bulkE 0 = bulk0 ∧ net.fld Fld.MP_STATE_STATE 3 ≠ 2 ∧
    4 ≤ (({ net with mem := { mem0 with bulk := [(0, ⟨List.replicate 4 ⟨0, 0, none⟩, none, false⟩)] } }).bulkE 0).queue.length ∧
    ((bulking zeroRun).bulkE 0).run = some zeroRun ∧ zeroRun.outst = 0 ∧ (bulking zeroRun).govBg.getLsbD zeroRun.cluster = true ∧
    zeroRun.done < zeroRun.count ∧ writePorts net 0x80 = [3] ∧ (missing.hut 2).miss.isSome = true ∧ (missing.hut 2).maint = none ∧
    missing.bulkE 1 = bulk0 ∧ chunkLines net { zeroRun with op := 3, port := 9 } = none := by decide +kernel

/-! ### Witnesses: the fabric -/

theorem wit_IngressRefusals : (net.fport 5).reqCred ≠ 0 ∧ (net.fport 5).rspCred ≠ 0 ∧ (net.fport 5).datCred ≠ 0 ∧
    ({ hdr 3 0x40 with mfield := 1 } : Hdr).mfield = 1 ∧ homed net 0x3000040 = false ∧ homed net 0x40 = true ∧ net.agtState 9 = 0 ∧
    net.agtState 7 = 4 ∧ net.agtTenant 6 ≠ tenantOf net 0x40 ∧ net.agtDc 3 = false ∧ net.agtHb 3 = false ∧ net.agtDc 4 = true ∧
    unmapped (0x3F#6).toNat = true ∧ birspTid net 3 0 7 = none ∧ dfTid net 4 0 0x40 = none ∧ (net.fport 5).txDat ≠ 0 ∧
    toDead net { plainMsg 0x30 3 0x40 7 with own := .refused } = false := by decide +kernel
theorem passes (a : BitVec 16) (h : a = 3 ∨ a = 4 ∨ a = 5) : PassesIngress net (hdr a 0x40) := by
  unfold PassesIngress; rcases h with rfl | rfl | rfl <;> decide +kernel

theorem wit_RequestsAreHeldAndPresented : (net.fport 5).reqCred ≠ 0 ∧ net.port.replaying = false ∧
    (∀ e ∈ net.port.fp, e.2.reqQ = []) ∧ holdFree net = some 0 ∧ net.agtState 5 = 1 ∧ net.agtState 3 = 2 ∧
    sameBefore (withHold [(0, held 3 0x40)]) 3 0x40 = true ∧ adoptingSlice net (sliceOf 0x40) = false ∧ datFree net 5 = some 0 ∧
    (net.fport 5).datCred ≠ 0 ∧ holdFree (withHold [(0, held 3 0x40)]) = some 1 := by decide +kernel

theorem wit_HintsAcksAndWritebacks : (net.fport 5).reqCred ≠ 0 ∧ (net.fport 5).rspCred ≠ 0 ∧ (net.fport 5).datCred ≠ 0 ∧
    datFree net 5 = some 0 ∧ net.agtDc 4 = true ∧ net.agtState 4 = 2 ∧ (hdr 4 0x40).mfield = 0 := by decide +kernel

/-- Entry 464 of the slice of line 0x40 waits in a snoop phase whose targets are agents 3 and 4. -/
def tid40 : Nat := sliceOf 0x40 * 512 + 464
def snooping (open_ : List SnpTarget) : State := { net with
  sl := { net.sl with trk := [(tid40, { trk0 with valid := true, pa := 0x40, snpOut := true })] }
  port := { net.port with
    recs := [(tid40, ⟨true, 1, 1, hdr 3 0x40, none, false, false, 0, 5⟩)]
    fan := [(tid40, { fan0 with active := true, kind := .cur, pa := 0x40, expanded := true, open_ := open_, sent := 2 })] } }
def target (a : Nat) (df : Bool := false) : SnpTarget := ⟨a, true, 9000, false, df⟩
def snpWaits : State := { snooping [] with port := { (snooping []).port with
  snpQ := [(sliceOf 0x40 / 8, [⟨tid40, .cur, 0x40, .ptrs [3, 4], none, 0, 0⟩])] } }
def biid40 : Nat := sliceOf 0x40 / 8
theorem wit_SnoopPhasesAndAnswers : wbAhead net 3 0x40 = false ∧ (net.fport 5).rspCred ≠ 0 ∧
    birspTid (snooping [target 3, target 4]) 3 biid40 (sliceOf 0x40 % 8 * 512 + 464) = some tid40 ∧
    ((snooping [target 3]).fanE tid40).pa = (0x40#42).toNat ∧ (2#2).toNat ≤ strongest ((snooping [target 3]).fanE tid40).kind ∧
    dfTid (snooping [target 4 true]) 4 biid40 0x40 = some tid40 ∧
    (SMap.getD (fun _ => []) snpWaits.port.snpQ (sliceOf 0x40 / 8)).find? (snpMay snpWaits) =
      some ⟨tid40, .cur, 0x40, .ptrs [3, 4], none, 0, 0⟩ ∧ targetsOf snpWaits (.ptrs [3, 4]) 1 none = [3, 4] ∧
    ((snooping [target 3]).fanE tid40).open_.find? (fun t => t.agent = 3 ∧ t.left ∧ ¬ t.expired) = some (target 3) := by decide +kernel
def answeredAll : State := { snooping [] with port := { (snooping []).port with snpDone := [(sliceOf 0x40, [⟨tid40, 1, 2, 0, [(3, 1)], 1⟩])] } }
theorem wit_SnoopPhasesAndAnswers_done : SMap.getD (fun _ => []) answeredAll.port.snpDone (sliceOf 0x40) =
      [⟨tid40, 1, 2, 0, [(3, 1)], 1⟩] ∧ sliceIssues answeredAll (sliceOf 0x40) = true ∧ mayIssue answeredAll (sliceOf 0x40) 1 = true ∧
    (answeredAll.trkE tid40).valid = true ∧ (answeredAll.trkE tid40).snpOut = true ∧
    sliceIssues { answeredAll with coreUp := false } (sliceOf 0x40) = false := by decide +kernel

/-- Slot 0 is held, entry 464 of its slice is accepted, and a notice of each kind leads cluster `c`'s queue. -/
def noticed (x : Notice) : State :=
  let s := withHold [(0, { held 3 0x40 with wait := .trk tid40 })] (snooping [])
  { s with port := { s.port with notices := [(0, [x])], rel := [(1, [tid40])], fan := [] } }
theorem wit_NoticesAndHeldRequests : (noticed (.accept tid40 0 1)).notices 0 = [.accept tid40 0 1] ∧
    (noticed (.refuse 0 .mode)).notices 0 = [.refuse 0 .mode] ∧ (noticed (.retire tid40)).notices 0 = [.retire tid40] ∧
    ((noticed (.refuse 0 .mode)).holdE 0).used = true ∧ ((noticed (.retire tid40)).recE tid40).valid = true ∧
    net.port.staged = [] ∧ ((noticed (.retire tid40)).trkE tid40).wrWait = [] ∧
    SMap.getD (fun _ => []) (noticed (.retire tid40)).port.rel 1 = [tid40] ∧
    ((noticed (.retire tid40)).holdE 0).wait = .trk tid40 ∧ net.port.replaying = false ∧
    ((withHold [(0, held 3 0x40)]).holdE 0).wait = .presented := by decide +kernel
def pooled : State := net.setFport 5 { net.fport 5 with reqQ := [⟨1, hdr 3 0x40, none, 0⟩], reqCred := 31 }
theorem wit_NoticesAndHeldRequests_slot : holdFree pooled = some 0 ∧ (pooled.fport 5).reqQ = [⟨1, hdr 3 0x40, none, 0⟩] ∧
    (∀ q ∈ List.range 64, (pooled.fport q).reqQ ≠ [] → (5 + 63 - pooled.port.holdRot) % 64 ≤ (q + 63 - pooled.port.holdRot) % 64) ∧
    pooled.port.holdRot < 64 := by decide +kernel

theorem wit_CreditsAndLinks : (net.fport 5).txSnp < 255 ∧ ((net.setFport 5 { net.fport 5 with txSnp := 255 }).fport 5).txSnp = 255 ∧
    ((net.setFport 5 { net.fport 5 with txRsp := 0, rspQ := [plainMsg 0x28 3 0x40 7] }).fport 5).rspQ = [plainMsg 0x28 3 0x40 7] ∧
    (net.fport 5).snpQ = [] ∧ (net.fport 5).link = true ∧ (net.fport 6).link = false ∧ net.conf = [] := by decide +kernel

/-! ### Witnesses: slices -/

def n40 : Nat := sliceOf 0x40
/-- Agent 3's request for line 0x40 in slot 0 stands presented at its slice. -/
def asked : State := { withHold [(0, held 3 0x40)] with sl := { slice0 with sl := [(n40, { sliceQ0 with reqQ := [0] })] } }
def busy40 : State := { asked with sl := { asked.sl with trk := [(tid40, { trk0 with valid := true, pa := 0x40 })] } }
def rsv40 (deadline : Nat) (cq : List Rsv) : State := { asked with sl := { slice0 with
  sl := [(n40, { sliceQ0 with reqQ := [0], cq := cq, reserved := [(0x40, deadline)] })] } }
theorem wit_SliceIssue : asked.fld Fld.RB_STATUS_LOADED = 1 ∧ n40 < 128 ∧ adoptingSlice asked n40 = false ∧
    reqElig asked n40 = true ∧ mayIssue asked n40 3 = true ∧ pickReq asked n40 = some 0 ∧ sliceOf 0x40 = n40 ∧
    modeRefuses asked 0x40 = false ∧ isReserved asked n40 0x40 = false ∧ blocker asked 0x40 false none = none ∧
    blocker asked 0x40 true none = none ∧ allocEntry asked n40 0 = some 16 ∧ reqElig net n40 = false := by
  decide +kernel
theorem wit_SliceIssue_refusals : blocker busy40 0x40 false none = some (.trk tid40) ∧ pickReq busy40 n40 = some 0 ∧
    isReserved (rsv40 0 [⟨0x40, 9, 4, 0⟩]) n40 0x40 = true ∧ (cqHead (rsv40 0 [⟨0x40, 9, 4, 0⟩]) n40 0x40).map (·.hold) = some 9 ∧
    (cqHead (rsv40 0 [⟨0x40, 0, 3, 0⟩]) n40 0x40).map (·.hold) = some 0 ∧ modeRefuses (inMode 2 asked) 0x40 = true ∧
    reqElig (inMode 2 asked) n40 = true := by decide +kernel

/-- A fine word of state E, of sub-line `loc`, held by agent `a` (R137). -/
def fineE (loc a : Nat) : BitVec 120 := BitVec.ofNat 120 (2 ^ 26 + 3 * 2 ^ 28 + 2 ^ 33 + loc * 2 ^ 38 + a * 2 ^ 56)
/-- Drawer n40 holds at set 1, way 2 a fine word (E, line 5 of its sector), and a directory eviction of a way waits there. -/
def evicting (way : Nat) : State := { net with
  cab := { net.cab with words := [(n40 * 65536 + 18, fineE 5 3)] }
  sl := { slice0 with
    sl := [(n40, { sliceQ0 with evQ := [⟨1, way, some tid40, none⟩] })]
    trk := [(tid40, { trk0 with valid := true, pa := 0x40 })] } }
theorem wit_EvictionsAndReservations : evElig (evicting 0) n40 = true ∧ mayIssue (evicting 0) n40 2 = true ∧
    sliceIssues (evicting 0) n40 = true ∧ logicOf net n40 < 144 ∧ (decodeCab (drawerW (evicting 0) n40 16)).grain = 0 ∧
    (decodeCab (drawerW (evicting 2) n40 18)).grain = 1 ∧ allocEntry (evicting 2) n40 1 = some 480 ∧
    evElig (evicting 2) n40 = true ∧ mayIssue (evicting 2) n40 2 = true ∧ evElig net n40 = false ∧
    (net.slq n40).reserved = [] ∧
    ((rsv40 0 [⟨0x40, 9, 4, 0⟩]).slq n40).reserved.find? (fun e => e.1 = 0x40) = some (0x40, 0) ∧
    ((rsv40 7000 [⟨0x40, 9, 4, 0⟩]).slq n40).reserved.find? (fun e => e.1 = 0x40) = some (0x40, 7000) ∧
    cqHead (rsv40 7000 [⟨0x40, 9, 4, 0⟩]) n40 0x40 = some ⟨0x40, 9, 4, 0⟩ := by decide +kernel

theorem wit_SliceLogics : asked.fld Fld.SL_WDOG_TMO (logicOf asked n40) ≠ 0 ∧ reqElig asked n40 = true ∧ reqElig net 0 = false ∧
    evElig net 0 = false ∧ rspElig net 0 = false ∧ mntElig net 0 = false ∧
    (∀ k ∈ List.range 8, bits (up.fld Fld.CL_SLMAP_POS 0) (4 * k) 4 ≠ (8#8).toNat % 9) ∧ up.fld Fld.CL_SPARE_SPARE 0 = 8 ∧
    up.sl.adopting = [] ∧ up.mode ≠ 7 ∧ (inMode 7).mode = 7 ∧ (inMode 7).fld Fld.CL_SPARE_SPARE 0 ≠ 15 ∧
    (inMode 7).notices 0 = [] ∧ logicOf (inMode 7) 0 < 9 ∧ (143#8).toNat < 144 ∧
    { up with sl := { slice0 with adopting := [(3, true)] } }.sl.adopting = [(3, true)] := by decide +kernel

/-- A SETTLE message of line 0x40 leads the MNT class of its slice; the governor allows the background. -/
def settling (typ operand : Nat) : State := { net with
  govBg := 0xFFFF, sl := { slice0 with sl := [(n40, { sliceQ0 with mntQ := [⟨typ, 0x40, 3, operand, false, none⟩] })] } }
theorem wit_MaintenanceEntries : (∀ t ∈ [(0x3C, 0), (0x3E, 0), (0x3D, 1), (0x3D, 0), (0x3F, 0)],
      mntElig (settling t.1 t.2) n40 = true ∧ mayIssue (settling t.1 t.2) n40 4 = true) ∧ sliceIssues (settling 0x3C 0) n40 = true ∧
    blocker (settling 0x3C 0) 0x40 false none = none ∧ allocEntry (settling 0x3C 0) n40 2 = some 0 ∧ (settling 0x3C 0).govBg.getLsbD (n40 / 8) = true ∧
    adoptingSlice net n40 = false ∧ mntElig net n40 = false ∧ net.govBg.getLsbD 0 = false := by decide +kernel
theorem settling_well (typ operand : Nat) : Well (settling typ operand) := well_of net_well rfl rfl rfl rfl rfl rfl
def repeating : State := { net with sl := { slice0 with trk := [(n40 * 512, { trk0 with
  valid := true, cls := 2, typ := 0x3D, deadline := 9000, step := 3 })] } }
theorem wit_MaintenanceEntries_repeat : ((trkOfSlice repeating n40).find? (fun e => e.2.valid && e.2.cls == 2 && e.2.typ == 0x3D &&
    e.2.deadline != 0)).map (·.1) = some 0 ∧ trkOfSlice net n40 = [] := by decide +kernel

/-! ### Witnesses: stewards -/

theorem issues_runs (n : Nat) (h : n = 4 ∨ n = 8) : Issues (on 9 runs) 9 n := by
  unfold Issues; rcases h with rfl | rfl <;> decide +kernel
theorem issues_edge : Issues (on 9 { runs with pc := 0xFFFC }) 9 4 ∧ Issues (on 9 { runs with pc := 0xFFF8 }) 9 8 := by
  unfold Issues; decide +kernel
theorem handles_runs : CanHandle (on 9 runs) 9 := by unfold CanHandle; decide +kernel

theorem wit_AluAndCompareResults : (insLen (ins 10 2 1 0) = 4 ∧ (ins 10 2 1 0).fn.toNat < 64 ∧ (ins 10 2 1 0).ext = none) ∧
    (insLen (insX 10 2 0 0 5) = 8 ∧ (insX 10 2 0 0 5).gb = 0) ∧ (ins 7 2 1 47).gd.toNat < 8 ∧ (ins 7 2 1 39).fn.toNat < 48 ∧
    (ins 7 2 1 39).fn.toNat % 16 < 8 := by decide
theorem wit_FieldOperations : (op2 (on 9 runs) 9 (insX 10 2 0 0xF 0x3F20)).toNat = 0x3F20 ∧
    min (0x3F20 / 256 % 64 + 1) (64 - 0x3F20 % 64) = 32 := by decide +kernel
theorem wit_BranchTargets : (on 9 runs).dft = false ∧ (on 9 runs).pred 9 2 = false ∧ (ins 0 31 0 3).gd = 0 ∧ (ins 0 31 0 3).fn.toNat < 4 := by
  decide +kernel

/-- Addresses: the last byte of local memory, the first and last word of the boot ROM (cluster 0), the Hutch window. -/
def hutchAt : Thread := { runs with g := [(1, 0xFFF8), (2, 0x10FF8), (3, 0x0001000000001000), (4, 0x0000000000011000)] }
def hutched (t : Nat) : State := { on t hutchAt with hutch := [(t / 4, { (net.hut (t / 4)) with
  miss := some ⟨⟨some 8, 0, 0, .fetch 0, 0x41, false⟩, none, false, false⟩ })] }
theorem wit_LocalLoadsAndStores : ((gaV (hutched 9) 9 (ins 5 1 0 0)) + (0#11).signExtend 64).toNat = 0xFFF8 ∧
    maskOf (hutched 9) .stw 9 (0xFFF8 / 8) = 0 ∧ ((gaV (hutched 3) 3 (ins 5 2 0 7)) + (7#11).signExtend 64).toNat = 0x10FFF ∧
    (3#6).toNat < 4 ∧ (gaV (hutched 9) 9 (ins 5 3 0 0)).toNat / 2 ^ 48 = 1 ∧ hutMapped (hutched 9) (0x0001000000001000 / 64 % 2 ^ 42) = true ∧
    ((hutched 9).hut 2).miss ≠ none ∧ ((hutched 9).hut 2).maint = none ∧ (gaV (hutched 9) 9 (ins 5 4 0 0)).toNat = 0x11000 ∧
    0x11000 / 2 ^ 48 ≠ 1 ∧ (hutched 9).fld Fld.CL_INJ_ARM 2 2 = 0 := by decide +kernel

def yielded : State := on 9 { runs with run := 2, blk := .yield 5000 false false }
theorem wit_TrapsAndControl : (on 9 { runs with tvec := 0 }).thr 9 = { runs with tvec := 0 } ∧ (0xFC000000#32).toNat / 2 ^ 26 = 0x3F ∧
    (gaV (on 9 runs) 9 (ins 0 0 0 511) + (511#11).signExtend 64).toNat = 511 ∧
    512 ≤ (gaV (on 9 runs) 9 (ins 0 0 0 512) + (512#11).signExtend 64).toNat ∧ fenceReady (on 9 runs) 9 = true ∧
    fenceReady (on 9 { runs with late := [(0, 1)] }) 9 = false ∧ (yielded.thr 9).blk = .yield 5000 false false ∧
    (yielded.thr 9).stopReq = false ∧ (on 9 runs).thr 9 = runs := by decide +kernel

theorem wit_PacketsAndMessages : ((on 9 runs).thr 9).pkt.length < 8 ∧ 8 ≤ ((on 9 { runs with pkt := List.replicate 8 0 }).thr 9).pkt.length ∧
    SMap.getD (fun _ => []) (on 9 runs).nq.readyThr 9 = [] ∧ (gaV (on 9 runs) 9 (ins 0 1 0 0x3C)).toNat < 2 ^ 48 ∧
    homed (on 9 runs) ((gaV (on 9 runs) 9 (ins 0 1 0 0x3C)).toNat / 64) = true ∧ ((on 9 runs).thr 9).credits < 16 ∧
    16 ≤ ((on 9 { runs with credits := 16 }).thr 9).credits ∧ (gaV (on 9 runs) 9 (ins 0 2 0 64)).toNat = 64 ∧
    (gaV (on 9 runs) 9 (ins 0 31 0 64)).toNat < 64 ∧ (on 8 runs).thr 9 = thr0 ∧ stwFailed net 2 = false ∧
    ((on 9 { runs with inbox := [⟨1, 2⟩] }).thr 9).inbox = [⟨1, 2⟩] ∧
    ((on 9 { runs with blk := .mwait 4 2 false 5000 }).thr 9).blk = .mwait 4 2 false 5000 := by decide +kernel

/-- The first and last thread control register, and the offsets and addresses beside them. -/
theorem wit_ControlRegisters : gaV (on 9 runs) 9 (insX 5 0 0 0 0x80000006) = 0 ∧ (0 + (0x80000006#32).toNat) % 2 ^ 32 = 0x80000006 ∧
    (0 + (0x80000007#32).toNat) % 2 ^ 32 = 0x80000007 ∧ (0 + (0x1000000#32).toNat) % 2 ^ 32 = 0x1000000 ∧
    (0 + (0xFFFFFC#32).toNat) % 2 ^ 32 = 0xFFFFFC ∧ (insX 5 0 0 0 0xFFFFFD).fn = 0 ∧ 0xFFFFFC % 4 = 0 ∧ 0xFFFFFD % 4 ≠ 0 := by
  decide +kernel

/-! ### The end of a sequence (R194, R295) -/

/-- A read whose final message has left: with DATA forwarded by the holder that answered S or not (R194). -/
def readDone (ans : Nat) : State := up.setTrkE 0 { trk0 with
  valid := true, typ := 1, agent := 5, rclass := 2, phKind := .fwdClean, ans := ans, finalSent := true, finalLeft := true }
theorem test_forwarded_read_ends : ((endSeq (readDone 1) 0).1.trkE 0).ended = true ∧ (endSeq (readDone 1) 0).1.fault.held = [] := by
  decide +kernel
theorem test_read_without_data_is_poisoned : ((endSeq (readDone 0) 0).1.trkE 0).dataSent = true ∧
    ((endSeq (readDone 0) 0).1.fault.held.map (·.code)) = [0x22] := by decide +kernel

theorem wit_MemoryInstructions : gaV (on 9 runs) 9 (ins 5 1 2 0) = 0x1000040 ∧ gbV (on 9 runs) 9 (ins 5 1 2 0) = 0x40 ∧
    hutMapped (on 9 runs) (0x1000040 / 64) = true ∧ readPort (on 9 runs) (0x1000040 / 64) = some 3 ∧
    writePorts (on 9 runs) (0x1000040 / 64) = [3] ∧ ((on 9 runs).thr 9).lockSeq = none ∧
    (∀ k ∈ List.range 8, maskOf (on 9 runs) .stw 9 (0x40 / 8 + k) = 0) ∧ writePorts (on 9 runs) 0x1000040 = [3, 5] ∧
    ((on 9 { runs with lockSeq := some ([3], 7) }).thr 9).lockSeq = some ([3], 7) ∧ hutMapped (on 9 runs) 0x3000040 = false ∧
    gbV (on 9 runs) 9 (ins 5 1 4 0) = 0x10008 := by decide +kernel

def locking : Thread := { runs with lockSeq := some ([3], 1) }
theorem wit_LockedSequences : portsOf (on 9 runs) (0x1000040 / 64 % 2 ^ 42) = (3, none, 0x1000040 / 64 % 2 ^ 24) ∧
    mpState (on 9 runs) 3 ≠ 2 ∧ ((on 9 locking).thr 9).lockSeq = some ([3], 1) ∧ [3].Nodup ∧ ((on 9 locking).thr 9).tvec ≠ 0 ∧
    ((on 9 locking).thr 9).inTrap = false ∧ mpState (setF [(.MP_STATE_STATE, 3, 2)] (on 9 runs)) 3 = 2 ∧
    ((on 9 { runs with blk := .dlock 5 0x40 false 5000 }).thr 9).blk = .dlock 5 0x40 false 5000 ∧
    ((on 9 { runs with blk := .mem 0 5 0x1000 0 false 0 5000 }).thr 9).blk = .mem 0 5 0x1000 0 false 0 5000 ∧
    ((on 9 { runs with blk := .mlock 5 [] [3] 0x1000 0 5000 }).thr 9).blk = .mlock 5 [] [3] 0x1000 0 5000 ∧
    (match ((on 9 runs).thr 9).blk with | .dlock _ _ _ dl | .mem _ _ _ _ _ _ dl | .mlock _ _ _ _ _ dl => dl == 0 | _ => true) = true := by
  decide +kernel

/-- Drawer n40 holds a fine word of agent 3 for line 0x40 in way 2 of its set; thread 9 names it in g1 (and a bad Drawer in
g3), holds a lock of the line, and brings a word of E for agent 4 in g6 and g7. -/
def set40 : Nat := setOf 0x40
def word40 (a : Nat) : Nat := (fineE (lineIn 0x40) a).toNat + tagOf 0x40
def dirThread : Thread := { runs with
  g := [(1, BitVec.ofNat 64 (n40 * 65536 + set40 * 16 + 2)), (2, 0x1000), (3, 0x800000), (6, BitVec.ofNat 64 (word40 4)),
    (7, BitVec.ofNat 64 (word40 4 / 2 ^ 64))]
  locks := [⟨n40 * 512, 0x40, false, 4, false⟩] }
def dir (th : Thread := dirThread) : State := { on 9 th with
  cab := { net.cab with words := [(n40 * 65536 + set40 * 16 + 2, BitVec.ofNat 120 (word40 3))] } }
theorem wit_DirectoryWords : gaV dir 9 (ins 2 1 0 0) = BitVec.ofNat 64 (n40 * 65536 + set40 * 16 + 2) ∧
    n40 * 65536 + set40 * 16 + 2 < 2 ^ 23 ∧ (gaV dir 9 (ins 2 3 0 0)).toNat = 2 ^ 23 ∧
    maskOf dir (placeOf dir n40 (set40 * 16 + 2)).1 n40 (placeOf dir n40 (set40 * 16 + 2)).2 = 0 ∧
    (lookIn (peekSet dir n40 set40) 0x40).fine = some (2, decodeCab (word40 3)) ∧
    (lookIn (peekSet net n40 set40) 0x40).fine = none ∧ (lookIn (peekSet net n40 set40) 0x40).sector = none := by decide +kernel
def dirLocked : State := { dir with sl := { slice0 with trk := [(n40 * 512, { trk0 with valid := true, cls := 2, pa := 0x40, tstate := 8 })] } }
theorem wit_DirectoryWords_put : inBlindTable dir n40 set40 = false ∧ (dir.drq n40).retired.contains (set40 * 16 + 2) = false ∧
    (wordLock dirLocked 9 set40 (decodeCab (word40 4))).1 = true ∧ (wordLock dirLocked 9 set40 (decodeCab (word40 3))).1 = true ∧
    cabOk (word40 4) = true ∧ (gbV dir 9 (ins 2 1 6 0)).toNat + (dir.greg 9 7).toNat * 2 ^ 64 = word40 4 ∧ (dir.greg 9 7).toNat < 2 ^ 56 ∧
    (decodeCab (word40 4)).state ≠ 2 ∧ setOk ((peekSet dir n40 set40).map (fun e => if e.1 = 2 then (e.1, word40 4) else e)) = true ∧
    spareOf dir n40 (set40 * 16 + 2) = none ∧ dir.fld Fld.SI_INJ_ARM n40 = 0 ∧
    (wordLock (dir { dirThread with locks := [] }) 9 set40 (decodeCab (word40 4))).1 = false ∧
    pinned dir n40 set40 (2, drawerW dir n40 (set40 * 16 + 2)) = false ∧ (decodeCab (drawerW dir n40 (set40 * 16 + 2))).grain ≠ 0 := by
  decide +kernel
def blinded : State := { dir with cab := { dir.cab with dr := [(n40, { drawer0 with blind := [(0, ⟨set40, 1, 1, 0, 0⟩)] })] } }
theorem wit_DirectoryWords_blind : inBlindTable blinded n40 set40 = true ∧
    (blinded.drq n40).blind = [(0, ⟨set40, 1, 1, 0, 0⟩)] ∧ (blinded.drq n40).blindAll = false := by decide +kernel

def dlocking : State := { (on 9 { runs with blk := .dlock 5 0x40 false 0 }) with
  sl := { slice0 with sl := [(n40, { sliceQ0 with mntQ := [⟨0, 0x40, 9, 0, false, some (9, 0)⟩] })] } }
theorem wit_DirectoryLocks : homed (on 9 runs) (0x1000 / 64) = true ∧ (gaV dir 9 (ins 5 2 0 0)).toNat = 0x1000 ∧
    heldLock dir 9 0x40 false = some ⟨n40 * 512, 0x40, false, 4, false⟩ ∧ heldLock (on 9 runs) 9 0x40 false = none ∧
    (dlocking.slq n40).mntQ = [⟨0, 0x40, 9, 0, false, some (9, 0)⟩] ∧ (dlocking.thr 9).blk = .dlock 5 0x40 false 0 ∧
    sliceIssues dlocking n40 = true ∧ mayIssue dlocking n40 4 = true ∧ blocker dlocking 0x40 false none = none ∧
    allocEntry dlocking n40 2 = some 0 := by decide +kernel

def oldEntry (s : State) : State := { s with sl := { s.sl with trk := [(tid40, { trk0 with valid := true, epoch := 0 })] } }
def rloads (i : Nat) : Thread := { runs with g := [(1, BitVec.ofNat 64 i)] }
theorem wit_RuleLoading : (∀ c ∈ List.range 16, net.fld Fld.CL_INJ_ARM c 4 = 0) ∧ (gaV (on 9 (rloads 1023)) 9 (ins 5 1 2 0)).toNat = 1023 ∧
    (gaV (on 9 (rloads 8191)) 9 (ins 5 1 2 0)).toNat = 8191 ∧ (gaV (on 9 (rloads 1024)) 9 (ins 5 1 2 0)).toNat = 1024 ∧
    (gaV (on 9 (rloads 8192)) 9 (ins 5 1 2 0)).toNat = 8192 ∧ swapping net = false ∧ draining net = false ∧
    net.sl.banks.blocked = [] ∧ draining (oldEntry net) = true ∧
    swapping { net with sl := { slice0 with banks := ⟨1, 0, [], [], some (some (9, 5), 900)⟩ } } = true ∧
    ((on 9 { runs with blk := .rload 5 7 9 }).thr 9).blk = .rload 5 7 9 ∧ ((on 9 { runs with blk := .rswap }).thr 9).blk = .rswap ∧
    ({ net with sl := { slice0 with banks := ⟨1, 0, [], [9], none⟩ } }).sl.banks.blocked.head? = some 9 ∧ 900 ≤ net.now := by
  decide +kernel

theorem wit_StewardControl : stwFailed net 15 = false ∧ stwFailed (setF [(.STW_STATUS_FAILED, 15, 1)] net) 15 = true ∧
    (on 9 runs).thr 9 = runs ∧ (thr0 : Thread).run = 0 ∧ (runs : Thread).run = 1 ∧ (runs : Thread).locks = [] ∧
    ({ runs with run := 3 } : Thread).run = 3 ∧ ({ runs with blk := .mwait 4 2 true 0 } : Thread).blk = .mwait 4 2 true 0 ∧
    ({ runs with blk := .fence } : Thread).blk = .fence := by decide +kernel

def loading (phase : Nat) (lines : List Line) : State := setF [(.CMD_RES_DONE, 0, 0)]
  { net with cmd := some ⟨0x30, [0x1000], phase, 0, 5000, lines⟩ }
def booting : State := { starting 0 8 2 with start := { (starting 0 8 2).start with
  boot := { boot0 with active := true, wait := true, fifo := [7], gap := 100 } } }
theorem wit_BanksAndMailbox : progsUp (loading 0 []) = true ∧ namedLines (loading 0 []) 0x40 385 = true ∧ namedLines up 0x40 385 = false ∧
    draining (loading 3 []) = false ∧ swapping (loading 3 []) = false ∧ (loading 3 (List.replicate 385 0)).sl.banks.blocked = [] ∧
    (List.replicate 384 (0 : Line)).length = 384 ∧ progsUp (withCmd 0x31 []) = true ∧ draining (oldEntry (withCmd 0x31 [])) = true ∧
    booting.start.boot.fifo.length < 16 ∧ up.start.boot.fifo = [] ∧ booting.start.run ≠ none ∧ booting.start.boot.active = true ∧
    booting.start.boot.src = 0 ∧ booting.start.boot.wait = true ∧ booting.start.boot.fifo = [7] := by decide +kernel

/-! ### Witnesses: the Hutch and the Drawers -/

/-- Cluster 2's demand fill is outstanding on port 3, entry 0 chosen; entry 1 holds a dirty line. -/
def filling (org : MemOrg) : State := { net with
  hutch := [(2, { (net.hut 2) with
    miss := some ⟨⟨some 9, 0, 0, .store 0 5, 0x40, false⟩, some 0, false, false⟩
    ent := [(1, ⟨true, true, 1, 0x80, 5⟩)], evb := [(0, some ⟨0x90, 1, 0, false, false⟩)] })]
  mem := { mem0 with
    nextId := 1, ops := [(0, some ⟨0, org, 0x40, 0x40, 0, 0, false, 2, [3]⟩)], mp := [(3, { mport0 with out := [⟨2, 0, 9000⟩] })] } }
theorem wit_HutchLines : ⟨2, 0, 9000⟩ ∈ ((filling (.hutchFill 2)).mport 3).out ∧
    opOf (filling (.hutchFill 2)) 0 = some ⟨0, .hutchFill 2, 0x40, 0x40, 0, 0, false, 2, [3]⟩ ∧
    (∀ k ∈ List.range 32, k = 3 ∨ ((filling (.hutchFill 2)).mport k).out = []) ∧
    ((filling (.hutchFill 2)).hut 2).miss = some ⟨⟨some 9, 0, 0, .store 0 5, 0x40, false⟩, some 0, false, false⟩ ∧
    opOf (filling (.hutchEv 2 0)) 0 = some ⟨0, .hutchEv 2 0, 0x40, 0x40, 0, 0, false, 2, [3]⟩ ∧
    net.fld Fld.HUTCH_CTL_EN 2 = 1 ∧ net.fld Fld.HUTCH_CTL_TICK 2 ≠ 0 ∧
    (setF [(.HUTCH_CTL_EN, 2, 0)] net).fld Fld.HUTCH_CTL_EN 2 = 0 ∧ hutFind net 2 0x40 = none ∧ evbFind net 2 0x40 = none ∧
    hutVictim net 2 0 = some 0 := by decide +kernel
def cached (e : HEnt) : State := { net with hutch := [(2, { (net.hut 2) with ent := [(47, e)] })] }
theorem wit_HutchMaintenance : net.fld Fld.HUTCH_MAINT_STATUS 2 ≠ 1 ∧ (setF [(.HUTCH_MAINT_STATUS, 2, 1)] net).fld Fld.HUTCH_MAINT_STATUS 2 = 1 ∧
    hutMapped net (0x40#42).toNat = true ∧ hutMapped net (0x3000040#42).toNat = false ∧ (5#3).toNat < 6 ∧ 6 ≤ (6#3).toNat ∧
    hutFind (cached ⟨true, true, 1, 0x40, 5⟩) 2 0x40 = some 47 ∧ (hutEnt (cached ⟨true, false, 1, 0x40, 5⟩) 2 47).dirty = false ∧
    hutFind net 2 0x40 = none ∧ evbFind net 2 0x40 = none ∧ (net.hut 2).miss = none ∧ (net.hut 2).pf = none ∧
    (net.hut 2).maint = none ∧ hutVictim net 2 0 = some 0 ∧ (hutEnt net 2 47).valid = false ∧ 47 < (48#6).toNat := by decide +kernel

def upkeep (q : DrawerQ) : State := { net with govBg := 0xFFFF, cab := { net.cab with dr := [(127, q)] } }
theorem wit_DrawerUpkeepAndScrubbing : (∀ k ∈ List.range 32, maskOf (upkeep drawer0) (placeOf (upkeep drawer0) 127 k).1 127
      (placeOf (upkeep drawer0) 127 k).2 = 0) ∧ (upkeep drawer0).fld Fld.SI_INJ_ARM 127 = 0 ∧ (upkeep drawer0).fld Fld.CAB_AGE_EN 127 = 1 ∧
    (upkeep drawer0).govBg.getLsbD (127 / 8) = true ∧ (upkeep drawer0).fld Fld.SCRUB_CTL_EN 127 = 1 ∧
    ((upkeep { drawer0 with scrubPage := 2047 }).drq 127).scrubPage = 2047 ∧ pqOf (upkeep drawer0) .drawer 127 0 0 = 0 ∧
    ((upkeep { drawer0 with wbq := [5] }).drq 127).wbq = [5] ∧ wordLook (upkeep drawer0) .drawer 127 5 = some (0, 0) ∧
    spareOf (upkeep drawer0) 127 5 = none ∧ ((upkeep { drawer0 with hard := [5] }).drq 127).hard = [5] ∧
    (upkeep drawer0).fld Fld.CULLET_VALID 127 0 = 0 ∧ (decodeCab (drawerW (upkeep drawer0) 127 5)).grain = 0 ∧
    ((upkeep { drawer0 with retiring := [5] }).drq 127).retiring = [5] ∧
    ((upkeep { drawer0 with rpt := [⟨5, 1, 100, false, 50⟩] }).drq 127).rpt = [] ++ ⟨5, 1, 100, false, 50⟩ :: [] ∧
    ((upkeep { drawer0 with scrubRun := true }).drq 127).scrubRun = true ∧ (upkeep drawer0).fld Fld.SI_BUCKET_LEAK 127 ≠ 0 ∧
    bit1 (0x200#32).toNat 9 = true ∧ (63#9).toNat < 64 := by decide +kernel

/-! ### Witnesses: faults, the queue, messages and commands -/

def reported (r : Report) (s : State := up) : State := { s with fault := { s.fault with held := [r] } }
def rep9 : Report := ⟨0x09, 3, 1, false, .port, 500, false⟩
theorem wit_FaultReports : nextReport up = none ∧ nextReport (reported rep9) = some rep9 ∧ rep9.code < 256 ∧ up.start.run = none ∧
    up.sleepReady = false ∧ up.fld Fld.FC_CTL_LATCH_SEV ≤ min 3 (up.fld Fld.FC_SRC_SEV 9 + up.fld Fld.FC_SRC_LASTING 9) ∧
    up.fld Fld.FC_STATUS_FAULT = 0 ∧ (setF [(.FC_STATUS_FAULT, 0, 1)] up).fld Fld.FC_STATUS_FAULT = 1 ∧
    min 3 (up.fld Fld.FC_SRC_SEV 1 + up.fld Fld.FC_SRC_LASTING 1) < up.fld Fld.FC_CTL_LATCH_SEV := by decide +kernel
def latched : State := setF [(.FC_STATUS_FAULT, 0, 1), (.FC_FIRST_CODE, 0, 9), (.FC_FIRST_SUBJECT, 0, 7)] net
theorem wit_FaultControl : (hist up 9).count = 0 ∧ (hist { up with fault := { up.fault with hist := [(9, { hist0 with count := 2, winEnd := 9000 })] } } 9).count ≠ 0 ∧
    recordLive up = false ∧ up.fld Fld.FC_STATUS_FAULT = 0 ∧ recordLive latched = true ∧
    recordLive (setF [(.FC_STATUS_FAULT, 0, 1), (.FC_FIRST_CODE, 0, 9)] up) = false ∧ (inMode 7).mode = 7 ∧ faultSrc 9 ≠ none ∧
    faultSrc 0 = none := by decide +kernel

/-- A packet of one record of TYPE 0x69 with END, ready at telemetry or at thread 9. -/
def rec69 : BitVec 128 := BitVec.ofNat 128 (0x69 + 2 ^ 127)
def packet : State := { up with nq := { nq0 with readyPar := [[rec69]] } }
def full : State := { packet with nq := { packet.nq with rings := [(ringOfType up 0x69, { ring0 with wp := ringSize up (ringOfType up 0x69) })] } }
theorem wit_PacketCommit : up.nq.readyFc = [] ∧ packet.nq.readyPar = [rec69] :: [] ∧ recType rec69 = 0x69 ∧
    ringOcc packet (ringOfType up 0x69) + 1 ≤ ringSize packet (ringOfType up 0x69) - 1 ∧ packet.fld Fld.NQ_CTL_EN = 1 ∧
    packet.fld Fld.NQ_RING_LOG2 (ringOfType up 0x69) ≤ 13 ∧
    ¬ ringOcc full (ringOfType up 0x69) + 1 ≤ ringSize full (ringOfType up 0x69) - 1 ∧
    ¬ ringOcc full (ringOfType up 0x69) < ringSize full (ringOfType up 0x69) ∧
    readyThread { up with nq := { nq0 with readyThr := [(9, [rec69])] } } = some 9 ∧ layoutOk up = true := by decide +kernel

def queued (lock : Option Nat) : State := { up with nq := { nq0 with
  rings := [(2, { ring0 with wp := 1, pkts := 1, mark := .valid 0 0 })], ends := [(ringSlot up 2 0, 7)], slots := [(ringSlot up 2 0, rec69)], lock := lock } }
theorem wit_QueueReader : up.nq.lock = none ∧ (∀ r ∈ List.range 8, (up.ringE r).pkts = 0) ∧ ((queued none).ringE 2).pkts ≠ 0 ∧
    (∀ k ∈ List.range 2, ((queued none).ringE k).pkts = 0) ∧ (queued (some 2)).nq.lock = some 2 ∧
    slotEnd (queued (some 2)) (ringSlot (queued (some 2)) 2 0) = true ∧ ((queued none).ringE 2).mark = .valid 0 0 ∧
    (up.ringE 7).mark = .never ∧ layoutOk up = true ∧ SMap.sorted up.nq.rings = true ∧
    layoutOk (setF [(.NQ_RING_LOG2, 7, 14)] up) = false := by decide +kernel

def saying (s : State) (m : List (BitVec 32)) (recs : List (Bool × List (BitVec 32))) : State :=
  { s with fb := { s.fb with msgs := [m], recs := recs } }
def irqOn : State := setF [(.IC_SRC_PRIO, 44, 3), (.IC_SRC_TMASK, 44, 1)] { up with irq := ⟨[44], []⟩ }
theorem wit_MessagesInterruptsCommands : up.fb.msgs = [] ∧ (saying up [1] []).fb.msgs = [[1]] ∧ up.sleepReady = false ∧
    (saying lehrUp [1] [(false, [2, 3, 4])]).fb.recs = [] ++ [(false, [2, 3, 4])] ∧ lehrUp.coreUp = false ∧
    (saying lehrUp [1] []).fb.recs.length < 128 ∧ 128 ≤ (saying lehrUp [1] (List.replicate 128 (true, []))).fb.recs.length ∧
    irqOn.fld Fld.IC_SRC_PRIO 44 ≠ 0 ∧ bit1 (irqOn.fld Fld.IC_SRC_TMASK 44) 0 = true ∧
    irqOn.fld Fld.IC_THRESH_THRESH 0 < irqOn.fld Fld.IC_SRC_PRIO 44 ∧ (23#5).toNat < 24 ∧ up.irq.pend = [] ∧
    up.fld Fld.CMD_RES_DONE = 1 ∧ up.fld Fld.BOOT_STATUS_CODE = 2 ∧ 0x31 ∈ cmdCodes ∧ 0 ∉ cmdCodes ∧ cmdArgsOk 0x31 0 0 0 0 = true ∧
    cmdArgsOk 0x31 1 0 0 0 = false ∧ runsCmds up 3 = true ∧ runsCmds up 0 = false ∧ (withCmd 0x31 []).fld Fld.CMD_RES_DONE = 0 ∧
    (setF [(.BOOT_STATUS_CODE, 0, 0)] up).fld Fld.BOOT_STATUS_CODE ≠ 2 := by decide +kernel

/-! ### Witnesses: Punty -/

def punty (q : PtPort) (s : State := up) : State := { setF [(.PT_CTL_EN, 1, 1)] s with pt := { s.pt with port := [(1, q)] } }
def ptAt (st : Nat) : PtPort := { ptPort0 with state := st, attempt := 1, lock := 3, dl := 5000, types := 0x07FE }
def linkHdr : PtHdr := ⟨0, false, 63, true⟩
theorem wit_PortBringUp : ptRuns up = true ∧ ((punty (ptAt 1)).ptp 1).state = 1 ∧ ((punty (ptAt 1)).ptp 1).attempt < 8 ∧
    8 ≤ ((punty { ptAt 1 with attempt := 8 }).ptp 1).attempt ∧ ((punty (ptAt 2)).ptp 1).state = 2 ∧
    ((punty (ptAt 5)).ptp 1).state = 5 ∧ up.fld Fld.PT_CTL_BG_RETRY 1 = 1 ∧ up.fld Fld.SLEEP_STATUS_STATE = 0 ∧
    ((punty (ptAt 3)).ptp 1).lock &&& (3 - (1#2).toNat) = 2 ∧ ((punty (ptAt 3)).ptp 1).lock &&& (3 - (3#2).toNat) = 0 ∧
    ((punty (ptAt 4)).ptp 1).state = 4 ∧ (punty (ptAt 4)).fld Fld.PT_CTL_EN 1 = 1 ∧ up.fld Fld.PT_CTL_EN 1 = 0 ∧
    ((punty (ptAt 6)).ptp 1).state = 6 := by decide +kernel
theorem wit_CapAndReplay : ptRuns (punty (ptAt 1)) = true ∧ linkHdr.crcOk = true ∧ (2#8).toNat ≠ up.instId ∧ (0#8).toNat = up.instId ∧
    ((punty { ptAt 1 with capOut := true }).ptp 1).capOut = true ∧ bit1 (0x07FE#16).toNat 2 = true ∧ bit1 (2#16).toNat 2 = false ∧
    ((punty (ptAt 1)).ptp 1).waitq = [] ∧ (ptAck (ptAt 1) linkHdr.ack.toNat).replay.length < 32 ∧ ((punty (ptAt 3)).ptp 1).state = 3 := by
  decide +kernel

def linked : State := punty (ptAt 3)
theorem hears_linked : Hears linked 1 linkHdr := by unfold Hears; decide +kernel
theorem new_flood : NewFlood linked ⟨2, 9, 3⟩ := by unfold NewFlood; decide +kernel
theorem old_flood : ¬ NewFlood linked ⟨0, 9, 3⟩ := by unfold NewFlood; decide +kernel
theorem linked_sends : ∀ typ ∈ [2, 5, 6, 7], CanSend (linked.ptp 1) typ := by unfold CanSend; decide +kernel
theorem wit_PeerHeartbeats : (2#8).toNat ≠ linked.instId ∧ ptUp linked 1 = true ∧ ptUp up 1 = false ∧ upPorts linked = [1] ∧
    linkHdr.seq.toNat = ((linked.ptp 1).rx + 1) % 64 ∧ (5#6).toNat ≠ ((linked.ptp 1).rx + 1) % 64 ∧
    SMap.getD (fun _ => 0) { linked.pt with heard := [(2, 501)] }.heard 2 ≠ 0 ∧ 2 ∉ linked.pt.lost := by decide +kernel
def synced : State := setF [(.PT_GCTL_TSYNC_EN, 0, 1), (.PT_PKG_BUDGET, 0, 400), (.STRAP_PARISON_SRC, 0, 0), (.PT_STATUS_PEER_ID, 1, 2)]
  (punty { ptAt 3 with dist := 0, t1 := some 900 })
theorem wit_TimeAndPackagePower : ptRuns synced = true ∧ synced.fld Fld.PT_GCTL_TSYNC_EN = 1 ∧ (synced.ptp 1).t1 = some (900#64).toNat ∧
    synced.fld Fld.PT_PKG_BUDGET ≠ 0 ∧ pkgPorts synced = [1] ∧ (2#8).toNat / 4 = synced.instId / 4 ∧ up.fld Fld.PT_PKG_BUDGET = 0 := by
  decide +kernel
theorem wit_TimeAndPackagePower_upstream : ptUpstream (setF [(.STRAP_INST_ID, 0, 5)] synced) ≠ 7 ∧ ptUpstream up = 7 := by decide +kernel

theorem wit_FloodedFrames : progsUp linked = true ∧ progsUp (setF [(.BOOT_STATUS_CODE, 0, 0)] linked) = false ∧
    (punty (ptAt 3) calm).agtState 3 = 2 ∧ (punty (ptAt 3) calm).port.dying = none ∧ (punty (ptAt 3) net).agtState 7 = 4 ∧
    (punty (ptAt 3) calm).port.deaths = [] ∧ linked.fld Fld.FRZ_CTL_PEER_EN = 1 ∧ linked.agtState 3 = 0 := by decide +kernel
theorem wit_HomeMapHandoff : genOf linked 0 = 0 ∧ (1 + 256 - genOf linked 0) % 256 = 1 ∧ (127 + 256 - genOf linked 0) % 256 < 128 ∧
    ¬ (128 + 256 - genOf linked 0) % 256 < 128 ∧ linked.cmd = none ∧ progsUp (withCmd 0x70 [0, 2]) = true ∧
    (setF [(.HMAP_HOME, 0, 2)] (withCmd 0x70 [0, 2])).fld Fld.HMAP_VALID 0 = 1 ∧
    (setF [(.HMAP_HOME, 0, 2)] (withCmd 0x70 [0, 2])).fld Fld.HMAP_HOME 0 ≠ net.instId ∧ net.fld Fld.ADOPT_WIN_A_STATE 0 = 0 ∧
    (withCmd 0x70 [0, 2]).fld Fld.HMAP_HOME 0 = net.instId ∧
    (∀ i ∈ List.range 4, (setF [(.ADOPT_WIN_A_STATE, 0, 1), (.ADOPT_WIN_A_STATE, 1, 1), (.ADOPT_WIN_A_STATE, 2, 1),
      (.ADOPT_WIN_A_STATE, 3, 1)] net).fld Fld.ADOPT_WIN_A_STATE i ≠ 0) := by decide +kernel

end Sys2Proof.Tests
end

/-! SUPPORT. Where the registers of the window stand: every word of every register is found there, and no two registers share
one (R6, R542). -/

namespace Sys2Proof.Machine

/-! ### The layout of the register window -/

/-- The bytes from a unit's first word to behind its last. -/
def RegDesc.row (d : RegDesc) : Nat := d.s2 * (d.n2 - 1) + 4 * d.words

/-- The offset behind a register's last word. -/
def RegDesc.stop (d : RegDesc) : Nat := d.base + d.s1 * (d.n1 - 1) + d.row

/-- A register is of one or two words; its units and indices do not overlap and lie below the diagnostic window. -/
def RegDesc.fits (d : RegDesc) : Bool :=
  (d.words == 1 || d.words == 2) && (d.n2.ble 1 || (4 * d.words).ble d.s2) && (d.n1.ble 1 || d.row.ble d.s1) &&
    d.stop.ble 0x800000

/-- Two registers share no word: one lies behind the other, or their units alternate under one stride, or within such units
their indices do. -/
def RegDesc.apart (d e : RegDesc) : Bool :=
  d.stop.ble e.base || e.stop.ble d.base ||
    (d.s1 == e.s1 && (d.base + d.row).ble (e.base + d.s1) && (e.base + e.row).ble (d.base + d.s1) &&
      ((d.base + d.row).ble e.base || (e.base + e.row).ble d.base ||
        (d.s2 == e.s2 && (d.base + 4 * d.words).ble (e.base + d.s2) && (e.base + 4 * e.words).ble (d.base + d.s2) &&
          ((d.base + 4 * d.words).ble e.base || (e.base + 4 * e.words).ble d.base))))

/-- Each register of a list stands apart from all behind it. -/
def allApart : List RegName → Bool
  | [] => true
  | q :: l => l.all (fun r => q.desc.apart r.desc) && allApart l

theorem allRegs_fit : allRegs.all (fun r => r.desc.fits) = true := by decide +kernel

theorem allRegs_apart : allApart allRegs = true := by decide +kernel

theorem mem_allRegs (r : RegName) : r ∈ allRegs :=
  List.mem_of_getElem? (i := r.ctorIdx) (by cases r <;> rfl)

theorem desc_fits (r : RegName) : (r.desc.words = 1 ∨ r.desc.words = 2) ∧
    (r.desc.n2 ≤ 1 ∨ 4 * r.desc.words ≤ r.desc.s2) ∧ (r.desc.n1 ≤ 1 ∨ r.desc.row ≤ r.desc.s1) ∧ r.desc.stop ≤ 0x800000 := by
  have h := List.all_eq_true.1 allRegs_fit r (mem_allRegs r)
  simpa only [RegDesc.fits, Bool.and_eq_true, Bool.or_eq_true, Nat.ble_eq, beq_iff_eq, and_assoc] using h

/-- The offset that a register hits is that of the unit, index and word it names. -/
theorem hit_eq_some {r : RegName} {off i j w : Nat} (h : r.hit off = some (i, j, w)) :
    off = r.addr i j + 4 * w ∧ i < r.desc.n1 ∧ j < r.desc.n2 ∧ w < r.desc.words := by
  unfold RegName.hit at h
  simp only [Option.ite_none_left_eq_some, Option.ite_none_right_eq_some, Option.some.injEq, Prod.mk.injEq] at h
  obtain ⟨hbase, ⟨hi, hj, hz, hz4⟩, rfl, rfl, rfl⟩ := h
  refine ⟨?_, hi, hj, by omega⟩
  unfold RegName.addr
  have unit_le : ∀ n s x : Nat, s * (if n ≤ 1 then 0 else x / s) ≤ x := by
    intro n s x
    split
    · simp
    · exact Nat.mul_div_le x s
  have hx := unit_le r.desc.n1 r.desc.s1 (off - r.desc.base)
  have hy := unit_le r.desc.n2 r.desc.s2
    (off - r.desc.base - r.desc.s1 * if r.desc.n1 ≤ 1 then 0 else (off - r.desc.base) / r.desc.s1)
  omega

/-- The unit (or index) number found by division, where the rest fits in the stride. -/
theorem index_of_stride {n s i x : Nat} (hi : i < n) (hx : n ≤ 1 ∨ x < s) :
    (if n ≤ 1 then 0 else (s * i + x) / s) = i := by
  split
  · omega
  · rw [Nat.mul_add_div (by omega), Nat.div_eq_of_lt (by omega), Nat.add_zero]

/-- The words of an index stay within its unit's row. -/
theorem lt_row {d : RegDesc} {j h : Nat} (hj : j < d.n2) (hh : h < d.words) : d.s2 * j + 4 * h < d.row := by
  have := Nat.mul_le_mul_left d.s2 (show j ≤ d.n2 - 1 by omega)
  unfold RegDesc.row
  omega

/-- A register hits its own words. -/
theorem hit_addr (r : RegName) {i j h : Nat} (hi : i < r.desc.n1) (hj : j < r.desc.n2) (hh : h < r.desc.words) :
    r.hit (r.addr i j + 4 * h) = some (i, j, h) := by
  obtain ⟨-, hindex, hunit, -⟩ := desc_fits r
  have hrow := lt_row hj hh
  have hx : r.addr i j + 4 * h - r.desc.base = r.desc.s1 * i + (r.desc.s2 * j + 4 * h) := by unfold RegName.addr; omega
  have hge : ¬ r.addr i j + 4 * h < r.desc.base := by unfold RegName.addr; omega
  simp only [RegName.hit, hx, if_neg hge, index_of_stride hi (hunit.imp_right (lt_of_lt_of_le hrow)), Nat.add_sub_cancel_left,
    index_of_stride hj (hindex.imp_right (lt_of_lt_of_le (show 4 * h < 4 * r.desc.words by omega)))]
  rw [if_pos ⟨hi, hj, by omega, by omega⟩]
  simp

/-- Registers that stand apart have no word in common. -/
theorem apart_ne {q r : RegName} (ha : q.desc.apart r.desc = true) {i j h i' j' h' : Nat}
    (hi : i < q.desc.n1) (hj : j < q.desc.n2) (hh : h < q.desc.words)
    (hi' : i' < r.desc.n1) (hj' : j' < r.desc.n2) (hh' : h' < r.desc.words) :
    q.addr i j + 4 * h ≠ r.addr i' j' + 4 * h' := by
  unfold RegName.addr
  generalize q.desc = d at *
  generalize r.desc = e at *
  simp only [RegDesc.apart, RegDesc.stop, Bool.or_eq_true, Bool.and_eq_true, Nat.ble_eq, beq_iff_eq] at ha
  have hrow := lt_row hj hh
  have hrow' := lt_row hj' hh'
  have hlast := Nat.mul_le_mul_left d.s1 (show i ≤ d.n1 - 1 by omega)
  have hlast' := Nat.mul_le_mul_left e.s1 (show i' ≤ e.n1 - 1 by omega)
  have next_le : ∀ s {a b : Nat}, a < b → s * a + s ≤ s * b := fun s a b hab => Nat.mul_le_mul_left s hab
  rcases ha with (hbehind | hbefore) | ⟨⟨⟨hs1, hcross⟩, hcross'⟩, hunit⟩
  · omega
  · omega
  · rw [← hs1] at hlast' ⊢
    rcases Nat.lt_trichotomy i i' with hlt | rfl | hgt
    · have := next_le d.s1 hlt; omega
    · rcases hunit with (hb | hb) | ⟨⟨⟨hs2, hcross2⟩, hcross2'⟩, hword⟩
      · omega
      · omega
      · rw [← hs2]
        rcases Nat.lt_trichotomy j j' with hlt | rfl | hgt
        · have := next_le d.s2 hlt; omega
        · omega
        · have := next_le d.s2 hgt; omega
    · have := next_le d.s1 hgt; omega

theorem locateIn_of_hit {l : List RegName} (hl : allApart l = true) {r : RegName}
    (hr : r ∈ l) {off i j w : Nat} (hit : r.hit off = some (i, j, w)) : locateIn off l = some (r, i, j, w) := by
  induction l with
  | nil => cases hr
  | cons q l ih =>
    obtain ⟨hq, hl⟩ := Bool.and_eq_true_iff.1 hl
    rw [locateIn]
    rcases List.mem_cons.1 hr with rfl | hr
    · rw [hit]
    · have hmiss : q.hit off = none := by
        rcases hqhit : q.hit off with _ | ⟨i', j', w'⟩
        · rfl
        · obtain ⟨hoff, hi, hj, hw⟩ := hit_eq_some hit
          obtain ⟨hoff', hi', hj', hw'⟩ := hit_eq_some hqhit
          exact absurd (hoff'.symm.trans hoff) (apart_ne (List.all_eq_true.1 hq r hr) hi' hj' hw' hi hj hw)
      rw [hmiss]
      exact ih hl hr

/-- Every word of a register is located as that. -/
theorem locate_addr (r : RegName) {i j h : Nat} (hi : i < r.desc.n1) (hj : j < r.desc.n2) (hh : h < r.desc.words) :
    locate (r.addr i j + 4 * h) = some (r, i, j, h) :=
  locateIn_of_hit allRegs_apart (mem_allRegs r) (hit_addr r hi hj hh)

/-- Every register lies below the diagnostic window. -/
theorem addr_lt_window (r : RegName) {i j h : Nat} (hi : i < r.desc.n1) (hj : j < r.desc.n2) (hh : h < r.desc.words) :
    r.addr i j + 4 * h < 0x800000 := by
  obtain ⟨-, -, -, hstop⟩ := desc_fits r
  unfold RegDesc.stop at hstop
  have hrow := lt_row hj hh
  have hlast := Nat.mul_le_mul_left r.desc.s1 (show i ≤ r.desc.n1 - 1 by omega)
  unfold RegName.addr
  omega

theorem words_pos (r : RegName) : 0 < r.desc.words := by
  rcases (desc_fits r).1 with h | h <;> omega

/-- Within its counts of units and indices a register stands in the window. -/
theorem isReg_of_lt (r : RegName) {i j : Nat} (hi : i < r.desc.n1) (hj : j < r.desc.n2) : IsReg r i j := by
  simpa [IsReg] using locate_addr r hi hj (words_pos r)

theorem addr_lt (r : RegName) {i j : Nat} (hi : i < r.desc.n1) (hj : j < r.desc.n2) : r.addr i j < 0x800000 := by
  simpa using addr_lt_window r hi hj (words_pos r)

/-- Different registers stand at different offsets. -/
theorem addr_ne {q r : RegName} (hne : q ≠ r) {i j i' j' : Nat} (hq : IsReg q i j) (hr : IsReg r i' j') :
    q.addr i j ≠ r.addr i' j' := by
  intro h
  rw [IsReg, h, hr] at hq
  exact hne (congrArg Prod.fst (Option.some.inj hq)).symm

end Sys2Proof.Machine

/-! SUPPORT. The fields of a register under its access codes (R3). -/

namespace Sys2Proof.Machine

/-! ### Fields under the access codes -/

/-- The fields of a register carry its name, lie in a word of 64 bits, and two with different access codes share no bit. -/
def RegName.tidy (r : RegName) : Bool :=
  r.fields.all (fun f => f.reg == r && Nat.blt f.hi 64 &&
    r.fields.all (fun g => f.acc == g.acc || Nat.blt g.hi f.lo || Nat.blt f.hi g.lo))

theorem allRegs_tidy : allRegs.all RegName.tidy = true := by decide +kernel

theorem fields_tidy {r : RegName} {f : Fld} (hf : f ∈ r.fields) : f.reg = r ∧ f.hi < 64 ∧
    ∀ g ∈ r.fields, f.acc = g.acc ∨ g.hi < f.lo ∨ f.hi < g.lo := by
  have h := List.all_eq_true.1 (List.all_eq_true.1 allRegs_tidy r (mem_allRegs r)) f hf
  simpa only [Bool.and_eq_true, Bool.or_eq_true, Nat.blt_eq, beq_iff_eq, List.all_eq_true, and_assoc, or_assoc] using h

/-- A bit is in an access mask if a field of such a code covers it. -/
theorem accMask_getLsbD (r : RegName) (p : Acc → Bool) (k : Nat) :
    (r.accMask p).getLsbD k = r.fields.any (fun f => p f.acc && f.mask.getLsbD k) := by
  have fold : ∀ (l : List Fld) (w : BitVec 64), (l.foldl (fun a f => if p f.acc then a ||| f.mask else a) w).getLsbD k =
      (w.getLsbD k || l.any (fun f => p f.acc && f.mask.getLsbD k)) := by
    intro l
    induction l with
    | nil => simp
    | cons f l ih =>
      intro w
      rw [List.foldl_cons, ih, List.any_cons]
      cases p f.acc <;> simp [Bool.or_assoc]
  simpa [RegName.accMask] using fold r.fields 0

/-- The bits of a field are in an access mask exactly if its own code is. -/
theorem accMask_field {r : RegName} {f : Fld} (hf : f ∈ r.fields) (p : Acc → Bool) {k : Nat} (hk : k < f.hi + 1 - f.lo) :
    (r.accMask p).getLsbD (f.lo + k) = p f.acc := by
  obtain ⟨-, hhi, hdisj⟩ := fields_tidy hf
  rw [accMask_getLsbD, Bool.eq_iff_iff, List.any_eq_true]
  simp only [Bool.and_eq_true, mask_bit, decide_eq_true_eq]
  constructor
  · rintro ⟨g, hg, hp, ⟨-, hlo⟩, hlt⟩
    rcases hdisj g hg with h | h | h
    · rwa [h]
    · omega
    · omega
  · exact fun hp => ⟨f, hf, hp, ⟨by omega, by omega⟩, by omega⟩

/-- What a write leaves in a bit of a field, by its access code (R3). -/
theorem written_field {r : RegName} {f : Fld} (hf : f ∈ r.fields) (old v : BitVec 64) {k : Nat} (hk : k < f.hi + 1 - f.lo) :
    (r.written old v (BitVec.allOnes 64)).getLsbD (f.lo + k) =
      match f.acc with
      | .rw => v.getLsbD (f.lo + k)
      | .w1c => old.getLsbD (f.lo + k) && ! v.getLsbD (f.lo + k)
      | .w1s => old.getLsbD (f.lo + k) || v.getLsbD (f.lo + k)
      | _ => old.getLsbD (f.lo + k) := by
  have h64 : f.lo + k < 64 := by have := (fields_tidy hf).2.1; omega
  simp only [RegName.written, BitVec.and_allOnes, BitVec.getLsbD_or, BitVec.getLsbD_and, BitVec.getLsbD_not,
    accMask_field hf _ hk, h64]
  cases f.acc <;> simp

/-- What a read leaves in a bit of a field: an RC field is cleared (R3). -/
theorem afterRead_field {r : RegName} {f : Fld} (hf : f ∈ r.fields) (w : BitVec 64) {k : Nat} (hk : k < f.hi + 1 - f.lo) :
    (r.afterRead w (BitVec.allOnes 64)).getLsbD (f.lo + k) = (w.getLsbD (f.lo + k) && f.acc != .rc) := by
  have h64 : f.lo + k < 64 := by have := (fields_tidy hf).2.1; omega
  simp only [RegName.afterRead, BitVec.and_allOnes, BitVec.getLsbD_and, BitVec.getLsbD_not, accMask_field hf _ hk, h64]
  cases f.acc <;> simp

/-- Two words agree in a field if they agree in its bits. -/
theorem get_congr {f : Fld} {x y : BitVec 64}
    (h : ∀ k, k < f.hi + 1 - f.lo → x.getLsbD (f.lo + k) = y.getLsbD (f.lo + k)) : f.get x = f.get y := by
  apply Nat.eq_of_testBit_eq
  intro k
  rcases Nat.lt_or_ge k (f.hi + 1 - f.lo) with hk | hk
  · rw [get_testBit _ _ _ hk, get_testBit _ _ _ hk, h k hk]
  · rw [get_testBit_hi _ _ _ hk, get_testBit_hi _ _ _ hk]

theorem bit1_eq_testBit (v k : Nat) : bit1 v k = v.testBit k := by
  rw [Nat.testBit_eq_decide_div_mod_eq, bit1]

section
variable {r : RegName} {f : Fld} (hf : f ∈ r.fields) (old v : BitVec 64)
include hf

theorem get_written_rw (h : f.acc = .rw) : f.get (r.written old v (BitVec.allOnes 64)) = f.get v :=
  get_congr fun k hk => by rw [written_field hf old v hk, h]

theorem get_written_ro (h : f.acc = .ro ∨ f.acc = .rc) : f.get (r.written old v (BitVec.allOnes 64)) = f.get old :=
  get_congr fun k hk => by rw [written_field hf old v hk]; rcases h with h | h <;> rw [h]

theorem bit1_get_written_w1c (h : f.acc = .w1c) (k : Nat) :
    bit1 (f.get (r.written old v (BitVec.allOnes 64))) k = (bit1 (f.get old) k && ! bit1 (f.get v) k) := by
  simp only [bit1_eq_testBit]
  rcases Nat.lt_or_ge k (f.hi + 1 - f.lo) with hk | hk
  · simp only [get_testBit _ _ _ hk, written_field hf old v hk, h]
  · simp only [get_testBit_hi _ _ _ hk, Bool.false_and]

theorem get_afterRead (w : BitVec 64) :
    f.get (r.afterRead w (BitVec.allOnes 64)) = if f.acc = .rc then 0 else f.get w := by
  split
  · next h =>
    have hzero : f.get 0 = 0 := by simp [Fld.get]
    rw [← hzero]
    exact get_congr fun k hk => by rw [afterRead_field hf w hk, h]; simp
  · next h => exact get_congr fun k hk => by rw [afterRead_field hf w hk]; simp [h]

end

end Sys2Proof.Machine

/-! SUPPORT. The register window: which accesses a register answers, and the registers whose reads and writes do no more than
their access codes say (R3 to R8, R48). -/

namespace Sys2Proof.Machine

/-! ### Registers read back -/

/-- A write of one register leaves all others. -/
theorem regsBut_setReg (s : State) (r : RegName) (w : BitVec 64) (i j : Nat) : RegsBut s (s.setReg r w i j) [r.addr i j] :=
  fun d k hk => SMap.getD_set_other (fun _ => r.resetWord i j) d s.regs _ k w (List.ne_of_not_mem_cons hk)

theorem regsBut_setFld (s : State) (f : Fld) (v i j : Nat) : RegsBut s (s.setFld f v i j) [f.reg.addr i j] :=
  regsBut_setReg s f.reg _ i j

theorem RegsBut.trans {s t u : State} {l : List Nat} (h : RegsBut s t l) (k : RegsBut t u l) : RegsBut s u l :=
  fun d n hn => (k d n hn).trans (h d n hn)

section
variable {r : RegName} {f : Fld} (hf : f ∈ r.fields) (s : State)
include hf

theorem fld_eq_get (i j : Nat) : s.fld f i j = f.get (s.reg r i j) := by
  rw [State.fld, (fields_tidy hf).1]

theorem fld_setReg (w : BitVec 64) (i j : Nat) : (s.setReg r w i j).fld f i j = f.get w := by
  rw [fld_eq_get hf, reg_setReg]

/-- A write under the access codes: an RW field takes its bits of the value. -/
theorem fld_plainWrite_rw (h : f.acc = .rw) (v : BitVec 64) (i j : Nat) : (plainWrite s r v i j).fld f i j = f.get v := by
  rw [plainWrite, fld_setReg hf, get_written_rw hf _ _ h]

theorem fld_plainWrite_ro (h : f.acc = .ro ∨ f.acc = .rc) (v : BitVec 64) (i j : Nat) :
    (plainWrite s r v i j).fld f i j = s.fld f i j := by
  rw [plainWrite, fld_setReg hf, get_written_ro hf _ _ h, fld_eq_get hf]

theorem bit1_fld_plainWrite_w1c (h : f.acc = .w1c) (v : BitVec 64) (i j b : Nat) :
    bit1 ((plainWrite s r v i j).fld f i j) b = (bit1 (s.fld f i j) b && ! bit1 (f.get v) b) := by
  rw [plainWrite, fld_setReg hf, bit1_get_written_w1c hf _ _ h, fld_eq_get hf]

end

/-- A field's bits of a 32-bit write value are those of the value itself. -/
theorem get_ofNat_word (f : Fld) (v : BitVec 32) : f.get (BitVec.ofNat 64 v.toNat) = bits v.toNat f.lo (f.hi + 1 - f.lo) := by
  have h64 : v.toNat < 2 ^ 64 := by omega
  rw [Fld.get, BitVec.toNat_ofNat, Nat.mod_eq_of_lt h64, bits]

/-! ### Which accesses the window answers -/

/-- No register of a domain that is up stands at the offset (R6, R48). -/
def Unanswered (s : State) (off : Nat) : Prop :=
  locate off = none ∨ ∃ r i j h, locate off = some (r, i, j, h) ∧ domUp s r.desc.dom = false

theorem regWrite_window (s : State) (src : Option Nat) {off : Nat} (h : 0x800000 ≤ off) (v : BitVec 32) :
    regWrite s src off v = s := if_pos h

theorem regWrite_unanswered {s : State} {off : Nat} (h : Unanswered s off) (src : Option Nat) (v : BitVec 32) :
    regWrite s src off v = s := by
  unfold regWrite
  rcases h with h | ⟨r, i, j, w, h, hd⟩
  · simp [h]
  · simp [h, hd]

theorem regRead_unanswered {s : State} {off : Nat} (hoff : off < 0x800000) (h : Unanswered s off) (src : Option Nat) :
    regRead s src off = (s, 0) := by
  unfold regRead
  rcases h with h | ⟨r, i, j, w, h, hd⟩
  · simp [h, Nat.not_le.2 hoff]
  · simp [h, hd, Nat.not_le.2 hoff]

theorem domUp_of_vaux_false {s : State} (h : s.vaux = false) (d : Dom) : domUp s d = false := by simp [domUp, h]

theorem vaux_of_domUp {s : State} {d : Dom} (h : domUp s d = true) : s.vaux = true := (Bool.and_eq_true_iff.1 h).1

/-- Without the supply no offset answers. -/
theorem unanswered_of_vaux_false {s : State} (h : s.vaux = false) (off : Nat) : Unanswered s off := by
  rcases hl : locate off with _ | ⟨r, i, j, w⟩
  · exact .inl hl
  · exact .inr ⟨r, i, j, w, hl, domUp_of_vaux_false h _⟩

theorem portRead_eq {s : State} (h : s.vaux = true) (off : Nat) :
    portRead s off = { (regRead s none off).1 with rdata := (regRead s none off).2 } := by
  simp [portRead, regReady, h]

theorem portRead_vaux_false {s : State} (h : s.vaux = false) (off : Nat) : portRead s off = { s with rdata := 0xFFFFFFFF } := by
  simp [portRead, regReady, h]

section
variable {s : State} {off : Nat} {r : RegName} {i j h : Nat} (hoff : off < 0x800000)
  (hl : locate off = some (r, i, j, h)) (hd : domUp s r.desc.dom = true)
include hoff hl hd

theorem regRead_located (src : Option Nat) :
    regRead s src off = if r.desc.words = 2 then regRead64 s r i j h else regRead32 s src r i j := by
  simp [regRead, Nat.not_le.2 hoff, hl, hd]

theorem regWrite_located (src : Option Nat) (v : BitVec 32) :
    regWrite s src off v = if r.desc.words = 2 then regWriteHalf s src r v i j h else regWrite32 s src r v.toNat i j := by
  simp [regWrite, Nat.not_le.2 hoff, hl, hd]

end

/-! ### Registers without an action of their own -/

/-- The 32-bit registers whose read does more than their access codes say. -/
def readActs : List RegName := [.NQ_RD0, .NQ_FB_RD0, .BOOT_MBOX_POP, .IC_CLAIMT, .IC_CLAIM, .HOLD_STATUS]

/-- The 32-bit registers whose write does more than their access codes say. -/
def writeActs : List RegName :=
  [.MODE_REQ, .SLEEP_CTL, .THERM_CTL, .GOV_CTL, .GOV_ILIM, .MGN_CTL, .LDG_CTL, .START_CTL, .FC_STATUS, .FC_PIN_CTL, .FC_INJ,
    .FC_SRC, .CMD_GO, .CMD_POST, .CMD_POST_VAL, .DIE_INJ_L, .FP_CTL, .PC_BIID, .HMAP, .ADOPT_WIN_A, .ADOPT_WIN_B, .DIE_INJ_P,
    .BOOT_MBOX, .RLC_FIRST, .IC_PEND, .IC_PCLR, .NQ_CTL, .NQ_RING, .NQ_DROP_PKT, .NQ_MARK, .NQ_REWIND, .PT_CTL, .FRZ_CTL,
    .MP_STATE, .ARB_MODE, .ARB_PRIO, .ARB_PRIO2, .BULK_GO, .DIE_INJ_NQ, .CL_ADOPT, .SL_WDOG, .STW_CTL, .STW_STATUS, .HUTCH_CTL,
    .HUTCH_MAINT, .CL_INJ, .CLC_FIRST, .SLC_FIRST, .SL_TRK_IDX, .SI_INJ, .CAB_BLIND_A, .CAB_BLIND_B]

/-- The 64-bit registers whose write does more than their access codes say. -/
def writeActs64 : List RegName := [.AMAP, .AGT_DATA, .STW_PC, .GOV_CEIL]

/-- The register's RC bits are cleared, where one of them is set (R3). -/
def readClears (s : State) (r : RegName) (i j : Nat) : State :=
  let w := r.afterRead (s.reg r i j) (BitVec.allOnes 64)
  if w = s.reg r i j then s else s.setReg r w i j

theorem regRead32_of_not_acts {r : RegName} (h : r ∉ readActs) (s : State) (src : Option Nat) (i j : Nat) :
    regRead32 s src r i j = (readClears s r i j, loHalf (r.shown (liveWord s r i j))) := by
  unfold regRead32
  split
  case h_6 =>
    have hhold : r ≠ .HOLD_STATUS := by rintro rfl; exact h (by simp [readActs])
    simp [readClears, hhold]
  all_goals exact absurd (by simp [readActs]) h

theorem readClears_frame (s : State) (r : RegName) (i j : Nat) : ∃ q, readClears s r i j = { s with regs := q } := by
  unfold readClears
  dsimp only
  split
  · exact ⟨s.regs, rfl⟩
  · exact ⟨_, rfl⟩

theorem readClears_regsBut (s : State) (r : RegName) (i j : Nat) : RegsBut s (readClears s r i j) [r.addr i j] := by
  unfold readClears
  dsimp only
  split
  · exact fun _ _ _ => rfl
  · exact regsBut_setReg s r _ i j

theorem fld_readClears {r : RegName} {f : Fld} (hf : f ∈ r.fields) (s : State) (i j : Nat) :
    (readClears s r i j).fld f i j = if f.acc = .rc then 0 else s.fld f i j := by
  rw [fld_eq_get hf s, ← get_afterRead hf]
  unfold readClears
  dsimp only
  split
  · next h => rw [fld_eq_get hf, h]
  · rw [fld_setReg hf]

theorem regWrite32_of_not_acts {r : RegName} (h : r ∉ writeActs) (s : State) (src : Option Nat) (v i j : Nat) :
    regWrite32 s src r v i j = plainWrite s r (BitVec.ofNat 64 v) i j := by
  have lehr : writeLehr s src r v i j = plainWrite s r (BitVec.ofNat 64 v) i j := by
    unfold writeLehr
    split
    case h_17 => rfl
    all_goals exact absurd (by simp [writeActs]) h
  have port : writePort s src r v i j = plainWrite s r (BitVec.ofNat 64 v) i j := by
    unfold writePort
    split
    case h_7 => rfl
    all_goals exact absurd (by simp [writeActs]) h
  have core : writeCore s src r v i j = plainWrite s r (BitVec.ofNat 64 v) i j := by
    unfold writeCore
    split
    case h_18 => rfl
    all_goals exact absurd (by simp [writeActs]) h
  have unit : writeUnit s src r v i j = plainWrite s r (BitVec.ofNat 64 v) i j := by
    unfold writeUnit
    split
    case h_14 => rfl
    all_goals exact absurd (by simp [writeActs]) h
  unfold regWrite32
  split
  · exact lehr
  · exact port
  · rw [core, unit, ite_self]

theorem regWrite64_of_not_acts {r : RegName} (h : r ∉ writeActs64) (s : State) (src : Option Nat) (v : BitVec 64) (i j : Nat) :
    regWrite64 s src r v i j = plainWrite s r v i j := by
  unfold regWrite64
  split
  case h_5 => rfl
  all_goals exact absurd (by simp [writeActs64]) h

end Sys2Proof.Machine

/-! The statement about the register window (R3 to R8, R48, R49, R53). -/

namespace Sys2Proof.Machine

/-! ### What each access of the register port completes with -/

/-- A holding register written holds the value; the others stay. -/
theorem holding_set (m : SMap (Option (BitVec 32))) (a : Nat) (w : Option (BitVec 32)) :
    SMap.getD (fun _ => none) (SMap.set (fun _ => none) m a w) a = w ∧
      ∀ k, k ≠ a → SMap.getD (fun _ => none) (SMap.set (fun _ => none) m a w) k = SMap.getD (fun _ => none) m k :=
  ⟨SMap.getD_set_same .., fun k hk => SMap.getD_set_ne _ m a k w hk⟩

/-- The messages of the last command show in no register. -/
theorem liveWord_freshOut (s : State) (r : RegName) (i j : Nat) : liveWord (freshOut s) r i j = liveWord s r i j := rfl

section
variable {s : State} (hdft : s.dft = false)
include hdft

theorem completes_registerWrite {off : BitVec 24} {v : BitVec 32} {t : State} {P : State → Prop}
    (ht : regWrite (Begun s) none off.toNat v = t) (h : P t) : Completes (.registerWrite off v) s P := by
  subst ht
  exact completes_run (fun u => portWrite u off.toNat v) rfl hdft h

theorem completes_rcRead {off : BitVec 24} {t : State} {w : BitVec 32} {P : State → Prop} (hv : s.vaux = true)
    (ht : regRead (Begun s) none off.toNat = (t, w)) (h : P { t with rdata := w }) : Completes (.rcRead off) s P := by
  refine completes_run (fun u => portRead u off.toNat) rfl hdft ?_
  rw [portRead_eq (s := Begun s) hv, ht]
  exact h

theorem completes_without_supply (hv : s.vaux = false) (off : BitVec 24) (v : BitVec 32) :
    Completes (.rcRead off) s (fun u => u = { Begun s with rdata := 0xFFFFFFFF }) ∧
      Completes (.registerWrite off v) s (fun u => u = Begun s) :=
  ⟨completes_run (fun u => portRead u off.toNat) rfl hdft (portRead_vaux_false (s := Begun s) hv _),
    completes_registerWrite hdft (regWrite_unanswered (unanswered_of_vaux_false (s := Begun s) hv _) none v) rfl⟩

theorem completes_unanswered (hv : s.vaux = true) {off : BitVec 24} (hoff : off.toNat < 0x800000)
    (h : Unanswered (Begun s) off.toNat) (v : BitVec 32) :
    Completes (.registerWrite off v) s (fun u => u = Begun s) ∧
      Completes (.rcRead off) s (fun u => u = { Begun s with rdata := 0 }) :=
  ⟨completes_registerWrite hdft (regWrite_unanswered h none v) rfl,
    completes_rcRead hdft hv (regRead_unanswered hoff h none) rfl⟩

end

section
variable {s : State} {off : BitVec 24} {r : RegName} {i j h : Nat} (hdft : s.dft = false) (hoff : off.toNat < 0x800000)
  (hl : locate off.toNat = some (r, i, j, h)) (hd : domUp s r.desc.dom = true)
include hdft hoff hl hd

/-- Reading the low word latches the high word (R7). -/
theorem completes_low_read (hw : r.desc.words = 2) (hh : h = 0) :
    let shown := r.shown (liveWord s r i j)
    Completes (.reg64LowRead off) s (fun u => u = { Begun s with rdata := shown.setWidth 32, hiLatch := u.hiLatch } ∧
      SMap.getD (fun _ => none) u.hiLatch (r.addr i j) = some ((shown >>> 32).setWidth 32) ∧
      ∀ k, k ≠ r.addr i j → SMap.getD (fun _ => none) u.hiLatch k = SMap.getD (fun _ => none) s.hiLatch k) := by
  refine completes_rcRead hdft (vaux_of_domUp hd)
    (by rw [regRead_located (s := Begun s) hoff hl hd, if_pos hw, regRead64, if_pos hh, liveWord_freshOut]) ?_
  exact ⟨rfl, holding_set s.hiLatch (r.addr i j) (some (hiHalf (r.shown (liveWord s r i j))))⟩

/-- Reading the high word gives the latched word where one is latched (R7). -/
theorem completes_high_read (hw : r.desc.words = 2) (hh : h = 1) :
    let shown := r.shown (liveWord s r i j)
    let word := (SMap.getD (fun _ => none) s.hiLatch (r.addr i j)).getD ((shown >>> 32).setWidth 32)
    Completes (.rcRead off) s (fun u => u = { Begun s with rdata := word }) := by
  have hhigh : h ≠ 0 := by omega
  refine completes_rcRead hdft (vaux_of_domUp hd) (t := Begun s) ?_ rfl
  rw [regRead_located (s := Begun s) hoff hl hd, if_pos hw, regRead64, if_neg hhigh, liveWord_freshOut, freshOut_hiLatch]
  rcases SMap.getD (fun _ => none) s.hiLatch (r.addr i j) with _ | w <;> rfl

/-- Reading a 32-bit register clears its RC fields (R3). -/
theorem completes_word_read (hw : r.desc.words = 1) (hr : r ∉ readActs) :
    Completes (.rcRead off) s (fun u =>
      u = { Begun s with rdata := (r.shown (liveWord s r i j)).setWidth 32, regs := u.regs } ∧ RegsBut s u [r.addr i j] ∧
      ∀ f ∈ r.fields, u.fld f i j = if f.acc = .rc then 0 else s.fld f i j) := by
  have hone : r.desc.words ≠ 2 := by omega
  refine completes_rcRead hdft (vaux_of_domUp hd)
    (by rw [regRead_located (s := Begun s) hoff hl hd, if_neg hone, regRead32_of_not_acts hr, liveWord_freshOut]) ?_
  refine ⟨?_, readClears_regsBut (Begun s) r i j, fun f hf => fld_readClears hf (Begun s) i j⟩
  obtain ⟨q, hq⟩ := readClears_frame (Begun s) r i j
  rw [hq]
  rfl

/-- Writing the low word holds it (R8). -/
theorem completes_low_write (hw : r.desc.words = 2) (hh : h = 0) (v : BitVec 32) :
    Completes (.reg64LowWrite off v) s (fun u => u = { Begun s with wrHold := u.wrHold } ∧
      SMap.getD (fun _ => none) u.wrHold (r.addr i j) = some v ∧
      ∀ k, k ≠ r.addr i j → SMap.getD (fun _ => none) u.wrHold k = SMap.getD (fun _ => none) s.wrHold k) := by
  refine completes_registerWrite hdft
    (by rw [regWrite_located (s := Begun s) hoff hl hd, if_pos hw, regWriteHalf, if_pos hh]) ?_
  exact ⟨rfl, holding_set s.wrHold (r.addr i j) (some v)⟩

/-- Writing the high word of a register that is not armed is ignored (R8). -/
theorem completes_high_write_unarmed (hw : r.desc.words = 2) (hh : h = 1)
    (harm : SMap.getD (fun _ => none) s.wrHold (r.addr i j) = none) (v : BitVec 32) :
    Completes (.reg64HighWrite off v) s (fun u => u = Begun s) := by
  have hhigh : h ≠ 0 := by omega
  refine completes_registerWrite hdft ?_ rfl
  rw [regWrite_located (s := Begun s) hoff hl hd, if_pos hw, regWriteHalf, if_neg hhigh, freshOut_wrHold, harm]

/-- Writing the high word of an armed register takes both words (R8). -/
theorem completes_high_write_armed (hw : r.desc.words = 2) (hh : h = 1) {lo : BitVec 32}
    (harm : SMap.getD (fun _ => none) s.wrHold (r.addr i j) = some lo) (hr : r ∉ writeActs64) (v : BitVec 32) :
    Completes (.reg64HighWrite off v) s (fun u => u = { Begun s with regs := u.regs, wrHold := u.wrHold } ∧
      SMap.getD (fun _ => none) u.wrHold (r.addr i j) = none ∧ RegsBut s u [r.addr i j] ∧
      ∀ f ∈ r.fields, (f.acc = .rw → u.fld f i j = bits ((v ++ lo).toNat) f.lo (f.hi + 1 - f.lo)) ∧
        (f.acc = .ro → u.fld f i j = s.fld f i j)) := by
  have hhigh : h ≠ 0 := by omega
  refine completes_registerWrite hdft
    (by rw [regWrite_located (s := Begun s) hoff hl hd, if_pos hw, regWriteHalf, if_neg hhigh, freshOut_wrHold, harm]) ?_
  dsimp only
  rw [regWrite64_of_not_acts hr]
  refine ⟨rfl, ?_, regsBut_setReg _ r _ i j, fun f hf => ⟨fun hrw => fld_plainWrite_rw hf _ hrw (v ++ lo) i j,
    fun hro => fld_plainWrite_ro hf _ (.inl hro) (v ++ lo) i j⟩⟩
  exact (holding_set s.wrHold (r.addr i j) none).1

/-- Writing a 32-bit register acts by the access codes of its fields (R3). -/
theorem completes_word_write (hw : r.desc.words = 1) (hr : r ∉ writeActs) (v : BitVec 32) :
    Completes (.registerWrite off v) s (fun u => OnlyRegs s u [r.addr i j] ∧ ∀ f ∈ r.fields,
      let w := bits v.toNat f.lo (f.hi + 1 - f.lo)
      (f.acc = .rw → u.fld f i j = w) ∧
      (f.acc = .w1c → ∀ b, bit1 (u.fld f i j) b = (bit1 (s.fld f i j) b && ! bit1 w b)) ∧
      (f.acc = .ro ∨ f.acc = .rc → u.fld f i j = s.fld f i j)) := by
  have hone : r.desc.words ≠ 2 := by omega
  refine completes_registerWrite hdft
    (by rw [regWrite_located (s := Begun s) hoff hl hd, if_neg hone, regWrite32_of_not_acts hr]) ?_
  refine ⟨⟨rfl, regsBut_setReg _ r _ i j⟩, fun f hf => ?_⟩
  rw [← get_ofNat_word]
  exact ⟨fun hrw => fld_plainWrite_rw hf _ hrw _ i j, fun hc b => bit1_fld_plainWrite_w1c hf _ hc _ i j b,
    fun hro => fld_plainWrite_ro hf _ hro _ i j⟩

end

/-! ### Accesses at the offset of a named register -/

section
variable {s : State} {r : RegName} {i j : Nat} (hi : i < r.desc.n1) (hj : j < r.desc.n2) (hd : domUp s r.desc.dom = true)
include hi hj hd

/-- A write at a 32-bit register's offset is a write of that register. -/
theorem portWrite_addr (hw : r.desc.words = 1) (v : BitVec 32) :
    portWrite s (r.addr i j) v = regWrite32 s none r v.toNat i j := by
  have hone : r.desc.words ≠ 2 := by omega
  rw [portWrite, regWrite_located (addr_lt r hi hj) (isReg_of_lt r hi hj) hd, if_neg hone]

/-- A write of both words of a 64-bit register is one write of that register, which leaves its holding register unarmed (R8). -/
theorem portWrite64_addr (hw : r.desc.words = 2) (v : BitVec 64) :
    ∃ m, portWrite64 s (r.addr i j) v = regWrite64 { s with wrHold := m } none r v i j := by
  have hlt' : r.addr i j + 4 < 0x800000 := by simpa using addr_lt_window r hi hj (h := 1) (by omega)
  have hloc' : locate (r.addr i j + 4) = some (r, i, j, 1) := by simpa using locate_addr r hi hj (h := 1) (by omega)
  have halves : (v >>> 32).setWidth 32 ++ v.setWidth 32 = v := by
    apply BitVec.eq_of_getLsbD_eq
    intro k hk
    simp only [BitVec.getLsbD_append, BitVec.getLsbD_setWidth, BitVec.getLsbD_ushiftRight]
    grind
  have hlow : portWrite s (r.addr i j) (v.setWidth 32) =
      { s with wrHold := SMap.set (fun _ => none) s.wrHold (r.addr i j) (some (v.setWidth 32)) } := by
    rw [portWrite, regWrite_located (addr_lt r hi hj) (isReg_of_lt r hi hj) hd, if_pos hw, regWriteHalf, if_pos rfl]
  refine ⟨SMap.set (fun _ => none) (SMap.set (fun _ => none) s.wrHold (r.addr i j) (some (v.setWidth 32))) (r.addr i j) none,
    ?_⟩
  rw [portWrite64, hlow, portWrite, regWrite_located hlt' hloc' (by exact hd), if_pos hw, regWriteHalf, if_neg Nat.one_ne_zero]
  simp only [SMap.getD_set_same, halves]

end

/-- Settles O6: each clause is the completion lemma of its access, from where the offset stands in the window. -/
theorem registerWindow : Obligations.RegisterWindow := by
  intro s hdft
  refine ⟨fun off v => ⟨rfl, rfl, rfl, rfl⟩, fun off v hv => completes_without_supply hdft hv off v,
    fun off v hv hoff h => completes_unanswered hdft hv hoff h v,
    fun off v hoff => completes_registerWrite hdft (regWrite_window _ none hoff v) rfl, ?_, ?_⟩
  · intro off r i j h hoff hl hd
    exact ⟨completes_low_read hdft hoff hl hd, completes_high_read hdft hoff hl hd, fun v =>
      ⟨fun hw hh => completes_low_write hdft hoff hl hd hw hh v,
        fun hw hh harm => completes_high_write_unarmed hdft hoff hl hd hw hh harm v,
        fun lo hw hh harm hr => completes_high_write_armed hdft hoff hl hd hw hh harm hr v⟩,
      completes_word_read hdft hoff hl hd, fun v hw hr => completes_word_write hdft hoff hl hd hw hr v⟩
  · intro hv v
    have hfield : Fld.HOME_CTL_FORCE_OFF ∈ RegName.HOME_CTL.fields := List.mem_singleton_self _
    have hd : domUp (Begun s) RegName.HOME_CTL.desc.dom = true := by simp [domUp, hv, RegName.desc]
    refine completes_run (fun t => portWrite t (RegName.HOME_CTL.addr 0 0) v) rfl hdft ?_
    rw [portWrite_addr Nat.one_pos Nat.one_pos hd rfl, regWrite32_of_not_acts (by simp [writeActs])]
    refine ⟨⟨rfl, regsBut_setReg _ _ _ 0 0⟩, ?_⟩
    rw [fld_plainWrite_rw hfield _ rfl, get_ofNat_word]
    simp [bits]

end Sys2Proof.Machine

/-! The statement about the writes of the arbiters' registers and of the two maps (R337, R345, R347, R358). -/

namespace Sys2Proof.Machine

/-! ### The arbiters' registers -/

theorem regWrite32_arb {r : RegName} (hr : r ∈ [RegName.ARB_MODE, .ARB_PRIO, .ARB_PRIO2]) (s : State) (src : Option Nat)
    (v i j : Nat) : regWrite32 s src r v i j = (plainWrite s r (BitVec.ofNat 64 v) i j).addWork (.arb i) := by
  simp only [List.mem_cons, List.not_mem_nil, or_false] at hr
  rcases hr with rfl | rfl | rfl <;> rfl

/-- A write of an arbiter's register is taken by its access codes, and the port arbitrates again (R345, R347). -/
theorem completes_arb_write {s : State} (hdft : s.dft = false) (hawake : Awake s) {c : Instr} {r : RegName} {i j : Nat}
    {v : BitVec 32} (hr : r ∈ [RegName.ARB_MODE, .ARB_PRIO, .ARB_PRIO2]) (hi : i < 32) (hj : j < r.desc.n2)
    (hc : exec c s = run (fun t => portWrite t (r.addr i j) v) s) :
    Completes c s (fun u => u = { Begun s with regs := u.regs, work := s.work ++ [.arb i] } ∧ RegsBut s u [r.addr i j] ∧
      ∀ f ∈ r.fields, f.acc = .rw → u.fld f i j = bits v.toNat f.lo (f.hi + 1 - f.lo)) := by
  obtain ⟨hvaux, -, hcore, -⟩ := hawake
  refine completes_run _ hc hdft ?_
  have hreg : r.desc.n1 = 32 ∧ r.desc.words = 1 ∧ r.desc.dom = .core := by
    simp only [List.mem_cons, List.not_mem_nil, or_false] at hr
    rcases hr with rfl | rfl | rfl <;> exact ⟨rfl, rfl, rfl⟩
  obtain ⟨hn, hw, hdom⟩ := hreg
  have hd : domUp (freshOut s) r.desc.dom = true := by simp [domUp, hdom, hvaux, hcore]
  rw [portWrite_addr (hn ▸ hi) hj hd hw, regWrite32_arb hr]
  exact ⟨rfl, regsBut_setReg _ r _ i j, fun f hf hrw => (fld_plainWrite_rw hf _ hrw _ i j).trans (get_ofNat_word f v)⟩

/-! ### The maps -/

/-- A word whose store has no deviation, written while its class's injector is not armed: registers stay as they were. -/
theorem wordWritten_of_intact {s : State} (hmask : s.integ.mask = []) (st : Store) (unit w : Nat)
    (harm : let x := injFlds (st.cls unit); s.fld x.2.2.1 x.2.2.2.2.1 x.2.2.2.2.2 ≠ 1) :
    ∃ g, wordWritten s st unit w = { s with integ := g } := by
  have hclean : maskOf s st unit w = 0 := by simp [maskOf, hmask, SMap.getD]
  unfold wordWritten
  simp only [hclean, ne_eq, not_true_eq_false, false_and, if_false]
  rw [if_neg harm]
  exact ⟨_, rfl⟩

/-- An entry of a map written whole changes no register where nothing deviates and no injector is armed. -/
theorem mapWritten_of_intact {s : State} (hmask : s.integ.mask = []) (harm : ∀ x, x < 4 → s.fld Fld.DIE_INJ_P_ARM x = 0)
    (home : Bool) (k : Nat) :
    ∃ g e, mapWritten s home k = { s with integ := g, fault := { s.fault with sticky := e } } := by
  obtain ⟨g, hg⟩ : ∃ g, wordWritten s (if home then .hmap else .amap) 0 k = { s with integ := g } := by
    apply wordWritten_of_intact hmask
    cases home
    · simp [Store.cls, injFlds, harm 2]
    · simp [Store.cls, injFlds, harm 3]
  unfold mapWritten
  rw [hg]
  exact ⟨_, _, rfl⟩

/-- A write of a map's register, with its codes: that register holds the word, and nothing else but the state of its stored
bits and of its reported errors changes. -/
theorem mapWritten_setReg {s : State} (hs : Intact s) {r : RegName} {k : Nat} (hne : RegName.DIE_INJ_P ≠ r) (hr : IsReg r k 0)
    (w : BitVec 64) (home : Bool) : ∃ g e, mapWritten (s.setReg r w k) home k =
      { s.setReg r w k with integ := g, fault := { s.fault with sticky := e } } := by
  obtain ⟨hmask, -, -, -, harm, -, -⟩ := hs
  refine mapWritten_of_intact (s := s.setReg r w k) hmask (fun x hx => ?_) home k
  rw [State.fld, reg_setReg_ne _ _ _ _ _ _ _ _ (addr_ne hne (isReg_of_lt .DIE_INJ_P hx Nat.one_pos) hr)]
  exact harm x hx

theorem bits_one_eq_zero_iff (v : BitVec 64) (k : Nat) : bits v.toNat k 1 = 0 ↔ v.getLsbD k = false := by
  rw [BitVec.getLsbD, Nat.testBit_eq_decide_div_mod_eq, bits, decide_eq_false_iff_not]
  omega

/-- The check of an address map entry, spelled out (R337). -/
theorem amapOk_iff (v : BitVec 64) :
    amapOk v.toNat = true ↔
      let n := 2 ^ bits v.toNat 25 2
      let pri := bits v.toNat 14 5
      let mir := bits v.toNat 19 5
      bits v.toNat 29 3 = 0 ∧ bits v.toNat 57 7 = 0 ∧ bits v.toNat 27 2 ≠ 3 ∧ pri + n ≤ 32 ∧
        (v.getLsbD 24 = true → mir + n ≤ 32 ∧ (pri + n ≤ mir ∨ mir + n ≤ pri)) := by
  simp only [amapOk, Bool.and_eq_true, Bool.or_eq_true, beq_iff_eq, bne_iff_ne, decide_eq_true_eq, and_assoc,
    bits_one_eq_zero_iff]
  cases v.getLsbD 24 <;> simp

/-- A good entry is stored, and copied to the slices (R24, R337). -/
theorem amapWrite_taken {s : State} (hs : Intact s) (hcore : s.coreUp = true) {e : Nat} (he : e < 16384) {w : Nat}
    (hok : amapOk w = true) : ∃ g k, amapWrite s e w =
      { s.setReg .AMAP (BitVec.ofNat 64 w) e with
        integ := g, fault := { s.fault with sticky := k }
        shadow := { s.shadow with amap := SMap.set (fun _ => 0) s.shadow.amap e (BitVec.ofNat 13 (w / 2)) } } := by
  obtain ⟨g, k, h⟩ := mapWritten_setReg hs (by decide) (isReg_of_lt .AMAP he Nat.one_pos) (BitVec.ofNat 64 w) false
  refine ⟨g, k, ?_⟩
  rw [amapWrite, if_pos hok, h, shadowAmap]
  simp [hcore]

/-- A window of the home map is stored without its reserved bits, and its DRAIN copied to the slices (R24, R358). -/
theorem hmapWrite_taken {s : State} (hs : Intact s) (hcore : s.coreUp = true) {w : Nat} (hw : w < 4096) (v : Nat) :
    ∃ g k, hmapWrite s w v =
      { s.setReg .HMAP (BitVec.ofNat 64 (v % 2 ^ 19)) w with
        integ := g, fault := { s.fault with sticky := k }
        shadow := { s.shadow with hmap := SMap.set (fun _ => false) s.shadow.hmap w (bit1 v 17) } } := by
  obtain ⟨g, k, h⟩ := mapWritten_setReg hs (by decide) (isReg_of_lt .HMAP hw Nat.one_pos) (BitVec.ofNat 64 (v % 2 ^ 19)) true
  refine ⟨g, k, ?_⟩
  rw [hmapWrite, h, shadowHmap]
  simp [hcore]

/-- The state after an entry that fails the check: BAD_ENTRY is set, and INDEX names the first such entry (R337, R360). -/
theorem amapWrite_refused (s : State) (e : Nat) {w : Nat} (he : e < 16384) (hok : amapOk w = false) :
    let u := amapWrite s e w
    u = { s with regs := u.regs } ∧ u.fld Fld.AMAP_ERR_BAD_ENTRY = 1 ∧ RegsBut s u [RegName.AMAP_ERR.addr 0 0] ∧
      u.fld Fld.AMAP_ERR_INDEX = if s.fld Fld.AMAP_ERR_BAD_ENTRY = 0 then e else s.fld Fld.AMAP_ERR_INDEX := by
  have hset : ∀ t : State, (t.setFld Fld.AMAP_ERR_BAD_ENTRY 1).fld Fld.AMAP_ERR_BAD_ENTRY = 1 ∧
      (t.setFld Fld.AMAP_ERR_BAD_ENTRY 1).fld Fld.AMAP_ERR_INDEX = t.fld Fld.AMAP_ERR_INDEX := fun t =>
    ⟨fld_setFld_same t _ 1 0 0 (by decide), fld_setFld_disj t _ _ 1 0 0 rfl (.inr (by decide))⟩
  have hindex : (s.setFld Fld.AMAP_ERR_INDEX e).fld Fld.AMAP_ERR_INDEX = e :=
    (fld_setFld_same s _ e 0 0 (by decide)).trans (Nat.mod_eq_of_lt he)
  dsimp only
  rw [amapWrite, hok]
  by_cases hbad : s.fld Fld.AMAP_ERR_BAD_ENTRY = 0
  · simp only [hbad, if_true, Bool.false_eq_true, if_false]
    exact ⟨rfl, (hset _).1, (regsBut_setFld s Fld.AMAP_ERR_INDEX e 0 0).trans (regsBut_setFld _ Fld.AMAP_ERR_BAD_ENTRY 1 0 0),
      (hset _).2.trans hindex⟩
  · simp only [hbad, Bool.false_eq_true, if_false]
    exact ⟨rfl, (hset _).1, regsBut_setFld _ Fld.AMAP_ERR_BAD_ENTRY 1 0 0, (hset _).2⟩

/-- AMAP_WRITE stores both words of the entry together (R8). -/
theorem completes_amapWrite {s : State} (hdft : s.dft = false) (hawake : Awake s) {e : BitVec 14} {v : BitVec 64}
    {P : State → Prop} (h : ∀ m, P (amapWrite { Begun s with wrHold := m } e.toNat v.toNat)) :
    Completes (.amapWrite e v) s P := by
  obtain ⟨hvaux, hport, -, -⟩ := hawake
  have hd : domUp (freshOut s) RegName.AMAP.desc.dom = true := by simp [domUp, RegName.desc, hvaux, hport]
  obtain ⟨m, hm⟩ := portWrite64_addr (j := 0) (show e.toNat < RegName.AMAP.desc.n1 from e.isLt) Nat.one_pos hd rfl v
  refine completes_run (fun t => portWrite64 t (RegName.AMAP.addr e.toNat 0) v) rfl hdft ?_
  rw [hm]
  exact h m

theorem completes_hmapWrite {s : State} (hdft : s.dft = false) (hawake : Awake s) {w : BitVec 12} {v : BitVec 32}
    {P : State → Prop} (h : P (hmapWrite (Begun s) w.toNat v.toNat)) : Completes (.hmapWrite w v) s P := by
  obtain ⟨hvaux, hport, -, -⟩ := hawake
  have hd : domUp (freshOut s) RegName.HMAP.desc.dom = true := by simp [domUp, RegName.desc, hvaux, hport]
  refine completes_run (fun t => portWrite t (RegName.HMAP.addr w.toNat 0) v) rfl hdft ?_
  rw [portWrite_addr (j := 0) (show w.toNat < RegName.HMAP.desc.n1 from w.isLt) Nat.one_pos hd rfl]
  exact h

/-- A command that completes with one effect completes with what follows from it. -/
theorem Completes.mono {c : Instr} {s : State} {P Q : State → Prop} (h : Completes c s P) (hpq : ∀ u, P u → Q u) :
    Completes c s Q := by
  obtain ⟨u, hu, hp⟩ := h
  exact ⟨u, hu, hpq u hp⟩

/-- Settles O21: the arbiters' registers by their access codes, the maps by what a taken and a refused entry leave. -/
theorem arbiterAndMapWrites : Obligations.ArbiterAndMapWrites := by
  intro s hdft hawake hintact
  have ⟨_, _, hcore, _⟩ := hawake
  refine ⟨fun m v => ?_, fun m v k hk => ?_, fun m v => ?_, fun e v => ?_, fun w v => ?_⟩
  · refine (completes_arb_write hdft hawake (r := .ARB_MODE) (by simp) m.isLt Nat.one_pos rfl).mono ?_
    rintro u ⟨hu, hregs, hflds⟩
    refine ⟨hu, hregs, ?_, hflds Fld.ARB_MODE_LIMIT (by simp [RegName.fields]) rfl,
      hflds Fld.ARB_MODE_AGE (by simp [RegName.fields]) rfl⟩
    rw [hflds Fld.ARB_MODE_MODE (by simp [RegName.fields]) rfl]
    simp [bits]
  · have hc : exec (.arbPrioWrite m k v) s = run (fun t => portWrite t (RegName.ARB_PRIO.addr m.toNat k.toNat) v) s := by
      show run (fun t => arbPrioWrite t m.toNat k.toNat v) s = _
      simp only [arbPrioWrite, if_pos hk]
    refine (completes_arb_write hdft hawake (r := .ARB_PRIO) (by simp) m.isLt hk hc).mono ?_
    rintro u ⟨hu, hregs, hflds⟩
    refine ⟨hu, hregs, (hflds Fld.ARB_PRIO_PRIO (by simp [RegName.fields]) rfl).trans ?_⟩
    simp [bits, Nat.mod_eq_of_lt v.isLt]
  · refine (completes_arb_write hdft hawake (r := .ARB_PRIO2) (by simp) m.isLt Nat.one_pos rfl).mono ?_
    rintro u ⟨hu, hregs, hflds⟩
    refine ⟨hu, hregs, (hflds Fld.ARB_PRIO2_PRIO16 (by simp [RegName.fields]) rfl).trans ?_⟩
    simp [bits]
  · dsimp only
    rw [← amapOk_iff v]
    refine ⟨fun hok => completes_amapWrite hdft hawake fun m => ?_, fun hbad => completes_amapWrite hdft hawake fun m => ?_⟩
    · obtain ⟨g, k, hu⟩ := amapWrite_taken (s := { Begun s with wrHold := m }) hintact hcore e.isLt hok
      rw [hu]
      refine ⟨rfl, ?_, ?_, rfl, regsBut_setReg _ .AMAP _ _ 0⟩
      · exact (reg_setReg _ .AMAP _ _ 0).trans (by simp)
      · simp [BitVec.extractLsb', Nat.shiftRight_eq_div_pow]
    · obtain ⟨hu, herr, hregs, hindex⟩ :=
        amapWrite_refused { Begun s with wrHold := m } e.toNat e.isLt (Bool.eq_false_iff.2 hbad)
      refine ⟨?_, herr, hregs, hindex⟩
      rw [hu]
  · apply completes_hmapWrite hdft hawake
    obtain ⟨g, k, hu⟩ := hmapWrite_taken (s := Begun s) hintact hcore w.isLt v.toNat
    rw [hu]
    have hstored : v.toNat % 2 ^ 19 < 2 ^ 64 := by omega
    refine ⟨rfl, rfl, ?_, regsBut_setReg _ .HMAP _ _ 0, ?_⟩
    · simp [bit1_eq_testBit, BitVec.getLsbD]
    · exact (congrArg BitVec.toNat (reg_setReg (Begun s) .HMAP _ _ 0)).trans (Nat.mod_eq_of_lt hstored)

end Sys2Proof.Machine

namespace Sys2Proof.Machine

/-! The statement about a step (R17, R18). -/

theorem step_cons (c : Instr) (l : List Instr) (s : State) :
    step { s with pending := c :: l } = exec c { s with pending := l } := rfl

theorem step_nil {s : State} (h : s.pending = []) : step s = .next (tick s) := by
  rw [step, h]

theorem swapPoll_of_none {s : State} (h : s.sl.banks.swap = none) : swapPoll s = s := by
  rw [swapPoll, h]

theorem tick_vaux_false {s : State} (h : s.vaux = false) : tick s = s := by simp [tick, h]

/-- The slew gathers parts per million, and one whole ns of them is added or held back (R17, R500). -/
theorem tick_no_swap {s : State} (hv : s.vaux = true) (hswap : s.sl.banks.swap = none) :
    let acc := s.lehr.slewAcc + s.lehr.slew
    let d := if 1000000 ≤ acc then 2 else if acc ≤ -1000000 then 0 else 1
    tick s = { s with
      lehrNow := s.lehrNow + d, now := if s.coreUp then s.now + d else s.now
      lehr := { s.lehr with slewAcc := 1000000 + acc - 1000000 * d } } := by
  simp only [tick, hv, Bool.not_true, Bool.false_eq_true, if_false]
  split_ifs with hfast hcore hslow hcore <;> rw [swapPoll_of_none (by exact hswap)] <;> simp <;> omega

/-- Settles O1: a step unfolds to the command at the front, or to a tick whose three cases are those of the slew. -/
theorem stepRunsFrontOrTicks : Obligations.StepRunsFrontOrTicks := by
  refine ⟨step_cons, fun s hempty => ⟨fun hv => ?_, fun hv hswap => ?_⟩⟩
  · rw [step_nil hempty, tick_vaux_false hv]
  · refine ⟨_, _, ?_, ?_, ?_, (step_nil hempty).trans (congrArg _ (tick_no_swap hv hswap))⟩
    · split_ifs <;> simp
    · split_ifs <;> simp <;> omega
    · intro hlow hhigh
      rw [if_neg (by omega), if_neg (by omega)]

end Sys2Proof.Machine

namespace Sys2Proof.Machine

/-! The statement about the state after reset. -/

/-- After reset every register holds its reset word. -/
theorem reg_reset (r : RegName) (i j : Nat) : State.reset.reg r i j = r.resetWord i j := rfl

/-- Every copy of PT_CTL is reset with BG_RETRY = 1 alone (R504). -/
theorem resetWord_PT_CTL (p j : Nat) : RegName.PT_CTL.resetWord p j = 4#64 := by
  simp [RegName.resetWord, RegName.fields, Rst.val, Fld.put]

/-- Every copy of SCRUB_CTL is reset with EN = 1 and INTVL = 2,048 (R386). -/
theorem resetWord_SCRUB_CTL (d j : Nat) : RegName.SCRUB_CTL.resetWord d j = 0x10800#64 := by
  simp [RegName.resetWord, RegName.fields, Rst.val, Fld.put]

theorem layoutOk_reset : layoutOk State.reset = true := by decide +kernel

/-- Settles O5: every value is a field of a reset word or of the empty state. -/
theorem resetValues : Obligations.ResetValues := by
  refine ⟨rfl, rfl, rfl, rfl, rfl, rfl, reset_wf, nofun, reg_reset, ?_⟩
  refine ⟨by decide, by decide, by decide, by decide, by decide, by decide, fun p _ => ?_, fun d _ => ?_, layoutOk_reset⟩
  · simp only [State.fld, reg_reset, resetWord_PT_CTL]
    decide
  · simp only [State.fld, reg_reset, resetWord_SCRUB_CTL]
    decide
end Sys2Proof.Machine

namespace Sys2Proof.Machine

/-! The statement about the Lehr's samples and slots fails at a slot that starts while CORE is in reset (R23, R466). -/

/-- CORE is in reset while VAUX is in range and MODE is COLD_START, as during a cold reset; the rest is as after reset. -/
def coreInReset : State := { State.reset with vaux := true, regs := [(RegName.MODE.addr 0 0, 2)] }

theorem coreInReset_restful : restful coreInReset = true := by decide +kernel

/-- The first slot's cap of cluster 0 is the reset value 15, since no region is hot. -/
theorem coreInReset_firstCap : (if regionTrip coreInReset (0 / 4) then 0 else
    min (slotCap coreInReset 0 0) (ceilOf coreInReset 0)) = 15 := by decide +kernel

/-- Whether the block rests does not depend on the governor or the Lehr. -/
theorem restful_governor (s : State) (n : Nat) (cap : BitVec 64) (bg : BitVec 16) (l : LehrC) :
    restful { s with govSlot := n, govCap := cap, govBg := bg, lehr := l } = restful s := rfl

/-- A restful state with CORE in reset stays as it is. -/
theorem finish_core_in_reset {s : State} (hrest : restful s = true) (hcore : s.coreUp = false) : finish s = s := by
  simp [finish_restful s hrest, sampleIrq, hcore]

/-- Refutes O13: while CORE is in reset a slot start sends the slices nothing (R23), so their caps stay those of the last slot
while the Lehr's are the new slot's; the statement has both the same. Here the slices' copy is 0 and the new cap 15. -/
theorem not_lehrSamplesAndSlots : ¬ Obligations.LehrSamplesAndSlots := by
  rintro ⟨-, hslots⟩
  obtain ⟨-, hstart, -⟩ := hslots coreInReset rfl
  obtain ⟨u, hexec, hu, hcaps⟩ := hstart ⟨rfl, by decide +kernel⟩
  have hfinish : finish (slotStart (Begun coreInReset)) = finish u := by
    have hrun := run_next slotStart coreInReset rfl
    exact Host.Outcome.next.inj (hrun.symm.trans hexec)
  have hfinish_u : finish u = u := by
    have hrest : restful u = true := by
      rw [hu, restful_governor]
      exact coreInReset_restful
    exact finish_core_in_reset hrest (by rw [hu]; rfl)
  have hfinish_slot : (finish (slotStart (Begun coreInReset))).govCap = 0 := by
    decide +kernel
  have hcap : u.govCap = 0 := by rw [← hfinish_u, ← hfinish, hfinish_slot]
  have hfirst := (hcaps 0 (by decide)).1
  rw [hcap] at hfirst
  have hslot : (if coreInReset.govSlot = 64 then 0 else (coreInReset.govSlot + 1) % 64) = 0 := rfl
  simp only [hslot, coreInReset_firstCap] at hfirst
  exact absurd hfirst (by decide)

end Sys2Proof.Machine

namespace Sys2Proof.Machine

/-! SUPPORT. Operations that write registers alone, and what they leave of the other registers. -/

/-- `u` is `s` but for the registers at the offsets of a list. -/
def RegStep (s u : State) (l : List Nat) : Prop := u = { s with regs := u.regs } ∧ RegsBut s u l

theorem RegsBut.refl (s : State) (l : List Nat) : RegsBut s s l := fun _ _ _ => rfl

theorem RegsBut.mono {s u : State} {l l' : List Nat} (h : RegsBut s u l) (hl : l ⊆ l') : RegsBut s u l' :=
  fun d k hk => h d k fun hkl => hk (hl hkl)

/-- A field of a register outside the list holds what it held. -/
theorem RegsBut.fld {s u : State} {l : List Nat} (h : RegsBut s u l) (f : Fld) (i j : Nat) (hf : f.reg.addr i j ∉ l) :
    u.fld f i j = s.fld f i j := congrArg f.get (h _ _ hf)

theorem regsBut_addFld (s : State) (f : Fld) (n i j : Nat) : RegsBut s (s.addFld f n i j) [f.reg.addr i j] :=
  regsBut_setFld s f _ i j

namespace RegStep

variable {s t u : State} {l l' : List Nat}

theorem refl (s : State) (l : List Nat) : RegStep s s l := ⟨rfl, RegsBut.refl s l⟩

theorem trans (h : RegStep s t l) (k : RegStep t u l) : RegStep s u l := by
  obtain ⟨ht, hregs⟩ := h
  obtain ⟨hu, hregs'⟩ := k
  exact ⟨by rw [hu, ht], hregs.trans hregs'⟩

theorem mono (h : RegStep s u l) (hl : l ⊆ l') : RegStep s u l' := ⟨h.1, h.2.mono hl⟩

theorem setFld (h : RegStep s t l) (f : Fld) (v : Nat) {i j : Nat} (hf : f.reg.addr i j ∈ l) :
    RegStep s (t.setFld f v i j) l :=
  h.trans ⟨rfl, (regsBut_setFld t f v i j).mono (by simpa using hf)⟩

theorem mode (h : RegStep s u l) (hl : RegName.MODE.addr 0 0 ∉ l) : u.mode = s.mode := by
  have hcur := h.2.fld Fld.MODE_CUR 0 0 hl
  have hvaux : u.vaux = s.vaux := by rw [h.1]
  rw [State.mode, State.mode, hcur, hvaux]

end RegStep

/-! ### Modes and their sweeps -/

theorem mode_lt (s : State) : s.mode < 8 := by
  unfold State.mode
  split
  · exact fld_lt s Fld.MODE_CUR 0 0
  · decide

theorem mode_eq_fld {s : State} (h : s.vaux = true) : s.mode = s.fld Fld.MODE_CUR := if_pos h

/-- A change of MODE_CUR writes MODE, and in LEHR stops the slot counter. -/
theorem setMode_split (s : State) (m : Nat) (forced : Bool) :
    setMode s m forced =
      { ((s.setFld Fld.MODE_PREV s.mode).setFld Fld.MODE_CUR m).setFld Fld.MODE_FORCED (b2n forced) with
        govSlot := if m = 1 then 64 else s.govSlot } := by
  rw [setMode]
  split <;> rfl

theorem setMode_regs (s : State) (m : Nat) (forced : Bool) :
    (setMode s m forced).regs =
      (((s.setFld Fld.MODE_PREV s.mode).setFld Fld.MODE_CUR m).setFld Fld.MODE_FORCED (b2n forced)).regs := by
  rw [setMode_split]

theorem setMode_eq (s : State) (m : Nat) (forced : Bool) :
    setMode s m forced = { s with
      regs := (setMode s m forced).regs, govSlot := if m = 1 then 64 else s.govSlot } := by
  have hstep : RegStep s (((s.setFld Fld.MODE_PREV s.mode).setFld Fld.MODE_CUR m).setFld Fld.MODE_FORCED (b2n forced))
      [RegName.MODE.addr 0 0] :=
    (((RegStep.refl s _).setFld Fld.MODE_PREV _ (by simp)).setFld Fld.MODE_CUR _ (by simp)).setFld Fld.MODE_FORCED _ (by simp)
  rw [setMode_regs, setMode_split, hstep.1]

theorem regsBut_setMode (s : State) (m : Nat) (forced : Bool) :
    RegsBut s (setMode s m forced) [RegName.MODE.addr 0 0] := by
  have hmode : ∀ (t : State) (f : Fld) (v : Nat), f.reg = .MODE → RegsBut t (t.setFld f v) [RegName.MODE.addr 0 0] :=
    fun t f v hf => hf ▸ regsBut_setFld t f v 0 0
  intro d k hk
  rw [setMode_regs]
  exact ((hmode _ _ _ rfl).trans ((hmode _ _ _ rfl).trans (hmode _ _ _ rfl))) d k hk

theorem fld_congr {s u : State} (h : u.regs = s.regs) (f : Fld) (i j : Nat) : u.fld f i j = s.fld f i j := by
  simp only [State.fld, State.reg, h]

theorem setMode_flds (s : State) {m : Nat} (hm : m < 8) (forced : Bool) :
    let u := setMode s m forced
    u.fld Fld.MODE_CUR = m ∧ u.fld Fld.MODE_PREV = s.mode ∧ u.fld Fld.MODE_FORCED = b2n forced ∧
      u.fld Fld.MODE_RETAINED = s.fld Fld.MODE_RETAINED := by
  have hmode := mode_lt s
  have hforced : b2n forced < 2 := by cases forced <;> decide
  simp only [fld_congr (setMode_regs s m forced)]
  simp (disch := decide) only [fld_setFld_disj, fld_setFld_same]
  simp only [and_true]
  omega

theorem setMode_mode {s : State} (hv : s.vaux = true) {m : Nat} (hm : m < 8) (forced : Bool) :
    (setMode s m forced).mode = m := by
  have hvaux : (setMode s m forced).vaux = true := by rw [setMode_eq]; exact hv
  rw [mode_eq_fld hvaux, (setMode_flds s hm forced).1]

theorem startSweep_eq (s : State) (kind : Nat) (ws : List Walk) :
    startSweep s kind ws = ((({ s with walks := s.walks ++ ws }).setFld Fld.SWEEP_STATUS_KIND kind).setFld
      Fld.SWEEP_STATUS_DRAWERS 0).setFld Fld.SWEEP_STATUS_SETTLED 0 := rfl

/-- The begin of a sweep adds its walks and writes SWEEP_STATUS (R185). -/
theorem startSweep_step (s : State) (kind : Nat) (ws : List Walk) :
    RegStep { s with walks := s.walks ++ ws } (startSweep s kind ws) [RegName.SWEEP_STATUS.addr 0 0] := by
  rw [startSweep_eq]
  exact (((RegStep.refl _ _).setFld Fld.SWEEP_STATUS_KIND kind (by simp)).setFld Fld.SWEEP_STATUS_DRAWERS 0
    (by simp)).setFld Fld.SWEEP_STATUS_SETTLED 0 (by simp)

theorem startSweep_flds (s : State) {kind : Nat} (hk : kind < 8) (ws : List Walk) :
    let u := startSweep s kind ws
    u.fld Fld.SWEEP_STATUS_DRAWERS = 0 ∧ u.fld Fld.SWEEP_STATUS_KIND = kind ∧ u.fld Fld.SWEEP_STATUS_SETTLED = 0 := by
  rw [startSweep_eq]
  simp (disch := decide) only [fld_setFld_disj, fld_setFld_same]
  omega

end Sys2Proof.Machine

namespace Sys2Proof.Machine

/-! The statement about MODE_REQ (R29 to R34). -/

/-- MODE_REQ with REQ and RETAIN as written. -/
def modeReqWritten (s : State) (v : Nat) : State := (s.setFld Fld.MODE_REQ_REQ (bits v 0 3)).setFld Fld.MODE_REQ_RETAIN (bits v 3 1)

/-- The same with the STATUS of the request. -/
def modeReqNoted (s : State) (v status : Nat) : State := (modeReqWritten s v).setFld Fld.MODE_REQ_STATUS status

theorem modeReqWritten_step (s : State) (v : Nat) : RegStep s (modeReqWritten s v) [RegName.MODE_REQ.addr 0 0] :=
  ((RegStep.refl s _).setFld Fld.MODE_REQ_REQ _ (by simp)).setFld Fld.MODE_REQ_RETAIN _ (by simp)

theorem modeReqNoted_step (s : State) (v status : Nat) :
    RegStep s (modeReqNoted s v status) [RegName.MODE_REQ.addr 0 0] :=
  (modeReqWritten_step s v).setFld Fld.MODE_REQ_STATUS _ (by simp)

/-- What MODE_REQ shows of a request. -/
def ReqShown (u : State) (v status : Nat) : Prop :=
  u.fld Fld.MODE_REQ_REQ = bits v 0 3 ∧ u.fld Fld.MODE_REQ_RETAIN = bits v 3 1 ∧ u.fld Fld.MODE_REQ_STATUS = status

theorem modeReqNoted_shown (s : State) (v : Nat) {status : Nat} (h : status < 8) :
    ReqShown (modeReqNoted s v status) v status := by
  unfold ReqShown modeReqNoted modeReqWritten
  simp (disch := decide) only [fld_setFld_disj, fld_setFld_same]
  simp only [bits]
  omega

theorem ReqShown.of_regsBut {s u : State} {l : List Nat} {v status : Nat} (h : ReqShown s v status) (hu : RegsBut s u l)
    (hl : RegName.MODE_REQ.addr 0 0 ∉ l) : ReqShown u v status := by
  obtain ⟨hreq, hretain, hstatus⟩ := h
  exact ⟨(hu.fld _ 0 0 hl).trans hreq, (hu.fld _ 0 0 hl).trans hretain, (hu.fld _ 0 0 hl).trans hstatus⟩

/-- The transitions of R30 that MODE_REQ causes. -/
theorem reqLegal_iff (cur m : Nat) : reqLegal cur m = true ↔
    (cur, m) ∈ [(4, 5), (4, 6), (4, 7), (4, 1), (5, 4), (5, 6), (6, 4), (7, 4)] := by
  simp only [reqLegal, Bool.or_eq_true, Bool.and_eq_true, beq_iff_eq, List.mem_cons, Prod.mk.injEq, List.not_mem_nil,
    or_false, and_or_left, or_assoc]

theorem modeBusy_iff (s : State) :
    modeBusy s = true ↔ (∃ w ∈ s.walks, w.kind ∈ [1, 4, 5, 6]) ∨ s.fld Fld.SLEEP_STATUS_STATE = 1 := by
  simp [modeBusy, sweepOn, isSweep, or_assoc]

theorem RegStep.modeBusy {s u : State} {l : List Nat} (h : RegStep s u l) (hl : RegName.SLEEP_STATUS.addr 0 0 ∉ l) :
    modeBusy u = modeBusy s := by
  have hstate := h.2.fld Fld.SLEEP_STATUS_STATE 0 0 hl
  have hwalks : u.walks = s.walks := by rw [h.1]
  simp only [Machine.modeBusy, sweepOn, hstate, hwalks]

/-- A write of MODE_REQ while the start attempts are not exhausted (R33). -/
theorem modeReqWrite_cases {s : State} (hex : s.fld Fld.START_STATUS_EXHAUSTED ≠ 1) (v : Nat) :
    modeReqWrite s v =
      if ! reqLegal s.mode (bits v 0 3) then modeReqNoted s v 2
      else if modeBusy s then modeReqNoted s v 3
      else reqBegin (modeReqWritten s v) (bits v 0 3) (bit1 v 3) := by
  have hstep := modeReqWritten_step s v
  rw [← hstep.mode (by decide), ← hstep.modeBusy (by decide)]
  exact if_neg hex

/-- The state in which an accepted request has changed the mode (R30, R31). -/
def modeReqTaken (s : State) (v : Nat) : State := setMode (modeReqNoted s v 1) (bits v 0 3) false

/-- The state in which a request for LEHR has begun (R472). -/
def sleepBegun (s : State) (v : Nat) : State :=
  let t := ((modeReqTaken s v).setFld Fld.MODE_RETAINED (b2n (bit1 v 3))).setFld Fld.SLEEP_STATUS_STATE 1
  { t with lehr := { t.lehr with fired := 0 } }

theorem reqBegin_written (s : State) (v : Nat) :
    reqBegin (modeReqWritten s v) (bits v 0 3) (bit1 v 3) =
      if bits v 0 3 = 5 then startSweep (modeReqTaken s v) 4 [⟨6, 0, 0⟩]
      else if bits v 0 3 = 4 ∧ s.mode ≠ 5 then startOSettle (modeReqTaken s v)
      else if bits v 0 3 = 1 then
        if bit1 v 3 = true then startSweep (sleepBegun s v) 3 [⟨5, 0, 0⟩] else startSweep (sleepBegun s v) 2 [⟨4, 0, 0⟩]
      else reqDone (modeReqTaken s v) := by
  rw [← (modeReqWritten_step s v).mode (by decide)]
  rfl

theorem modeReqTaken_eq (s : State) (v : Nat) : modeReqTaken s v = { s with
    regs := (modeReqTaken s v).regs, govSlot := if bits v 0 3 = 1 then 64 else s.govSlot } := by
  have hnoted := (modeReqNoted_step s v 1).1
  have hset := setMode_eq (modeReqNoted s v 1) (bits v 0 3) false
  rw [modeReqTaken, hset, hnoted]

theorem regsBut_modeReqTaken (s : State) (v : Nat) :
    RegsBut s (modeReqTaken s v) [RegName.MODE_REQ.addr 0 0, RegName.MODE.addr 0 0] :=
  ((modeReqNoted_step s v 1).2.mono (by simp)).trans ((regsBut_setMode _ _ _).mono (by simp))

theorem modeReqTaken_shown (s : State) (v : Nat) : ReqShown (modeReqTaken s v) v 1 :=
  (modeReqNoted_shown s v (by decide)).of_regsBut (regsBut_setMode _ _ _) (by decide)

/-- MODE shows the mode entered by a request, and the mode before (R31). -/
def ModeEntered (s u : State) (m : Nat) : Prop := u.mode = m ∧ u.fld Fld.MODE_PREV = s.mode ∧ u.fld Fld.MODE_FORCED = 0

theorem ModeEntered.of_regsBut {s t u : State} {m : Nat} {l : List Nat} (h : ModeEntered s t m) (hv : u.vaux = t.vaux)
    (hu : RegsBut t u l) (hl : RegName.MODE.addr 0 0 ∉ l) : ModeEntered s u m := by
  obtain ⟨hcur, hprev, hforced⟩ := h
  refine ⟨?_, (hu.fld _ 0 0 hl).trans hprev, (hu.fld _ 0 0 hl).trans hforced⟩
  rw [← hcur, State.mode, State.mode, hv, hu.fld Fld.MODE_CUR 0 0 hl]

theorem modeReqTaken_entered {s : State} (hv : s.vaux = true) (v : Nat) :
    ModeEntered s (modeReqTaken s v) (bits v 0 3) := by
  have hm : bits v 0 3 < 8 := Nat.mod_lt _ (by decide)
  have hstep := modeReqNoted_step s v 1
  have hv' : (modeReqNoted s v 1).vaux = true := by rw [hstep.1]; exact hv
  obtain ⟨-, hprev, hforced, -⟩ := setMode_flds (modeReqNoted s v 1) hm false
  exact ⟨setMode_mode hv' hm false, hprev.trans (hstep.mode (by decide)), hforced⟩

/-- A request without a sweep is done at once (R33). -/
theorem reqDone_of_shown {t : State} {v : Nat} (h : ReqShown t v 1) :
    RegStep t (reqDone t) [RegName.MODE_REQ.addr 0 0] ∧ ReqShown (reqDone t) v 5 := by
  obtain ⟨hreq, hretain, hstatus⟩ := h
  have hdone : reqDone t = t.setFld Fld.MODE_REQ_STATUS 5 := if_pos hstatus
  rw [hdone]
  refine ⟨(RegStep.refl t _).setFld _ _ (by simp), ?_⟩
  unfold ReqShown
  simp (disch := decide) only [fld_setFld_disj, fld_setFld_same]
  exact ⟨hreq, hretain, rfl⟩

/-- The state of a request for LEHR: it is shown as accepted, and the sleep is PENDING (R472). -/
theorem sleepBegun_flds {s : State} (hv : s.vaux = true) (v : Nat) :
    ReqShown (sleepBegun s v) v 1 ∧ ModeEntered s (sleepBegun s v) (bits v 0 3) ∧
      (sleepBegun s v).fld Fld.SLEEP_STATUS_STATE = 1 ∧ (sleepBegun s v).fld Fld.MODE_RETAINED = bits v 3 1 := by
  obtain ⟨hreq, hretain, hstatus⟩ := modeReqTaken_shown s v
  obtain ⟨hcur, hprev, hforced⟩ := modeReqTaken_entered hv v
  have hbit : b2n (bit1 v 3) % 2 = bits v 3 1 := by
    simp only [bit1, bits, b2n, decide_eq_true_eq]
    split <;> omega
  have hv' : (sleepBegun s v).vaux = true := by
    unfold sleepBegun
    rw [modeReqTaken_eq]
    exact hv
  rw [ModeEntered, mode_eq_fld hv', ReqShown]
  rw [mode_eq_fld (by rw [modeReqTaken_eq]; exact hv)] at hcur
  have hregs : (sleepBegun s v).regs = (((modeReqTaken s v).setFld Fld.MODE_RETAINED
      (b2n (bit1 v 3))).setFld Fld.SLEEP_STATUS_STATE 1).regs := rfl
  simp only [fld_congr hregs]
  simp (disch := decide) only [fld_setFld_disj, fld_setFld_ne, fld_setFld_same]
  exact ⟨⟨hreq, hretain, hstatus⟩, ⟨hcur, hprev, hforced⟩, rfl, hbit⟩

/-- A sweep has begun with the walks `ws` (R185). -/
def SweepBegun (s u : State) (kind : Nat) (ws : List Walk) : Prop :=
  u.walks = s.walks ++ ws ∧ u.fld Fld.SWEEP_STATUS_DRAWERS = 0 ∧ u.fld Fld.SWEEP_STATUS_KIND = kind ∧
    u.fld Fld.SWEEP_STATUS_SETTLED = 0

/-- What the begin of a sweep keeps of the request, beside what it does. -/
theorem startSweep_of_request {s t : State} {v m : Nat} (hshown : ReqShown t v 1) (hentered : ModeEntered s t m)
    (hwalks : t.walks = s.walks) {kind : Nat} (hk : kind < 8) (ws : List Walk) :
    let u := startSweep t kind ws
    ReqShown u v 1 ∧ ModeEntered s u m ∧ SweepBegun s u kind ws := by
  obtain ⟨hu, hregs⟩ := startSweep_step t kind ws
  have hregs' : RegsBut t (startSweep t kind ws) [RegName.SWEEP_STATUS.addr 0 0] := hregs
  have hvaux : (startSweep t kind ws).vaux = t.vaux := by rw [hu]
  have hw : (startSweep t kind ws).walks = t.walks ++ ws := by rw [hu]
  exact ⟨hshown.of_regsBut hregs' (by decide), hentered.of_regsBut hvaux hregs' (by decide),
    hw.trans (by rw [hwalks]), startSweep_flds t hk ws⟩

end Sys2Proof.Machine

namespace Sys2Proof.Machine

/-! The statement about MODE_REQ: the cases of a write, and the whole statement. -/

theorem completes_modeReqWrite {v : BitVec 32} {s : State} (hdft : s.dft = false) (hv : s.vaux = true) {P : State → Prop}
    (h : P (modeReqWrite (Begun s) v.toNat)) : Completes (.modeReqWrite ⟨v, false⟩) s P := by
  have hd : domUp (freshOut s) RegName.MODE_REQ.desc.dom = true := by simp [domUp, RegName.desc, hv]
  refine completes_run (fun t => portWrite t (RegName.MODE_REQ.addr 0 0) v) rfl hdft ?_
  rw [portWrite_addr (r := .MODE_REQ) (i := 0) (j := 0) Nat.one_pos Nat.one_pos hd rfl]
  exact h

/-- The state in which the entries that O-settle finds busy are pre-transition (R178). -/
def busyMarked (s : State) : State :=
  { s with sl := { s.sl with trk := s.sl.trk.map (fun e => (e.1, { e.2 with pre := e.2.valid })) } }

theorem startOSettle_eq (s : State) :
    startOSettle s = startSweep (busyMarked s) 1 ((List.range 16).map (fun c => ⟨1, 0, c⟩)) := rfl

theorem trkE_busyMarked (s : State) (k : Nat) : (busyMarked s).trkE k = { s.trkE k with pre := (s.trkE k).valid } := by
  simp only [State.trkE, busyMarked]
  induction s.sl.trk with
  | nil => rfl
  | cons e m ih =>
    simp only [List.map_cons, SMap.getD]
    split
    · rfl
    · exact ih

/-- The frame of an accepted request up to its sweep. -/
theorem modeReqTaken_awake (s : State) {v : Nat} (hm : bits v 0 3 ≠ 1) :
    RegStep s (modeReqTaken s v) [RegName.MODE_REQ.addr 0 0, RegName.MODE.addr 0 0] := by
  refine ⟨?_, regsBut_modeReqTaken s v⟩
  have h := modeReqTaken_eq s v
  rwa [if_neg hm] at h

/-- The write of MODE_REQ has no effect while the start attempts are exhausted (R512). -/
theorem completes_modeReq_exhausted {v : BitVec 32} {s : State} (hdft : s.dft = false) (hv : s.vaux = true)
    (hex : s.fld Fld.START_STATUS_EXHAUSTED = 1) (same : Bool) :
    Completes (.modeReqWrite ⟨v, same⟩) s (fun u => u = Begun s) := by
  have hex' : (Begun s).fld Fld.START_STATUS_EXHAUSTED = 1 := hex
  cases same
  · exact completes_modeReqWrite hdft hv (if_pos hex')
  · exact completes_run (fun t => modeReqSame t v.toNat) rfl hdft (if_pos (.inr hex'))

section
variable {v : BitVec 32} {s : State} (hdft : s.dft = false) (hv : s.vaux = true)
  (hex : s.fld Fld.START_STATUS_EXHAUSTED = 0)
include hdft hv hex

/-- In the LCLK of a forced transition the request is PREEMPTED (R34). -/
theorem completes_modeReq_same : Completes (.modeReqWrite ⟨v, true⟩) s (fun u =>
    OnlyRegs s u [RegName.MODE_REQ.addr 0 0] ∧ ReqShown u v.toNat 4) := by
  refine completes_run (fun t => modeReqSame t v.toNat) rfl hdft ?_
  have hex' : (freshOut s).fld Fld.START_STATUS_EXHAUSTED = 0 := hex
  have hsame : modeReqSame (freshOut s) v.toNat = modeReqNoted (freshOut s) v.toNat 4 :=
    if_neg (by simp [hv, hex'])
  rw [hsame]
  exact ⟨modeReqNoted_step _ _ _, modeReqNoted_shown _ _ (by decide)⟩

/-- Outside it the request is refused as ILLEGAL or BUSY, or begins (R33). -/
theorem completes_modeReq_of_cases {P : State → Prop}
    (hillegal : reqLegal s.mode (bits v.toNat 0 3) = false → P (modeReqNoted (Begun s) v.toNat 2))
    (hbusy : reqLegal s.mode (bits v.toNat 0 3) = true → modeBusy s = true → P (modeReqNoted (Begun s) v.toNat 3))
    (hbegin : reqLegal s.mode (bits v.toNat 0 3) = true → modeBusy s = false →
      P (reqBegin (modeReqWritten (Begun s) v.toNat) (bits v.toNat 0 3) (bit1 v.toNat 3))) :
    Completes (.modeReqWrite ⟨v, false⟩) s P := by
  have hex' : (Begun s).fld Fld.START_STATUS_EXHAUSTED ≠ 1 := by
    show s.fld Fld.START_STATUS_EXHAUSTED ≠ 1
    omega
  refine completes_modeReqWrite hdft hv ?_
  rw [modeReqWrite_cases hex']
  show P (if ! reqLegal s.mode (bits v.toNat 0 3) then _ else if modeBusy s then _ else _)
  split_ifs with hlegal hb
  · exact hillegal (by simpa using hlegal)
  · exact hbusy (by simpa using hlegal) hb
  · exact hbegin (by simpa using hlegal) (by simpa using hb)

theorem completes_modeReq_illegal (hlegal : reqLegal s.mode (bits v.toNat 0 3) = false) :
    Completes (.modeReqWrite ⟨v, false⟩) s (fun u => OnlyRegs s u [RegName.MODE_REQ.addr 0 0] ∧ ReqShown u v.toNat 2) :=
  completes_modeReq_of_cases hdft hv hex
    (fun _ => ⟨modeReqNoted_step _ _ _, modeReqNoted_shown _ _ (by decide)⟩)
    (fun h => by simp [hlegal] at h) (fun h => by simp [hlegal] at h)

theorem completes_modeReq_busy (hlegal : reqLegal s.mode (bits v.toNat 0 3) = true) (hbusy : modeBusy s = true) :
    Completes (.modeReqWrite ⟨v, false⟩) s (fun u => OnlyRegs s u [RegName.MODE_REQ.addr 0 0] ∧ ReqShown u v.toNat 3) :=
  completes_modeReq_of_cases hdft hv hex (fun h => by simp [hlegal] at h)
    (fun _ _ => ⟨modeReqNoted_step _ _ _, modeReqNoted_shown _ _ (by decide)⟩)
    (fun _ h => by simp [hbusy] at h)

variable (hlegal : reqLegal s.mode (bits v.toNat 0 3) = true) (hbusy : modeBusy s = false)
include hlegal hbusy

/-- A legal request with no sweep under way begins (R30). -/
theorem completes_modeReq_begin {P : State → Prop}
    (h : P (reqBegin (modeReqWritten (Begun s) v.toNat) (bits v.toNat 0 3) (bit1 v.toNat 3))) :
    Completes (.modeReqWrite ⟨v, false⟩) s P :=
  completes_modeReq_of_cases hdft hv hex (fun h' => by simp [hlegal] at h') (fun _ h' => by simp [hbusy] at h')
    (fun _ _ => h)

/-- A request without a sweep is done at once. -/
theorem completes_modeReq_done (hm : bits v.toNat 0 3 ≠ 5 ∧ bits v.toNat 0 3 ≠ 1)
    (hback : bits v.toNat 0 3 = 4 → s.mode = 5) :
    Completes (.modeReqWrite ⟨v, false⟩) s (fun u =>
      OnlyRegs s u [RegName.MODE_REQ.addr 0 0, RegName.MODE.addr 0 0] ∧ ReqShown u v.toNat 5 ∧
        ModeEntered s u (bits v.toNat 0 3)) := by
  obtain ⟨hdrain, hsleep⟩ := hm
  refine completes_modeReq_begin hdft hv hex hlegal hbusy ?_
  have hsettle : ¬ (bits v.toNat 0 3 = 4 ∧ (Begun s).mode ≠ 5) := fun h => h.2 (hback h.1)
  rw [reqBegin_written, if_neg hdrain, if_neg hsettle, if_neg hsleep]
  obtain ⟨hstep, hshown⟩ := reqDone_of_shown (modeReqTaken_shown (Begun s) v.toNat)
  exact ⟨(modeReqTaken_awake (Begun s) hsleep).trans (hstep.mono (by simp)), hshown,
    (modeReqTaken_entered (s := Begun s) hv v.toNat).of_regsBut (by rw [hstep.1]) hstep.2 (by decide)⟩

/-- SERVICE to DRAIN begins the drain. -/
theorem completes_modeReq_drain (hm : bits v.toNat 0 3 = 5) :
    Completes (.modeReqWrite ⟨v, false⟩) s (fun u => u = { Begun s with regs := u.regs, walks := u.walks } ∧
      RegsBut s u [RegName.SWEEP_STATUS.addr 0 0, RegName.MODE_REQ.addr 0 0, RegName.MODE.addr 0 0] ∧ ReqShown u v.toNat 1 ∧
      ModeEntered s u (bits v.toNat 0 3) ∧ SweepBegun s u 4 [⟨6, 0, 0⟩]) := by
  refine completes_modeReq_begin hdft hv hex hlegal hbusy ?_
  rw [reqBegin_written, if_pos hm]
  have hframe := modeReqTaken_awake (Begun s) (v := v.toNat) (by omega)
  obtain ⟨hu, hregs⟩ := startSweep_step (modeReqTaken (Begun s) v.toNat) 4 [⟨6, 0, 0⟩]
  obtain ⟨hshown, hentered, hsweep⟩ := startSweep_of_request (modeReqTaken_shown (Begun s) v.toNat)
    (modeReqTaken_entered (s := Begun s) hv v.toNat) (by rw [hframe.1]) (kind := 4) (by decide) [⟨6, 0, 0⟩]
  refine ⟨?_, (hframe.2.mono (by simp)).trans (RegsBut.mono (l := [RegName.SWEEP_STATUS.addr 0 0]) hregs (by simp)),
    hshown, hentered, hsweep⟩
  rw [hu, hframe.1]

/-- RECOVERY or TEST to SERVICE begins O-settle; the busy entries are pre-transition (R178). -/
theorem completes_modeReq_settle (hm : bits v.toNat 0 3 = 4) (hback : s.mode ≠ 5) :
    Completes (.modeReqWrite ⟨v, false⟩) s (fun u => u = { Begun s with regs := u.regs, walks := u.walks, sl := u.sl } ∧
      RegsBut s u [RegName.SWEEP_STATUS.addr 0 0, RegName.MODE_REQ.addr 0 0, RegName.MODE.addr 0 0] ∧ ReqShown u v.toNat 1 ∧
      ModeEntered s u (bits v.toNat 0 3) ∧ SweepBegun s u 1 ((List.range 16).map (fun c => ⟨1, 0, c⟩)) ∧
      ∀ k, u.trkE k = { s.trkE k with pre := (s.trkE k).valid }) := by
  refine completes_modeReq_begin hdft hv hex hlegal hbusy ?_
  have hsettle : bits v.toNat 0 3 = 4 ∧ (Begun s).mode ≠ 5 := ⟨hm, hback⟩
  rw [reqBegin_written, if_neg (by omega), if_pos hsettle]
  have hframe := modeReqTaken_awake (Begun s) (v := v.toNat) (by omega)
  have hentered := modeReqTaken_entered (s := Begun s) hv v.toNat
  have hshown := modeReqTaken_shown (Begun s) v.toNat
  rw [startOSettle_eq]
  generalize modeReqTaken (Begun s) v.toNat = t at *
  have hregs : RegsBut t (startSweep (busyMarked t) 1 _) [RegName.SWEEP_STATUS.addr 0 0] :=
    (startSweep_step (busyMarked t) 1 ((List.range 16).map (fun c => ⟨1, 0, c⟩))).2
  obtain ⟨hshown', hentered', hsweep⟩ := startSweep_of_request (s := Begun s) (t := busyMarked t) hshown hentered
    (by rw [busyMarked, hframe.1]) (kind := 1) (by decide) ((List.range 16).map (fun c => ⟨1, 0, c⟩))
  refine ⟨?_, (hframe.2.mono (by simp)).trans (hregs.mono (by simp)), hshown', hentered', hsweep, fun k => ?_⟩
  · rw [(startSweep_step _ _ _).1, busyMarked, hframe.1]
  · have htrk : t.trkE k = s.trkE k := by rw [hframe.1]; rfl
    rw [← htrk]
    exact trkE_busyMarked t k

/-- SERVICE to LEHR begins the quiesce with retention, the flush without (R472). -/
theorem completes_modeReq_sleep (hm : bits v.toNat 0 3 = 1) :
    Completes (.modeReqWrite ⟨v, false⟩) s (fun u =>
      u = { Begun s with regs := u.regs, walks := u.walks, govSlot := 64, lehr := { s.lehr with fired := 0 } } ∧
      RegsBut s u [RegName.SWEEP_STATUS.addr 0 0, RegName.SLEEP_STATUS.addr 0 0, RegName.MODE_REQ.addr 0 0,
        RegName.MODE.addr 0 0] ∧ ReqShown u v.toNat 1 ∧ ModeEntered s u (bits v.toNat 0 3) ∧ u.fld Fld.SLEEP_STATUS_STATE = 1 ∧
      u.fld Fld.MODE_RETAINED = bits v.toNat 3 1 ∧
      (bit1 v.toNat 3 = true → SweepBegun s u 3 [⟨5, 0, 0⟩]) ∧ (bit1 v.toNat 3 = false → SweepBegun s u 2 [⟨4, 0, 0⟩])) := by
  refine completes_modeReq_begin hdft hv hex hlegal hbusy ?_
  rw [reqBegin_written, if_neg (by omega), if_neg (by omega), if_pos hm]
  obtain ⟨hshown, hentered, hstate, hretained⟩ := sleepBegun_flds (s := Begun s) hv v.toNat
  have hframe : sleepBegun (Begun s) v.toNat = { Begun s with
      regs := (sleepBegun (Begun s) v.toNat).regs, govSlot := 64, lehr := { s.lehr with fired := 0 } } := by
    have h := modeReqTaken_eq (Begun s) v.toNat
    rw [if_pos hm] at h
    unfold sleepBegun
    rw [h]
    rfl
  have hbut : RegsBut s (sleepBegun (Begun s) v.toNat)
      [RegName.SLEEP_STATUS.addr 0 0, RegName.MODE_REQ.addr 0 0, RegName.MODE.addr 0 0] :=
    ((regsBut_modeReqTaken (Begun s) v.toNat).mono (by simp)).trans
      (((regsBut_setFld _ Fld.MODE_RETAINED _ 0 0).mono (by simp)).trans
        ((regsBut_setFld _ Fld.SLEEP_STATUS_STATE 1 0 0).mono (by simp)))
  generalize sleepBegun (Begun s) v.toNat = t at *
  have hsweep : ∀ kind ws, kind < 8 → let u := startSweep t kind ws
      u = { Begun s with regs := u.regs, walks := u.walks, govSlot := 64, lehr := { s.lehr with fired := 0 } } ∧
      RegsBut s u [RegName.SWEEP_STATUS.addr 0 0, RegName.SLEEP_STATUS.addr 0 0, RegName.MODE_REQ.addr 0 0,
        RegName.MODE.addr 0 0] ∧ ReqShown u v.toNat 1 ∧ ModeEntered s u (bits v.toNat 0 3) ∧ u.fld Fld.SLEEP_STATUS_STATE = 1 ∧
      u.fld Fld.MODE_RETAINED = bits v.toNat 3 1 ∧ SweepBegun s u kind ws := by
    intro kind ws hk
    obtain ⟨hu, hregs⟩ := startSweep_step t kind ws
    have hregs' : RegsBut t (startSweep t kind ws) [RegName.SWEEP_STATUS.addr 0 0] := hregs
    obtain ⟨hshown', hentered', hbegun⟩ := startSweep_of_request hshown hentered (by rw [hframe]) hk ws
    refine ⟨?_, (hbut.mono (by simp)).trans (hregs'.mono (by simp)), hshown', hentered',
      (hregs'.fld _ 0 0 (by decide)).trans hstate, (hregs'.fld _ 0 0 (by decide)).trans hretained, hbegun⟩
    rw [hu, hframe]
  split_ifs with hretain
  · obtain ⟨hu, hregs, hreq, hmode, hst, hret, hbegun⟩ := hsweep 3 [⟨5, 0, 0⟩] (by decide)
    exact ⟨hu, hregs, hreq, hmode, hst, hret, fun _ => hbegun, fun h => by simp [hretain] at h⟩
  · obtain ⟨hu, hregs, hreq, hmode, hst, hret, hbegun⟩ := hsweep 2 [⟨4, 0, 0⟩] (by decide)
    exact ⟨hu, hregs, hreq, hmode, hst, hret, fun h => absurd h hretain, fun _ => hbegun⟩

end

/-- Settles O12: the cases of the write of MODE_REQ. -/
theorem modeRequests : Obligations.ModeRequests := by
  intro v s hdft hv
  have hm : bits v.toNat 0 3 = v.toNat % 8 := by simp [bits]
  have hbit : bit1 v.toNat 3 = v.getLsbD 3 := bit1_eq_testBit v.toNat 3
  dsimp only
  rw [← hm, ← reqLegal_iff, ← modeBusy_iff, ← hbit]
  simp only [Bool.not_eq_true, List.mem_cons, List.not_mem_nil, or_false, Prod.mk.injEq]
  refine ⟨completes_modeReq_exhausted hdft hv, completes_modeReq_same hdft hv, fun hex => ⟨completes_modeReq_illegal hdft hv hex,
    completes_modeReq_busy hdft hv hex, fun hbusy => ⟨fun hmem => ?_, fun hmem => ?_, fun hmem => ?_, fun hmem => ?_⟩⟩⟩
  · have hlegal : reqLegal s.mode (bits v.toNat 0 3) = true := by
      rw [reqLegal_iff]
      rcases hmem with ⟨hfrom, hto⟩ | ⟨hfrom, hto⟩ | ⟨hfrom, hto⟩ | ⟨hfrom, hto⟩ <;> rw [hfrom, hto] <;> decide
    exact completes_modeReq_done hdft hv hex hlegal hbusy (by omega) (by omega)
  · obtain ⟨hfrom, hto⟩ := hmem
    exact completes_modeReq_drain hdft hv hex (by rw [hfrom, hto]; rfl) hbusy hto
  · have hto : bits v.toNat 0 3 = 4 := by omega
    have hlegal : reqLegal s.mode 4 = true := by rcases hmem with ⟨hfrom, -⟩ | ⟨hfrom, -⟩ <;> rw [hfrom] <;> rfl
    exact completes_modeReq_settle hdft hv hex (by rw [hto]; exact hlegal) hbusy hto (by omega)
  · obtain ⟨hfrom, hto⟩ := hmem
    exact completes_modeReq_sleep hdft hv hex (by rw [hfrom, hto]; rfl) hbusy hto
end Sys2Proof.Machine

namespace Sys2Proof.Machine

/-! SUPPORT. The ports of Punty: reads after writes, the frame that leaves at once, and the frame that is taken (R494). -/

@[simp] theorem ptp_setPtp (s : State) (p : Nat) (q : PtPort) : (s.setPtp p q).ptp p = q :=
  SMap.getD_set_same _ _ _ _

theorem ptp_setPtp_ne (s : State) {p k : Nat} (h : k ≠ p) (q : PtPort) : (s.setPtp p q).ptp k = s.ptp k :=
  SMap.getD_set_ne _ _ _ _ _ h

/-- `u` is `s` but for port `p`, which is `q`, and frames that `u` has sent besides. -/
def PortIs (s u : State) (p : Nat) (q : PtPort) (out : List (Nat × PtFrame)) : Prop :=
  u = { s with pt := { s.pt with port := u.pt.port }, ptTx := s.ptTx ++ out } ∧ (∀ k, k ≠ p → u.ptp k = s.ptp k) ∧ u.ptp p = q

theorem portIs_setPtp (s : State) (p : Nat) (q : PtPort) : PortIs s (s.setPtp p q) p q [] :=
  ⟨by rw [List.append_nil]; rfl, fun _ hk => ptp_setPtp_ne s hk q, ptp_setPtp s p q⟩

theorem portIs_ptOut (s : State) (p : Nat) (f : PtFrame) :
    PortIs s (ptOut s p f) p (afterSend (s.ptp p) f.typ f.pay) [(p, frameOf (s.ptp p) f.typ f.pay)] :=
  ⟨rfl, fun _ hk => ptp_setPtp_ne s hk _, ptp_setPtp s p _⟩

theorem PortIs.trans {s t u : State} {p : Nat} {q r : PtPort} {l m : List (Nat × PtFrame)} (h : PortIs s t p q l)
    (k : PortIs t u p r m) : PortIs s u p r (l ++ m) := by
  obtain ⟨ht, hother, -⟩ := h
  obtain ⟨hu, hother', hp⟩ := k
  refine ⟨?_, fun k hk => (hother' k hk).trans (hother k hk), hp⟩
  rw [hu, ht, List.append_assoc]

theorem ptPump_waits_none {s : State} {p : Nat} (h : (s.ptp p).waitq = []) (fuel : Nat) : ptPump fuel p s = s := by
  cases fuel with
  | zero => rfl
  | succ n => simp only [ptPump, h]

/-- One waiting frame leaves. -/
theorem portIs_ptPump_one {t : State} {p : Nat} {q : PtPort} {f : PtFrame} (hq : t.ptp p = { q with waitq := [f] })
    (hr : q.replay.length < 32) (fuel : Nat) :
    PortIs t (ptPump (fuel + 1) p t) p (afterSend { q with waitq := [] } f.typ f.pay)
      [(p, frameOf { q with waitq := [] } f.typ f.pay)] := by
  have hout := (portIs_setPtp t p { q with waitq := [] }).trans (portIs_ptOut _ p f)
  rw [ptp_setPtp] at hout
  have hpump : ptPump (fuel + 1) p t = ptOut (t.setPtp p { q with waitq := [] }) p f := by
    simp only [ptPump, hq, hr, if_true]
    exact ptPump_waits_none (by rw [(portIs_ptOut _ p f).2.2, ptp_setPtp]; rfl) fuel
  rwa [hpump]

theorem ptUp_congr {s u : State} {k : Nat} (h : (u.ptp k).state = (s.ptp k).state) : ptUp u k = ptUp s k := by
  simp only [ptUp, h]

/-- A frame that can leave at once leaves. -/
theorem portIs_ptSend {s : State} {p typ : Nat} (hup : ptUp s p = true) (hsend : CanSend (s.ptp p) typ) (pay : BitVec 256) :
    PortIs s (ptSend s p typ pay) p (afterSend (s.ptp p) typ pay) [(p, frameOf (s.ptp p) typ pay)] := by
  obtain ⟨hwait, hreplay, htype⟩ := hsend
  have hskip : ¬ (typ ≠ 1 ∧ (¬ ptUp s p ∨ ¬ bit1 (s.ptp p).types typ)) := by simp [hup, htype]
  have hback : { s.ptp p with waitq := [] } = s.ptp p := by rw [← hwait]
  have hsent := (portIs_setPtp s p { s.ptp p with waitq := [⟨typ, 0, false, 0, pay⟩] }).trans
    (portIs_ptPump_one (ptp_setPtp s p _) hreplay 63)
  rw [hback] at hsent
  simp only [ptSend, if_neg hskip, hwait]
  exact hsent

theorem ptAck_kept (q : PtPort) (a : Nat) : ∃ l, ptAck q a = { q with replay := l } := by
  unfold ptAck
  split
  · exact ⟨_, rfl⟩
  · exact ⟨q.replay, rfl⟩

/-- The port after a frame in order differs from the port before in what its ACK removed and in the last SEQ in order. -/
theorem heardPort_kept (q : PtPort) (h : PtHdr) : ∃ l, heardPort q h = { q with replay := l, rx := h.seq.toNat } := by
  obtain ⟨l, hl⟩ := ptAck_kept q h.ack.toNat
  exact ⟨l, by rw [heardPort, hl]⟩

/-- A frame in order other than CAP is taken and acts. -/
theorem ptTake_heard {s : State} {p typ : Nat} {h : PtHdr} (hh : Hears s p h) (htyp : typ ≠ 1) :
    ptTake s p typ h = (s.setPtp p (heardPort (s.ptp p) h), true) := by
  obtain ⟨hruns, hup, hcrc, hnak, hseq, hwait⟩ := hh
  obtain ⟨l, hack⟩ := ptAck_kept (s.ptp p) h.ack.toNat
  have hstate : (s.ptp p).state = 3 ∨ (s.ptp p).state = 4 := by
    simpa only [ptUp, Bool.or_eq_true, beq_iff_eq] using hup
  have hrx : (h.seq.toNat == ((ptAck (s.ptp p) h.ack.toNat).rx + 1) % 64) = true := by simp [hack, hseq]
  have hquiet : ((s.setPtp p (heardPort (s.ptp p) h)).ptp p).waitq = [] := by
    rw [ptp_setPtp, heardPort, hack, ← hwait]
  simp only [ptTake, hruns, hcrc, hnak, htyp, and_false, or_false, hstate, hrx, if_true, if_false,
    Bool.not_true, not_true_eq_false, Bool.false_eq_true]
  exact congrArg (·, true) (ptPump_waits_none hquiet 64)

end Sys2Proof.Machine

namespace Sys2Proof.Machine

/-! The statement about time synchronisation and the package share (R500, R501). -/

/-- The upstream port is one that carries frames (R500). -/
theorem ptUp_ptUpstream {s : State} (h : ptUpstream s ≠ 7) : ptUp s (ptUpstream s) = true := by
  have hbest : ∀ (l : List Nat) (b : Nat × Nat), (b.2 = 7 ∨ ptUp s b.2 = true) → (∀ p ∈ l, ptUp s p = true) →
      let c := l.foldl (fun b p => if (s.ptp p).dist < b.1 then ((s.ptp p).dist, p) else b) b
      c.2 = 7 ∨ ptUp s c.2 = true := by
    intro l
    induction l with
    | nil => exact fun b hb _ => hb
    | cons p l ih =>
      intro b hb hl
      refine ih _ ?_ fun k hk => hl k (List.mem_cons_of_mem p hk)
      dsimp only
      split
      · exact .inr (hl p List.mem_cons_self)
      · exact hb
  unfold ptUpstream at h ⊢
  split at h
  · exact absurd rfl h
  · next hmaster =>
    rw [if_neg hmaster]
    exact (hbest (upPorts s) (255, 7) (.inl rfl) fun p hp => (List.mem_filter.1 hp).2).resolve_left h

theorem tsyncPeriod_idle {s : State} (h : s.fld Fld.PT_GCTL_TSYNC_EN = 0 ∨ ptUpstream s = 7) : tsyncPeriod s = s := by
  rw [tsyncPeriod, if_pos (.inr h)]

theorem portIs_tsyncPeriod {s : State} (hruns : ptRuns s = true) (hen : s.fld Fld.PT_GCTL_TSYNC_EN = 1)
    (hport : ptUpstream s ≠ 7) (hsend : CanSend (s.ptp (ptUpstream s)) 5) :
    let p := ptUpstream s
    let pay := payOf [(s.now, 4, 8)]
    PortIs s (tsyncPeriod s) p { afterSend (s.ptp p) 5 pay with t1 := some s.now } [(p, frameOf (s.ptp p) 5 pay)] := by
  have hskip : ¬ (!ptRuns s ∨ s.fld Fld.PT_GCTL_TSYNC_EN = 0 ∨ ptUpstream s = 7) := by simp [hruns, hen, hport]
  have hmarked := portIs_setPtp s (ptUpstream s) { s.ptp (ptUpstream s) with t1 := some s.now }
  have hup : ptUp (s.setPtp (ptUpstream s) { s.ptp (ptUpstream s) with t1 := some s.now }) (ptUpstream s) = true := by
    rw [ptUp_congr (s := s) (by rw [ptp_setPtp])]
    exact ptUp_ptUpstream hport
  have hsent := hmarked.trans (portIs_ptSend (typ := 5) hup (by rw [ptp_setPtp]; exact hsend) (payOf [(s.now, 4, 8)]))
  rw [ptp_setPtp] at hsent
  simp only [tsyncPeriod, if_neg hskip]
  exact hsent

/-- A partner's request is taken and answered with the time of its receipt. -/
theorem portIs_ptTsyncReq {s : State} {p : Nat} {h : PtHdr} (hh : Hears s p h)
    (hsend : CanSend (heardPort (s.ptp p) h) 6) (t1 : Nat) :
    let b := heardPort (s.ptp p) h
    let pay := payOf [(t1, 4, 8), (s.now, 12, 8), (s.now, 20, 8)]
    PortIs s (ptTsyncReq s p h t1) p (afterSend b 6 pay) [(p, frameOf b 6 pay)] := by
  obtain ⟨l, hl⟩ := heardPort_kept (s.ptp p) h
  have hup : ptUp (s.setPtp p (heardPort (s.ptp p) h)) p = true := by
    rw [ptUp_congr (s := s) (by rw [ptp_setPtp, hl])]
    exact hh.2.1
  have hsent := (portIs_setPtp s p (heardPort (s.ptp p) h)).trans (portIs_ptSend (typ := 6) hup
    (by rw [ptp_setPtp]; exact hsend) (payOf [(t1, 4, 8), (s.now, 12, 8), (s.now, 20, 8)]))
  rw [ptp_setPtp] at hsent
  simp only [ptTsyncReq, ptTake_heard hh (typ := 5) (by decide), if_true]
  exact hsent

theorem ptTsyncRsp_stale {s : State} {p : Nat} {h : PtHdr} (hh : Hears s p h) {t1 : Nat} (ht : (s.ptp p).t1 ≠ some t1)
    (t2 t3 : Nat) : ptTsyncRsp s p h t1 t2 t3 = s.setPtp p (heardPort (s.ptp p) h) := by
  obtain ⟨l, hl⟩ := heardPort_kept (s.ptp p) h
  have hopen : ((s.setPtp p (heardPort (s.ptp p) h)).ptp p).t1 ≠ some t1 := by rwa [ptp_setPtp, hl]
  simp only [ptTsyncRsp, ptTake_heard hh (typ := 6) (by decide)]
  rw [if_pos (.inr hopen)]

theorem portIs_ptPwr {s : State} {p : Nat} {h : PtHdr} (hh : Hears s p h) (inst demand budget : Nat) :
    PortIs s (ptPwr s p h inst demand budget) p
      (if inst / 4 = s.instId / 4 then { heardPort (s.ptp p) h with pwr := some (s.now, demand, budget) }
        else heardPort (s.ptp p) h) [] := by
  have hheard := portIs_setPtp s p (heardPort (s.ptp p) h)
  have hinst : (s.setPtp p (heardPort (s.ptp p) h)).instId = s.instId := rfl
  simp only [ptPwr, ptTake_heard hh (typ := 7) (by decide), hinst, true_and]
  split
  · rw [ptp_setPtp]
    exact hheard.trans (portIs_setPtp _ p _)
  · exact hheard

/-! ### The offset of an exchange -/

theorem unsignedOf_saturated {off : Int} (hlo : -(2 ^ 31) ≤ off) (hhi : off < 2 ^ 31) :
    (unsignedOf 32 (max (-(2 ^ 31)) (min (2 ^ 31 - 1) off)) : Int) = off % 2 ^ 32 := by
  have hsat : max (-(2 ^ 31)) (min (2 ^ 31 - 1) off) = off := by omega
  rw [hsat, unsignedOf]
  exact Int.toNat_of_nonneg (Int.emod_nonneg _ (by decide))

theorem unsignedOf_lt (n : Nat) (v : Int) : unsignedOf n v < 2 ^ n := by
  have hlt := Int.emod_lt_of_pos v (show (0 : Int) < 2 ^ n by positivity)
  have hnn := Int.emod_nonneg v (show (2 : Int) ^ n ≠ 0 by positivity)
  rw [unsignedOf, Int.toNat_lt hnn]
  exact_mod_cast hlt

/-- The offset of an exchange, halved toward minus infinity. -/
def exchangeOff (now t1 t2 t3 : Nat) : Int := (((t2 : Int) - t1) - ((now : Int) - t3)) / 2

/-- The exchange of a port is closed, and its offset is in PT_TSYNC. -/
def tsyncNoted (s : State) (p : Nat) (off : Int) : State :=
  ((s.setPtp p { s.ptp p with t1 := none }).setFld Fld.PT_TSYNC_OFS_OFS
    (unsignedOf 32 (max (-(2 ^ 31)) (min (2 ^ 31 - 1) off)))).setFld Fld.PT_TSYNC_LOCKED (b2n (decide (off.natAbs < 100)))

/-- How many exchanges in a row have had a large offset. -/
def badCount (s : State) (off : Int) : Nat := if 100000 < off.natAbs then s.pt.badRun + 1 else 0

/-- The run of large offsets is counted, and the tenth is an interrupt. -/
def tsyncCounted (s : State) (off : Int) : State :=
  let t := { s with pt := { s.pt with first := true, badRun := if badCount s off = 10 then 0 else badCount s off } }
  if badCount s off = 10 then irqSet t 38 else t

/-- The time base steps forward, or its slew is set. -/
def tsyncCorrected (s : State) (first : Bool) (off : Int) : State :=
  if ¬ first ∧ 10000 < off then { s with now := s.now + off.toNat, lehrNow := s.lehrNow + off.toNat }
  else { s with lehr := { s.lehr with slew := max (-1000) (min 1000 off) } }

theorem ptTsyncRsp_open {s : State} {p : Nat} {h : PtHdr} (hh : Hears s p h) {t1 : Nat} (ht : (s.ptp p).t1 = some t1)
    (t2 t3 : Nat) :
    let off := exchangeOff s.now t1 t2 t3
    ptTsyncRsp s p h t1 t2 t3 =
      tsyncCorrected (tsyncCounted (tsyncNoted (s.setPtp p (heardPort (s.ptp p) h)) p off) off) s.pt.first off := by
  obtain ⟨l, hl⟩ := heardPort_kept (s.ptp p) h
  have hopen : ¬ ((!true) = true ∨ ((s.setPtp p (heardPort (s.ptp p) h)).ptp p).t1 ≠ some t1) := by
    rw [ptp_setPtp, hl]
    simp [ht]
  simp only [ptTsyncRsp, ptTake_heard hh (typ := 6) (by decide)]
  rw [if_neg hopen]
  rfl

theorem tsyncNoted_step (s : State) (p : Nat) (off : Int) :
    RegStep (s.setPtp p { s.ptp p with t1 := none }) (tsyncNoted s p off)
      [RegName.PT_TSYNC_OFS.addr 0 0, RegName.PT_TSYNC.addr 0 0] :=
  ((RegStep.refl _ _).setFld Fld.PT_TSYNC_OFS_OFS _ (by simp)).setFld Fld.PT_TSYNC_LOCKED _ (by simp)

theorem tsyncNoted_flds (s : State) (p : Nat) (off : Int) :
    (-(2 ^ 31) ≤ off → off < 2 ^ 31 → ((tsyncNoted s p off).fld Fld.PT_TSYNC_OFS_OFS : Int) = off % 2 ^ 32) ∧
    ((tsyncNoted s p off).fld Fld.PT_TSYNC_LOCKED = 1 ↔ off.natAbs < 100) := by
  constructor
  · intro hlo hhi
    rw [tsyncNoted, fld_setFld_ne _ _ _ _ _ _ _ _ (by decide), fld_setFld_same _ _ _ _ _ (by decide)]
    exact (congrArg Nat.cast (Nat.mod_eq_of_lt (unsignedOf_lt 32 _))).trans (unsignedOf_saturated hlo hhi)
  · rw [tsyncNoted, fld_setFld_same _ _ _ _ _ (by decide)]
    by_cases hoff : off.natAbs < 100 <;> simp [hoff, b2n]

theorem tsyncCounted_eq {s : State} (hcore : s.coreUp = true) (off : Int) :
    tsyncCounted s off = { s with
      pt := { s.pt with first := true, badRun := if badCount s off = 10 then 0 else badCount s off }
      irq := { s.irq with pend := if badCount s off = 10 then insertSorted 38 s.irq.pend else s.irq.pend } } := by
  unfold tsyncCounted
  split
  · simp only [irqSet, hcore, if_true]
  · rfl

theorem tsyncCorrected_eq (s : State) (first : Bool) (off : Int) :
    tsyncCorrected s first off = { s with
      now := (tsyncCorrected s first off).now
      lehrNow := (tsyncCorrected s first off).lehrNow
      lehr := (tsyncCorrected s first off).lehr } := by
  unfold tsyncCorrected
  split <;> rfl

/-- What a correction does to the time bases and to the slew. -/
theorem tsyncCorrected_times (s : State) (first : Bool) (off : Int) :
    let u := tsyncCorrected s first off
    (first = false ∧ 10000 < off → (u.now : Int) = s.now + off ∧ (u.lehrNow : Int) = s.lehrNow + off ∧ u.lehr = s.lehr) ∧
    (¬ (first = false ∧ 10000 < off) → u.now = s.now ∧ u.lehrNow = s.lehrNow ∧ u.lehr = { s.lehr with slew := u.lehr.slew } ∧
      -1000 ≤ u.lehr.slew ∧ u.lehr.slew ≤ 1000 ∧ (-1000 ≤ off → off ≤ 1000 → u.lehr.slew = off)) := by
  have hcond : (¬ first ∧ 10000 < off) ↔ (first = false ∧ 10000 < off) := by simp
  simp only [tsyncCorrected, hcond]
  split
  · next hstep =>
    have hnn : (off.toNat : Int) = off := Int.toNat_of_nonneg (by omega)
    exact ⟨fun _ => ⟨by simp [hnn], by simp [hnn], rfl⟩, fun h => absurd hstep h⟩
  · next hslew =>
    refine ⟨fun h => absurd h hslew, fun _ => ⟨rfl, rfl, rfl, ?_⟩⟩
    dsimp only
    omega

/-! ### The package share -/

/-- The port `r` is the port `q` but for its frames. -/
def SameLink (q r : PtPort) : Prop := r = { q with seq := r.seq, nak := r.nak, replay := r.replay, waitq := r.waitq }

theorem SameLink.trans {q r w : PtPort} (h : SameLink q r) (k : SameLink r w) : SameLink q w := by
  unfold SameLink at *
  rw [k, h]

theorem SameLink.state {q r : PtPort} (h : SameLink q r) : r.state = q.state := by rw [h]

theorem SameLink.pwr {q r : PtPort} (h : SameLink q r) : r.pwr = q.pwr := by rw [h]

/-- `u` is `s` but for frames sent, or queued, on the ports of a list. -/
structure SentOn (s u : State) (l : List Nat) : Prop where
  frame : u = { s with pt := { s.pt with port := u.pt.port }, ptTx := u.ptTx }
  grows : s.ptTx ⊆ u.ptTx
  other : ∀ k, k ∉ l → u.ptp k = s.ptp k
  link : ∀ k, SameLink (s.ptp k) (u.ptp k)

theorem SentOn.refl (s : State) (l : List Nat) : SentOn s s l := ⟨rfl, fun _ h => h, fun _ _ => rfl, fun _ => rfl⟩

theorem SentOn.trans {s t u : State} {l : List Nat} (h : SentOn s t l) (k : SentOn t u l) : SentOn s u l where
  frame := by rw [k.frame, h.frame]
  grows := fun _ hx => k.grows (h.grows hx)
  other := fun n hn => (k.other n hn).trans (h.other n hn)
  link := fun n => (h.link n).trans (k.link n)

theorem SentOn.mono {s u : State} {l m : List Nat} (h : SentOn s u l) (hlm : l ⊆ m) : SentOn s u m :=
  ⟨h.frame, h.grows, fun k hk => h.other k fun hkl => hk (hlm hkl), h.link⟩

theorem PortIs.sentOn {s u : State} {p : Nat} {q : PtPort} {out : List (Nat × PtFrame)} (h : PortIs s u p q out)
    (hq : SameLink (s.ptp p) q) : SentOn s u [p] := by
  obtain ⟨hu, hother, hp⟩ := h
  refine ⟨by rw [hu], fun x hx => by rw [hu]; exact List.mem_append_left _ hx, fun k hk => hother k (by simpa using hk),
    fun k => ?_⟩
  by_cases hk : k = p
  · rw [hk, hp]
    exact hq
  · rw [hother k hk]
    rfl

theorem sentOn_waitq (s : State) (p : Nat) (l : List PtFrame) : SentOn s (s.setPtp p { s.ptp p with waitq := l }) [p] :=
  (portIs_setPtp s p _).sentOn rfl

theorem sentOn_ptPump (fuel p : Nat) (s : State) : SentOn s (ptPump fuel p s) [p] := by
  induction fuel generalizing s with
  | zero => exact SentOn.refl s _
  | succ n ih =>
    unfold ptPump
    dsimp only
    split
    · exact SentOn.refl s _
    · split
      · exact ((sentOn_waitq s p _).trans ((portIs_ptOut _ p _).sentOn rfl)).trans (ih _)
      · exact SentOn.refl s _

theorem sentOn_ptSend (s : State) (p typ : Nat) (pay : BitVec 256) : SentOn s (ptSend s p typ pay) [p] := by
  unfold ptSend
  dsimp only
  split
  · exact SentOn.refl s _
  · exact (sentOn_waitq s p _).trans (sentOn_ptPump 64 p _)

/-- One frame after another goes out on the ports of a list, and at once where it can. -/
theorem sentOn_foldl_ptSend {typ : Nat} {pay : BitVec 256} {g : State → BitVec 256} (l : List Nat) (hl : l.Nodup) (s : State)
    (hg : ∀ t : State, t.regs = s.regs → g t = pay) :
    let u := l.foldl (fun t p => ptSend t p typ (g t)) s
    SentOn s u l ∧ ∀ k ∈ l, ptUp s k = true → CanSend (s.ptp k) typ →
      (k, frameOf (s.ptp k) typ pay) ∈ u.ptTx ∧ u.ptp k = afterSend (s.ptp k) typ pay := by
  induction l generalizing s with
  | nil => exact ⟨SentOn.refl s _, fun k hk => absurd hk (List.not_mem_nil)⟩
  | cons p l ih =>
    obtain ⟨hp, hl⟩ := List.nodup_cons.1 hl
    have hone := sentOn_ptSend s p typ (g s)
    have hregs : (ptSend s p typ (g s)).regs = s.regs := by rw [hone.frame]
    obtain ⟨hrest, hsent⟩ := ih hl (ptSend s p typ (g s)) fun t ht => hg t (ht.trans hregs)
    refine ⟨(hone.mono (by simp)).trans (hrest.mono (by simp)), fun k hk hup hcan => ?_⟩
    obtain rfl | hkl := List.mem_cons.1 hk
    · have hfirst := portIs_ptSend hup hcan (g s)
      rw [hg s rfl] at hfirst
      have hout : (k, frameOf (s.ptp k) typ pay) ∈ (ptSend s k typ (g s)).ptTx := by
        rw [hg s rfl, hfirst.1]
        exact List.mem_append_right _ (List.mem_singleton.2 rfl)
      refine ⟨hrest.grows hout, (hrest.other k hp).trans ?_⟩
      rw [hg s rfl]
      exact hfirst.2.2
    · have hkp : k ∉ [p] := by simpa using fun h : k = p => hp (h ▸ hkl)
      have hsame := hone.other k hkp
      rw [← hsame] at hcan ⊢
      exact hsent k hkl (by rwa [ptUp_congr (s := s) (by rw [hsame])]) hcan

theorem SentOn.pkgPorts {s u : State} {l : List Nat} (h : SentOn s u l) : pkgPorts u = pkgPorts s := by
  have hregs : u.regs = s.regs := by rw [h.frame]
  have hups : upPorts u = upPorts s := List.filter_congr fun k _ => ptUp_congr (h.link k).state
  rw [Machine.pkgPorts, Machine.pkgPorts, hups]
  exact List.filter_congr fun k _ => by rw [State.instId, State.instId, fld_congr hregs, fld_congr hregs]

theorem SentOn.pkgHeard {s u : State} {l : List Nat} (h : SentOn s u l) : pkgHeard u = pkgHeard s := by
  have hregs : u.regs = s.regs := by rw [h.frame]
  have hnow : u.now = s.now := by rw [h.frame]
  simp only [Machine.pkgHeard, h.pkgPorts, (h.link _).pwr, fld_congr hregs, hnow]

theorem nodup_pkgPorts (s : State) : (pkgPorts s).Nodup := (List.nodup_range.filter _).filter _

theorem pwrSend_idle {s : State} (h : s.fld Fld.PT_PKG_BUDGET = 0) : pwrSend s = s := by
  simp only [pwrSend, h, or_true, if_true]

/-- The payload of a PWR frame. -/
def pwrPay (s : State) : BitVec 256 := payOf [(s.instId, 4, 1), (iAvg s % 65536, 6, 2), (s.fld Fld.PT_PKG_BUDGET, 8, 2)]

/-- The share of this chip among the partners of the package heard lately. -/
def newShare (s : State) : Nat :=
  let n := 1 + (pkgHeard s).length
  let b := (pkgHeard s).foldl (fun m e => min m e.2) (s.fld Fld.PT_PKG_BUDGET)
  let mine := iAvg s % 65536
  let sum := mine + ((pkgHeard s).map (·.1)).sum
  if sum = 0 then b / n else b / (2 * n) + (b - n * (b / (2 * n))) * mine / sum

/-- `s` with N of the last share. -/
def withN (s : State) (n : Nat) : State := { s with pt := { s.pt with n := n } }

/-- PWR frames go out, and N of the share is kept; the share itself is in GOV_PKG. -/
theorem pwrSend_eq {s : State} (hruns : ptRuns s = true) (hb : s.fld Fld.PT_PKG_BUDGET ≠ 0) :
    ∃ t, SentOn s t (pkgPorts s) ∧
      (∀ k ∈ pkgPorts s, CanSend (s.ptp k) 7 →
        (k, frameOf (s.ptp k) 7 (pwrPay s)) ∈ t.ptTx ∧ t.ptp k = afterSend (s.ptp k) 7 (pwrPay s)) ∧
      pwrSend s = (withN t (1 + (pkgHeard s).length)).setFld Fld.GOV_PKG_SHARE (newShare s) := by
  have hskip : ¬ (!ptRuns s ∨ s.fld Fld.PT_PKG_BUDGET = 0) := by simp [hruns, hb]
  obtain ⟨hsent, hout⟩ := sentOn_foldl_ptSend (typ := 7) (pay := pwrPay s)
    (g := fun t => payOf [(t.instId, 4, 1), (iAvg s % 65536, 6, 2), (s.fld Fld.PT_PKG_BUDGET, 8, 2)])
    (pkgPorts s) (nodup_pkgPorts s) s fun t ht => by rw [State.instId, fld_congr ht]; rfl
  refine ⟨_, hsent, fun k hk => hout k hk (List.mem_filter.1 (List.mem_filter.1 hk).1).2, ?_⟩
  simp only [pwrSend, if_neg hskip]
  rw [hsent.pkgHeard]
  rfl

end Sys2Proof.Machine

namespace Sys2Proof.Machine

/-! The statement about time and package power: the effects of its commands, and the whole statement. -/

theorem PortIs.link {s u : State} {p : Nat} {q : PtPort} {out : List (Nat × PtFrame)} (h : PortIs (Begun s) u p q out) :
    u = { Begun s with pt := u.pt, ptTx := out } ∧ u.pt = { s.pt with port := u.pt.port } ∧
    ((∀ k, k ≠ p → u.ptp k = s.ptp k) ∧ u.pt.oseq = s.pt.oseq ∧ u.pt.seen = s.pt.seen ∧
      u.pt.heard = s.pt.heard ∧ u.pt.lost = s.pt.lost ∧ u.pt.n = s.pt.n) ∧ u.ptp p = q := by
  obtain ⟨hu, hother, hp⟩ := h
  have hpt : u.pt = { s.pt with port := u.pt.port } := congrArg State.pt hu
  refine ⟨hu.trans ?_, hpt, ⟨hother, ?_, ?_, ?_, ?_, ?_⟩, hp⟩
  · rw [hpt]
    rfl
  all_goals rw [hpt]

/-- A port taken and its exchange closed: PT_TSYNC and the port alone differ. -/
theorem tsyncNoted_spec (s : State) (p : Nat) (q : PtPort) (off : Int) :
    let w := tsyncNoted (s.setPtp p q) p off
    w = { s with pt := { s.pt with port := w.pt.port }, regs := w.regs } ∧ (∀ k, k ≠ p → w.ptp k = s.ptp k) ∧
    w.ptp p = { q with t1 := none } ∧ RegsBut s w [RegName.PT_TSYNC_OFS.addr 0 0, RegName.PT_TSYNC.addr 0 0] := by
  have hports := (portIs_setPtp s p q).trans (portIs_setPtp _ p { (s.setPtp p q).ptp p with t1 := none })
  obtain ⟨hw, hregs⟩ := tsyncNoted_step (s.setPtp p q) p off
  dsimp only
  generalize tsyncNoted (s.setPtp p q) p off = w at *
  rw [ptp_setPtp] at hports hw hregs
  generalize (s.setPtp p q).setPtp p { q with t1 := none } = t at *
  obtain ⟨ht, hother, hp⟩ := hports
  have hport : ∀ k, w.ptp k = t.ptp k := fun k => by rw [hw]; rfl
  refine ⟨?_, fun k hk => (hport k).trans (hother k hk), (hport p).trans hp, fun d k hk => (hregs d k hk).trans ?_⟩
  · rw [hw, ht, List.append_nil, List.append_nil]
  · rw [ht]

/-- The count of large offsets and the correction, after which the ports and the registers are as they were. -/
theorem tsyncCorrected_counted {w : State} (hcore : w.coreUp = true) (first : Bool) (off : Int) :
    let u := tsyncCorrected (tsyncCounted w off) first off
    u = { w with
      pt := { w.pt with first := true, badRun := if badCount w off = 10 then 0 else badCount w off }
      irq := { w.irq with pend := if badCount w off = 10 then insertSorted 38 w.irq.pend else w.irq.pend }
      now := u.now, lehrNow := u.lehrNow, lehr := u.lehr } ∧
    (first = false ∧ 10000 < off → (u.now : Int) = w.now + off ∧ (u.lehrNow : Int) = w.lehrNow + off ∧ u.lehr = w.lehr) ∧
    (¬ (first = false ∧ 10000 < off) → u.now = w.now ∧ u.lehrNow = w.lehrNow ∧ u.lehr = { w.lehr with slew := u.lehr.slew } ∧
      -1000 ≤ u.lehr.slew ∧ u.lehr.slew ≤ 1000 ∧ (-1000 ≤ off → off ≤ 1000 → u.lehr.slew = off)) := by
  have hcounted := tsyncCounted_eq hcore off
  have hframe := tsyncCorrected_eq (tsyncCounted w off) first off
  have htimes := tsyncCorrected_times (tsyncCounted w off) first off
  have hclock : (tsyncCounted w off).now = w.now ∧ (tsyncCounted w off).lehrNow = w.lehrNow ∧
      (tsyncCounted w off).lehr = w.lehr := by
    rw [hcounted]
    exact ⟨rfl, rfl, rfl⟩
  obtain ⟨hnow, hlehrNow, hlehr⟩ := hclock
  dsimp only at htimes ⊢
  rw [hnow, hlehrNow, hlehr] at htimes
  generalize tsyncCounted w off = v at *
  refine ⟨hframe.trans ?_, htimes⟩
  rw [hcounted]

/-- The effect of a TSYNC_RSP that answers the open request. -/
theorem ptTsyncRsp_open_effect {s : State} {p : Nat} {h : PtHdr} (hh : Hears s p h) {t1 : Nat} (ht : (s.ptp p).t1 = some t1)
    (t2 t3 : Nat) :
    let u := ptTsyncRsp (Begun s) p h t1 t2 t3
    let off := exchangeOff s.now t1 t2 t3
    let step := s.pt.first = false ∧ 10000 < off
    let bad := badCount s off
    u = { Begun s with
      pt := u.pt, regs := u.regs, irq := u.irq, lehr := u.lehr, now := u.now, lehrNow := u.lehrNow } ∧
    ((∀ k, k ≠ p → u.ptp k = s.ptp k) ∧ u.pt.oseq = s.pt.oseq ∧ u.pt.seen = s.pt.seen ∧
      u.pt.heard = s.pt.heard ∧ u.pt.lost = s.pt.lost ∧ u.pt.n = s.pt.n) ∧
    u.ptp p = { heardPort (s.ptp p) h with t1 := none } ∧
    RegsBut s u [RegName.PT_TSYNC_OFS.addr 0 0, RegName.PT_TSYNC.addr 0 0] ∧
    (-(2 ^ 31) ≤ off → off < 2 ^ 31 → (u.fld Fld.PT_TSYNC_OFS_OFS : Int) = off % 2 ^ 32) ∧
    (u.fld Fld.PT_TSYNC_LOCKED = 1 ↔ off.natAbs < 100) ∧ u.pt.first = true ∧
    (bad = 10 → u.pt.badRun = 0 ∧ u.irq = { s.irq with pend := insertSorted 38 s.irq.pend }) ∧
    (bad ≠ 10 → u.pt.badRun = bad ∧ u.irq = s.irq) ∧
    (step → (u.now : Int) = s.now + off ∧ (u.lehrNow : Int) = s.lehrNow + off ∧ u.lehr = s.lehr) ∧
    (¬ step → u.now = s.now ∧ u.lehrNow = s.lehrNow ∧ u.lehr = { s.lehr with slew := u.lehr.slew } ∧
      -1000 ≤ u.lehr.slew ∧ u.lehr.slew ≤ 1000 ∧ (-1000 ≤ off → off ≤ 1000 → u.lehr.slew = off)) := by
  intro u off step bad
  have hcore : s.coreUp = true := by
    have hruns := hh.1
    simp only [ptRuns, Bool.and_eq_true] at hruns
    exact hruns.1.2
  have hopen : u = _ := ptTsyncRsp_open (s := Begun s) hh ht t2 t3
  change u = tsyncCorrected (tsyncCounted (tsyncNoted ((Begun s).setPtp p (heardPort (s.ptp p) h)) p off) off) s.pt.first off
    at hopen
  obtain ⟨hw, hother, hp, hregs⟩ := tsyncNoted_spec (Begun s) p (heardPort (s.ptp p) h) off
  obtain ⟨hofs, hlocked⟩ := tsyncNoted_flds ((Begun s).setPtp p (heardPort (s.ptp p) h)) p off
  dsimp only at hw
  generalize tsyncNoted ((Begun s).setPtp p (heardPort (s.ptp p) h)) p off = w at *
  have hclock : w.now = s.now ∧ w.lehrNow = s.lehrNow ∧ w.lehr = s.lehr ∧ badCount w off = bad := by
    rw [hw]
    exact ⟨rfl, rfl, rfl, rfl⟩
  obtain ⟨hnow, hlehrNow, hlehr, hbad⟩ := hclock
  obtain ⟨hu, htimes⟩ := tsyncCorrected_counted (w := w) (by rw [hw]; exact hcore) s.pt.first off
  dsimp only at hu htimes
  rw [← hopen, hbad] at hu
  rw [← hopen, hnow, hlehrNow, hlehr] at htimes
  clear_value u
  have hpt : u.pt = { s.pt with port := w.pt.port, first := true, badRun := if bad = 10 then 0 else bad } := by
    rw [hu, hw]
    rfl
  have hirq : u.irq = { s.irq with pend := if bad = 10 then insertSorted 38 s.irq.pend else s.irq.pend } := by
    rw [hu, hw]
    rfl
  have huregs : u.regs = w.regs := by rw [hu]
  have hup : ∀ k, u.ptp k = w.ptp k := fun k => by rw [State.ptp, State.ptp, hpt]
  refine ⟨?_, ⟨fun k hk => (hup k).trans (hother k hk), by rw [hpt], by rw [hpt], by rw [hpt], by rw [hpt], by rw [hpt]⟩,
    (hup p).trans hp, fun d k hk => Eq.trans (by rw [huregs]) (hregs d k hk), ?_, ?_, by rw [hpt], fun hten => ?_,
    fun hten => ?_, htimes⟩
  · rw [hpt, hirq, huregs]
    refine hu.trans ?_
    rw [hw]
    rfl
  · rwa [fld_congr huregs]
  · rwa [fld_congr huregs]
  · rw [hpt, hirq]
    simp [hten]
  · rw [hpt, hirq]
    simp [hten]

/-- DEMAND and BUDGET of the newest PWR of each partner, the lowest port first among equals. -/
def newestPwr (es : List (Nat × Nat × Nat × Nat × Nat)) : List (Nat × Nat) :=
  (es.filter (fun e => es.all (fun x => x.1 != e.1 || x.2.1 == e.2.1 || decide (x.2.2.1 < e.2.2.1) ||
    (x.2.2.1 == e.2.2.1 && decide (e.2.1 < x.2.1))))).map (fun e => e.2.2.2)

theorem pkgHeard_eq (s : State) :
    pkgHeard s = newestPwr ((pkgPorts s).filterMap (fun k => (s.ptp k).pwr.bind (fun e =>
      if s.now ≤ e.1 + 300000 then some (s.fld Fld.PT_STATUS_PEER_ID k, k, e) else none))) := by
  refine congrArg newestPwr (List.filterMap_congr fun k _ => ?_)
  cases (s.ptp k).pwr <;> rfl

/-- The effect of PWR_SEND with a budget. -/
theorem pwrSend_effect {s : State} (hruns : ptRuns s = true) (hb : s.fld Fld.PT_PKG_BUDGET ≠ 0) :
    let u := pwrSend (Begun s)
    u = { Begun s with pt := u.pt, ptTx := u.ptTx, regs := u.regs } ∧
    u.pt = { s.pt with port := u.pt.port, n := 1 + (pkgHeard s).length } ∧
    RegsBut s u [RegName.GOV_PKG.addr 0 0] ∧
    u.fld Fld.GOV_PKG_SHARE = newShare s % 65536 ∧
    (∀ k, k ∉ pkgPorts s → u.ptp k = s.ptp k) ∧
    ∀ k, k ∈ pkgPorts s → CanSend (s.ptp k) 7 →
      (k, frameOf (s.ptp k) 7 (pwrPay s)) ∈ u.ptTx ∧ u.ptp k = afterSend (s.ptp k) 7 (pwrPay s) := by
  obtain ⟨t, hsent, hout, heq⟩ := pwrSend_eq (s := Begun s) hruns hb
  dsimp only
  rw [heq]
  have hregs : t.regs = s.regs := by rw [hsent.frame]; rfl
  have hshare := (RegStep.refl (withN t (1 + (pkgHeard (Begun s)).length)) [RegName.GOV_PKG.addr 0 0]).setFld
    Fld.GOV_PKG_SHARE (newShare (Begun s)) (i := 0) (j := 0) (by simp)
  refine ⟨?_, ?_, fun d k hk => (hshare.2 d k hk).trans (by rw [withN, hregs]), fld_setFld_same _ _ _ _ _ (by decide),
    hsent.other, hout⟩
  · rw [hshare.1, withN, hsent.frame]
  · rw [hshare.1, withN, hsent.frame]
    rfl

/-- Settles O58, command by command: what a frame that leaves or is taken does to its port carries the exchange of times and the
share of the package. -/
theorem timeAndPackagePower : Obligations.TimeAndPackagePower := by
  unfold Obligations.TimeAndPackagePower
  intro s hdft hruns
  dsimp only
  refine ⟨fun hidle => completes_run tsyncPeriod rfl hdft (tsyncPeriod_idle hidle), fun hen hport hsend => ?_,
    fun pp h hh => ⟨fun t1 hsend => ?_, fun t1 t2 t3 => ⟨fun hstale => ?_, fun hopen => ?_⟩, fun inst demand budget => ?_⟩,
    fun hb => completes_run pwrSend rfl hdft (pwrSend_idle hb), fun hb => ?_⟩
  case refine_1 => exact completes_run tsyncPeriod rfl hdft (portIs_tsyncPeriod (s := Begun s) hruns hen hport hsend).link
  case refine_2 =>
    exact completes_run (fun t => ptTsyncReq t pp.toNat h t1.toNat) rfl hdft (portIs_ptTsyncReq (s := Begun s) hh hsend _).link
  case refine_3 =>
    refine completes_run (fun t => ptTsyncRsp t pp.toNat h t1.toNat t2.toNat t3.toNat) rfl hdft ?_
    rw [ptTsyncRsp_stale (s := freshOut s) hh hstale]
    exact (portIs_setPtp (Begun s) _ _).link
  case refine_4 =>
    exact completes_run (fun t => ptTsyncRsp t pp.toNat h t1.toNat t2.toNat t3.toNat) rfl hdft
      (ptTsyncRsp_open_effect hh hopen _ _)
  case refine_5 =>
    exact completes_run (fun t => ptPwr t pp.toNat h inst.toNat demand.toNat budget.toNat) rfl hdft
      (portIs_ptPwr (s := Begun s) hh _ _ _).link
  case refine_6 =>
    refine completes_run pwrSend rfl hdft ?_
    obtain ⟨hu, hpt, hregs, hshare, hother, hout⟩ := pwrSend_effect hruns hb
    have hsum : (iAvg s % 65536 :: (pkgHeard s).map (·.1)).sum = iAvg s % 65536 + ((pkgHeard s).map (·.1)).sum := List.sum_cons
    have hheard := pkgHeard_eq s
    unfold newestPwr at hheard
    rw [← hheard, hsum]
    rw [Nat.add_comm] at hpt
    refine ⟨hu, hpt, hregs, fun hzero => ?_, fun hpos => ?_, hother, hout⟩
    · rw [hshare, newShare, if_pos hzero, Nat.add_comm 1]
    · rw [hshare, newShare, if_neg hpos, Nat.add_comm 1]

end Sys2Proof.Machine

namespace Sys2Proof.SMap

variable {α : Type}

/-! SUPPORT. Reads of sparse maps that were filtered by key or changed value by value. -/

theorem getD_filter_key (d : Nat → α) (m : SMap α) (p : Nat → Bool) (k : Nat) :
    getD d (m.filter (fun e => p e.1)) k = if p k then getD d m k else d k := by
  induction m with
  | nil => simp [getD]
  | cons e m ih =>
    obtain ⟨j, v⟩ := e
    simp only [List.filter_cons]
    by_cases hj : j = k
    · subst hj
      cases hp : p j <;> simp_all [getD]
    · cases hp : p j <;> simp_all [getD]

theorem getD_map_value (d : Nat → α) (m : SMap α) (f : α → α) (k : Nat) (h : f (d k) = d k) :
    getD d (m.map (fun e => (e.1, f e.2))) k = f (getD d m k) := by
  induction m with
  | nil => exact h.symm
  | cons e m ih =>
    obtain ⟨j, v⟩ := e
    simp only [List.map_cons, getD]
    split
    · rfl
    · exact ih

end Sys2Proof.SMap

namespace Sys2Proof.Machine

/-! SUPPORT. What resets of CORE and of PORT leave (R25, R515, R516). -/

theorem regInDom_addr {r : RegName} {i j : Nat} (h : IsReg r i j) (p : Dom → Bool) : regInDom p (r.addr i j) = p r.desc.dom := by
  rw [regInDom, h]

theorem reg_resetRegs (s : State) (p : Dom → Bool) {r : RegName} {i j : Nat} (h : IsReg r i j) :
    (s.resetRegs p).reg r i j = if p r.desc.dom then r.resetWord i j else s.reg r i j := by
  have hread := SMap.getD_filter_key (fun _ => r.resetWord i j) s.regs (fun k => ! regInDom p k) (r.addr i j)
  rw [regInDom_addr h p] at hread
  refine Eq.trans hread ?_
  cases p r.desc.dom <;> rfl

theorem closeFans_port (s : State) (sel : Nat → Bool) :
    ∃ P, closeFans s sel = { s with port := P } ∧ P.recs = s.port.recs ∧ P.hold = s.port.hold := by
  unfold closeFans
  refine List.foldlRecOn (motive := fun u => ∃ P, u = { s with port := P } ∧ P.recs = s.port.recs ∧ P.hold = s.port.hold)
    _ _ ?_ fun u hu e _ => ?_
  · exact ⟨_, rfl, rfl, rfl⟩
  · dsimp only
    split
    · exact hu
    · obtain ⟨P, rfl, hrecs, hhold⟩ := hu
      exact ⟨_, rfl, hrecs, hhold⟩

theorem failedKept_regs (s : State) (l : List Nat) : failedKept s l = { s with regs := (failedKept s l).regs } := by
  refine List.foldlRecOn (motive := fun u : State => u = { s with regs := u.regs }) _ _ rfl fun u hu c _ => ?_
  rw [hu]
  rfl

theorem setFld_regs_congr {s u : State} (h : u.regs = s.regs) (f : Fld) (v i j : Nat) :
    (u.setFld f v i j).regs = (s.setFld f v i j).regs := by
  simp only [State.setFld, State.setReg, State.reg, h]

theorem failedKept_regs_congr {s u : State} (h : u.regs = s.regs) (l : List Nat) :
    (failedKept u l).regs = (failedKept s l).regs := by
  induction l generalizing s u with
  | nil => exact h
  | cons c l ih => exact ih (setFld_regs_congr h _ _ _ _)

/-- The clusters whose FAILED a reset of CORE keeps. -/
def failedOf (s : State) : List Nat := (List.range 16).filter (stwFailed s)

theorem closedPorts_eq (s : State) :
    let u := rewaitDat (closeFans s (fun _ => true)) (fun _ => true)
    u = { s with port := u.port } ∧ u.port.recs = s.port.recs ∧ u.port.hold = s.port.hold := by
  intro u
  obtain ⟨P, hP, hrecs, hhold⟩ := closeFans_port s (fun _ => true)
  have hu : u = rewaitDat { s with port := P } (fun _ => true) := by rw [← hP]
  clear_value u
  subst hu
  exact ⟨rfl, hrecs, hhold⟩

/-- A reset of CORE without retention, field by field. -/
theorem coreReset_eq (s : State) (pt : Nat) :
    let u := coreReset s false pt
    u = { s with
      regs := (failedKept (s.resetRegs (· = .core)) (failedOf s)).regs, hiLatch := u.hiLatch, wrHold := u.wrHold
      port := u.port, coreUp := false, sleepReady := false, work := [], frzReq := 0, walks := [], conf := u.conf
      shadow := ⟨[], [], []⟩, sl := slice0, cab := { s.cab with dr := u.cab.dr }, mem := u.mem, integ := u.integ
      stw := { thr := [], lmem := s.stw.lmem }, hutch := [], nq := nq0, irq := ⟨[], []⟩, govCap := 0, govBg := 0
      fault := u.fault, pt := u.pt, start := { s.start with boot := boot0, resil := u.start.resil } } ∧
    u.port.recs = s.port.recs ∧ u.port.notices = [] ∧
    u.port.hold = s.port.hold.map (fun e => (e.1, if e.2.used then parkHold e.2 else e.2)) := by
  intro u
  have hu : u = coreReset s false pt := rfl
  clear_value u
  unfold coreReset at hu
  extract_lets failed resil closed ports parked down at hu
  obtain ⟨hclosed, hrecs, hhold⟩ : closed = { s with port := closed.port } ∧ closed.port.recs = s.port.recs ∧
    closed.port.hold = s.port.hold := closedPorts_eq s
  have hfailed : failed = failedOf s := rfl
  have hrecs' : parked.port.recs = s.port.recs := hrecs
  have hhold' : parked.port.hold = s.port.hold.map (fun e => (e.1, if e.2.used then parkHold e.2 else e.2)) := by
    rw [← hhold]
  have hnotices : parked.port.notices = [] := rfl
  have hparked : parked = { s with port := parked.port } := by
    change { closed with port := parked.port } = _
    rw [hclosed]
  have hkept : down = failedKept (parked.resetRegs (· = .core)) failed := rfl
  clear_value down parked closed failed
  obtain ⟨latch, held, hdown⟩ : ∃ latch held, down = { s with
      regs := (failedKept (s.resetRegs (· = .core)) (failedOf s)).regs, hiLatch := latch, wrHold := held
      port := parked.port } := by
    refine ⟨(s.resetRegs (· = .core)).hiLatch, (s.resetRegs (· = .core)).wrHold, ?_⟩
    rw [hkept, hfailed, failedKept_regs, failedKept_regs_congr (u := parked.resetRegs (· = .core)) (s := s.resetRegs (· = .core))]
    · rw [hparked]
      rfl
    · rw [hparked]
      rfl
  clear hkept
  subst hdown hu
  exact ⟨rfl, hrecs', hnotices, hhold'⟩

theorem failedOf_lt {s : State} {c : Nat} (h : c ∈ failedOf s) : c < 16 := List.mem_range.1 (List.mem_of_mem_filter h)

theorem isReg_STW_STATUS {c : Nat} (h : c < 16) : IsReg .STW_STATUS c 0 := isReg_of_lt .STW_STATUS h Nat.one_pos

theorem reg_failedKept_ne (u : State) {l : List Nat} (hl : ∀ c ∈ l, c < 16) {r : RegName} {i j : Nat} (h : IsReg r i j)
    (hr : r ≠ .STW_STATUS) : (failedKept u l).reg r i j = u.reg r i j := by
  refine List.foldlRecOn (motive := fun t : State => t.reg r i j = u.reg r i j) _ _ rfl fun t ht c hc => ?_
  exact (reg_setReg_ne _ _ _ _ _ _ _ _ (addr_ne hr h (isReg_STW_STATUS (hl c hc)))).trans ht

theorem addr_STW_STATUS_ne {c k : Nat} (h : c ≠ k) : RegName.STW_STATUS.addr c 0 ≠ RegName.STW_STATUS.addr k 0 := by
  simp only [RegName.addr, RegName.desc]
  omega

theorem fld_failedKept (u : State) (l : List Nat) (c : Nat) :
    (failedKept u l).fld Fld.STW_STATUS_FAILED c = if c ∈ l then 1 else u.fld Fld.STW_STATUS_FAILED c := by
  induction l generalizing u with
  | nil => rfl
  | cons k l ih =>
    rw [failedKept, List.foldl_cons]
    refine (ih _).trans ?_
    by_cases hk : c = k
    · subst hk
      simp [fld_setFld_same u Fld.STW_STATUS_FAILED 1 c 0 (by decide)]
    · rw [fld_setFld_ne _ _ _ _ _ _ _ _ (addr_STW_STATUS_ne hk)]
      simp [hk]

section CoreReset

variable (s : State) (pt : Nat)

theorem regs_coreReset : (coreReset s false pt).regs = (failedKept (s.resetRegs (· = .core)) (failedOf s)).regs := by
  rw [(coreReset_eq s pt).1]

/-- A reset of CORE leaves the registers of the other domains alone. -/
theorem reg_coreReset {r : RegName} {i j : Nat} (h : IsReg r i j) (hr : r.desc.dom ≠ .core) :
    (coreReset s false pt).reg r i j = s.reg r i j := by
  have hne : r ≠ .STW_STATUS := fun h => hr (h ▸ rfl)
  rw [State.reg, regs_coreReset, ← State.reg, reg_failedKept_ne _ (fun c hc => failedOf_lt hc) h hne, reg_resetRegs s _ h]
  simp [hr]

theorem fld_coreReset {f : Fld} {i j : Nat} (h : IsReg f.reg i j) (hr : f.reg.desc.dom ≠ .core) :
    (coreReset s false pt).fld f i j = s.fld f i j := congrArg f.get (reg_coreReset s pt h hr)

/-- STW_STATUS.FAILED outlives a reset of CORE. -/
theorem failed_coreReset {c : Nat} (hc : c < 16) :
    (coreReset s false pt).fld Fld.STW_STATUS_FAILED c = s.fld Fld.STW_STATUS_FAILED c := by
  have hlt : s.fld Fld.STW_STATUS_FAILED c < 2 := fld_lt s Fld.STW_STATUS_FAILED c 0
  have hreset : (s.resetRegs (· = .core)).fld Fld.STW_STATUS_FAILED c = 0 := by
    rw [State.fld, reg_resetRegs s _ (isReg_STW_STATUS hc)]
    simp [RegName.desc, RegName.resetWord, RegName.fields, Rst.val, Fld.put, Fld.get]
  rw [fld_congr (regs_coreReset s pt), fld_failedKept, hreset]
  simp only [failedOf, List.mem_filter, List.mem_range, hc, true_and, stwFailed, beq_iff_eq]
  split <;> omega

/-- Without a failed steward a reset of CORE is a reset of its registers. -/
theorem domainsReset_coreReset (h : ∀ c, c < 16 → s.fld Fld.STW_STATUS_FAILED c = 0) :
    DomainsReset s (coreReset s false pt) (· = .core) [] := by
  intro r i j hr
  have hnone : failedOf s = [] := by
    refine List.filter_eq_nil_iff.2 fun c hc => ?_
    simp [stwFailed, h c (List.mem_range.1 hc)]
  rw [State.reg, regs_coreReset, hnone]
  change (_ → (s.resetRegs (· = .core)).reg r i j = _) ∧ (_ → _ → (s.resetRegs (· = .core)).reg r i j = _)
  rw [reg_resetRegs s _ hr]
  exact ⟨fun hd => by simp [hd], fun hd _ => by simp [hd]⟩

theorem mode_coreReset : (coreReset s false pt).mode = s.mode := by
  have hvaux : (coreReset s false pt).vaux = s.vaux := by rw [(coreReset_eq s pt).1]
  have hcur := fld_coreReset s pt (f := Fld.MODE_CUR) (isReg_of_lt .MODE Nat.one_pos Nat.one_pos) (by decide)
  rw [State.mode, State.mode, hvaux, hcur]

end CoreReset

theorem DomainsReset.of_regsBut {s t u : State} {p : Dom → Prop} {l : List Nat} (h : DomainsReset t u p []) (hst : RegsBut s t l) :
    DomainsReset s u p l :=
  fun r i j hr => ⟨(h r i j hr).1, fun hp hl => ((h r i j hr).2 hp (List.not_mem_nil)).trans (hst _ _ hl)⟩

end Sys2Proof.Machine

namespace Sys2Proof.Machine

/-! SUPPORT. Forced transitions (R34), and the bookkeeping of a start: the counters in the Lehr SRAM and the records
(R462, R511, R523). -/

theorem preempt_step (s : State) : RegStep s (preempt s) [RegName.MODE_REQ.addr 0 0] := by
  unfold preempt
  split
  · exact (RegStep.refl s _).setFld Fld.MODE_REQ_STATUS 4 (by simp)
  · exact RegStep.refl s _

/-- The mode, and what of MODE a forced transition writes. -/
def Forced (s u : State) (m : Nat) : Prop := u.mode = m ∧ u.fld Fld.MODE_PREV = s.mode ∧ u.fld Fld.MODE_FORCED = 1

theorem setMode_preempt (s : State) {m : Nat} (hv : s.vaux = true) (hm : m < 8) (hne : m ≠ 1) :
    RegStep s (setMode (preempt s) m true) [RegName.MODE.addr 0 0, RegName.MODE_REQ.addr 0 0] ∧
      Forced s (setMode (preempt s) m true) m := by
  have hpre := preempt_step s
  have hvaux : (preempt s).vaux = true := by rw [hpre.1]; exact hv
  have hmode : (preempt s).mode = s.mode := hpre.mode (by decide)
  have hset : RegStep (preempt s) (setMode (preempt s) m true) [RegName.MODE.addr 0 0] := by
    refine ⟨?_, regsBut_setMode _ _ _⟩
    rw [setMode_eq]
    simp only [if_neg hne]
  obtain ⟨-, hprev, hforced, -⟩ := setMode_flds (preempt s) hm true
  exact ⟨(hpre.mono (by simp)).trans (hset.mono (by simp)), setMode_mode hvaux hm true, hprev.trans hmode, hforced⟩

/-- A forced transition to a mode other than LEHR stops a sweep and writes MODE and MODE_REQ. -/
theorem forceMode_step (s : State) {m : Nat} (hv : s.vaux = true) (hm : m < 8) (hne : m ≠ 1) :
    RegStep (stopSweep s) (forceMode s m) [RegName.MODE.addr 0 0, RegName.MODE_REQ.addr 0 0] ∧ Forced s (forceMode s m) m :=
  setMode_preempt (stopSweep s) hv hm hne

/-! ### The counters and the records -/

/-- The registers that a read or a write of a word of the Lehr SRAM may write, and START_CNT. -/
def cntRegs : List Nat :=
  [RegName.DIE_BKT_L.addr 0 0, RegName.DIE_INJ_L.addr 0 0, RegName.START_CNT.addr 0 0]

/-- `u` is `s` but for the registers of the start counters, error state, reports and interrupts. -/
def SramStep (s u : State) : Prop :=
  u = { s with regs := u.regs, integ := u.integ, fault := u.fault, irq := u.irq } ∧ RegsBut s u cntRegs

namespace SramStep

variable {s t u : State}

theorem refl (s : State) : SramStep s s := ⟨rfl, RegsBut.refl s _⟩

theorem trans (h : SramStep s t) (k : SramStep t u) : SramStep s u := by
  obtain ⟨ht, hregs⟩ := h
  obtain ⟨hu, hregs'⟩ := k
  exact ⟨by rw [hu, ht], hregs.trans hregs'⟩

theorem ofRegStep {l : List Nat} (h : RegStep s u l) (hl : l ⊆ cntRegs) : SramStep s u :=
  ⟨by rw [h.1], h.2.mono hl⟩

theorem setFld (h : SramStep s t) (f : Fld) (v : Nat) (hf : f.reg.addr 0 0 ∈ cntRegs) : SramStep s (t.setFld f v) :=
  h.trans (ofRegStep ((RegStep.refl t _).setFld f v hf) (List.Subset.refl _))

end SramStep

theorem sramStep_setMask (s : State) (st : Store) (unit w m : Nat) : SramStep s (setMask s st unit w m) :=
  ⟨rfl, fun _ _ _ => rfl⟩

theorem sramStep_setInj (s : State) (st : Store) (unit w : Nat) (b : Bool) : SramStep s (setInj s st unit w b) :=
  ⟨rfl, fun _ _ _ => rfl⟩

theorem sramStep_pageFresh (s : State) (st : Store) (unit w : Nat) : SramStep s (pageFresh s st unit w) :=
  ⟨rfl, fun _ _ _ => rfl⟩

theorem sramStep_irqSet (s : State) (n : Nat) : SramStep s (irqSet s n) := by
  unfold irqSet
  split
  · exact ⟨rfl, fun _ _ _ => rfl⟩
  · exact SramStep.refl s

theorem sramStep_raiseN (s : State) (code subject count : Nat) (inj : Bool) (dom : Dom) :
    SramStep s (raiseN s .inst code subject count inj dom) := ⟨rfl, fun _ _ _ => rfl⟩

theorem sramStep_bucket (s : State) (n : Nat) : SramStep s (bucket s .dieL n) := by
  unfold bucket bucketAdd
  dsimp only
  have hlevel : ∀ l, SramStep s (s.setFld Fld.DIE_BKT_L_LEVEL l) := fun l => (SramStep.refl s).setFld _ _ (by simp [cntRegs])
  by_cases hl : s.fld Fld.DIE_BKT_L_LEVEL 0 0 + n ≤ 16
  · simp only [if_pos hl, Bool.false_eq_true, if_false]
    exact hlevel _
  · simp only [if_neg hl]
    have hovf := (hlevel 16).setFld Fld.DIE_BKT_L_OVF 1 (by simp [cntRegs])
    split
    · exact (hovf.trans (sramStep_raiseN _ _ _ _ _ _)).trans (sramStep_irqSet _ _)
    · exact hovf

theorem sramStep_wordRead (s : State) (w : Nat) : SramStep s (wordRead s .lehr 0 w).1 := by
  unfold wordRead
  split
  · exact SramStep.refl s
  · split
    · split
      · exact SramStep.refl s
      · exact (sramStep_bucket s _).trans (sramStep_setMask _ _ _ _ _)
    · exact SramStep.refl s

/-- A word of the Lehr SRAM is read; the second part is the first word found uncorrectable. -/
def sramReadOne (a : State × Option Nat) (w : Nat) : State × Option Nat :=
  ((wordRead a.1 .lehr 0 w).1, if (wordRead a.1 .lehr 0 w).2.isNone && a.2.isNone then some w else a.2)

/-- The words that hold an error among `n` words of the Lehr SRAM. -/
def sramErrs (s : State) (lo n : Nat) : List Nat := (SMap.slice s.integ.mask (wordKey .lehr 0 lo) n).map (fun e => lo + e.1)

/-- The verdict of a read of words, with the report of an uncorrectable one. -/
def lehrVerdict (r : State × Option Nat) : State × Bool :=
  match r.2 with
  | some w => (raiseN r.1 .inst 0x60 0 1 (errInj r.1 .lehr 0 w) .lehr, false)
  | none => (r.1, true)

theorem lehrGood_cases (s : State) (lo n : Nat) :
    ∃ r, (sramErrs s lo n).foldl sramReadOne (s, none) = r ∧
      (r.2 = none ∧ lehrGood s lo n = (r.1, true) ∨
        ∃ w, r.2 = some w ∧ lehrGood s lo n = (raiseN r.1 .inst 0x60 0 1 (errInj r.1 .lehr 0 w) .lehr, false)) := by
  refine ⟨_, rfl, ?_⟩
  have hgood : lehrGood s lo n = lehrVerdict ((sramErrs s lo n).foldl sramReadOne (s, none)) := rfl
  rw [hgood]
  obtain ⟨t, _ | w⟩ := (sramErrs s lo n).foldl sramReadOne (s, none)
  · exact .inl ⟨rfl, rfl⟩
  · exact .inr ⟨w, rfl, rfl⟩

theorem sramStep_lehrGood (s : State) (lo n : Nat) : SramStep s (lehrGood s lo n).1 := by
  obtain ⟨r, hr, hgood⟩ := lehrGood_cases s lo n
  have hread : SramStep s r.1 := by
    rw [← hr]
    exact List.foldlRecOn (motive := fun a : State × Option Nat => SramStep s a.1) _ _ (SramStep.refl s) fun _ ha w _ => ha.trans (sramStep_wordRead _ w)
  obtain ⟨-, hgood⟩ | ⟨w, -, hgood⟩ := hgood
  · rw [hgood]
    exact hread
  · rw [hgood]
    exact hread.trans (sramStep_raiseN _ _ _ _ _ _)

theorem sramStep_countRead (s : State) : SramStep s (countRead s) := by
  unfold countRead
  have hgood := sramStep_lehrGood s cntWord 1
  dsimp only
  split
  · exact hgood
  · exact hgood.trans ⟨rfl, (regsBut_setReg _ .START_CNT 0 0 0).mono (by simp [cntRegs])⟩

theorem sramStep_wordWritten (s : State) (w : Nat) : SramStep s (wordWritten s .lehr 0 w) := by
  unfold wordWritten
  extract_lets t
  have ht : SramStep s t := by
    change SramStep s (ite _ _ _)
    split
    · exact sramStep_pageFresh s _ _ _
    · exact SramStep.refl s
  clear_value t
  have hset : ∀ (m : Nat) (b : Bool), SramStep s (setInj (setMask t .lehr 0 w m) .lehr 0 w b) :=
    fun m b => (ht.trans (sramStep_setMask _ _ _ _ _)).trans (sramStep_setInj _ _ _ _ _)
  dsimp only [Store.cls, injFlds]
  split
  · have hlast := fun m => (hset m true).setFld Fld.DIE_INJ_L_LAST w (by simp [cntRegs])
    split
    · exact (hlast _).setFld Fld.DIE_INJ_L_ARM 0 (by simp [cntRegs])
    · exact hlast _
  · exact hset _ _

theorem sramStep_lehrWrote (s : State) (ws : List Nat) : SramStep s (lehrWrote s ws) :=
  List.foldlRecOn (motive := SramStep s) _ _ (SramStep.refl s) fun _ ht w _ => ht.trans (sramStep_wordWritten _ w)

/-- A word of the Lehr SRAM without an error, while no injection is armed. -/
def CleanCount (s : State) : Prop := maskOf s .lehr 0 cntWord = 0 ∧ s.fld Fld.DIE_INJ_L_ARM = 0

theorem CleanCount.of_regsBut {s u : State} {l : List Nat} (h : CleanCount s) (hi : u.integ = s.integ) (hu : RegsBut s u l)
    (hl : RegName.DIE_INJ_L.addr 0 0 ∉ l) : CleanCount u := by
  obtain ⟨hmask, harm⟩ := h
  exact ⟨by rw [maskOf, hi]; exact hmask, (hu.fld Fld.DIE_INJ_L_ARM 0 0 hl).trans harm⟩

theorem countRead_clean {s : State} (h : CleanCount s) : countRead s = s := by
  have hword : wordRead s .lehr 0 cntWord = (s, some 0) := by rw [wordRead, if_pos h.1]
  have hread : (sramErrs s cntWord 1).foldl sramReadOne (s, none) = (s, none) := by
    refine List.foldlRecOn (motive := fun a => a = (s, none)) _ _ rfl fun a ha w hw => ?_
    obtain ⟨e, he, rfl⟩ := List.mem_map.1 hw
    obtain ⟨e', he', rfl⟩ := List.mem_map.1 he
    have hkey := (List.mem_filter.1 he').2
    simp only [Bool.and_eq_true, decide_eq_true_eq] at hkey
    have hfirst : cntWord + (e'.1 - wordKey .lehr 0 cntWord) = cntWord := by omega
    rw [ha]
    dsimp only
    rw [hfirst, sramReadOne, hword]
    rfl
  have hgood : lehrGood s cntWord 1 = (s, true) := by
    obtain ⟨r, hr, ⟨-, hgood⟩ | ⟨w, hbad, -⟩⟩ := lehrGood_cases s cntWord 1
    · rw [hgood, ← hr, hread]
    · rw [← hr, hread] at hbad
      cases hbad
  rw [countRead, hgood]
  rfl

theorem lehrWrote_clean {s : State} (h : CleanCount s) : lehrWrote s [cntWord] = { s with integ := (lehrWrote s [cntWord]).integ } := by
  obtain ⟨hmask, harm⟩ := h
  have hwrote : lehrWrote s [cntWord] = setInj (setMask s .lehr 0 cntWord 0) .lehr 0 cntWord false := by
    change wordWritten s .lehr 0 cntWord = _
    simp [wordWritten, hmask, Store.cls, injFlds, harm]
  rw [hwrote]
  rfl

/-- The registers that the end of a command writes besides. -/
def ledgerRegs : List Nat := cntRegs ++ [RegName.CMD_RES.addr 0 0, RegName.CMD_VAL.addr 0 0]

/-- `u` is `s` but for what the bookkeeping of a start writes: the counters, records, and a command that is aborted. -/
def LedgerStep (s u : State) : Prop :=
  u = { s with regs := u.regs, integ := u.integ, fault := u.fault, irq := u.irq, fb := u.fb, cmd := u.cmd } ∧
    RegsBut s u ledgerRegs

theorem LedgerStep.trans {s t u : State} (h : LedgerStep s t) (k : LedgerStep t u) : LedgerStep s u := by
  obtain ⟨ht, hregs⟩ := h
  obtain ⟨hu, hregs'⟩ := k
  exact ⟨by rw [hu, ht], hregs.trans hregs'⟩

theorem SramStep.ledger {s u : State} (h : SramStep s u) : LedgerStep s u :=
  ⟨by rw [h.1], h.2.mono (List.subset_append_left _ _)⟩

theorem ledgerStep_startRecord (s : State) (typ : Nat) (fs : List (Nat × Nat × Nat)) : LedgerStep s (startRecord s typ fs) :=
  ⟨rfl, fun _ _ _ => rfl⟩

theorem ledgerStep_fbClose (s : State) : LedgerStep s (fbClose s) := ⟨rfl, fun _ _ _ => rfl⟩

/-- An aborted command has its result, and its interrupt. -/
theorem cmdAbort_eq (s : State) :
    cmdAbort s = { s with regs := (cmdAbort s).regs, irq := (cmdAbort s).irq, cmd := (cmdAbort s).cmd } ∧
      RegsBut s (cmdAbort s) [RegName.CMD_RES.addr 0 0, RegName.CMD_VAL.addr 0 0] := by
  have hdone : RegStep s (((s.setFld Fld.CMD_RES_DONE 1).setFld Fld.CMD_RES_CODE 3).setFld Fld.CMD_VAL_VALUE 0)
      [RegName.CMD_RES.addr 0 0, RegName.CMD_VAL.addr 0 0] :=
    (((RegStep.refl s _).setFld Fld.CMD_RES_DONE 1 (by simp)).setFld Fld.CMD_RES_CODE 3 (by simp)).setFld Fld.CMD_VAL_VALUE 0
      (by simp)
  unfold cmdAbort
  split
  · unfold cmdEnd cmdDone
    generalize ((s.setFld Fld.CMD_RES_DONE 1).setFld Fld.CMD_RES_CODE 3).setFld Fld.CMD_VAL_VALUE 0 = t at hdone
    obtain ⟨ht, hregs⟩ := hdone
    unfold irqSet
    split
    · exact ⟨by rw [ht], hregs⟩
    · exact ⟨by rw [ht], hregs⟩
  · exact ⟨rfl, RegsBut.refl s _⟩

theorem ledgerStep_cmdAbort (s : State) : LedgerStep s (cmdAbort s) := by
  obtain ⟨hs, hregs⟩ := cmdAbort_eq s
  exact ⟨by rw [hs], hregs.mono (List.subset_append_right _ _)⟩

theorem sramStep_countFail (s : State) (cold : Bool) : SramStep s (countFail s cold) := by
  unfold countFail
  have hread := sramStep_countRead s
  cases cold
  · exact (hread.setFld Fld.START_CNT_WARM_FAIL _ (by simp [cntRegs])).trans (sramStep_lehrWrote _ _)
  · exact (hread.setFld Fld.START_CNT_COLD_FAIL _ (by simp [cntRegs])).trans (sramStep_lehrWrote _ _)

theorem regStep_addFld (s : State) (f : Fld) (n : Nat) : RegStep s (s.addFld f n) [f.reg.addr 0 0] :=
  ⟨rfl, regsBut_addFld s f n 0 0⟩

/-- A counter stays at its highest value. -/
theorem fld_addFld_counter (s : State) {f : Fld} (hf : f.hi < 64) (n : Nat) :
    (s.addFld f n).fld f = min (s.fld f + n) (2 ^ (f.hi + 1 - f.lo) - 1) := by
  refine (fld_setFld_same s f _ 0 0 hf).trans (Nat.mod_eq_of_lt (lt_of_le_of_lt (Nat.min_le_right _ _) ?_))
  exact Nat.sub_lt (Nat.two_pow_pos _) Nat.one_pos

/-- The bookkeeping of a start that begins (R511, R523). -/
def startCounted (s : State) (kind : Nat) : State :=
  let t := lehrWrote ((countRead (cmdAbort (fbClose s))).addFld Fld.START_CNT_STARTS 1) [cntWord]
  startRecord t 0x54 [(kind, 8, 2), (t.fld Fld.START_CNT_COLD_FAIL, 10, 2), (t.fld Fld.START_CNT_WARM_FAIL, 12, 2)]

theorem ledgerStep_startCounted (s : State) (kind : Nat) : LedgerStep s (startCounted s kind) := by
  have hclosed := (ledgerStep_fbClose s).trans (ledgerStep_cmdAbort _)
  have hstarts := SramStep.ofRegStep (regStep_addFld (countRead (cmdAbort (fbClose s))) Fld.START_CNT_STARTS 1)
    (by simp [cntRegs])
  have hcount := (((sramStep_countRead (cmdAbort (fbClose s))).trans hstarts).trans (sramStep_lehrWrote _ [cntWord])).ledger
  exact (hclosed.trans hcount).trans (ledgerStep_startRecord _ _ _)

/-- The same where the word of the counters has no error. -/
theorem startCounted_clean {s : State} (h : CleanCount s) (kind : Nat) :
    let u := startCounted s kind
    u = { s with regs := u.regs, integ := u.integ, irq := u.irq, fb := u.fb, cmd := u.cmd } ∧
    RegsBut s u [RegName.START_CNT.addr 0 0, RegName.CMD_RES.addr 0 0, RegName.CMD_VAL.addr 0 0] ∧
    u.fld Fld.START_CNT_STARTS = min (s.fld Fld.START_CNT_STARTS + 1) 65535 ∧ u.fb.msgs.length = s.fb.msgs.length + 1 := by
  obtain ⟨habort, hregs⟩ := cmdAbort_eq (fbClose s)
  have hclean : CleanCount (cmdAbort (fbClose s)) :=
    h.of_regsBut (by rw [habort]; rfl) (u := cmdAbort (fbClose s)) (l := [RegName.CMD_RES.addr 0 0, RegName.CMD_VAL.addr 0 0])
      (fun d k hk => hregs d k hk) (by decide)
  have hbefore : (cmdAbort (fbClose s)).fld Fld.START_CNT_STARTS = s.fld Fld.START_CNT_STARTS := hregs.fld _ 0 0 (by decide)
  have hvalue := fld_addFld_counter (cmdAbort (fbClose s)) (f := Fld.START_CNT_STARTS) (by decide) 1
  obtain ⟨hadd, hregs'⟩ := regStep_addFld (cmdAbort (fbClose s)) Fld.START_CNT_STARTS 1
  rw [hbefore] at hvalue
  unfold startCounted
  rw [countRead_clean hclean]
  generalize (cmdAbort (fbClose s)).addFld Fld.START_CNT_STARTS 1 = a at hvalue hadd hregs'
  have hwrote := lehrWrote_clean (hclean.of_regsBut (u := a) (by rw [hadd]) hregs' (by decide))
  have hcmd : RegsBut s (cmdAbort (fbClose s)) [RegName.CMD_RES.addr 0 0, RegName.CMD_VAL.addr 0 0] :=
    fun d k hk => hregs d k hk
  generalize cmdAbort (fbClose s) = c at habort hadd hregs' hcmd
  dsimp only
  rw [hwrote]
  refine ⟨?_, fun d k hk => ?_, hvalue, ?_⟩
  · rw [hadd, habort]
    rfl
  · exact ((hcmd.mono (by simp)).trans (hregs'.mono (by simp))) d k hk
  · rw [hadd, habort]
    exact List.length_append

end Sys2Proof.Machine

namespace Sys2Proof.Machine

/-! SUPPORT. A reset of PORT with CORE, and a start that a reset fails (R26, R511). -/

/-- A reset of PORT and CORE, field by field. -/
theorem portReset_eq (s : State) :
    let u := portReset s
    u = { s with
      regs := ((coreReset s false 0).resetRegs (fun d => d = .port ∨ d = .cold ∨ d = .core)).regs, hiLatch := u.hiLatch
      wrHold := u.wrHold, port := { port0 with fp := u.port.fp }, portUp := false, coreUp := false, sleepReady := false
      work := [], frzReq := 0, walks := [], conf := [], shadow := ⟨[], [], []⟩, sl := slice0, cab := ⟨[], [], [], 0⟩
      mem := u.mem, integ := u.integ, stw := ⟨[], []⟩, hutch := [], nq := nq0, irq := ⟨[], []⟩, govCap := 0, govBg := 0
      fault := u.fault, pt := u.pt, agt := [], start := { s.start with boot := boot0, resil := u.start.resil } } := by
  intro u
  have hu : u = portReset s := rfl
  clear_value u
  unfold portReset at hu
  extract_lets core down at hu
  obtain ⟨R, H, W, P, C, D, M, I, F, T, L, hcore⟩ : ∃ R H W P C D M I F T L, core = { s with
      regs := R, hiLatch := H, wrHold := W, port := P, coreUp := false, sleepReady := false, work := [], frzReq := 0
      walks := [], conf := C, shadow := ⟨[], [], []⟩, sl := slice0, cab := { s.cab with dr := D }, mem := M, integ := I
      stw := { thr := [], lmem := s.stw.lmem }, hutch := [], nq := nq0, irq := ⟨[], []⟩, govCap := 0, govBg := 0
      fault := F, pt := T, start := { s.start with boot := boot0, resil := L } } :=
    ⟨_, _, _, _, _, _, _, _, _, _, _, (coreReset_eq s 0).1⟩
  obtain ⟨R', H', W', hdown⟩ : ∃ R' H' W', down = { core with regs := R', hiLatch := H', wrHold := W' } := ⟨_, _, _, rfl⟩
  have hregs : (coreReset s false 0).resetRegs (fun d => d = .port ∨ d = .cold ∨ d = .core) = down := rfl
  rw [hregs]
  clear hregs
  clear_value down core
  subst hcore hdown hu
  rfl

section PortReset

variable (s : State)

theorem regs_portReset : (portReset s).regs =
    ((coreReset s false 0).resetRegs (fun d => d = .port ∨ d = .cold ∨ d = .core)).regs := by
  rw [portReset_eq s]

theorem reg_portReset {r : RegName} {i j : Nat} (h : IsReg r i j) :
    (portReset s).reg r i j = if r.desc.dom = .lehr then s.reg r i j else r.resetWord i j := by
  rw [State.reg, regs_portReset, ← State.reg, reg_resetRegs _ _ h]
  cases hd : r.desc.dom
  case lehr => simp [reg_coreReset s 0 h (by rw [hd]; decide)]
  all_goals simp

theorem fld_portReset {f : Fld} {i j : Nat} (h : IsReg f.reg i j) (hd : f.reg.desc.dom = .lehr) :
    (portReset s).fld f i j = s.fld f i j := by
  rw [State.fld, reg_portReset s h, if_pos hd]
  rfl

theorem domainsReset_portReset : DomainsReset s (portReset s) (· ≠ .lehr) [] := by
  intro r i j hr
  rw [reg_portReset s hr]
  exact ⟨fun hd => if_neg hd, fun hd _ => if_pos (not_not.1 hd)⟩

theorem mode_portReset : (portReset s).mode = s.mode := by
  have hvaux : (portReset s).vaux = s.vaux := by rw [portReset_eq s]
  have hcur := fld_portReset s (f := Fld.MODE_CUR) (isReg_of_lt .MODE Nat.one_pos Nat.one_pos) rfl
  rw [State.mode, State.mode, hvaux, hcur]

end PortReset

/-! ### A start that a reset fails -/

theorem startFail_idle {s : State} (h : s.start.run = none) (code : Nat) : startFail s code = s := by
  rw [startFail, h]

/-- The record and the counter of a start that fails. -/
def failCounted (s : State) (r : StartRun) (code : Nat) : State :=
  countFail (setRun (startRecord (s.setFld Fld.START_STATUS_CODE code) 0x55
    [(r.kind, 8, 2), (s.fld Fld.START_STATUS_STEP, 10, 4), (code, 14, 4)]) none) (r.kind = 0)

/-- SLEEP_STATUS is clear, and in LEHR nothing is held in retention. -/
def failAsleep (s : State) : State :=
  (if s.mode = 1 then s.setFld Fld.MODE_RETAINED 0 else s).setFld Fld.SLEEP_STATUS_STATE 0

/-- A start that a reset fails: its domains are reset, and no start follows. -/
theorem startFail_reset {s : State} {r : StartRun} (h : s.start.run = some r) :
    let t := failAsleep (failCounted s r 8)
    let e := if r.kind = 0 then portReset t else coreReset t false 1
    startFail s 8 = { e with start := { e.start with
      retry := none, retryAt := e.lehrNow + max 1 (e.fld Fld.START_CTL_RETRY_DLY) * 1000000 } } := by
  intro t e
  rw [startFail, h]
  dsimp -zeta only
  extract_lets cold recorded counted moded retained asleep down before done
  have hcounted : counted = failCounted s r 8 := rfl
  have hmoded : moded = counted := if_pos (.inl rfl)
  have hasleep : asleep = failAsleep moded := rfl
  have hdown : down = if r.kind = 0 then portReset asleep else coreReset asleep false 1 := rfl
  have hdone : done = { down with start := { down.start with
    retry := none, retryAt := down.lehrNow + max 1 (down.fld Fld.START_CTL_RETRY_DLY) * 1000000 } } := rfl
  have hsame : down = e := by rw [hdown, hasleep, hmoded, hcounted]
  have hlast : ¬ (cold ∧ 8 ≠ 8 ∧ done.start.retry = none) := fun hx => hx.2.1 rfl
  rw [if_neg hlast, hdone, hsame]

/-- What of a state a start that a reset fails keeps, and where it leaves START_STATUS. -/
structure ResetFailed (s u : State) : Prop where
  vaux : u.vaux = s.vaux
  coldRst : u.coldRst = s.coldRst
  warmRst : u.warmRst = s.warmRst
  run : u.start.run = none
  mode : u.mode = s.mode
  code : u.fld Fld.START_STATUS_CODE = 8

theorem ResetFailed.of_frame {s t u : State} (h : ResetFailed s t) (hv : u.vaux = t.vaux) (hc : u.coldRst = t.coldRst)
    (hw : u.warmRst = t.warmRst) (hr : u.start.run = t.start.run) (hm : u.mode = t.mode)
    (hcode : u.fld Fld.START_STATUS_CODE = t.fld Fld.START_STATUS_CODE) : ResetFailed s u :=
  ⟨hv.trans h.vaux, hc.trans h.coldRst, hw.trans h.warmRst, hr.trans h.run, hm.trans h.mode, hcode.trans h.code⟩

theorem resetFailed_failCounted (s : State) (r : StartRun) : ResetFailed s (failCounted s r 8) := by
  have hbase : ResetFailed s (setRun (startRecord (s.setFld Fld.START_STATUS_CODE 8) 0x55
      [(r.kind, 8, 2), (s.fld Fld.START_STATUS_STEP, 10, 4), (8, 14, 4)]) none) := by
    have hstep := (RegStep.refl s [RegName.START_STATUS.addr 0 0]).setFld Fld.START_STATUS_CODE 8 (i := 0) (j := 0) (by simp)
    exact ⟨rfl, rfl, rfl, rfl, hstep.mode (by decide), fld_setFld_same s Fld.START_STATUS_CODE 8 0 0 (by decide)⟩
  unfold failCounted
  generalize setRun (startRecord (s.setFld Fld.START_STATUS_CODE 8) 0x55
      [(r.kind, 8, 2), (s.fld Fld.START_STATUS_STEP, 10, 4), (8, 14, 4)]) none = base at hbase ⊢
  obtain ⟨hs, hregs⟩ := sramStep_countFail base (r.kind = 0)
  have hvaux : (countFail base (r.kind = 0)).vaux = base.vaux := by rw [hs]
  refine hbase.of_frame hvaux (by rw [hs]) (by rw [hs]) (by rw [hs]) ?_ (hregs.fld _ 0 0 (by decide))
  rw [State.mode, State.mode, hregs.fld Fld.MODE_CUR 0 0 (by decide), hvaux]

theorem mode_setRetained (s : State) (v : Nat) : (s.setFld Fld.MODE_RETAINED v).mode = s.mode := by
  have hcur := fld_setFld_disj s Fld.MODE_RETAINED Fld.MODE_CUR v 0 0 rfl (by decide)
  rw [State.mode, State.mode, hcur]
  rfl

theorem failAsleep_step (s : State) :
    RegStep s (failAsleep s) [RegName.MODE.addr 0 0, RegName.SLEEP_STATUS.addr 0 0] ∧ (failAsleep s).mode = s.mode := by
  have hretained : RegStep s (s.setFld Fld.MODE_RETAINED 0) [RegName.MODE.addr 0 0, RegName.SLEEP_STATUS.addr 0 0] :=
    (RegStep.refl s _).setFld Fld.MODE_RETAINED 0 (by simp)
  have hasleep : ∀ t : State, (t.setFld Fld.SLEEP_STATUS_STATE 0).mode = t.mode := fun t =>
    ((RegStep.refl t [RegName.SLEEP_STATUS.addr 0 0]).setFld Fld.SLEEP_STATUS_STATE 0 (i := 0) (j := 0) (by simp)).mode (by decide)
  unfold failAsleep
  split
  · refine ⟨hretained.setFld _ _ (by simp), (hasleep _).trans ?_⟩
    exact mode_setRetained s 0
  · exact ⟨(RegStep.refl s _).setFld _ _ (by simp), hasleep s⟩

theorem resetFailed_startFail {s : State} {r : StartRun} (h : s.start.run = some r) : ResetFailed s (startFail s 8) := by
  obtain ⟨⟨ht, hregs⟩, hmode⟩ := failAsleep_step (failCounted s r 8)
  have hfailed := startFail_reset h
  dsimp only at hfailed
  have hasleep : ResetFailed s (failAsleep (failCounted s r 8)) :=
    (resetFailed_failCounted s r).of_frame (by rw [ht]) (by rw [ht]) (by rw [ht]) (by rw [ht]) hmode (hregs.fld _ 0 0 (by decide))
  generalize failAsleep (failCounted s r 8) = t at hasleep hfailed
  have hdown : ResetFailed s (if r.kind = 0 then portReset t else coreReset t false 1) := by
    have hstart : IsReg .START_STATUS 0 0 := isReg_of_lt .START_STATUS Nat.one_pos Nat.one_pos
    split
    · have hp := portReset_eq t
      dsimp only at hp
      exact hasleep.of_frame (by rw [hp]) (by rw [hp]) (by rw [hp]) (by rw [hp]) (mode_portReset t) (fld_portReset t hstart rfl)
    · have hc := (coreReset_eq t 1).1
      dsimp only at hc
      exact hasleep.of_frame (by rw [hc]) (by rw [hc]) (by rw [hc]) (by rw [hc]) (mode_coreReset t 1)
        (fld_coreReset t 1 hstart (by decide))
  rw [hfailed]
  exact hdown.of_frame rfl rfl rfl rfl rfl rfl

end Sys2Proof.Machine

namespace Sys2Proof.Machine

/-! SUPPORT. The begin of a start (R506, R507), in parts. -/

/-- PORT and CORE are out of reset and CORE's time base has loaded from the copy. -/
def startAwake (s : State) : State :=
  { s with portUp := true, coreUp := true, now := s.lehrNow, sleepReady := false
           start := { s.start with retry := none, boot := { boot0 with fifo := s.start.boot.fifo } }
           pt := { s.pt with heard := [], lost := [], first := false, badRun := 0 } }

/-- The start in progress, at step 1. -/
def startRun1 (s : State) (kind : Nat) (test : SelfTest) : StartRun := ⟨kind, s.lehrNow, stepLimit s, 0, [], [], test⟩

/-- The start is in progress, and START_STATUS shows it. -/
def startNoted (s : State) (kind : Nat) (test : SelfTest) : State :=
  (((setRun s (some (startRun1 s kind test))).setFld Fld.START_STATUS_KIND kind).setFld Fld.START_STATUS_STEP 1).setFld
    Fld.START_STATUS_CODE 0

/-- The start has begun and is counted. -/
def startShown (s : State) (kind : Nat) (test : SelfTest) : State := startCounted (startNoted s kind test) kind

theorem startNoted_step (s : State) (kind : Nat) (test : SelfTest) :
    RegStep (setRun s (some (startRun1 s kind test))) (startNoted s kind test) [RegName.START_STATUS.addr 0 0] :=
  (((RegStep.refl _ _).setFld Fld.START_STATUS_KIND kind (by simp)).setFld Fld.START_STATUS_STEP 1 (by simp)).setFld
    Fld.START_STATUS_CODE 0 (by simp)

theorem startNoted_flds (s : State) {kind : Nat} (hk : kind < 4) (test : SelfTest) :
    (startNoted s kind test).fld Fld.START_STATUS_KIND = kind ∧ (startNoted s kind test).fld Fld.START_STATUS_CODE = 0 := by
  unfold startNoted
  simp (disch := decide) only [fld_setFld_disj, fld_setFld_same]
  exact ⟨Nat.mod_eq_of_lt hk, rfl⟩

/-- What the begin of a start has written once it is counted. -/
structure StartShown (s u : State) (kind : Nat) (test : SelfTest) : Prop where
  frame : u = { setRun s (some (startRun1 s kind test)) with
    regs := u.regs, integ := u.integ, fault := u.fault, irq := u.irq, fb := u.fb, cmd := u.cmd }
  regs : RegsBut s u (RegName.START_STATUS.addr 0 0 :: ledgerRegs)
  kindIs : u.fld Fld.START_STATUS_KIND = kind
  code : u.fld Fld.START_STATUS_CODE = 0

/-- What it has not written where the word of the counters has no error. -/
structure StartClean (s u : State) : Prop where
  fault : u.fault = s.fault
  regs : RegsBut s u [RegName.START_STATUS.addr 0 0, RegName.START_CNT.addr 0 0, RegName.CMD_RES.addr 0 0,
    RegName.CMD_VAL.addr 0 0]
  starts : u.fld Fld.START_CNT_STARTS = min (s.fld Fld.START_CNT_STARTS + 1) 65535
  msgs : u.fb.msgs.length = s.fb.msgs.length + 1

theorem startShown_spec (s : State) {kind : Nat} (hk : kind < 4) (test : SelfTest) :
    StartShown s (startShown s kind test) kind test ∧ (CleanCount s → StartClean s (startShown s kind test)) := by
  obtain ⟨hnoted, hregs⟩ := startNoted_step s kind test
  obtain ⟨hkind, hcode⟩ := startNoted_flds s hk test
  have hledger := ledgerStep_startCounted (startNoted s kind test) kind
  have hclean := startCounted_clean (s := startNoted s kind test) (kind := kind)
  have hregs' : RegsBut s (startNoted s kind test) [RegName.START_STATUS.addr 0 0] := fun d k hk => hregs d k hk
  unfold startShown
  generalize startNoted s kind test = n at hnoted hkind hcode hledger hclean hregs'
  obtain ⟨hu, hwritten⟩ := hledger
  refine ⟨⟨?_, (hregs'.mono (by simp)).trans (hwritten.mono (by simp)), ?_, ?_⟩, fun h => ?_⟩
  · rw [hu, hnoted]
  · exact (hwritten.fld _ 0 0 (by decide)).trans hkind
  · exact (hwritten.fld _ 0 0 (by decide)).trans hcode
  · obtain ⟨hu', hfew, hstarts, hmsgs⟩ := hclean (h.of_regsBut (u := n) (by rw [hnoted]; rfl) hregs' (by decide))
    have hbefore : n.fld Fld.START_CNT_STARTS = s.fld Fld.START_CNT_STARTS := hregs'.fld _ 0 0 (by decide)
    rw [hbefore] at hstarts
    refine ⟨?_, (hregs'.mono (by simp)).trans (hfew.mono (by simp)), hstarts, ?_⟩
    · rw [hu', hnoted]
      rfl
    · rw [hmsgs, hnoted]
      rfl

theorem toStep_of_run {s : State} {r : StartRun} (h : s.start.run = some r) (k : Nat) :
    toStep s k = setRun (s.setFld Fld.START_STATUS_STEP k) (some { r with limit := stepLimit s }) := by
  rw [toStep, h]

theorem enterMode_same {s : State} {m : Nat} (h : s.mode = m) : enterMode s m = s := if_pos h

theorem enterMode_step {s : State} (hv : s.vaux = true) {m : Nat} (hm : m < 8) (hne : m ≠ 1) :
    RegStep s (enterMode s m) [RegName.MODE.addr 0 0, RegName.MODE_REQ.addr 0 0] ∧ (enterMode s m).mode = m := by
  unfold enterMode
  split
  · next h => exact ⟨RegStep.refl s _, h⟩
  · obtain ⟨hstep, hforced⟩ := setMode_preempt s hv hm hne
    exact ⟨hstep, hforced.1⟩

theorem planPoll_eq (s : State) : planPoll s = { s with lehr := (planPoll s).lehr } := by
  unfold planPoll
  split <;> rfl

/-- The program of a warm start whose self-check is passed: it replays after its step 2 (R507). -/
theorem startBegin_warm {s : State} {test : SelfTest}
    (h : (startShown (shadowStream (startAwake s)) 1 test).fld Fld.LEHR_STATUS_SELFCHK ≠ 0) :
    let w := toStep (enterMode (planPoll (startShown (shadowStream (startAwake s)) 1 test)) 3) 2
    startBegin s 1 test = { w with port := { w.port with replay := [], replaying := true } } := by
  intro w
  have hshown : startBegin s 1 test =
      if (startShown (shadowStream (startAwake s)) 1 test).fld Fld.LEHR_STATUS_SELFCHK = 0
      then startFail (startShown (shadowStream (startAwake s)) 1 test) 1
      else { w with port := { w.port with replay := [], replaying := true } } := rfl
  rw [hshown, if_neg h]

/-- A step of the start in progress shows in START_STATUS, and keeps what has been written of it. -/
theorem toStep_flds (s : State) {r : StartRun} (h : s.start.run = some r) :
    (toStep s 2).fld Fld.START_STATUS_STEP = 2 ∧
    (toStep s 2).fld Fld.START_STATUS_KIND = s.fld Fld.START_STATUS_KIND ∧
    (toStep s 2).fld Fld.START_STATUS_CODE = s.fld Fld.START_STATUS_CODE ∧
    RegsBut s (toStep s 2) [RegName.START_STATUS.addr 0 0] ∧
    toStep s 2 = { s with
      regs := (toStep s 2).regs, start := { s.start with run := some { r with limit := stepLimit s } } } := by
  have hstep := (RegStep.refl s [RegName.START_STATUS.addr 0 0]).setFld Fld.START_STATUS_STEP 2 (i := 0) (j := 0) (by simp)
  have hsame := fld_setFld_same s Fld.START_STATUS_STEP 2 0 0 (by decide)
  have hkind := fld_setFld_disj s Fld.START_STATUS_STEP Fld.START_STATUS_KIND 2 0 0 rfl (by decide)
  have hcode := fld_setFld_disj s Fld.START_STATUS_STEP Fld.START_STATUS_CODE 2 0 0 rfl (by decide)
  rw [toStep_of_run h]
  generalize s.setFld Fld.START_STATUS_STEP 2 = t at hstep hsame hkind hcode
  exact ⟨hsame, hkind, hcode, fun d k hk => hstep.2 d k hk, by rw [hstep.1]; rfl⟩

theorem StartClean.trans {s t u : State} (h : StartClean s t) (hf : u.fault = t.fault) (hfb : u.fb = t.fb)
    (hr : RegsBut t u [RegName.START_STATUS.addr 0 0]) : StartClean s u :=
  ⟨hf.trans h.fault, h.regs.trans (hr.mono (by simp)), (hr.fld _ 0 0 (by decide)).trans h.starts, by rw [hfb, h.msgs]⟩

/-- A start in progress after its step 1, as the statements write it. -/
def RunBegun (s u : State) (kind : Nat) (test : SelfTest) : Prop :=
  ∃ r, u.start.run = some r ∧ r.kind = kind ∧ r.began = s.lehrNow ∧ r.test = test

/-- The begin of a warm start. -/
theorem startBegin_effect_of_warm {s : State} (hv : s.vaux = true) (hm : s.mode = 3) (hself : s.fld Fld.LEHR_STATUS_SELFCHK = 1)
    (test : SelfTest) :
    let u := startBegin s 1 test
    u = { s with
      portUp := true, coreUp := true, now := s.lehrNow, sleepReady := false, start := u.start, pt := u.pt, regs := u.regs
      cmd := u.cmd, irq := u.irq, fb := u.fb, fault := u.fault, integ := u.integ, lehr := u.lehr, shadow := u.shadow
      port := { s.port with replay := [], replaying := true } } ∧
    RegsBut s u (RegName.START_STATUS.addr 0 0 :: ledgerRegs) ∧ u.fld Fld.START_STATUS_STEP = 2 ∧
    u.fld Fld.START_STATUS_KIND = 1 ∧ u.fld Fld.START_STATUS_CODE = 0 ∧ RunBegun s u 1 test ∧ (CleanCount s → StartClean s u) := by
  have hwarm := startBegin_warm (s := s) (test := test)
  obtain ⟨hshown, hclean⟩ := startShown_spec (shadowStream (startAwake s)) (kind := 1) (by decide) test
  generalize startShown (shadowStream (startAwake s)) 1 test = t at hwarm hshown hclean
  have hregs : RegsBut s t (RegName.START_STATUS.addr 0 0 :: ledgerRegs) := fun d k hk => hshown.regs d k hk
  have hclean' : CleanCount s → StartClean s t := fun h =>
    ⟨(hclean h).fault, fun d k hk => (hclean h).regs d k hk, (hclean h).starts, (hclean h).msgs⟩
  have hselfchk : t.fld Fld.LEHR_STATUS_SELFCHK ≠ 0 := by
    rw [hregs.fld Fld.LEHR_STATUS_SELFCHK 0 0 (by decide), hself]
    exact one_ne_zero
  have hmode : (planPoll t).mode = 3 := by
    have hcur : t.fld Fld.MODE_CUR = s.fld Fld.MODE_CUR := hregs.fld Fld.MODE_CUR 0 0 (by decide)
    have hvaux : t.vaux = true := by rw [hshown.frame]; exact hv
    have ht : t.mode = 3 := by rw [mode_eq_fld hvaux, hcur, ← mode_eq_fld hv, hm]
    rw [planPoll_eq]
    exact ht
  have hrun : (planPoll t).start.run = some (startRun1 (shadowStream (startAwake s)) 1 test) := by
    rw [planPoll_eq, hshown.frame]
    rfl
  have hwarm' := hwarm hselfchk
  dsimp only at hwarm' ⊢
  rw [enterMode_same hmode] at hwarm'
  obtain ⟨hstep, hkind, hcode, hregs', hw⟩ := toStep_flds (planPoll t) hrun
  have hplan := planPoll_eq t
  have hplanned : (planPoll t).regs = t.regs := by rw [hplan]
  have hwritten : RegsBut t (toStep (planPoll t) 2) [RegName.START_STATUS.addr 0 0] :=
    fun d k hk => (hregs' d k hk).trans (by rw [hplanned])
  rw [fld_congr hplanned] at hkind hcode
  rw [hwarm']
  generalize toStep (planPoll t) 2 = w at *
  generalize planPoll t = q at *
  have hframe := hshown.frame
  refine ⟨?_, fun d k hk => (hregs.trans (hwritten.mono (by simp))) d k hk, hstep, hkind.trans hshown.kindIs,
    hcode.trans hshown.code, ⟨{ startRun1 (shadowStream (startAwake s)) 1 test with limit := stepLimit q }, ?_, rfl, rfl, rfl⟩,
    fun h => (hclean' h).trans ?_ ?_ fun d k hk => hwritten d k hk⟩
  · rw [hw, hplan, hframe]
    rfl
  · rw [hw]
  · rw [hw, hplan]
  · rw [hw, hplan]

end Sys2Proof.Machine

namespace Sys2Proof.Machine

/-! The statement about a warm reset (R26, R46, R513). -/

section WarmReset

variable {s : State}

theorem warmAssert_idle (h : s.vaux = false ∨ s.warmRst = true) : warmAssert s = s := by
  have hskip : ¬ s.vaux ∨ s.warmRst := by simpa using h
  rw [warmAssert, if_pos (by simpa using hskip)]

/-- The pin is asserted. -/
def warmPin (s : State) (b : Bool) : State := { s with warmRst := b }

theorem warmAssert_cases (hv : s.vaux = true) (hw : s.warmRst = false) :
    warmAssert s = if s.mode < 3 then (warmPin s true).setFld Fld.PIN_STATUS_WARM_IGN 1
      else if s.coldRst then warmPin s true
      else coreReset (forceMode (startFail (warmPin s true) 8) 3) false 1 := by
  have hskip : ¬ (! s.vaux ∨ s.warmRst) := by simp [hv, hw]
  rw [warmAssert, if_neg hskip]
  rfl

theorem completes_warmAssert (hdft : s.dft = false) {P : State → Prop} (h : P (warmAssert (Begun s))) :
    Completes .warmResetAssert s P := completes_run warmAssert rfl hdft h

/-- What a hold slot waits for after a reset of CORE. -/
theorem holdE_coreReset (s : State) (pt k : Nat) (h : (s.holdE k).used = true) :
    (coreReset s false pt).holdE k = { s.holdE k with
      wait := if (s.holdE k).wait = .binding ∨ (s.holdE k).wait = .behind then (s.holdE k).wait else .parked } := by
  obtain ⟨-, -, -, hhold⟩ := coreReset_eq s pt
  have hread := SMap.getD_map_value (fun _ => hold0) s.port.hold (fun e => if e.used then parkHold e else e) k rfl
  have hpark : ∀ v : HoldSlot, parkHold v = { v with wait := if v.wait = .binding ∨ v.wait = .behind then v.wait else .parked } := by
    intro v
    obtain ⟨_, _, _, _, _, _, _, wait, _⟩ := v
    cases wait <;> rfl
  rw [State.holdE, hhold]
  exact hread.trans ((if_pos h).trans (hpark _))

/-- A warm reset that is honoured, with no start in progress. -/
theorem warmReset_effect (hv : s.vaux = true) (hw : s.warmRst = false) (hc : s.coldRst = false) (hm : 3 ≤ s.mode)
    (hrun : s.start.run = none) :
    let u := warmAssert (Begun s)
    u.warmRst = true ∧ u.mode = 3 ∧ u.fld Fld.MODE_FORCED = 1 ∧ u.fld Fld.MODE_PREV = s.mode ∧ u.coreUp = false ∧
    u.portUp = s.portUp ∧ u.agt = s.agt ∧ u.cab.words = s.cab.words ∧ u.cab.spare = s.cab.spare ∧ u.port.recs = s.port.recs ∧
    u.stw = { s.stw with thr := [] } ∧ u.hutch = [] ∧ u.nq = nq0 ∧ u.irq = ⟨[], []⟩ ∧ u.sl = slice0 ∧ u.repair = s.repair ∧
    u.lehr = s.lehr ∧ (∀ c, c < 16 → u.fld Fld.STW_STATUS_FAILED c = s.fld Fld.STW_STATUS_FAILED c) ∧
    u.now = s.now ∧ u.lehrNow = s.lehrNow ∧ u.walks = [] ∧ u.port.notices = [] ∧
    (∀ k, (s.holdE k).used = true → u.holdE k = { s.holdE k with
      wait := if (s.holdE k).wait = .binding ∨ (s.holdE k).wait = .behind then (s.holdE k).wait else .parked }) ∧
    ((∀ c, c < 16 → s.fld Fld.STW_STATUS_FAILED c = 0) →
      DomainsReset s u (· = .core) [RegName.MODE.addr 0 0, RegName.MODE_REQ.addr 0 0]) := by
  have hassert : warmAssert (Begun s) = coreReset (forceMode (warmPin (Begun s) true) 3) false 1 := by
    have hawake : ¬ (Begun s).mode < 3 := Nat.not_lt.2 hm
    have hwarm : ¬ (Begun s).coldRst = true := fun h => Bool.false_ne_true (hc.symm.trans h)
    rw [warmAssert_cases (s := Begun s) hv hw, if_neg hawake, if_neg hwarm, startFail_idle (s := warmPin (Begun s) true) hrun]
  obtain ⟨⟨hf, hregs⟩, hmode, hprev, hforced⟩ := forceMode_step (warmPin (Begun s) true) (m := 3) hv (by decide) (by decide)
  have hregs' : RegsBut s (forceMode (warmPin (Begun s) true) 3) [RegName.MODE.addr 0 0, RegName.MODE_REQ.addr 0 0] :=
    fun d k hk => hregs d k hk
  dsimp only
  rw [hassert]
  generalize forceMode (warmPin (Begun s) true) 3 = t at hf hregs' hmode hprev hforced
  have hfailed : ∀ c, t.fld Fld.STW_STATUS_FAILED c = s.fld Fld.STW_STATUS_FAILED c := fun c =>
    hregs'.fld _ c 0 (by simp only [RegName.addr, RegName.desc, List.mem_cons, List.not_mem_nil, or_false]; omega)
  obtain ⟨hreset, hrecs, hnotices, -⟩ := coreReset_eq t 1
  have hforced' := (fld_coreReset t 1 (f := Fld.MODE_FORCED) (isReg_of_lt .MODE Nat.one_pos Nat.one_pos) (by decide)).trans hforced
  have hprev' := (fld_coreReset t 1 (f := Fld.MODE_PREV) (isReg_of_lt .MODE Nat.one_pos Nat.one_pos) (by decide)).trans hprev
  have hrecs' : (coreReset t false 1).port.recs = s.port.recs := by rw [hrecs, hf]; rfl
  have hslot : ∀ k, t.holdE k = s.holdE k := fun k => by rw [hf]; rfl
  have hhold : ∀ k, (s.holdE k).used = true → (coreReset t false 1).holdE k = { s.holdE k with
      wait := if (s.holdE k).wait = .binding ∨ (s.holdE k).wait = .behind then (s.holdE k).wait else .parked } := by
    intro k hk
    rw [← hslot k] at hk ⊢
    exact holdE_coreReset t 1 k hk
  have hdom : (∀ c, c < 16 → s.fld Fld.STW_STATUS_FAILED c = 0) →
      DomainsReset s (coreReset t false 1) (· = .core) [RegName.MODE.addr 0 0, RegName.MODE_REQ.addr 0 0] := fun h =>
    (domainsReset_coreReset t 1 fun c hc => (hfailed c).trans (h c hc)).of_regsBut hregs'
  have hkept := fun c hc => (failed_coreReset t 1 (c := c) hc).trans (hfailed c)
  have hmode' := (mode_coreReset t 1).trans hmode
  generalize coreReset t false 1 = u at *
  dsimp only at hreset
  rw [hf] at hreset
  refine ⟨?_, hmode', hforced', hprev', ?_, ?_, ?_, ?_, ?_, hrecs', ?_, ?_, ?_, ?_, ?_, ?_, ?_, hkept, ?_, ?_, ?_, hnotices, hhold,
    hdom⟩
  all_goals rw [hreset] <;> rfl

/-- A warm reset that is honoured while a start is in progress. -/
theorem warmReset_of_start (hv : s.vaux = true) (hw : s.warmRst = false) (hc : s.coldRst = false) (hm : 3 ≤ s.mode)
    {r : StartRun} (hrun : s.start.run = some r) :
    let u := warmAssert (Begun s)
    u.warmRst = true ∧ u.mode = 3 ∧ u.coreUp = false ∧ u.start.run = none ∧ u.fld Fld.START_STATUS_CODE = 8 := by
  have hawake : ¬ (Begun s).mode < 3 := Nat.not_lt.2 hm
  have hwarm : ¬ (Begun s).coldRst = true := fun h => Bool.false_ne_true (hc.symm.trans h)
  have hassert := warmAssert_cases (s := Begun s) hv hw
  rw [if_neg hawake, if_neg hwarm] at hassert
  have hfailed := resetFailed_startFail (s := warmPin (Begun s) true) hrun
  dsimp only
  rw [hassert]
  generalize startFail (warmPin (Begun s) true) 8 = f at hfailed
  obtain ⟨⟨hf, hregs⟩, hmode, -⟩ := forceMode_step f (m := 3) (hfailed.vaux.trans hv) (by decide) (by decide)
  have hcode : (forceMode f 3).fld Fld.START_STATUS_CODE = 8 := (hregs.fld _ 0 0 (by decide)).trans hfailed.code
  generalize forceMode f 3 = t at hf hmode hcode
  have hreset := (coreReset_eq t 1).1
  have hmode' := (mode_coreReset t 1).trans hmode
  have hcode' := (fld_coreReset t 1 (f := Fld.START_STATUS_CODE) (isReg_of_lt .START_STATUS Nat.one_pos Nat.one_pos)
    (by decide)).trans hcode
  generalize coreReset t false 1 = u at *
  dsimp only at hreset
  rw [hf] at hreset
  refine ⟨?_, hmode', ?_, ?_, hcode'⟩
  · rw [hreset]
    exact hfailed.warmRst
  · rw [hreset]
  · rw [hreset]
    exact hfailed.run

/-! ### The release -/

theorem completes_warmRelease (hdft : s.dft = false) {P : State → Prop} (h : P (warmRelease (Begun s))) :
    Completes .warmStart s P := completes_run warmRelease rfl hdft h

theorem warmRelease_idle (h : s.vaux = false ∨ s.warmRst = false) : warmRelease s = s := by
  rw [warmRelease, if_pos (by simpa using h)]

theorem warmRelease_cases (hv : s.vaux = true) (hw : s.warmRst = true) :
    warmRelease s = if s.mode = 3 ∧ s.coreUp = false ∧ s.coldRst = false then
      startBegin (warmPin s false) 1 ⟨[], [], [], true⟩ else warmPin s false := by
  have hskip : ¬ (! s.vaux ∨ ! s.warmRst) := by simp [hv, hw]
  rw [warmRelease, if_neg hskip]
  simp only [Bool.not_eq_true']
  rfl

end WarmReset

/-- Settles O9: a warm reset that is honoured is a forced transition and a reset of CORE, and its release begins a warm start. -/
theorem warmReset : Obligations.WarmReset := by
  unfold Obligations.WarmReset
  intro s hdft
  refine ⟨fun hidle => completes_warmAssert hdft (warmAssert_idle (s := Begun s) hidle), fun hv hw hc hm => ?_, fun hv hw hm => ?_,
    fun hv hw hc hm hrun => completes_warmAssert hdft (warmReset_effect hv hw hc hm hrun), fun hv hw hc hm hrun => ?_,
    fun hidle => completes_warmRelease hdft (warmRelease_idle (s := Begun s) hidle), fun hv hw hskip => ?_,
    fun hv hw hm hcore hc hself => ?_⟩
  case refine_1 =>
    refine completes_warmAssert hdft ?_
    have hawake : ¬ (Begun s).mode < 3 := Nat.not_lt.2 hm
    rw [warmAssert_cases (s := Begun s) hv hw, if_neg hawake, if_pos (show (Begun s).coldRst = true from hc)]
    rfl
  case refine_2 =>
    refine completes_warmAssert hdft ?_
    rw [warmAssert_cases (s := Begun s) hv hw, if_pos (show (Begun s).mode < 3 from hm)]
    exact ⟨rfl, fld_setFld_same (warmPin (Begun s) true) Fld.PIN_STATUS_WARM_IGN 1 0 0 (by decide),
      fun d k hk => regsBut_setFld (warmPin (Begun s) true) Fld.PIN_STATUS_WARM_IGN 1 0 0 d k hk⟩
  case refine_3 =>
    obtain ⟨r, hr⟩ := Option.ne_none_iff_exists'.1 hrun
    exact completes_warmAssert hdft (warmReset_of_start hv hw hc hm hr)
  case refine_4 =>
    refine completes_warmRelease hdft ?_
    have hno : ¬ ((Begun s).mode = 3 ∧ (Begun s).coreUp = false ∧ (Begun s).coldRst = false) := by
      rintro ⟨hm, hcore, hc⟩
      obtain h | h | h := hskip
      · exact h hm
      · exact Bool.false_ne_true (hcore.symm.trans h)
      · exact Bool.false_ne_true (hc.symm.trans h)
    rw [warmRelease_cases (s := Begun s) hv hw, if_neg hno]
    rfl
  case refine_5 =>
    refine completes_warmRelease hdft ?_
    have hyes : (Begun s).mode = 3 ∧ (Begun s).coreUp = false ∧ (Begun s).coldRst = false := ⟨hm, hcore, hc⟩
    obtain ⟨hu, hregs, hstep, hkind, hcode, ⟨r, hr, hrkind, hbegan, -⟩, hclean⟩ :=
      startBegin_effect_of_warm (s := warmPin (Begun s) false) hv hm hself ⟨[], [], [], true⟩
    rw [warmRelease_cases (s := Begun s) hv hw, if_pos hyes]
    generalize startBegin (warmPin (Begun s) false) 1 ⟨[], [], [], true⟩ = u at *
    dsimp only at hu
    have hvaux : u.vaux = true := by rw [hu]; exact hv
    have hmode : u.mode = 3 := by
      rw [mode_eq_fld hvaux, hregs.fld Fld.MODE_CUR 0 0 (by decide), ← mode_eq_fld (s := warmPin (Begun s) false) hv]
      exact hm
    refine ⟨?_, ?_, ?_, ?_, ?_, ?_, ?_, ?_, ?_, ?_, hmode, hstep, hkind, hcode, ⟨r, hr, hrkind, hbegan⟩, fun hmask harm => ?_⟩
    case refine_11 =>
      obtain ⟨hfault, hfew, hstarts, hmsgs⟩ := hclean ⟨hmask, harm⟩
      refine ⟨?_, hstarts, hmsgs, fun d k hk => hfew d k hk⟩
      rw [hfault] at hu
      refine hu.trans ?_
      rw [hu]
      rfl
    all_goals rw [hu] <;> rfl

end Sys2Proof.Machine

namespace Sys2Proof.Machine

/-! SUPPORT. The begin of a cold start (R64, R507). -/

/-- The fields of the fabric ports alone differ. -/
def PortsOnly (s u : State) : Prop := u = { s with port := { s.port with fp := u.port.fp } }

theorem PortsOnly.trans {s t u : State} (h : PortsOnly s t) (k : PortsOnly t u) : PortsOnly s u := by
  unfold PortsOnly at *
  rw [k, h]

theorem portsOnly_regrant (s : State) (p : Nat) : PortsOnly s (regrant s p) := by
  unfold regrant
  split
  · rfl
  · rfl

theorem regrant_enabled {s : State} {p : Nat} (hen : s.fld Fld.FP_CTL_EN p = 1) (hup : s.portUp = true) (hv : s.vaux = true) :
    ((regrant s p).fport p).reqCred = 32 - (s.fport p).reqQ.length ∧ ((regrant s p).fport p).rspCred = 64 ∧
      ((regrant s p).fport p).reqQ = (s.fport p).reqQ := by
  rw [regrant, if_pos ⟨hen, hup, hv⟩, fport_setFport]
  exact ⟨rfl, rfl, rfl⟩

theorem regrant_other (s : State) {p k : Nat} (h : k ≠ p) : (regrant s p).fport k = s.fport k := by
  unfold regrant
  split
  · exact SMap.getD_set_ne _ _ _ _ _ h
  · rfl

/-- Every enabled port of a list is credited afresh (R64). -/
theorem foldl_regrant (l : List Nat) (s : State) (hup : s.portUp = true) (hv : s.vaux = true) :
    let u := l.foldl regrant s
    PortsOnly s u ∧ (∀ k, k ∉ l → u.fport k = s.fport k) ∧ ∀ k ∈ l, s.fld Fld.FP_CTL_EN k = 1 →
      (u.fport k).reqCred = 32 - (s.fport k).reqQ.length ∧ (u.fport k).rspCred = 64 := by
  induction l generalizing s with
  | nil => exact ⟨rfl, fun _ _ => rfl, fun k hk => absurd hk List.not_mem_nil⟩
  | cons p l ih =>
    have hone := portsOnly_regrant s p
    have hregs : (regrant s p).regs = s.regs := by rw [hone]
    obtain ⟨hrest, hother, hgranted⟩ := ih (regrant s p) (by rw [hone]; exact hup) (by rw [hone]; exact hv)
    refine ⟨hone.trans hrest, fun k hk => ?_, fun k hk hen => ?_⟩
    · have hkp : k ≠ p := fun h => hk (h ▸ List.mem_cons_self)
      have hkl : k ∉ l := fun h => hk (List.mem_cons_of_mem p h)
      exact (hother k hkl).trans (regrant_other s hkp)
    · by_cases hkp : k = p
      · subst hkp
        obtain ⟨hreq, hrsp, hqueue⟩ := regrant_enabled hen hup hv
        by_cases hkl : k ∈ l
        · have h := hgranted k hkl (by rw [fld_congr hregs]; exact hen)
          rwa [hqueue] at h
        · rw [List.foldl_cons, hother k hkl]
          exact ⟨hreq, hrsp⟩
      · have h := hgranted k ((List.mem_cons.1 hk).resolve_left hkp) (by rw [fld_congr hregs]; exact hen)
        rwa [regrant_other s hkp] at h

/-- The state that a cold start counts: every enabled port is credited, and the shadows stream. -/
def coldPorts (s : State) : State := shadowStream ((List.range 64).foldl regrant (startAwake s))

theorem coldPorts_spec {s : State} (hv : s.vaux = true) :
    let u := coldPorts s
    u = { startAwake s with port := { s.port with fp := u.port.fp }, shadow := u.shadow } ∧
    ∀ p, p < 64 → s.fld Fld.FP_CTL_EN p = 1 →
      (u.fport p).reqCred = 32 - (s.fport p).reqQ.length ∧ (u.fport p).rspCred = 64 := by
  obtain ⟨hports, -, hgranted⟩ := foldl_regrant (List.range 64) (startAwake s) rfl hv
  have hshadow : coldPorts s = { (List.range 64).foldl regrant (startAwake s) with shadow := (coldPorts s).shadow } := rfl
  dsimp only at hports hgranted ⊢
  refine ⟨?_, fun p hp hen => hgranted p (List.mem_range.2 hp) hen⟩
  unfold PortsOnly at hports
  have hfp : (coldPorts s).port.fp = ((List.range 64).foldl regrant (startAwake s)).port.fp := by rw [hshadow]
  rw [hfp]
  generalize (List.range 64).foldl regrant (startAwake s) = t at *
  refine hshadow.trans ?_
  rw [hports]
  rfl

/-- MAPS_READY and SLEEP_STATUS are clear, and the mode is that of a cold start. -/
def coldEntered (s : State) : State :=
  enterMode ((s.setFld Fld.START_CTL_MAPS_READY 0).setFld Fld.SLEEP_STATUS_STATE 0) 2

/-- A wrong ledger is noted. -/
def ledgerChecked (s : State) : State := if s.fld Fld.LEHR_STATUS_LDG_VALID = 0 then lehrIrq s 7 else s

/-- The program of a cold start whose self-check is passed: a pass runs in its step 2 (R507). -/
theorem startBegin_cold {s : State} {test : SelfTest}
    (h : (startShown (coldPorts s) 0 test).fld Fld.LEHR_STATUS_SELFCHK ≠ 0) :
    startBegin s 0 test = startPass (ledgerChecked (toStep (coldEntered (startShown (coldPorts s) 0 test)) 2)) 0 false := by
  have hshown : startBegin s 0 test =
      if (startShown (coldPorts s) 0 test).fld Fld.LEHR_STATUS_SELFCHK = 0 then startFail (startShown (coldPorts s) 0 test) 1
      else startPass (ledgerChecked (toStep (coldEntered (startShown (coldPorts s) 0 test)) 2)) 0 false := rfl
  rw [hshown, if_neg h]

theorem coldEntered_spec {s : State} (hv : s.vaux = true) :
    let u := coldEntered s
    RegStep s u [RegName.START_CTL.addr 0 0, RegName.SLEEP_STATUS.addr 0 0, RegName.MODE.addr 0 0, RegName.MODE_REQ.addr 0 0] ∧
    u.mode = 2 ∧ u.fld Fld.START_CTL_MAPS_READY = 0 ∧ u.fld Fld.SLEEP_STATUS_STATE = 0 := by
  have hclear : RegStep s ((s.setFld Fld.START_CTL_MAPS_READY 0).setFld Fld.SLEEP_STATUS_STATE 0)
      [RegName.START_CTL.addr 0 0, RegName.SLEEP_STATUS.addr 0 0, RegName.MODE.addr 0 0, RegName.MODE_REQ.addr 0 0] :=
    ((RegStep.refl s _).setFld Fld.START_CTL_MAPS_READY 0 (by simp)).setFld Fld.SLEEP_STATUS_STATE 0 (by simp)
  have hmaps : ((s.setFld Fld.START_CTL_MAPS_READY 0).setFld Fld.SLEEP_STATUS_STATE 0).fld Fld.START_CTL_MAPS_READY = 0 := by
    rw [fld_setFld_ne _ _ _ _ _ _ _ _ (by decide), fld_setFld_same _ _ _ _ _ (by decide)]
    rfl
  have hsleep : ((s.setFld Fld.START_CTL_MAPS_READY 0).setFld Fld.SLEEP_STATUS_STATE 0).fld Fld.SLEEP_STATUS_STATE = 0 :=
    fld_setFld_same _ Fld.SLEEP_STATUS_STATE 0 0 0 (by decide)
  unfold coldEntered
  generalize (s.setFld Fld.START_CTL_MAPS_READY 0).setFld Fld.SLEEP_STATUS_STATE 0 = c at *
  obtain ⟨hstep, hmode⟩ := enterMode_step (s := c) (by rw [hclear.1]; exact hv) (m := 2) (by decide) (by decide)
  exact ⟨hclear.trans (hstep.mono (by simp)), hmode, (hstep.2.fld _ 0 0 (by decide)).trans hmaps,
    (hstep.2.fld _ 0 0 (by decide)).trans hsleep⟩

theorem ledgerChecked_step (s : State) : RegStep s (ledgerChecked s) [RegName.LEHR_IRQ.addr 0 0] := by
  unfold ledgerChecked
  split
  · exact (RegStep.refl s _).setFld Fld.LEHR_IRQ_SRC _ (by simp)
  · exact RegStep.refl s _

/-- The registers that a cold start writes after it is counted. -/
def coldRegs : List Nat := [RegName.START_CTL.addr 0 0, RegName.SLEEP_STATUS.addr 0 0, RegName.MODE.addr 0 0,
  RegName.MODE_REQ.addr 0 0, RegName.START_STATUS.addr 0 0, RegName.LEHR_IRQ.addr 0 0]

/-- A cold start from where it is counted to its step 2. -/
theorem coldStep_spec {s : State} (hv : s.vaux = true) {r : StartRun} (hrun : s.start.run = some r) :
    let u := startPass (ledgerChecked (toStep (coldEntered s) 2)) 0 false
    u = { s with
      regs := u.regs, start := { s.start with run := u.start.run }
      lehr := { s.lehr with pass := some ⟨0, 0, false⟩, planDue := u.lehr.planDue } } ∧
    RegsBut s u coldRegs ∧ u.mode = 2 ∧ u.fld Fld.START_CTL_MAPS_READY = 0 ∧ u.fld Fld.SLEEP_STATUS_STATE = 0 ∧
    u.fld Fld.START_STATUS_STEP = 2 ∧ u.fld Fld.START_STATUS_KIND = s.fld Fld.START_STATUS_KIND ∧
    u.fld Fld.START_STATUS_CODE = s.fld Fld.START_STATUS_CODE ∧ ∃ limit, u.start.run = some { r with limit := limit } := by
  obtain ⟨⟨hc, hcregs⟩, hmode, hmaps, hsleep⟩ := coldEntered_spec hv
  generalize coldEntered s = c at *
  have hcrun : c.start.run = some r := by rw [hc]; exact hrun
  obtain ⟨hstep, hkind, hcode, hdregs, hd⟩ := toStep_flds c hcrun
  generalize toStep c 2 = d at *
  obtain ⟨he, heregs⟩ := ledgerChecked_step d
  generalize ledgerChecked d = e at *
  have hlater : RegsBut c e [RegName.START_STATUS.addr 0 0, RegName.LEHR_IRQ.addr 0 0] :=
    (hdregs.mono (by simp)).trans (heregs.mono (by simp))
  have hall : RegsBut s e coldRegs := (hcregs.mono (by simp [coldRegs])).trans (hlater.mono (by simp [coldRegs]))
  have hemode : e.mode = 2 := by
    rw [State.mode, hlater.fld Fld.MODE_CUR 0 0 (by decide), show e.vaux = c.vaux by rw [he, hd]]
    exact hmode
  have hfield : ∀ (f : Fld), f.reg.addr 0 0 ∉ [RegName.START_CTL.addr 0 0, RegName.SLEEP_STATUS.addr 0 0,
      RegName.MODE.addr 0 0, RegName.MODE_REQ.addr 0 0] → c.fld f = s.fld f := fun f hf => hcregs.fld f 0 0 hf
  have hpass : startPass e 0 false = { e with
      lehr := { e.lehr with pass := some ⟨0, 0, false⟩, planDue := (startPass e 0 false).lehr.planDue } } := rfl
  have hregs : (startPass e 0 false).regs = e.regs := rfl
  have hstart : (startPass e 0 false).start = e.start := rfl
  have hmode' : (startPass e 0 false).mode = e.mode := rfl
  dsimp only
  generalize startPass e 0 false = u at *
  refine ⟨?_, fun d k hk => Eq.trans (by rw [hregs]) (hall d k hk), hmode'.trans hemode, ?_, ?_, ?_, ?_, ?_, stepLimit c, ?_⟩
  · rw [hstart]
    refine hpass.trans ?_
    rw [hregs, he, hd, hc]
  · rw [fld_congr hregs, hlater.fld _ 0 0 (by decide), hmaps]
  · rw [fld_congr hregs, hlater.fld _ 0 0 (by decide), hsleep]
  · rw [fld_congr hregs, heregs.fld _ 0 0 (by decide), hstep]
  · rw [fld_congr hregs, heregs.fld _ 0 0 (by decide), hkind, hfield _ (by decide)]
  · rw [fld_congr hregs, heregs.fld _ 0 0 (by decide), hcode, hfield _ (by decide)]
  · rw [hstart, he, hd]

/-- The begin of a cold start. -/
theorem startBegin_effect_of_cold {s : State} (hv : s.vaux = true) (hself : s.fld Fld.LEHR_STATUS_SELFCHK = 1) (test : SelfTest) :
    let u := startBegin s 0 test
    u = { s with
      portUp := true, coreUp := true, now := s.lehrNow, sleepReady := false, start := u.start, pt := u.pt, regs := u.regs
      cmd := u.cmd, irq := u.irq, fb := u.fb, fault := u.fault, integ := u.integ, shadow := u.shadow
      lehr := { s.lehr with pass := some ⟨0, 0, false⟩, planDue := u.lehr.planDue }, port := { s.port with fp := u.port.fp } } ∧
    u.pt.port = s.pt.port ∧ RegsBut s u (coldRegs ++ ledgerRegs) ∧ u.mode = 2 ∧ u.fld Fld.START_CTL_MAPS_READY = 0 ∧
    u.fld Fld.SLEEP_STATUS_STATE = 0 ∧ u.fld Fld.START_STATUS_STEP = 2 ∧ u.fld Fld.START_STATUS_KIND = 0 ∧
    u.fld Fld.START_STATUS_CODE = 0 ∧ RunBegun s u 0 test ∧
    (∀ p, p < 64 → s.fld Fld.FP_CTL_EN p = 1 →
      (u.fport p).reqCred = 32 - (s.fport p).reqQ.length ∧ (u.fport p).rspCred = 64) ∧
    (CleanCount s → u.fault = s.fault ∧ u.fld Fld.START_CNT_STARTS = min (s.fld Fld.START_CNT_STARTS + 1) 65535 ∧
      u.fb.msgs.length = s.fb.msgs.length + 1 ∧
      RegsBut s u (coldRegs ++ [RegName.START_CNT.addr 0 0, RegName.CMD_RES.addr 0 0, RegName.CMD_VAL.addr 0 0])) := by
  obtain ⟨hp, hgranted⟩ := coldPorts_spec hv
  have hcold := startBegin_cold (s := s) (test := test)
  obtain ⟨hshown, hclean⟩ := startShown_spec (coldPorts s) (kind := 0) (by decide) test
  have hpregs : ∀ d k, SMap.getD d (coldPorts s).regs k = SMap.getD d s.regs k := fun d k => by
    dsimp only at hp
    rw [hp]
    rfl
  dsimp only at hp hgranted
  have hpclean : CleanCount s → CleanCount (coldPorts s) := fun h =>
    h.of_regsBut (l := []) (by rw [hp]; rfl) (fun d k _ => hpregs d k) List.not_mem_nil
  have hpcount : (coldPorts s).fld Fld.START_CNT_STARTS = s.fld Fld.START_CNT_STARTS := congrArg _ (hpregs _ _)
  generalize startShown (coldPorts s) 0 test = t at hcold hshown hclean
  generalize coldPorts s = p at *
  have hframe := hshown.frame
  have hregs : RegsBut s t (RegName.START_STATUS.addr 0 0 :: ledgerRegs) := fun d k hk =>
    (hshown.regs d k hk).trans (hpregs d k)
  have hselfchk : t.fld Fld.LEHR_STATUS_SELFCHK ≠ 0 := by
    rw [hregs.fld Fld.LEHR_STATUS_SELFCHK 0 0 (by decide), hself]
    exact one_ne_zero
  have hvt : t.vaux = true := by rw [hframe, hp]; exact hv
  have hrun : t.start.run = some (startRun1 p 0 test) := by rw [hframe]; rfl
  have hbegan : (startRun1 p 0 test).began = s.lehrNow := by rw [hp]; rfl
  obtain ⟨hu, hlater, hmode, hmaps, hsleep, hstep, hkind, hcode, limit, hlimit⟩ := coldStep_spec hvt hrun
  dsimp only
  rw [hcold hselfchk]
  generalize startPass (ledgerChecked (toStep (coldEntered t) 2)) 0 false = u at *
  dsimp only at hu
  have hfport : ∀ k, u.fport k = p.fport k := fun k => by rw [hu, hframe]; rfl
  refine ⟨?_, ?_, (hregs.mono ?_).trans (hlater.mono ?_), hmode, hmaps, hsleep, hstep, hkind.trans hshown.kindIs,
    hcode.trans hshown.code, ⟨_, hlimit, rfl, hbegan, rfl⟩, fun k hk hen => ?_, fun h => ?_⟩
  · obtain ⟨R, run, due, hu'⟩ : ∃ R run due, u = { t with
        regs := R, start := { t.start with run := run }, lehr := { t.lehr with pass := some ⟨0, 0, false⟩, planDue := due } } :=
      ⟨_, _, _, hu⟩
    obtain ⟨R', I, F, Q, B, C, ht'⟩ : ∃ R' I F Q B C, t = { setRun p (some (startRun1 p 0 test)) with
        regs := R', integ := I, fault := F, irq := Q, fb := B, cmd := C } := ⟨_, _, _, _, _, _, hframe⟩
    obtain ⟨fp, sh, hp'⟩ : ∃ fp sh, p = { startAwake s with port := { s.port with fp := fp }, shadow := sh } := ⟨_, _, hp⟩
    rw [hu', ht', hp']
    rfl
  · rw [hu, hframe, hp]
    rfl
  · decide
  · decide
  · rw [hfport]
    exact hgranted k hk hen
  · obtain ⟨hfault, hfew, hstarts, hmsgs⟩ := hclean (hpclean h)
    have hfew' : RegsBut s t [RegName.START_STATUS.addr 0 0, RegName.START_CNT.addr 0 0, RegName.CMD_RES.addr 0 0,
        RegName.CMD_VAL.addr 0 0] := fun d k hk => (hfew d k hk).trans (hpregs d k)
    refine ⟨?_, ?_, ?_, (hfew'.mono ?_).trans (hlater.mono ?_)⟩
    · rw [hu]
      exact hfault.trans (by rw [hp]; rfl)
    · rw [hlater.fld _ 0 0 (by decide), hstarts, hpcount]
    · rw [hu]
      exact hmsgs.trans (by rw [hp]; rfl)
    · decide
    · decide

end Sys2Proof.Machine

namespace Sys2Proof.SMap

variable {α : Type}

theorem getD_of_not_mem (d : Nat → α) {m : SMap α} {k : Nat} (h : ∀ e ∈ m, e.1 ≠ k) : getD d m k = d k := by
  induction m with
  | nil => rfl
  | cons e m ih =>
    obtain ⟨hk, hm⟩ := List.forall_mem_cons.1 h
    rw [getD, if_neg hk]
    exact ih hm

/-- A read of a sorted map of whose values some were dropped and the others changed. -/
theorem getD_filterMap_value (d : Nat → α) {m : SMap α} (hs : sorted m = true) (p : α → Bool) (f : α → α) (k : Nat)
    (hd : p (d k) = false) :
    getD d (m.filterMap (fun e => if p e.2 then some (e.1, f e.2) else none)) k =
      if p (getD d m k) then f (getD d m k) else d k := by
  induction m with
  | nil => simp [getD, hd]
  | cons e m ih =>
    obtain ⟨j, v⟩ := e
    obtain ⟨hlt, hs⟩ := (sorted_cons j v m).1 hs
    rw [List.filterMap_cons]
    by_cases hj : j = k
    · subst hj
      have hlater : ∀ e ∈ m.filterMap (fun e => if p e.2 then some (e.1, f e.2) else none), e.1 ≠ j := by
        intro e he
        obtain ⟨e', he', hsome⟩ := List.mem_filterMap.1 he
        split at hsome
        · cases hsome
          exact (Nat.ne_of_lt (hlt e' he')).symm
        · cases hsome
      cases hp : p v
      · simpa [getD, hp] using getD_of_not_mem d hlater
      · simp [getD, hp]
    · cases hp : p v
      · simpa [getD, hp, hj] using ih hs
      · simpa [getD, hp, hj] using ih hs

end Sys2Proof.SMap

namespace Sys2Proof.Machine

/-! The statement about the supply and a cold reset (R26, R41, R461, R507, R512). -/

/-- A report that is raised is held. -/
theorem reported_raiseLehr (s : State) (code subject : Nat) : Reported (raiseLehr s code subject) code subject := by
  let same := fun (r : Report) => r.code == code && r.subject == subject && r.inj == false
  have hsame : ∀ r : Report, same r = true → r.code = code ∧ r.subject = subject := by
    intro r hr
    simp only [same, Bool.and_eq_true, beq_iff_eq] at hr
    exact hr.1
  unfold Reported raiseLehr raiseN
  dsimp only [lcPass]
  split
  · next hany =>
    obtain ⟨r, hr, hrs⟩ := List.any_eq_true.1 hany
    obtain ⟨hcode, hsubject⟩ := hsame r hrs
    exact ⟨_, List.mem_map.2 ⟨r, hr, if_pos hrs⟩, hcode, hsubject⟩
  · exact ⟨_, List.mem_append_right _ (List.mem_singleton.2 rfl), rfl, rfl⟩

/-! ### VAUX -/

section Vaux

variable {s : State}

/-- The straps are sampled. -/
def strapped (s : State) (inst src : Nat) : State := (s.setFld Fld.STRAP_INST_ID inst).setFld Fld.STRAP_PARISON_SRC src

theorem strapped_step (s : State) (inst src : Nat) : RegStep s (strapped s inst src) [RegName.STRAP.addr 0 0] :=
  ((RegStep.refl s _).setFld Fld.STRAP_INST_ID inst (by simp)).setFld Fld.STRAP_PARISON_SRC src (by simp)

theorem strapped_flds (s : State) (inst : BitVec 8) (src : BitVec 2) :
    (strapped s inst.toNat src.toNat).fld Fld.STRAP_INST_ID = inst.toNat ∧
    (strapped s inst.toNat src.toNat).fld Fld.STRAP_PARISON_SRC = src.toNat := by
  unfold strapped
  simp (disch := decide) only [fld_setFld_disj, fld_setFld_same]
  exact ⟨Nat.mod_eq_of_lt inst.isLt, Nat.mod_eq_of_lt src.isLt⟩

/-- The supply is in range, COLD_RST_N is asserted, and the readings are checked. -/
def vauxOn (s : State) (inst src : Nat) (xs : List (BitVec 12)) (lref : Bool) : State :=
  thermCheck (strapped { s with vaux := true, coldRst := true, lehr := { s.lehr with railReq := true, lref := lref } } inst src) xs

theorem vauxRise_off (h : s.vaux = false) (inst src : Nat) (xs : List (BitVec 12)) (ok lref : Bool) :
    vauxRise s inst src xs ok lref = if ok then (vauxOn s inst src xs lref).setFld Fld.LEHR_STATUS_SELFCHK 1
      else raiseLehr (vauxOn s inst src xs lref) 0x60 1 := by
  have hoff : ¬ s.vaux = true := by rw [h]; exact Bool.false_ne_true
  rw [vauxRise, if_neg hoff]
  rfl

theorem vauxOn_frame (s : State) (inst src : Nat) (xs : List (BitVec 12)) (lref : Bool) :
    let u := vauxOn s inst src xs lref
    u = { s with vaux := true, coldRst := true, lehr := u.lehr, regs := u.regs } ∧
    u.lehr = { s.lehr with railReq := true, lref := lref, excl := u.lehr.excl } ∧ RegsBut s u [RegName.STRAP.addr 0 0] := by
  obtain ⟨hstep, hregs⟩ := strapped_step { s with vaux := true, coldRst := true, lehr := { s.lehr with railReq := true, lref := lref } }
    inst src
  dsimp only [vauxOn, thermCheck]
  refine ⟨?_, ?_, fun d k hk => hregs d k hk⟩
  · rw [hstep]
  · rw [hstep]

theorem mem_excl (s : State) (xs : List (BitVec 12)) (k : Nat) :
    k ∈ (thermCheck s xs).lehr.excl ↔ k < 32 ∧ ∃ x, xs[k]? = some x ∧ (x.toInt < -160 ∨ 600 < x.toInt) := by
  have hpair : ∀ x, (x, k) ∈ xs.zip (List.range 32) ↔ k < 32 ∧ xs[k]? = some x := by
    intro x
    have hindex : ∀ i, (List.range 32)[i]? = some k ↔ k < 32 ∧ i = k := fun i => by
      rw [List.getElem?_eq_some_iff]
      simp only [List.length_range, List.getElem_range]
      exact ⟨fun ⟨hi, h⟩ => ⟨h ▸ hi, h⟩, fun ⟨hk, h⟩ => ⟨h ▸ hk, h⟩⟩
    simp only [List.mem_iff_getElem?, List.getElem?_zip_eq_some, hindex]
    exact ⟨fun ⟨i, hx, hk, hi⟩ => ⟨hk, hi ▸ hx⟩, fun ⟨hk, hx⟩ => ⟨k, hx, hk, rfl⟩⟩
  simp only [thermCheck, List.mem_map, List.mem_filter, outOfRange, reading]
  constructor
  · rintro ⟨⟨x, j⟩, ⟨hmem, hout⟩, rfl⟩
    obtain ⟨hk, hx⟩ := (hpair x).1 hmem
    exact ⟨hk, x, hx, of_decide_eq_true hout⟩
  · rintro ⟨hk, x, hx, hout⟩
    exact ⟨(x, k), ⟨(hpair x).2 ⟨hk, hx⟩, decide_eq_true hout⟩, rfl⟩

/-- The effect of VAUX rising. -/
theorem vauxRise_effect (h : s.vaux = false) (inst : BitVec 8) (src : BitVec 2) (xs : List (BitVec 12)) (ok lref : Bool) :
    let u := vauxRise (Begun s) inst.toNat src.toNat xs ok lref
    u = { Begun s with vaux := true, coldRst := true, lehr := u.lehr, regs := u.regs, fault := u.fault } ∧
    u.lehr = { s.lehr with railReq := true, lref := lref, excl := u.lehr.excl } ∧ u.fld Fld.STRAP_INST_ID = inst.toNat ∧
    u.fld Fld.STRAP_PARISON_SRC = src.toNat ∧ (s.regs = [] → u.mode = 1) ∧
    (∀ k, k ∈ u.lehr.excl ↔ k < 32 ∧ ∃ x, xs[k]? = some x ∧ (x.toInt < -160 ∨ 600 < x.toInt)) ∧
    (ok = true → u.fld Fld.LEHR_STATUS_SELFCHK = 1 ∧ u.fault = s.fault) ∧
    (ok = false → u.fld Fld.LEHR_STATUS_SELFCHK = s.fld Fld.LEHR_STATUS_SELFCHK ∧ Reported u 0x60 1) ∧
    RegsBut s u [RegName.STRAP.addr 0 0, RegName.STRAP.addr 0 0, RegName.LEHR_STATUS.addr 0 0] := by
  obtain ⟨hframe, hlehr, hregs⟩ := vauxOn_frame (Begun s) inst.toNat src.toNat xs lref
  have hinst : (vauxOn (Begun s) inst.toNat src.toNat xs lref).fld Fld.STRAP_INST_ID = inst.toNat := (strapped_flds _ inst src).1
  have hsrc : (vauxOn (Begun s) inst.toNat src.toNat xs lref).fld Fld.STRAP_PARISON_SRC = src.toNat := (strapped_flds _ inst src).2
  have hexcl : ∀ k, k ∈ (vauxOn (Begun s) inst.toNat src.toNat xs lref).lehr.excl ↔
      k < 32 ∧ ∃ x, xs[k]? = some x ∧ (x.toInt < -160 ∨ 600 < x.toInt) := fun k => mem_excl _ xs k
  have hrise := vauxRise_off (s := Begun s) h inst.toNat src.toNat xs ok lref
  dsimp only at hframe hlehr ⊢
  rw [hrise]
  generalize vauxOn (Begun s) inst.toNat src.toNat xs lref = t at hframe hlehr hregs hinst hsrc hexcl
  have hmode : ∀ u : State, u.vaux = true → u.fld Fld.MODE_CUR = s.fld Fld.MODE_CUR → s.regs = [] → u.mode = 1 := by
    intro u hv hcur hnil
    rw [mode_eq_fld hv, hcur, State.fld, State.reg, hnil]
    decide
  have hvaux : t.vaux = true := by rw [hframe]
  have hcur : t.fld Fld.MODE_CUR = s.fld Fld.MODE_CUR := hregs.fld Fld.MODE_CUR 0 0 (by decide)
  cases ok
  case false =>
    refine ⟨?_, hlehr, hinst, hsrc, hmode _ hvaux hcur, hexcl, fun h => absurd h Bool.false_ne_true,
      fun _ => ⟨hregs.fld Fld.LEHR_STATUS_SELFCHK 0 0 (by decide), reported_raiseLehr t 0x60 1⟩, ?_⟩
    · rw [if_neg Bool.false_ne_true]
      exact Eq.trans (b := { t with fault := (raiseLehr t 0x60 1).fault }) rfl (by rw [hframe]; rfl)
    · exact fun d k hk => hregs d k fun hk' => hk (by simpa using .inl (List.mem_singleton.1 hk'))
  case true =>
    have hself := regsBut_setFld t Fld.LEHR_STATUS_SELFCHK 1 0 0
    have hset : t.setFld Fld.LEHR_STATUS_SELFCHK 1 = { t with regs := (t.setFld Fld.LEHR_STATUS_SELFCHK 1).regs } := rfl
    have hone := fld_setFld_same t Fld.LEHR_STATUS_SELFCHK 1 0 0 (by decide)
    rw [if_pos rfl]
    generalize t.setFld Fld.LEHR_STATUS_SELFCHK 1 = u at *
    refine ⟨?_, ?_, (hself.fld _ 0 0 (by decide)).trans hinst, (hself.fld _ 0 0 (by decide)).trans hsrc,
      hmode u (by rw [hset, hvaux]) ((hself.fld _ 0 0 (by decide)).trans hcur), ?_, fun _ => ⟨hone, ?_⟩,
      fun h => absurd h.symm Bool.false_ne_true, ?_⟩
    · rw [hset, hframe]
    · rw [hset]
      exact hlehr
    · rw [hset]
      exact hexcl
    · rw [hset, hframe]
      rfl
    · exact fun d k hk => ((hregs.mono (l' := [RegName.STRAP.addr 0 0, RegName.STRAP.addr 0 0, RegName.LEHR_STATUS.addr 0 0])
        (by simp)).trans (hself.mono (by simp))) d k hk

/-- Of the ports of the fabric only the link pins outlive the loss of VAUX. -/
theorem vauxLoss_fport (h : SMap.sorted s.port.fp = true) (p : Nat) :
    (vauxLoss (Begun s)).fport p = if (s.fport p).link then { fp0 with link := true } else fp0 :=
  SMap.getD_filterMap_value (fun _ => fp0) h (fun f => f.link) (fun _ => { fp0 with link := true }) p rfl

end Vaux

end Sys2Proof.Machine

namespace Sys2Proof.Machine

/-! The statement about a cold reset: its assertion. -/

section ColdAssert

variable {s : State}

/-- The mode of a cold reset: COLD_START from 2 on, else as it is with nothing held in retention. -/
def coldMode (s : State) : State := if 2 ≤ s.mode then forceMode s 2 else s.setFld Fld.MODE_RETAINED 0

/-- COLD_RST_N is asserted, no start follows, and a pass that runs is cut off. -/
def coldHeld (s : State) : State :=
  { s with coldRst := true, start := { s.start with retry := none }
           lehr := { s.lehr with pass := none, planDue := s.lehr.planDue || s.lehr.pass.any (fun p => p.reason == 1) } }

theorem coldAssert_idle (h : s.vaux = false ∨ s.coldRst = true) : coldAssert s = s := by
  rw [coldAssert, if_pos (by simpa using h)]

theorem coldAssert_eq (hv : s.vaux = true) (hc : s.coldRst = false) :
    coldAssert s = coldHeld (portReset (coldMode (startFail s 8))) := by
  have hskip : ¬ (! s.vaux ∨ s.coldRst) := by simp [hv, hc]
  rw [coldAssert, if_neg hskip]
  rfl

theorem completes_coldAssert (hdft : s.dft = false) {P : State → Prop} (h : P (coldAssert (Begun s))) :
    Completes .coldResetAssert s P := completes_run coldAssert rfl hdft h

theorem coldMode_spec (hv : s.vaux = true) :
    let u := coldMode s
    u = { s with walks := u.walks, sl := u.sl, regs := u.regs } ∧
    RegsBut s u [RegName.MODE.addr 0 0, RegName.MODE_REQ.addr 0 0] ∧ u.mode = (if 2 ≤ s.mode then 2 else s.mode) ∧
    (2 ≤ s.mode → u.fld Fld.MODE_FORCED = 1 ∧ u.fld Fld.MODE_PREV = s.mode) ∧ (s.mode < 2 → u.fld Fld.MODE_RETAINED = 0) := by
  dsimp only
  unfold coldMode
  split
  · next h =>
    obtain ⟨⟨hf, hregs⟩, hmode, hprev, hforced⟩ := forceMode_step s (m := 2) hv (by decide) (by decide)
    generalize forceMode s 2 = u at *
    exact ⟨by rw [hf]; rfl, fun d k hk => hregs d k hk, hmode, fun _ => ⟨hforced, hprev⟩, fun h' => absurd h (Nat.not_le.2 h')⟩
  · next h =>
    exact ⟨rfl, (regsBut_setFld s Fld.MODE_RETAINED 0 0 0).mono (by simp), mode_setRetained s 0, fun h' => absurd h' h,
      fun _ => fld_setFld_same s Fld.MODE_RETAINED 0 0 0 (by decide)⟩

/-- The register MODE is in the Lehr's domain. -/
theorem fld_portReset_lehr (t : State) {f : Fld} (h : f.reg.desc.n1 = 1 ∧ f.reg.desc.n2 = 1) (hd : f.reg.desc.dom = .lehr) :
    (portReset t).fld f = t.fld f :=
  fld_portReset t (isReg_of_lt f.reg (h.1 ▸ Nat.one_pos) (h.2 ▸ Nat.one_pos)) hd

theorem coldHeld_portReset_frame (t : State) :
    let u := coldHeld (portReset t)
    u.coldRst = true ∧ u.portUp = false ∧ u.coreUp = false ∧ u.start.retry = none ∧ u.start.run = t.start.run ∧
    u.lehr = { t.lehr with pass := none, planDue := t.lehr.planDue || t.lehr.pass.any (fun p => p.reason == 1) } ∧
    u.agt = [] ∧ u.cab = ⟨[], [], [], 0⟩ ∧ u.stw = ⟨[], []⟩ ∧ u.hutch = [] ∧ u.nq = nq0 ∧ u.irq = ⟨[], []⟩ ∧ u.sl = slice0 ∧
    u.port = { port0 with fp := u.port.fp } ∧ u.repair = t.repair ∧ u.now = t.now ∧ u.lehrNow = t.lehrNow := by
  have h := portReset_eq t
  dsimp only at h ⊢
  unfold coldHeld
  generalize portReset t = p at h
  rw [h]
  exact ⟨rfl, rfl, rfl, rfl, rfl, rfl, rfl, rfl, rfl, rfl, rfl, rfl, rfl, rfl, rfl, rfl, rfl⟩

/-- The effect of a cold reset with no start in progress. -/
theorem coldAssert_effect (hv : s.vaux = true) (hc : s.coldRst = false) (hrun : s.start.run = none) :
    let u := coldAssert (Begun s)
    u.coldRst = true ∧ u.portUp = false ∧ u.coreUp = false ∧ u.start.retry = none ∧
    u.lehr = { s.lehr with pass := none, planDue := u.lehr.planDue } ∧
    (u.lehr.planDue = true ↔ s.lehr.planDue = true ∨ ∃ p, s.lehr.pass = some p ∧ p.reason = 1) ∧
    u.agt = [] ∧ u.cab = ⟨[], [], [], 0⟩ ∧ u.stw = ⟨[], []⟩ ∧ u.hutch = [] ∧ u.nq = nq0 ∧ u.irq = ⟨[], []⟩ ∧ u.sl = slice0 ∧
    u.port = { port0 with fp := u.port.fp } ∧ u.repair = s.repair ∧ u.now = s.now ∧ u.lehrNow = s.lehrNow ∧
    u.mode = (if 2 ≤ s.mode then 2 else s.mode) ∧ (2 ≤ s.mode → u.fld Fld.MODE_FORCED = 1 ∧ u.fld Fld.MODE_PREV = s.mode) ∧
    (s.mode < 2 → u.fld Fld.MODE_RETAINED = 0) ∧
    DomainsReset s u (· ≠ .lehr) [RegName.MODE.addr 0 0, RegName.MODE_REQ.addr 0 0, RegName.FC_STATUS.addr 0 0] := by
  have hassert : coldAssert (Begun s) = coldHeld (portReset (coldMode (Begun s))) := by
    rw [coldAssert_eq (s := Begun s) hv hc, startFail_idle (s := Begun s) hrun]
  obtain ⟨hmoded, hregs, hmode, hforced, hretained⟩ := coldMode_spec (s := Begun s) hv
  have hregs' : RegsBut s (coldMode (Begun s)) [RegName.MODE.addr 0 0, RegName.MODE_REQ.addr 0 0, RegName.FC_STATUS.addr 0 0] :=
    fun d k hk => (hregs.mono (by simp)) d k hk
  dsimp only at hmoded ⊢
  rw [hassert]
  generalize coldMode (Begun s) = t at *
  obtain ⟨hcold, hport, hcore, hretry, -, hlehr, hagt, hcab, hstw, hhutch, hnq, hirq, hsl, hfp, hrepair, hnow, hlehrNow⟩ :=
    coldHeld_portReset_frame t
  have hl : t.lehr = s.lehr := by rw [hmoded]; rfl
  rw [hl] at hlehr
  have hplan : (coldHeld (portReset t)).lehr.planDue = true ↔
      s.lehr.planDue = true ∨ ∃ p, s.lehr.pass = some p ∧ p.reason = 1 := by
    rw [hlehr]
    cases s.lehr.pass <;> simp
  refine ⟨hcold, hport, hcore, hretry, ?_, hplan, hagt, hcab, hstw, hhutch, hnq, hirq, hsl, hfp, ?_, ?_, ?_,
    (mode_portReset t).trans hmode, fun h => ?_, fun h => ?_, (domainsReset_portReset t).of_regsBut hregs'⟩
  · rw [hlehr]
  · rw [hrepair, hmoded]; rfl
  · rw [hnow, hmoded]; rfl
  · rw [hlehrNow, hmoded]; rfl
  · obtain ⟨hone, hprev⟩ := hforced h
    exact ⟨(fld_portReset_lehr t (f := Fld.MODE_FORCED) ⟨rfl, rfl⟩ rfl).trans hone,
      (fld_portReset_lehr t (f := Fld.MODE_PREV) ⟨rfl, rfl⟩ rfl).trans hprev⟩
  · exact (fld_portReset_lehr t (f := Fld.MODE_RETAINED) ⟨rfl, rfl⟩ rfl).trans (hretained h)

/-- The effect of a cold reset while a start is in progress. -/
theorem coldAssert_of_start (hv : s.vaux = true) (hc : s.coldRst = false) {r : StartRun} (hrun : s.start.run = some r) :
    let u := coldAssert (Begun s)
    u.coldRst = true ∧ u.portUp = false ∧ u.coreUp = false ∧ u.start.run = none ∧ u.start.retry = none ∧
    u.fld Fld.START_STATUS_CODE = 8 ∧ u.mode = (if 2 ≤ s.mode then 2 else s.mode) := by
  have hfailed := resetFailed_startFail (s := Begun s) hrun
  dsimp only
  rw [coldAssert_eq (s := Begun s) hv hc]
  generalize startFail (Begun s) 8 = f at hfailed
  obtain ⟨hmoded, hregs, hmode, -, -⟩ := coldMode_spec (s := f) (hfailed.vaux.trans hv)
  generalize coldMode f = t at *
  obtain ⟨hcold, hport, hcore, hretry, hstart, -⟩ := coldHeld_portReset_frame t
  refine ⟨hcold, hport, hcore, ?_, hretry, ?_, ?_⟩
  · rw [hstart, hmoded]
    exact hfailed.run
  · exact (fld_portReset_lehr t (f := Fld.START_STATUS_CODE) ⟨rfl, rfl⟩ rfl).trans
      ((hregs.fld _ 0 0 (by decide)).trans hfailed.code)
  · exact (mode_portReset t).trans (hmode.trans (by rw [hfailed.mode]; rfl))

end ColdAssert

end Sys2Proof.Machine

namespace Sys2Proof.Machine

/-! The statement about a cold reset: its release, and the whole statement. -/

section ColdRelease

variable {s : State}

/-- COLD_RST_N is released. -/
def coldPin (s : State) : State := { s with coldRst := false }

/-- The state in which a cold start begins: the straps are sampled, the rails are asked for, and FATAL is clear. -/
def coldReady (s : State) (inst src : Nat) : State :=
  coldClear { strapped (coldPin s) inst src with lehr := { (strapped (coldPin s) inst src).lehr with railReq := true } }

theorem coldRelease_idle (h : s.vaux = false ∨ s.coldRst = false) (inst src : Nat) (test : SelfTest) :
    coldRelease s inst src test = s := by
  rw [coldRelease, if_pos (by simpa using h)]

theorem coldRelease_cases (hv : s.vaux = true) (hc : s.coldRst = true) (inst src : Nat) (test : SelfTest) :
    coldRelease s inst src test =
      if s.fld Fld.LEHR_STATUS_SELFCHK = 0 ∨ s.fld Fld.START_STATUS_EXHAUSTED = 1 then strapped (coldPin s) inst src
      else startBegin (coldReady s inst src) 0 test := by
  have hskip : ¬ (! s.vaux ∨ ! s.coldRst) := by simp [hv, hc]
  have hregs := (strapped_step (coldPin s) inst src).2
  have hself : (strapped (coldPin s) inst src).fld Fld.LEHR_STATUS_SELFCHK = s.fld Fld.LEHR_STATUS_SELFCHK :=
    hregs.fld _ 0 0 (by decide)
  have hexh : (strapped (coldPin s) inst src).fld Fld.START_STATUS_EXHAUSTED = s.fld Fld.START_STATUS_EXHAUSTED :=
    hregs.fld _ 0 0 (by decide)
  rw [coldRelease, if_neg hskip, ← hself, ← hexh]
  rfl

theorem coldClear_step (s : State) :
    coldClear s = { s with regs := (coldClear s).regs, fault := { s.fault with pulse := false, heldPin := false } } ∧
    RegsBut s (coldClear s) [RegName.FC_STATUS.addr 0 0] :=
  ⟨rfl, fun d k hk => regsBut_setFld { s with fault := { s.fault with pulse := false, heldPin := false } }
    Fld.FC_STATUS_FATAL 0 0 0 d k hk⟩

theorem coldReady_spec (inst : BitVec 8) (src : BitVec 2) :
    let u := coldReady (Begun s) inst.toNat src.toNat
    u = { Begun s with
      coldRst := false, regs := u.regs, lehr := { s.lehr with railReq := true }
      fault := { s.fault with pulse := false, heldPin := false } } ∧
    RegsBut s u [RegName.STRAP.addr 0 0, RegName.FC_STATUS.addr 0 0] ∧ u.fld Fld.STRAP_INST_ID = inst.toNat ∧
    u.fld Fld.STRAP_PARISON_SRC = src.toNat := by
  obtain ⟨hs, hregs⟩ := strapped_step (coldPin (Begun s)) inst.toNat src.toNat
  obtain ⟨hinst, hsrc⟩ := strapped_flds (coldPin (Begun s)) inst src
  have hregs' : RegsBut s (strapped (coldPin (Begun s)) inst.toNat src.toNat) [RegName.STRAP.addr 0 0] :=
    fun d k hk => hregs d k hk
  unfold coldReady
  generalize strapped (coldPin (Begun s)) inst.toNat src.toNat = t at *
  obtain ⟨hc, hcregs⟩ := coldClear_step { t with lehr := { t.lehr with railReq := true } }
  have hcregs' : RegsBut t (coldClear { t with lehr := { t.lehr with railReq := true } }) [RegName.FC_STATUS.addr 0 0] :=
    fun d k hk => hcregs d k hk
  generalize coldClear { t with lehr := { t.lehr with railReq := true } } = u at *
  refine ⟨?_, (hregs'.mono (by simp)).trans (hcregs'.mono (by simp)), (hcregs'.fld _ 0 0 (by decide)).trans hinst,
    (hcregs'.fld _ 0 0 (by decide)).trans hsrc⟩
  refine hc.trans ?_
  rw [hs]
  rfl

/-- The effect of a cold start. -/
theorem coldRelease_effect (hv : s.vaux = true) (hc : s.coldRst = true) (hself : s.fld Fld.LEHR_STATUS_SELFCHK = 1)
    (hexh : s.fld Fld.START_STATUS_EXHAUSTED = 0) (inst : BitVec 8) (src : BitVec 2) (test : SelfTest) :
    let u := coldRelease (Begun s) inst.toNat src.toNat test
    u.coldRst = false ∧ u.portUp = true ∧ u.coreUp = true ∧ u.now = s.lehrNow ∧ u.lehrNow = s.lehrNow ∧
    u.sleepReady = false ∧ u.fld Fld.STRAP_INST_ID = inst.toNat ∧ u.fld Fld.STRAP_PARISON_SRC = src.toNat ∧ u.mode = 2 ∧
    u.fld Fld.START_STATUS_STEP = 2 ∧ u.fld Fld.START_STATUS_KIND = 0 ∧ u.fld Fld.START_STATUS_CODE = 0 ∧
    u.fld Fld.START_CTL_MAPS_READY = 0 ∧ u.fld Fld.SLEEP_STATUS_STATE = 0 ∧
    u.lehr.railReq = true ∧ u.lehr.pass = some ⟨0, 0, false⟩ ∧
    (∃ r, u.start.run = some r ∧ r.kind = 0 ∧ r.began = s.lehrNow ∧ r.test = test) ∧
    (∀ p, p < 64 → s.fld Fld.FP_CTL_EN p = 1 →
      (u.fport p).reqCred = 32 - (s.fport p).reqQ.length ∧ (u.fport p).rspCred = 64) ∧
    (maskOf s .lehr 0 1664 = 0 → s.fld Fld.DIE_INJ_L_ARM = 0 →
      u = { Begun s with
        coldRst := false, portUp := true, coreUp := true, now := s.lehrNow, sleepReady := false, start := u.start, pt := u.pt
        regs := u.regs, cmd := u.cmd, irq := u.irq, fb := u.fb, lehr := u.lehr, port := { s.port with fp := u.port.fp }
        shadow := u.shadow, integ := u.integ, fault := { s.fault with pulse := false, heldPin := false } } ∧
      u.fld Fld.START_CNT_STARTS = min (s.fld Fld.START_CNT_STARTS + 1) 65535 ∧ u.pt.port = s.pt.port ∧
      u.fb.msgs.length = s.fb.msgs.length + 1 ∧
      RegsBut s u [RegName.FC_STATUS.addr 0 0, RegName.STRAP.addr 0 0, RegName.STRAP.addr 0 0, RegName.START_STATUS.addr 0 0,
        RegName.START_CTL.addr 0 0, RegName.START_CNT.addr 0 0, RegName.MODE.addr 0 0, RegName.MODE_REQ.addr 0 0,
        RegName.SLEEP_STATUS.addr 0 0, RegName.LEHR_IRQ.addr 0 0, RegName.CMD_RES.addr 0 0, RegName.CMD_VAL.addr 0 0]) := by
  have hgo : ¬ ((Begun s).fld Fld.LEHR_STATUS_SELFCHK = 0 ∨ (Begun s).fld Fld.START_STATUS_EXHAUSTED = 1) := by
    rintro (h | h)
    · exact absurd (hself.symm.trans h) one_ne_zero
    · exact absurd (hexh.symm.trans h) zero_ne_one
  have hrelease := coldRelease_cases (s := Begun s) hv hc inst.toNat src.toNat test
  rw [if_neg hgo] at hrelease
  obtain ⟨hready, hregs, hinst, hsrc⟩ := coldReady_spec (s := s) inst src
  dsimp only at hready ⊢
  rw [hrelease]
  generalize coldReady (Begun s) inst.toNat src.toNat = c at *
  have hselfc : c.fld Fld.LEHR_STATUS_SELFCHK = 1 := (hregs.fld _ 0 0 (by decide)).trans hself
  have hvc : c.vaux = true := by rw [hready]; exact hv
  have hen : ∀ p, c.fld Fld.FP_CTL_EN p = s.fld Fld.FP_CTL_EN p := fun p =>
    hregs.fld Fld.FP_CTL_EN p 0 (by simp only [RegName.addr, RegName.desc, List.mem_cons, List.not_mem_nil, or_false]; omega)
  obtain ⟨hu, hptport, hlater, hmode, hmaps, hsleep, hstep, hkind, hcode, ⟨r, hr, hrkind, hbegan, hrtest⟩, hgranted, hclean⟩ :=
    startBegin_effect_of_cold hvc hselfc test
  dsimp only at hu
  generalize startBegin c 0 test = u at *
  have hstrap : ∀ f : Fld, f.reg = .STRAP → u.fld f = c.fld f := fun f hf => hlater.fld f 0 0 (by rw [hf]; decide)
  have hfport : ∀ p, c.fport p = s.fport p := fun p => by rw [hready]; rfl
  have hstarts : c.fld Fld.START_CNT_STARTS = s.fld Fld.START_CNT_STARTS := hregs.fld _ 0 0 (by decide)
  obtain ⟨R, hc'⟩ : ∃ R, c = { Begun s with
      coldRst := false, regs := R, lehr := { s.lehr with railReq := true }
      fault := { s.fault with pulse := false, heldPin := false } } := ⟨_, hready⟩
  have hfields : u.coldRst = false ∧ u.portUp = true ∧ u.coreUp = true ∧ u.now = s.lehrNow ∧ u.lehrNow = s.lehrNow ∧
      u.sleepReady = false ∧ u.lehr.railReq = true ∧ u.lehr.pass = some ⟨0, 0, false⟩ ∧ c.lehrNow = s.lehrNow := by
    rw [hu, hc']
    exact ⟨rfl, rfl, rfl, rfl, rfl, rfl, rfl, rfl, rfl⟩
  obtain ⟨hcold, hport, hcore, hnow, hlehrNow, hready', hrail, hpass, hcnow⟩ := hfields
  refine ⟨hcold, hport, hcore, hnow, hlehrNow, hready', (hstrap _ rfl).trans hinst, (hstrap _ rfl).trans hsrc, hmode, hstep, hkind,
    hcode, hmaps, hsleep, hrail, hpass, ⟨r, hr, hrkind, hbegan.trans hcnow, hrtest⟩, fun p hp h => ?_, fun hmask harm => ?_⟩
  · rw [← hfport p]
    exact hgranted p hp ((hen p).trans h)
  · have hcc : CleanCount s := ⟨hmask, harm⟩
    obtain ⟨hfault, hcount, hmsgs, hfew⟩ := hclean (hcc.of_regsBut (by rw [hc']; rfl) hregs (by decide))
    rw [hstarts] at hcount
    refine ⟨?_, hcount, ?_, ?_, (hregs.mono ?_).trans (hfew.mono ?_)⟩
    · have hlehr : u.lehr = { c.lehr with pass := some ⟨0, 0, false⟩, planDue := u.lehr.planDue } := by rw [hu]
      rw [hfault, ← hlehr] at hu
      refine hu.trans ?_
      rw [hc']
      rfl
    · rw [hptport, hc']
      rfl
    · rw [hmsgs, hc']
      rfl
    · decide
    · decide

end ColdRelease

/-- Settles O8: a cold reset is a change of mode and a reset of PORT and CORE, and its release begins a cold start; the loss of
VAUX leaves the state after reset. -/
theorem supplyAndColdReset : Obligations.SupplyAndColdReset := by
  unfold Obligations.SupplyAndColdReset
  intro s hdft
  refine ⟨fun inst src xs ok lref => ⟨fun hv => ?_, fun hv => ?_⟩, fun hsorted => ?_,
    fun hidle => completes_coldAssert hdft (coldAssert_idle (s := Begun s) hidle),
    fun hv hc hrun => completes_coldAssert hdft (coldAssert_effect hv hc hrun), fun hv hc hrun => ?_,
    fun inst src test => ⟨fun hidle => ?_, fun hv hc hno => ?_, fun hv hc hself hexh => ?_⟩⟩
  case refine_1 =>
    exact completes_run (fun t => vauxRise t inst.toNat src.toNat xs ok lref) rfl hdft (if_pos hv)
  case refine_2 =>
    exact completes_run (fun t => vauxRise t inst.toNat src.toNat xs ok lref) rfl hdft (vauxRise_effect hv inst src xs ok lref)
  case refine_3 => exact completes_run vauxLoss rfl hdft ⟨rfl, vauxLoss_fport hsorted⟩
  case refine_4 =>
    obtain ⟨r, hr⟩ := Option.ne_none_iff_exists'.1 hrun
    exact completes_coldAssert hdft (coldAssert_of_start hv hc hr)
  case refine_5 =>
    exact completes_run (fun t => coldRelease t inst.toNat src.toNat test) rfl hdft (coldRelease_idle (s := Begun s) hidle _ _ _)
  case refine_6 =>
    refine completes_run (fun t => coldRelease t inst.toNat src.toNat test) rfl hdft ?_
    obtain ⟨hs, hregs⟩ := strapped_step (coldPin (Begun s)) inst.toNat src.toNat
    obtain ⟨hinst, hsrc⟩ := strapped_flds (coldPin (Begun s)) inst src
    have hstays : (Begun s).fld Fld.LEHR_STATUS_SELFCHK = 0 ∨ (Begun s).fld Fld.START_STATUS_EXHAUSTED = 1 := hno
    rw [coldRelease_cases (s := Begun s) hv hc, if_pos hstays]
    exact ⟨hs, hinst, hsrc, fun d k hk => (hregs.mono (l' := [RegName.STRAP.addr 0 0, RegName.STRAP.addr 0 0]) (by simp)) d k hk⟩
  case refine_7 =>
    exact completes_run (fun t => coldRelease t inst.toNat src.toNat test) rfl hdft
      (coldRelease_effect hv hc hself hexh inst src test)

end Sys2Proof.Machine

namespace Sys2Proof.Machine

/-! The statement about DFT_MODE (R38). -/

/-- Every command is the run of an operation. -/
theorem exec_eq_run (c : Instr) : ∃ f : State → State, ∀ s, exec c s = run f s := by
  unfold exec
  cases c <;> exact ⟨_, fun _ => rfl⟩

theorem exec_dft (c : Instr) {s : State} (h : s.dft = true) : exec c s = .refused .dftMode := by
  obtain ⟨f, hf⟩ := exec_eq_run c
  rw [hf, run_dft f s h]

theorem exec_next (c : Instr) {s : State} (h : s.dft = false) : ∃ t, exec c s = .next t := by
  obtain ⟨f, hf⟩ := exec_eq_run c
  exact ⟨_, (hf s).trans (run_next f s h)⟩

/-- A step answers a next state: a tick on an empty queue, else the command at the front (R38). -/
theorem neverStops (s : State) : NeverStops s := by
  intro hdft
  rcases hpending : s.pending with _ | ⟨c, l⟩
  · exact ⟨_, step_nil hpending⟩
  · obtain ⟨t, ht⟩ := exec_next c (s := { s with pending := l }) hdft
    exact ⟨t, by rw [step, hpending]; exact ht⟩

/-- Settles O2: every command is a run, and a run is refused with DFT_MODE = 1 alone. -/
theorem dftIsTheOnlyStop : Obligations.DftIsTheOnlyStop :=
  ⟨fun c _ hdft => exec_dft c hdft, fun c _ hdft => exec_next c hdft, neverStops⟩

end Sys2Proof.Machine

namespace Sys2Proof.Machine

/-! SUPPORT. The wake sources that fire (R471, R473). -/

/-- A sum of powers of two, one for each number that satisfies a test, has their bits. -/
theorem testBit_foldl_two_pow (p : Nat → Bool) (n : Nat) :
    let m := (List.range n).foldl (fun a k => if p k then a + 2 ^ k else a) 0
    m < 2 ^ n ∧ ∀ k, m.testBit k = (decide (k < n) && p k) := by
  induction n with
  | zero => simp
  | succ n ih =>
    simp only [List.range_succ, List.foldl_append, List.foldl_cons, List.foldl_nil]
    generalize (List.range n).foldl (fun a k => if p k then a + 2 ^ k else a) 0 = m at ih
    obtain ⟨hlt, hbit⟩ := ih
    have hsum : m + 2 ^ n = 2 ^ n ||| m := by
      rw [Nat.add_comm]
      simpa using Nat.two_pow_add_eq_or_of_lt hlt 1
    have hpow : 2 ^ (n + 1) = 2 ^ n + 2 ^ n := by omega
    cases hp : p n
    · refine ⟨by simp; omega, fun k => ?_⟩
      by_cases hk : k = n
      · simp [hbit, hk, hp]
      · have hiff : k < n + 1 ↔ k < n := by omega
        simp [hbit, hiff]
    · refine ⟨by simp; omega, fun k => ?_⟩
      rw [if_pos rfl, hsum, Nat.testBit_or, Nat.testBit_two_pow, hbit]
      by_cases hk : n = k
      · simp [← hk, hp]
      · have hiff : k < n + 1 ↔ k < n := by omega
        simp [hk, hiff]

/-- The mask of those wake sources of a list that can fire. -/
def wakeMask (s : State) (ks : List Nat) : Nat :=
  (List.range 7).foldl (fun a k => if (ks.filter (wakeEnabled s)).contains k then a + 2 ^ k else a) 0

theorem wakeMask_lt (s : State) (ks : List Nat) : wakeMask s ks < 128 := (testBit_foldl_two_pow _ 7).1

theorem bit1_wakeMask (s : State) (ks : List Nat) {k : Nat} (hk : k < 7) :
    bit1 (wakeMask s ks) k = (ks.contains k && wakeEnabled s k) := by
  have hbit := (testBit_foldl_two_pow (ks.filter (wakeEnabled s)).contains 7).2 k
  rw [bit1_eq_testBit]
  refine hbit.trans ?_
  rw [decide_eq_true hk, Bool.true_and, Bool.eq_iff_iff]
  simp

theorem wakeMask_eq_zero_iff (s : State) (ks : List Nat) :
    wakeMask s ks = 0 ↔ ¬ ∃ k, k < 7 ∧ (ks.contains k && wakeEnabled s k) = true := by
  refine ⟨fun h ⟨k, hk, hfires⟩ => ?_, fun h => Nat.eq_of_testBit_eq fun k => ?_⟩
  · rw [← bit1_wakeMask s ks hk, h, bit1_eq_testBit, Nat.zero_testBit] at hfires
    exact Bool.false_ne_true hfires
  · rw [Nat.zero_testBit]
    by_cases hk : k < 7
    · rw [← bit1_eq_testBit, bit1_wakeMask s ks hk]
      exact Bool.eq_false_iff.2 fun hfires => h ⟨k, hk, hfires⟩
    · exact Nat.testBit_lt_two_pow (lt_of_lt_of_le (wakeMask_lt s ks) (Nat.pow_le_pow_right (n := 2) (by decide) (Nat.not_lt.1 hk)))

/-- The sources recorded with the wake (R473). -/
def wokenBy (s : State) (m : Nat) : State :=
  sleepRecord ((s.setFld Fld.SLEEP_STATUS_STATE 4).setFld Fld.SLEEP_STATUS_SRC m) 2 m

theorem wakeFires_idle {s : State} {ks : List Nat} (h : wakeMask s ks = 0 ∨ (s.fld Fld.SLEEP_STATUS_STATE ≠ 1 ∧
    s.fld Fld.SLEEP_STATUS_STATE ≠ 2 ∧ s.fld Fld.SLEEP_STATUS_STATE ≠ 3)) : wakeFires s ks = s := by
  unfold wakeFires
  change (if wakeMask s ks = 0 then s else _) = s
  obtain hm | ⟨h1, h2, h3⟩ := h
  · exact if_pos hm
  · split
    · rfl
    · split
      next heq => exact absurd heq h1
      next heq => exact absurd heq h2
      next heq => exact absurd heq h3
      next => rfl

section
variable {s : State} {ks : List Nat} (hm : wakeMask s ks ≠ 0)
include hm

/-- While the sleep is pending a source is noted (R472). -/
theorem wakeFires_pending (h : s.fld Fld.SLEEP_STATUS_STATE = 1) :
    wakeFires s ks = { s with lehr := { s.lehr with fired := s.lehr.fired ||| wakeMask s ks } } := by
  unfold wakeFires
  change (if wakeMask s ks = 0 then s else _) = _
  rw [if_neg hm, h]
  rfl

/-- Asleep, a source wakes the block, and RAIL_REQ rises where the rails fell (R473, R474). -/
theorem wakeFires_asleep (h : s.fld Fld.SLEEP_STATUS_STATE = 2 ∨ s.fld Fld.SLEEP_STATUS_STATE = 3) :
    wakeFires s ks = { wokenBy s (wakeMask s ks) with
      lehr := if s.fld Fld.SLEEP_STATUS_STATE = 3 then { s.lehr with railReq := true } else s.lehr } := by
  unfold wakeFires
  change (if wakeMask s ks = 0 then s else _) = _
  rw [if_neg hm]
  obtain h | h := h <;> rw [h] <;> rfl

end

/-- A wake that is recorded: STATE is WAKING, SRC names the sources, and a record follows (R473). -/
theorem wokenBy_spec (s : State) {m : Nat} (hm : m < 128) :
    let u := wokenBy s m
    u = { s with regs := u.regs, fb := u.fb } ∧ RegsBut s u [RegName.SLEEP_STATUS.addr 0 0] ∧
    u.fld Fld.SLEEP_STATUS_STATE = 4 ∧ u.fld Fld.SLEEP_STATUS_SRC = m ∧ u.fb.msgs.length = s.fb.msgs.length + 1 := by
  have hstep : RegStep s ((s.setFld Fld.SLEEP_STATUS_STATE 4).setFld Fld.SLEEP_STATUS_SRC m) [RegName.SLEEP_STATUS.addr 0 0] :=
    ((RegStep.refl s _).setFld Fld.SLEEP_STATUS_STATE 4 (by simp)).setFld Fld.SLEEP_STATUS_SRC m (by simp)
  have hstate : ((s.setFld Fld.SLEEP_STATUS_STATE 4).setFld Fld.SLEEP_STATUS_SRC m).fld Fld.SLEEP_STATUS_STATE = 4 := by
    simp (disch := decide) only [fld_setFld_disj, fld_setFld_same]
    rfl
  have hsrc : ((s.setFld Fld.SLEEP_STATUS_STATE 4).setFld Fld.SLEEP_STATUS_SRC m).fld Fld.SLEEP_STATUS_SRC = m :=
    (fld_setFld_same _ Fld.SLEEP_STATUS_SRC m 0 0 (by decide)).trans (Nat.mod_eq_of_lt hm)
  unfold wokenBy
  generalize (s.setFld Fld.SLEEP_STATUS_STATE 4).setFld Fld.SLEEP_STATUS_SRC m = t at *
  obtain ⟨ht, hregs⟩ := hstep
  refine ⟨?_, hregs, hstate, hsrc, ?_⟩
  · rw [ht]
    rfl
  · rw [ht]
    exact List.length_append

/-! ### The pins and the other sources -/

/-- The sources of a WAKE_SOURCE_FIRE: those that it names, and the pins that rise (R471). -/
def wakeList (s : State) (srcs : BitVec 5) (pins : BitVec 2) : List Nat :=
  (List.range 5).filter (fun k => k ≠ 2 && srcs.getLsbD k) ++
    ((List.range 2).filter (fun k => pins.getLsbD k && ! s.wakeIn.getLsbD k)).map (· + 5)

theorem contains_wakeList (s : State) (srcs : BitVec 5) (pins : BitVec 2) {k : Nat} (hk : k < 7) :
    (wakeList s srcs pins).contains k = (decide (k < 5) && decide (k ≠ 2) && srcs.getLsbD k ||
      decide (5 ≤ k) && pins.getLsbD (k - 5) && ! s.wakeIn.getLsbD (k - 5)) := by
  rw [Bool.eq_iff_iff]
  simp only [wakeList, List.contains_iff_mem, List.mem_append, List.mem_filter, List.mem_map, List.mem_range, Bool.or_eq_true,
    Bool.and_eq_true, decide_eq_true_eq, and_assoc]
  refine or_congr_right ⟨?_, fun ⟨hge, hpin, hlow⟩ => ⟨k - 5, by omega, hpin, hlow, by omega⟩⟩
  rintro ⟨a, -, hpin, hlow, rfl⟩
  exact ⟨by omega, hpin, hlow⟩

/-- The time to which the TIMER source takes the time base. -/
def wakeTime (s : State) (srcs : BitVec 5) : Nat := if srcs.getLsbD 3 then s.fld Fld.WAKE_TIME_TIME else 0

/-- The pins have their new levels, and the time is that of the sources. -/
def wakeNoted (s : State) (srcs : BitVec 5) (pins : BitVec 2) : State :=
  { s with wakeIn := pins, now := max s.now (wakeTime s srcs), lehrNow := max s.lehrNow (wakeTime s srcs) }

theorem wakeSources_eq (s : State) (srcs : BitVec 5) (pins : BitVec 2) :
    wakeSources s srcs pins = wakeFires (wakeNoted s srcs pins) (wakeList s srcs pins) := by
  unfold wakeSources wakeNoted wakeTime
  cases srcs.getLsbD 3
  · simp only [Bool.false_eq_true, if_false, Nat.max_zero]
    rfl
  · rfl

/-! ### WAKE_SOURCE_FIRE -/

/-- Whether source `k` is among those of a WAKE_SOURCE_FIRE and can fire (R471). -/
def sourceFires (s : State) (srcs : BitVec 5) (pins : BitVec 2) (k : Nat) : Bool :=
  (decide (k < 5) && decide (k ≠ 2) && srcs.getLsbD k ||
    decide (5 ≤ k) && pins.getLsbD (k - 5) && ! s.wakeIn.getLsbD (k - 5)) && wakeEnabled s k

/-- What a WAKE_SOURCE_FIRE leaves unchanged. -/
def WakeFrame (s : State) (srcs : BitVec 5) (pins : BitVec 2) (u : State) : Prop :=
  u = { Begun s with
    wakeIn := pins, now := max s.now (wakeTime s srcs), lehrNow := max s.lehrNow (wakeTime s srcs), regs := u.regs, fb := u.fb
    lehr := u.lehr } ∧ RegsBut s u [fldAt Fld.SLEEP_STATUS_STATE]

/-- The mask of the sources of a WAKE_SOURCE_FIRE. -/
def sourceMask (s : State) (srcs : BitVec 5) (pins : BitVec 2) : Nat :=
  wakeMask (wakeNoted (Begun s) srcs pins) (wakeList (Begun s) srcs pins)

theorem bit1_sourceMask (s : State) (srcs : BitVec 5) (pins : BitVec 2) {k : Nat} (hk : k < 7) :
    bit1 (sourceMask s srcs pins) k = sourceFires s srcs pins k := by
  rw [sourceMask, bit1_wakeMask _ _ hk, contains_wakeList _ _ _ hk]
  rfl

theorem sourceMask_eq_zero_iff (s : State) (srcs : BitVec 5) (pins : BitVec 2) :
    sourceMask s srcs pins = 0 ↔ ¬ ∃ k, k < 7 ∧ sourceFires s srcs pins k = true := by
  refine (wakeMask_eq_zero_iff _ _).trans (not_congr (exists_congr fun k => and_congr_right fun hk => ?_))
  rw [contains_wakeList _ _ _ hk]
  rfl

section
variable {s : State} {srcs : BitVec 5} {pins : BitVec 2}

theorem completes_wakeSources (hdft : s.dft = false) {P : State → Prop}
    (h : P (wakeFires (wakeNoted (Begun s) srcs pins) (wakeList (Begun s) srcs pins))) :
    Completes (.wakeSourceFire srcs pins) s P :=
  completes_run (fun t => wakeSources t srcs pins) rfl hdft (by rw [wakeSources_eq]; exact h)

theorem completes_wake_idle (hdft : s.dft = false)
    (h : ¬ (∃ k, k < 7 ∧ sourceFires s srcs pins k = true) ∨ (s.fld Fld.SLEEP_STATUS_STATE ≠ 1 ∧
      s.fld Fld.SLEEP_STATUS_STATE ≠ 2 ∧ s.fld Fld.SLEEP_STATUS_STATE ≠ 3)) :
    Completes (.wakeSourceFire srcs pins) s (fun u =>
      WakeFrame s srcs pins u ∧ u.regs = s.regs ∧ u.fb = s.fb ∧ u.lehr = s.lehr) := by
  refine completes_wakeSources hdft ?_
  rw [wakeFires_idle (s := wakeNoted (Begun s) srcs pins) (h.imp_left (sourceMask_eq_zero_iff s srcs pins).2)]
  exact ⟨⟨rfl, RegsBut.refl s _⟩, rfl, rfl, rfl⟩

variable (hsome : ∃ k, k < 7 ∧ sourceFires s srcs pins k = true)
include hsome

theorem completes_wake_pending (hdft : s.dft = false) (h : s.fld Fld.SLEEP_STATUS_STATE = 1) :
    Completes (.wakeSourceFire srcs pins) s (fun u => WakeFrame s srcs pins u ∧ u.regs = s.regs ∧ u.fb = s.fb ∧
      u.lehr = { s.lehr with fired := u.lehr.fired } ∧
      ∀ k, k < 7 → bit1 u.lehr.fired k = (bit1 s.lehr.fired k || sourceFires s srcs pins k)) := by
  have hm : sourceMask s srcs pins ≠ 0 := fun hm => (sourceMask_eq_zero_iff s srcs pins).1 hm hsome
  refine completes_wakeSources hdft ?_
  rw [wakeFires_pending (s := wakeNoted (Begun s) srcs pins) hm h]
  refine ⟨⟨rfl, RegsBut.refl s _⟩, rfl, rfl, rfl, fun k hk => ?_⟩
  rw [← bit1_sourceMask s srcs pins hk]
  simp only [bit1_eq_testBit, ← Nat.testBit_or]
  rfl

theorem completes_wake_asleep (hdft : s.dft = false) (h : s.fld Fld.SLEEP_STATUS_STATE = 2 ∨ s.fld Fld.SLEEP_STATUS_STATE = 3) :
    Completes (.wakeSourceFire srcs pins) s (fun u => WakeFrame s srcs pins u ∧ u.fld Fld.SLEEP_STATUS_STATE = 4 ∧
      (∀ k, k < 7 → bit1 (u.fld Fld.SLEEP_STATUS_SRC) k = sourceFires s srcs pins k) ∧
      u.fb.msgs.length = s.fb.msgs.length + 1 ∧
      u.lehr = if s.fld Fld.SLEEP_STATUS_STATE = 3 then { s.lehr with railReq := true } else s.lehr) := by
  have hm : sourceMask s srcs pins ≠ 0 := fun hm => (sourceMask_eq_zero_iff s srcs pins).1 hm hsome
  refine completes_wakeSources hdft ?_
  rw [wakeFires_asleep (s := wakeNoted (Begun s) srcs pins) hm h]
  obtain ⟨hu, hregs, hstate, hsrc, hmsgs⟩ := wokenBy_spec (wakeNoted (Begun s) srcs pins) (wakeMask_lt _ (wakeList (Begun s) srcs pins))
  refine ⟨⟨?_, hregs⟩, hstate, fun k hk => ?_, hmsgs, rfl⟩
  · dsimp only at hu ⊢
    rw [hu]
    rfl
  · rw [← bit1_sourceMask s srcs pins hk]
    exact congrArg (bit1 · k) hsrc

end

/-! ### SLEEP_CTL.WAKE -/

/-- A write that brings the RW bits as they stand leaves a register none of whose bits a 1 clears or sets. -/
theorem written_of_agree {r : RegName} (hacc : ∀ f ∈ r.fields, f.acc ≠ .w1c ∧ f.acc ≠ .w1s) {old v : BitVec 64}
    (h : ∀ k, (r.accMask (· = .rw)).getLsbD k = true → v.getLsbD k = old.getLsbD k) :
    r.written old v (BitVec.allOnes 64) = old := by
  have hclear : ∀ k, (r.accMask (· = .w1c)).getLsbD k = false := fun k => by
    rw [accMask_getLsbD, List.any_eq_false]
    intro f hf
    simp [(hacc f hf).1]
  have hset : ∀ k, (r.accMask (· = .w1s)).getLsbD k = false := fun k => by
    rw [accMask_getLsbD, List.any_eq_false]
    intro f hf
    simp [(hacc f hf).2]
  apply BitVec.eq_of_getLsbD_eq
  intro k hk
  simp only [RegName.written, BitVec.and_allOnes, BitVec.getLsbD_or, BitVec.getLsbD_and, BitVec.getLsbD_not, hclear, hset]
  cases hrw : (r.accMask (· = .rw)).getLsbD k
  · simp [hk]
  · simp [h k hrw]

/-- The word of SLEEP_CTL with WAKE = 1 and its RW bits as they stand. -/
def sleepCtlWord (s : State) : BitVec 32 :=
  (overlay (s.reg .SLEEP_CTL &&& RegName.SLEEP_CTL.accMask (· == .rw)) [(Fld.SLEEP_CTL_WAKE, 1)]).setWidth 32

theorem bit1_sleepCtlWord (s : State) : bit1 (sleepCtlWord s).toNat 8 = true := by
  rw [bit1_eq_testBit, ← BitVec.getLsbD]
  simp [sleepCtlWord, overlay, put_bit]

theorem written_sleepCtlWord (s : State) :
    RegName.SLEEP_CTL.written (s.reg .SLEEP_CTL) (BitVec.ofNat 64 (sleepCtlWord s).toNat) (BitVec.allOnes 64) = s.reg .SLEEP_CTL := by
  refine written_of_agree (by decide) fun k hrw => ?_
  have hlow : k < 7 := by
    rw [accMask_getLsbD] at hrw
    simp [RegName.fields, mask_bit] at hrw
    omega
  have hbit : (sleepCtlWord s).getLsbD k = (s.reg .SLEEP_CTL).getLsbD k := by
    have hrw' : (RegName.SLEEP_CTL.accMask (· == .rw)).getLsbD k = true := hrw
    have hk : k < 32 := by omega
    have hout : ¬ 8 ≤ k := by omega
    simp [sleepCtlWord, overlay, put_bit, mask_bit, hrw', hk, hout]
  rw [← hbit, BitVec.getLsbD_ofNat, BitVec.getLsbD]
  simp
  omega

/-- Writing SLEEP_CTL.WAKE leaves the word of SLEEP_CTL and fires MGMT (R482). -/
theorem portSet_wake {s : State} (hv : s.vaux = true) :
    portSet s .SLEEP_CTL 0 [(Fld.SLEEP_CTL_WAKE, 1)] = wakeFires (s.setReg .SLEEP_CTL (s.reg .SLEEP_CTL)) [2] := by
  have hd : domUp s RegName.SLEEP_CTL.desc.dom = true := by simp [domUp, RegName.desc, hv]
  have hfires : portSet s .SLEEP_CTL 0 [(Fld.SLEEP_CTL_WAKE, 1)] =
      if bit1 (sleepCtlWord s).toNat 8 then wakeFires (plainWrite s .SLEEP_CTL (BitVec.ofNat 64 (sleepCtlWord s).toNat) 0 0) [2]
      else plainWrite s .SLEEP_CTL (BitVec.ofNat 64 (sleepCtlWord s).toNat) 0 0 :=
    portWrite_addr (r := .SLEEP_CTL) (i := 0) (j := 0) Nat.one_pos Nat.one_pos hd rfl _
  rw [hfires, if_pos (bit1_sleepCtlWord s), plainWrite, written_sleepCtlWord]

/-- MGMT fires while the attempts are not exhausted (R471, R512). -/
theorem wakeMask_mgmt {s : State} (hv : s.vaux = true) :
    wakeMask s [2] = if s.fld Fld.START_STATUS_EXHAUSTED = 0 then 4 else 0 := by
  have hmgmt : wakeEnabled s 2 = decide (s.fld Fld.START_STATUS_EXHAUSTED = 0) := by
    simp [wakeEnabled, hv, beq_eq_decide]
  unfold wakeMask
  rw [List.filter_singleton, hmgmt]
  by_cases h : s.fld Fld.START_STATUS_EXHAUSTED = 0
  · simp only [h, decide_true, if_true, cond_true]
    decide
  · simp only [h, decide_false, if_false, cond_false]
    decide

/-- The state in which SLEEP_CTL has been written, with the word it held. -/
def wakeWritten (s : State) : State := (Begun s).setReg .SLEEP_CTL (s.reg .SLEEP_CTL)

theorem wakeWritten_step (s : State) : RegStep (Begun s) (wakeWritten s) [RegName.SLEEP_CTL.addr 0 0] :=
  ⟨rfl, regsBut_setReg (Begun s) .SLEEP_CTL _ 0 0⟩

theorem wakeWritten_reg (s : State) : (wakeWritten s).reg .SLEEP_CTL = s.reg .SLEEP_CTL := reg_setReg _ _ _ _ _

theorem wakeWritten_state (s : State) : (wakeWritten s).fld Fld.SLEEP_STATUS_STATE = s.fld Fld.SLEEP_STATUS_STATE :=
  (wakeWritten_step s).2.fld _ 0 0 (by decide)

theorem wakeMask_wakeWritten {s : State} (hv : s.vaux = true) :
    wakeMask (wakeWritten s) [2] = if s.fld Fld.START_STATUS_EXHAUSTED = 0 then 4 else 0 := by
  have hexh : (wakeWritten s).fld Fld.START_STATUS_EXHAUSTED = s.fld Fld.START_STATUS_EXHAUSTED :=
    (wakeWritten_step s).2.fld _ 0 0 (by decide)
  rw [wakeMask_mgmt (s := wakeWritten s) hv, hexh]

section
variable {s : State} (hdft : s.dft = false) (hv : s.vaux = true)
include hdft hv

theorem completes_sleepCtlWake {P : State → Prop} (h : P (wakeFires (wakeWritten s) [2])) : Completes .sleepCtlWake s P :=
  completes_run (fun t => portSet t .SLEEP_CTL 0 [(Fld.SLEEP_CTL_WAKE, 1)]) rfl hdft
    (by rw [portSet_wake (s := freshOut s) hv]; exact h)

theorem completes_mgmt_idle (h : s.fld Fld.START_STATUS_EXHAUSTED = 1 ∨ (s.fld Fld.SLEEP_STATUS_STATE ≠ 1 ∧
      s.fld Fld.SLEEP_STATUS_STATE ≠ 2 ∧ s.fld Fld.SLEEP_STATUS_STATE ≠ 3)) :
    Completes .sleepCtlWake s (fun u => OnlyRegs s u [fldAt Fld.SLEEP_CTL_WAKE] ∧ u.reg .SLEEP_CTL = s.reg .SLEEP_CTL) := by
  refine completes_sleepCtlWake hdft hv ?_
  have hidle : wakeFires (wakeWritten s) [2] = wakeWritten s := by
    refine wakeFires_idle ?_
    rw [wakeWritten_state, wakeMask_wakeWritten hv]
    exact h.imp_left fun hexh => if_neg (by rw [hexh]; exact one_ne_zero)
  rw [hidle]
  exact ⟨wakeWritten_step s, wakeWritten_reg s⟩

variable (hexh : s.fld Fld.START_STATUS_EXHAUSTED = 0)
include hexh

theorem completes_mgmt_pending (h : s.fld Fld.SLEEP_STATUS_STATE = 1) : Completes .sleepCtlWake s (fun u =>
    u = { Begun s with regs := u.regs, lehr := { s.lehr with fired := s.lehr.fired ||| 4 } } ∧
    RegsBut s u [fldAt Fld.SLEEP_CTL_WAKE] ∧ u.reg .SLEEP_CTL = s.reg .SLEEP_CTL) := by
  refine completes_sleepCtlWake hdft hv ?_
  have hmask := wakeMask_wakeWritten hv
  rw [if_pos hexh] at hmask
  rw [wakeFires_pending (by rw [hmask]; decide) ((wakeWritten_state s).trans h), hmask]
  exact ⟨rfl, (wakeWritten_step s).2, wakeWritten_reg s⟩

theorem completes_mgmt_asleep (h : s.fld Fld.SLEEP_STATUS_STATE = 2 ∨ s.fld Fld.SLEEP_STATUS_STATE = 3) :
    Completes .sleepCtlWake s (fun u => u = { Begun s with regs := u.regs, fb := u.fb, lehr := u.lehr } ∧
      u.fld Fld.SLEEP_STATUS_STATE = 4 ∧ u.fld Fld.SLEEP_STATUS_SRC = 4 ∧
      RegsBut s u [fldAt Fld.SLEEP_STATUS_STATE, fldAt Fld.SLEEP_CTL_WAKE] ∧ u.reg .SLEEP_CTL = s.reg .SLEEP_CTL ∧
      u.lehr = if s.fld Fld.SLEEP_STATUS_STATE = 3 then { s.lehr with railReq := true } else s.lehr) := by
  refine completes_sleepCtlWake hdft hv ?_
  have hmask := wakeMask_wakeWritten hv
  have hstate := wakeWritten_state s
  rw [if_pos hexh] at hmask
  rw [wakeFires_asleep (by rw [hmask]; decide) (by rw [hstate]; exact h), hmask, hstate]
  obtain ⟨hu, hregs, hwaking, hsrc, -⟩ := wokenBy_spec (wakeWritten s) (m := 4) (by decide)
  have hctl : (wokenBy (wakeWritten s) 4).reg .SLEEP_CTL = s.reg .SLEEP_CTL :=
    (hregs _ _ (by decide)).trans (wakeWritten_reg s)
  have hall : RegsBut s (wokenBy (wakeWritten s) 4) [fldAt Fld.SLEEP_STATUS_STATE, fldAt Fld.SLEEP_CTL_WAKE] := fun d k hk =>
    (((wakeWritten_step s).2.mono (by simp [fldAt])).trans (hregs.mono (by simp [fldAt]))) d k hk
  refine ⟨?_, hwaking, hsrc, hall, hctl, rfl⟩
  dsimp only at hu ⊢
  rw [hu]
  rfl

end

end Sys2Proof.Machine

namespace Sys2Proof.Machine

/-! SUPPORT. A reset of CORE with retention (R508). -/

/-- A map whose entries keep their keys reads, where its entries stay as they are, as it did. -/
theorem getD_filterMap_of_key {α : Type} (d : Nat → α) (m : SMap α) {g : Nat × α → Option (Nat × α)} {k : Nat}
    (hkey : ∀ e e', g e = some e' → e'.1 = e.1) (hk : ∀ v, g (k, v) = some (k, v)) :
    SMap.getD d (m.filterMap g) k = SMap.getD d m k := by
  induction m with
  | nil => rfl
  | cons e m ih =>
    obtain ⟨j, v⟩ := e
    by_cases hj : j = k
    · subst hj
      simp [hk, SMap.getD]
    · cases hg : g (j, v) with
      | none => simp [hg, SMap.getD, hj, ih]
      | some e' =>
        obtain ⟨j', v'⟩ := e'
        have hj' : j' = j := hkey _ _ hg
        subst hj'
        simp [hg, SMap.getD, hj, ih]

/-- With retention a reset of CORE leaves the registers of the other domains alone. -/
theorem reg_coreRegs_kept (s : State) {r : RegName} {i j : Nat} (h : IsReg r i j) (hr : r.desc.dom ≠ .core) :
    (coreRegs s true).reg r i j = s.reg r i j := by
  have hloc : locate (r.addr i j) = some (r, i, j, 0) := h
  refine getD_filterMap_of_key _ s.regs (fun e e' he => ?_) (fun v => ?_)
  · dsimp only at he
    repeat' split at he
    all_goals simp_all
    all_goals rw [← he]
  · simp only [hloc]
    exact if_pos hr

/-- A reset of CORE with retention, field by field. -/
theorem coreReset_kept_eq (s : State) (pt : Nat) :
    let u := coreReset s true pt
    u = { s with
      regs := (failedKept (coreRegs s true) (failedOf s)).regs, hiLatch := u.hiLatch, wrHold := u.wrHold
      port := u.port, coreUp := false, sleepReady := false, work := [], frzReq := 0, walks := [], conf := u.conf
      sl := { slice0 with banks := { s.sl.banks with blocked := [], swap := none } }
      cab := { s.cab with dr := u.cab.dr }, mem := u.mem, integ := u.integ
      stw := { thr := [], lmem := s.stw.lmem }, hutch := [], nq := nq0, irq := ⟨[], []⟩, govCap := 0, govBg := 0
      fault := u.fault, pt := u.pt, start := { s.start with boot := boot0, resil := u.start.resil } } ∧
    u.port.recs = s.port.recs := by
  intro u
  have hu : u = coreReset s true pt := rfl
  clear_value u
  unfold coreReset at hu
  extract_lets failed resil closed ports parked down at hu
  obtain ⟨hclosed, hrecs, -⟩ : closed = { s with port := closed.port } ∧ closed.port.recs = s.port.recs ∧
    closed.port.hold = s.port.hold := closedPorts_eq s
  have hfailed : failed = failedOf s := rfl
  have hrecs' : parked.port.recs = s.port.recs := hrecs
  have hparked : parked = { s with port := parked.port } := by
    change { closed with port := parked.port } = _
    rw [hclosed]
  have hkept : down = failedKept (coreRegs parked true) failed := rfl
  clear_value down parked closed failed
  obtain ⟨latch, held, hdown⟩ : ∃ latch held, down = { s with
      regs := (failedKept (coreRegs s true) (failedOf s)).regs, hiLatch := latch, wrHold := held
      port := parked.port } := by
    refine ⟨(s.resetRegs (· = .core)).hiLatch, (s.resetRegs (· = .core)).wrHold, ?_⟩
    rw [hkept, hfailed, failedKept_regs, failedKept_regs_congr (u := coreRegs parked true) (s := coreRegs s true)]
    · rw [hparked]
      rfl
    · rw [hparked]
      rfl
  clear hkept
  subst hdown hu
  exact ⟨rfl, hrecs'⟩

section
variable (s : State) (pt : Nat)

theorem fld_coreReset_kept {f : Fld} {i j : Nat} (h : IsReg f.reg i j) (hr : f.reg.desc.dom ≠ .core) :
    (coreReset s true pt).fld f i j = s.fld f i j := by
  have hne : f.reg ≠ .STW_STATUS := fun h => hr (h ▸ rfl)
  have hregs : (coreReset s true pt).regs = (failedKept (coreRegs s true) (failedOf s)).regs := by rw [(coreReset_kept_eq s pt).1]
  rw [fld_congr hregs]
  exact congrArg f.get ((reg_failedKept_ne _ (fun c hc => failedOf_lt hc) h hne).trans (reg_coreRegs_kept s h hr))

theorem mode_coreReset_kept : (coreReset s true pt).mode = s.mode := by
  have hvaux : (coreReset s true pt).vaux = s.vaux := by rw [(coreReset_kept_eq s pt).1]
  have hcur := fld_coreReset_kept s pt (f := Fld.MODE_CUR) (isReg_of_lt .MODE Nat.one_pos Nat.one_pos) (by decide)
  rw [State.mode, State.mode, hvaux, hcur]

end

/-! SUPPORT. The commit of a sleep (R472, R473). -/

section
variable {s : State}

theorem completes_sleepCommit (hdft : s.dft = false) {P : State → Prop} (h : P (sleepCommit (Begun s))) :
    Completes .sleepCommit s P :=
  completes_run sleepCommit rfl hdft h

theorem completes_sleepCommit_idle (hdft : s.dft = false) (h : s.sleepReady = false ∨ s.fld Fld.SLEEP_STATUS_STATE ≠ 1) :
    Completes .sleepCommit s (fun u => u = Begun s) :=
  completes_sleepCommit hdft (if_pos (h.imp_left (by simp [·])))

theorem sleepRecord_eq (s : State) (ev src : Nat) :
    sleepRecord s ev src = { s with fb := (sleepRecord s ev src).fb } ∧
      (sleepRecord s ev src).fb.msgs.length = s.fb.msgs.length + 1 := ⟨rfl, List.length_append⟩

/-- The status of a sleep that the sources `src` abandon (R472). -/
def statusAbandoned (s : State) (src : Nat) : State :=
  ((s.setFld Fld.SLEEP_STATUS_RESULT 2).setFld Fld.SLEEP_STATUS_SRC src).setFld Fld.SLEEP_STATUS_STATE 0

/-- The sleep is no longer to commit. -/
def sleepOver (s : State) : State := { s with sleepReady := false }

/-- Sources that fired abandon the sleep: back to mode 4 (R472). -/
def abandoned (s : State) (src : Nat) : State :=
  lehrIrq ((setMode (statusAbandoned s src) 4 true).setFld Fld.MODE_REQ_STATUS 4) 4

/-- The sleep is committed, and a request that asked for it is done (R473). -/
def committed (s : State) : State := reqDone (s.setFld Fld.SLEEP_STATUS_RESULT 1)

section Commit
variable (hready : s.sleepReady = true) (hst : s.fld Fld.SLEEP_STATUS_STATE = 1)
include hready hst

theorem sleepCommit_abandoned (h : s.lehr.fired ≠ 0) :
    sleepCommit s = sleepRecord (abandoned (sleepOver s) s.lehr.fired) 3 s.lehr.fired := by
  have hgo : ¬ ((! s.sleepReady) = true ∨ s.fld Fld.SLEEP_STATUS_STATE ≠ 1) := by simp [hready, hst]
  rw [sleepCommit, if_neg hgo, if_pos h]
  rfl

theorem sleepCommit_committed (h : s.lehr.fired = 0) : sleepCommit s =
    if (committed s).fld Fld.MODE_RETAINED = 1 then
      sleepRecord (coreReset ((committed s).setFld Fld.SLEEP_STATUS_STATE 2) true 2) 0 0
    else
      let t := portReset ((committed s).setFld Fld.SLEEP_STATUS_STATE 3)
      sleepRecord { t with lehr := { t.lehr with railReq := false } } 1 0 := by
  have hgo : ¬ ((! s.sleepReady) = true ∨ s.fld Fld.SLEEP_STATUS_STATE ≠ 1) := by simp [hready, hst]
  rw [sleepCommit, if_neg hgo, if_neg (not_not.2 h)]
  rfl

end Commit

theorem lehrIrq_step (s : State) (k : Nat) : RegStep s (lehrIrq s k) [RegName.LEHR_IRQ.addr 0 0] :=
  (RegStep.refl s _).setFld Fld.LEHR_IRQ_SRC _ (by simp)

theorem bit1_lehrIrq (s : State) {k : Nat} (hk : k < 9) : bit1 ((lehrIrq s k).fld Fld.LEHR_IRQ_SRC) k = true := by
  have hlt : s.fld Fld.LEHR_IRQ_SRC ||| 2 ^ k < 2 ^ 9 :=
    Nat.or_lt_two_pow (fld_lt s Fld.LEHR_IRQ_SRC 0 0) (Nat.pow_lt_pow_right (by decide) hk)
  have hfld : (lehrIrq s k).fld Fld.LEHR_IRQ_SRC = s.fld Fld.LEHR_IRQ_SRC ||| 2 ^ k :=
    (fld_setFld_same s Fld.LEHR_IRQ_SRC _ 0 0 (by decide)).trans (Nat.mod_eq_of_lt hlt)
  rw [hfld, bit1_eq_testBit, Nat.testBit_or, Nat.testBit_two_pow_self, Bool.or_true]

theorem statusAbandoned_spec (s : State) (src : Nat) :
    let u := statusAbandoned s src
    RegStep s u [RegName.SLEEP_STATUS.addr 0 0] ∧ u.fld Fld.SLEEP_STATUS_RESULT = 2 ∧
      u.fld Fld.SLEEP_STATUS_SRC = src % 128 ∧ u.fld Fld.SLEEP_STATUS_STATE = 0 := by
  refine ⟨(((RegStep.refl s _).setFld Fld.SLEEP_STATUS_RESULT _ (by simp)).setFld
    Fld.SLEEP_STATUS_SRC _ (by simp)).setFld Fld.SLEEP_STATUS_STATE _ (by simp), ?_⟩
  unfold statusAbandoned
  simp (disch := decide) only [fld_setFld_disj, fld_setFld_same]
  exact ⟨rfl, rfl, rfl⟩

theorem setMode_step (s : State) {m : Nat} (hm : m ≠ 1) (forced : Bool) :
    RegStep s (setMode s m forced) [RegName.MODE.addr 0 0] := by
  refine ⟨?_, regsBut_setMode s m forced⟩
  rw [setMode_eq, if_neg hm]

/-- What a sleep that is abandoned writes (R472). -/
theorem abandoned_spec {s : State} (hv : s.vaux = true) (src : Nat) :
    let u := abandoned s src
    RegStep s u
      [fldAt Fld.MODE_CUR, fldAt Fld.MODE_REQ_REQ, fldAt Fld.SLEEP_STATUS_STATE, fldAt Fld.LEHR_IRQ_SRC] ∧
    u.mode = 4 ∧ u.fld Fld.MODE_FORCED = 1 ∧
    u.fld Fld.MODE_PREV = s.mode ∧ u.fld Fld.SLEEP_STATUS_RESULT = 2 ∧ u.fld Fld.SLEEP_STATUS_SRC = src % 128 ∧
    u.fld Fld.SLEEP_STATUS_STATE = 0 ∧ u.fld Fld.MODE_REQ_STATUS = 4 ∧ bit1 (u.fld Fld.LEHR_IRQ_SRC) 4 = true := by
  obtain ⟨hstatus, hresult, hsrc, hstate⟩ := statusAbandoned_spec s src
  unfold abandoned
  generalize statusAbandoned s src = t at *
  have hvt : t.vaux = true := by rw [hstatus.1]; exact hv
  have hprev : t.mode = s.mode := hstatus.mode (by decide)
  obtain ⟨-, hprevfld, hforced, -⟩ := setMode_flds t (m := 4) (by decide) true
  have hmode := setMode_mode hvt (m := 4) (by decide) true
  have hset := setMode_step t (m := 4) (by decide) true
  generalize setMode t 4 true = w at *
  have hreq : RegStep w (w.setFld Fld.MODE_REQ_STATUS 4) [RegName.MODE_REQ.addr 0 0] :=
    (RegStep.refl w _).setFld Fld.MODE_REQ_STATUS 4 (by simp)
  have hreqfld : (w.setFld Fld.MODE_REQ_STATUS 4).fld Fld.MODE_REQ_STATUS = 4 :=
    fld_setFld_same w Fld.MODE_REQ_STATUS 4 0 0 (by decide)
  generalize w.setFld Fld.MODE_REQ_STATUS 4 = x at *
  have hirq := lehrIrq_step x 4
  have hbit := bit1_lehrIrq x (k := 4) (by decide)
  generalize lehrIrq x 4 = u at *
  have hafter : RegStep t u [RegName.MODE.addr 0 0, RegName.MODE_REQ.addr 0 0, RegName.LEHR_IRQ.addr 0 0] :=
    (hset.mono (by simp)).trans ((hreq.mono (by simp)).trans (hirq.mono (by simp)))
  have hwu : RegStep w u [RegName.MODE_REQ.addr 0 0, RegName.LEHR_IRQ.addr 0 0] :=
    (hreq.mono (by simp)).trans (hirq.mono (by simp))
  refine ⟨(hstatus.mono (by simp [fldAt])).trans (hafter.mono (by simp [fldAt])), ?_⟩
  refine ⟨(hwu.mode (by decide)).trans hmode, (hwu.2.fld _ 0 0 (by decide)).trans hforced,
    (hwu.2.fld _ 0 0 (by decide)).trans (hprevfld.trans hprev), (hafter.2.fld _ 0 0 (by decide)).trans hresult,
    (hafter.2.fld _ 0 0 (by decide)).trans hsrc, (hafter.2.fld _ 0 0 (by decide)).trans hstate,
    (hirq.2.fld _ 0 0 (by decide)).trans hreqfld, hbit⟩

theorem reqDone_step (s : State) : RegStep s (reqDone s) [RegName.MODE_REQ.addr 0 0] := by
  unfold reqDone
  split
  · exact (RegStep.refl s _).setFld Fld.MODE_REQ_STATUS 5 (by simp)
  · exact RegStep.refl s _

theorem setResult_step (s : State) : RegStep s (s.setFld Fld.SLEEP_STATUS_RESULT 1) [RegName.SLEEP_STATUS.addr 0 0] :=
  (RegStep.refl s _).setFld Fld.SLEEP_STATUS_RESULT 1 (by simp)

theorem committed_step (s : State) :
    RegStep s (committed s) [RegName.SLEEP_STATUS.addr 0 0, RegName.MODE_REQ.addr 0 0] :=
  ((setResult_step s).mono (by simp)).trans ((reqDone_step _).mono (by simp))

/-- The status of a sleep that is committed in STATE `st` (R473). -/
theorem committed_spec (s : State) {st : Nat} (hst : st < 8) :
    let u := (committed s).setFld Fld.SLEEP_STATUS_STATE st
    RegStep s u [RegName.SLEEP_STATUS.addr 0 0, RegName.MODE_REQ.addr 0 0] ∧ u.fld Fld.SLEEP_STATUS_STATE = st ∧
      u.fld Fld.SLEEP_STATUS_RESULT = 1 ∧ (s.fld Fld.MODE_REQ_STATUS = 1 → u.fld Fld.MODE_REQ_STATUS = 5) := by
  have hresult : (committed s).fld Fld.SLEEP_STATUS_RESULT = 1 :=
    ((reqDone_step _).2.fld _ 0 0 (by decide)).trans (fld_setFld_same s Fld.SLEEP_STATUS_RESULT 1 0 0 (by decide))
  have hreq : s.fld Fld.MODE_REQ_STATUS = 1 → (committed s).fld Fld.MODE_REQ_STATUS = 5 := fun h => by
    rw [committed, reqDone, if_pos (((setResult_step s).2.fld _ 0 0 (by decide)).trans h)]
    exact fld_setFld_same _ Fld.MODE_REQ_STATUS 5 0 0 (by decide)
  have hcommitted := committed_step s
  generalize committed s = t at *
  have hstate : RegStep t (t.setFld Fld.SLEEP_STATUS_STATE st) [RegName.SLEEP_STATUS.addr 0 0] :=
    (RegStep.refl t _).setFld Fld.SLEEP_STATUS_STATE st (by simp)
  refine ⟨hcommitted.trans (hstate.mono (by simp)),
    (fld_setFld_same t Fld.SLEEP_STATUS_STATE st 0 0 (by decide)).trans (Nat.mod_eq_of_lt hst), ?_, fun h => ?_⟩
  · simp (disch := decide) only [fld_setFld_disj, hresult]
  · exact (hstate.2.fld _ 0 0 (by decide)).trans (hreq h)

section
variable {s : State} (hdft : s.dft = false) (hready : s.sleepReady = true) (hst : s.fld Fld.SLEEP_STATUS_STATE = 1)
include hdft hready hst

theorem completes_sleepCommit_abandoned (hv : s.vaux = true) (hf : s.lehr.fired ≠ 0) :
    Completes .sleepCommit s (fun u =>
      u = { Begun s with sleepReady := false, regs := u.regs, fb := u.fb } ∧ u.mode = 4 ∧ u.fld Fld.MODE_FORCED = 1 ∧
      u.fld Fld.MODE_PREV = s.mode ∧ u.fld Fld.SLEEP_STATUS_RESULT = 2 ∧ u.fld Fld.SLEEP_STATUS_SRC = s.lehr.fired % 128 ∧
      u.fld Fld.SLEEP_STATUS_STATE = 0 ∧ u.fld Fld.MODE_REQ_STATUS = 4 ∧ bit1 (u.fld Fld.LEHR_IRQ_SRC) 4 = true ∧
      u.fb.msgs.length = s.fb.msgs.length + 1 ∧ RegsBut s u [fldAt Fld.MODE_CUR, fldAt Fld.MODE_REQ_REQ,
        fldAt Fld.SLEEP_STATUS_STATE, fldAt Fld.LEHR_IRQ_SRC]) := by
  refine completes_sleepCommit hdft ?_
  rw [sleepCommit_abandoned (s := Begun s) hready hst hf]
  obtain ⟨⟨hu, hregs⟩, hmode, hforced, hprev, hresult, hsrc, hstate, hreq, hirq⟩ :=
    abandoned_spec (s := sleepOver (Begun s)) hv (Begun s).lehr.fired
  refine ⟨?_, hmode, hforced, hprev, hresult, hsrc, hstate, hreq, hirq, List.length_append.trans ?_, hregs⟩
  · dsimp only at hu ⊢
    rw [(sleepRecord_eq _ _ _).1, hu]
    rfl
  · rw [hu]
    rfl

variable (hf : s.lehr.fired = 0)
include hf

/-- With retention CORE is gated (R473). -/
theorem completes_sleepCommit_retained (hr : s.fld Fld.MODE_RETAINED = 1) : Completes .sleepCommit s (fun u =>
    u.fld Fld.SLEEP_STATUS_STATE = 2 ∧ u.fld Fld.SLEEP_STATUS_RESULT = 1 ∧ u.coreUp = false ∧ u.portUp = s.portUp ∧
    u.mode = s.mode ∧ u.agt = s.agt ∧ u.cab.words = s.cab.words ∧ u.cab.spare = s.cab.spare ∧ u.stw.lmem = s.stw.lmem ∧
    u.sl.banks = { s.sl.banks with blocked := [], swap := none } ∧ u.port.recs = s.port.recs ∧ u.lehr = s.lehr ∧
    u.fb.msgs.length = s.fb.msgs.length + 1 ∧ (s.fld Fld.MODE_REQ_STATUS = 1 → u.fld Fld.MODE_REQ_STATUS = 5)) := by
  refine completes_sleepCommit hdft ?_
  obtain ⟨hstep, hstate, hresult, hreq⟩ := committed_spec (Begun s) (st := 2) (by decide)
  have hret := (committed_step (Begun s)).2.fld Fld.MODE_RETAINED 0 0 (by decide)
  rw [sleepCommit_committed (s := Begun s) hready hst hf, if_pos (hret.trans hr)]
  generalize (committed (Begun s)).setFld Fld.SLEEP_STATUS_STATE 2 = t at *
  have hfld := fun (f : Fld) => fld_coreReset_kept t 2 (f := f) (i := 0) (j := 0)
  have hmode := (mode_coreReset_kept t 2).trans (hstep.mode (by decide))
  have hsleep := isReg_of_lt .SLEEP_STATUS Nat.one_pos Nat.one_pos
  have hmodereq := isReg_of_lt .MODE_REQ Nat.one_pos Nat.one_pos
  obtain ⟨hu, hrecs⟩ := coreReset_kept_eq t 2
  refine ⟨(hfld Fld.SLEEP_STATUS_STATE hsleep (by decide)).trans hstate,
    (hfld Fld.SLEEP_STATUS_RESULT hsleep (by decide)).trans hresult, ?_⟩
  have hreq' := fun h => (hfld Fld.MODE_REQ_STATUS hmodereq (by decide)).trans (hreq h)
  have hold : t.port.recs = s.port.recs := by rw [hstep.1]; rfl
  generalize coreReset t true 2 = u at *
  have hframe : u.coreUp = false ∧ u.portUp = s.portUp ∧ u.agt = s.agt ∧ u.cab.words = s.cab.words ∧
      u.cab.spare = s.cab.spare ∧ u.stw.lmem = s.stw.lmem ∧ u.sl.banks = { s.sl.banks with blocked := [], swap := none } ∧
      u.lehr = s.lehr ∧ u.fb = s.fb := by
    rw [hu, hstep.1]
    exact ⟨rfl, rfl, rfl, rfl, rfl, rfl, rfl, rfl, rfl⟩
  obtain ⟨hcore, hport, hagt, hwords, hspare, hlmem, hbanks, hlehr, hfb⟩ := hframe
  exact ⟨hcore, hport, hmode, hagt, hwords, hspare, hlmem, hbanks, hrecs.trans hold, hlehr,
    List.length_append.trans (congrArg (·.msgs.length + 1) hfb), hreq'⟩

/-- Without retention the rails fall (R473). -/
theorem completes_sleepCommit_railsOff (hr : s.fld Fld.MODE_RETAINED = 0) : Completes .sleepCommit s (fun u =>
    u.fld Fld.SLEEP_STATUS_STATE = 3 ∧ u.fld Fld.SLEEP_STATUS_RESULT = 1 ∧ u.coreUp = false ∧ u.portUp = false ∧
    u.mode = s.mode ∧ u.agt = [] ∧ u.cab.words = [] ∧ u.lehr = { s.lehr with railReq := false } ∧
    u.fb.msgs.length = s.fb.msgs.length + 1) := by
  refine completes_sleepCommit hdft ?_
  obtain ⟨hstep, hstate, hresult, -⟩ := committed_spec (Begun s) (st := 3) (by decide)
  have hret := (committed_step (Begun s)).2.fld Fld.MODE_RETAINED 0 0 (by decide)
  rw [sleepCommit_committed (s := Begun s) hready hst hf, if_neg (by rw [hret]; exact ne_of_eq_of_ne hr (by decide))]
  generalize (committed (Begun s)).setFld Fld.SLEEP_STATUS_STATE 3 = t at *
  have hmode := (mode_portReset t).trans (hstep.mode (by decide))
  have hsleep := isReg_of_lt .SLEEP_STATUS Nat.one_pos Nat.one_pos
  refine ⟨(fld_portReset t (f := Fld.SLEEP_STATUS_STATE) hsleep rfl).trans hstate,
    (fld_portReset t (f := Fld.SLEEP_STATUS_RESULT) hsleep rfl).trans hresult, ?_⟩
  have hu := portReset_eq t
  dsimp only at hu ⊢
  generalize portReset t = u at *
  have hframe : u.coreUp = false ∧ u.portUp = false ∧ u.agt = [] ∧ u.cab.words = [] ∧ u.lehr = s.lehr ∧ u.fb = s.fb := by
    rw [hu, hstep.1]
    exact ⟨rfl, rfl, rfl, rfl, rfl, rfl⟩
  obtain ⟨hcore, hport, hagt, hwords, hlehr, hfb⟩ := hframe
  exact ⟨hcore, hport, hmode, hagt, hwords, congrArg (fun l : LehrC => { l with railReq := false }) hlehr,
    List.length_append.trans (congrArg (·.msgs.length + 1) hfb)⟩

end

end

end Sys2Proof.Machine

namespace Sys2Proof.Machine

/-! SUPPORT. Work at the registers from some offset on, as a wake does it (R508): the reports, the links and the held requests. -/

/-- `u` is `s` but for registers from offset `n` on, and for reports, interrupts, links and requests. -/
def WorkAbove (n : Nat) (s u : State) : Prop :=
  u = { s with
    regs := u.regs, fault := u.fault, frzReq := u.frzReq, irq := u.irq, nq := u.nq, pt := u.pt, ptTx := u.ptTx
    port := { u.port with recs := s.port.recs }, sl := { u.sl with banks := s.sl.banks }, cab := { s.cab with dr := u.cab.dr } } ∧
  ∀ (d : Nat → BitVec 64) (k : Nat), k < n → SMap.getD d u.regs k = SMap.getD d s.regs k

namespace WorkAbove

variable {n : Nat} {s t u : State}

theorem refl (n : Nat) (s : State) : WorkAbove n s s := ⟨rfl, fun _ _ _ => rfl⟩

theorem trans (h : WorkAbove n s t) (k : WorkAbove n t u) : WorkAbove n s u := by
  obtain ⟨ht, hregs⟩ := h
  obtain ⟨hu, hregs'⟩ := k
  exact ⟨by rw [hu, ht], fun d k hk => (hregs' d k hk).trans (hregs d k hk)⟩

theorem mono {m : Nat} (h : WorkAbove n s u) (hm : m ≤ n) : WorkAbove m s u :=
  ⟨h.1, fun d k hk => h.2 d k (Nat.lt_of_lt_of_le hk hm)⟩

theorem fld (h : WorkAbove n s u) (f : Fld) (hf : f.reg.addr 0 0 < n) : u.fld f = s.fld f :=
  congrArg f.get (h.2 _ _ hf)

theorem mask (h : WorkAbove n s u) : u.integ.mask = s.integ.mask := by rw [h.1]

theorem mode (h : WorkAbove n s u) (hn : RegName.MODE.addr 0 0 < n) : u.mode = s.mode := by
  have hvaux : u.vaux = s.vaux := by rw [h.1]
  rw [State.mode, State.mode, hvaux, h.fld Fld.MODE_CUR hn]

theorem setFld (h : WorkAbove n s t) {f : Fld} (hf : n ≤ f.reg.desc.base) (v i j : Nat) : WorkAbove n s (t.setFld f v i j) := by
  refine h.trans ⟨rfl, fun d k hk => regsBut_setFld t f v i j d k fun hmem => ?_⟩
  have hk' : k = f.reg.addr i j := List.mem_singleton.1 hmem
  unfold RegName.addr at hk'
  omega

/-- A step of the work for each element of a list. -/
theorem foldl {α : Type} (l : List α) {g : State → α → State} (h : ∀ t a, WorkAbove n s t → WorkAbove n t (g t a)) :
    WorkAbove n s (l.foldl g s) :=
  List.foldlRecOn (motive := WorkAbove n s) _ _ (refl n s) fun t ht a _ => ht.trans (h t a ht)

end WorkAbove

/-! ### Reports -/

theorem workAbove_lcLatch {n : Nat} (s : State) {valid ovf injF codeF subjF timeF : Fld}
    (h : ∀ f ∈ [valid, ovf, injF, codeF, subjF, timeF], n ≤ f.reg.desc.base) (i code subject : Nat) (inj : Bool) :
    WorkAbove n s (lcLatch s valid ovf injF codeF subjF timeF i code subject inj) := by
  simp only [List.forall_mem_cons] at h
  obtain ⟨hvalid, hovf, hinj, hcode, hsubj, htime, -⟩ := h
  unfold lcLatch
  split
  · exact ((((((WorkAbove.refl n s).setFld hvalid _ _ _).setFld hcode _ _ _).setFld hinj _ _ _).setFld hsubj _ _ _).setFld
      hovf _ _ _).setFld htime _ _ _
  · split
    · exact WorkAbove.refl n s
    · exact (WorkAbove.refl n s).setFld hovf _ _ _

/-- The local collectors stand from offset 0x020800 on. -/
theorem workAbove_lcPass (s : State) (path : FPath) (code subject : Nat) (inj : Bool) :
    WorkAbove 0x20000 s (lcPass s path code subject inj) := by
  have hslice : ∀ t l, WorkAbove 0x20000 t (lcSlice t l code subject inj) := fun t l => workAbove_lcLatch t (by decide) _ _ _ _
  have hcluster : ∀ t c, WorkAbove 0x20000 t (lcCluster t c code subject inj) := fun t c => workAbove_lcLatch t (by decide) _ _ _ _
  have hregion : ∀ t r, WorkAbove 0x20000 t (lcRegion t r code subject inj) := fun t r => workAbove_lcLatch t (by decide) _ _ _ _
  cases path with
  | slice l => exact ((hslice _ _).trans (hcluster _ _)).trans (hregion _ _)
  | cluster c => exact (hcluster _ _).trans (hregion _ _)
  | region r => exact hregion _ _
  | inst => exact WorkAbove.refl _ s

theorem workAbove_raiseN (s : State) (path : FPath) (code subject count : Nat) (inj : Bool) (dom : Dom) :
    WorkAbove 0x20000 s (raiseN s path code subject count inj dom) :=
  (workAbove_lcPass s path code subject inj).trans ⟨rfl, fun _ _ _ => rfl⟩

/-- A report for each live subject of a cause that is not held. -/
theorem workAbove_raiseLive (s : State) (code : Nat) {raise : State → Nat → State}
    (h : ∀ t x, WorkAbove 0x20000 t (raise t x)) :
    WorkAbove 0x20000 s ((liveSubjects s code).foldl (fun u x =>
      if u.fault.held.any (fun r => r.code == code && r.subject == x) then u else raise u x) s) := by
  refine WorkAbove.foldl _ fun t x _ => ?_
  split
  · exact WorkAbove.refl _ t
  · exact h t x

theorem workAbove_raiseAgain (s : State) : WorkAbove 0x20000 s (raiseAgain s) := by
  have hport : ∀ t code, WorkAbove 0x20000 t _ := fun t code =>
    workAbove_raiseLive t code (raise := fun u x => raisePort u code x) fun _ _ => workAbove_raiseN _ _ _ _ _ _ _
  have hdrawer : ∀ t code, WorkAbove 0x20000 t _ := fun t code =>
    workAbove_raiseLive t code (raise := fun u d => raiseDrawer u d code) fun _ _ => workAbove_raiseN _ _ _ _ _ _ _
  have hcluster : ∀ t, WorkAbove 0x20000 t _ := fun t =>
    workAbove_raiseLive t 0x41 (raise := fun u c => raiseCluster u c 0x41 c) fun _ _ => workAbove_raiseN _ _ _ _ _ _ _
  have hcore : ∀ t, WorkAbove 0x20000 t _ := fun t =>
    workAbove_raiseLive t 0x70 (raise := fun u p => raiseCore u 0x70 p) fun _ _ => workAbove_raiseN _ _ _ _ _ _ _
  exact (hport s 0x08).trans ((hport _ 0x09).trans ((hport _ 0x0A).trans ((hport _ 0x0C).trans ((hdrawer _ 0x27).trans
    ((hdrawer _ 0x28).trans ((hcluster _).trans (hcore _)))))))

/-! ### Links -/

theorem workAbove_setPtp (n : Nat) (s : State) (p : Nat) (q : PtPort) : WorkAbove n s (s.setPtp p q) := ⟨rfl, fun _ _ _ => rfl⟩

theorem workAbove_ptState (n : Nat) (s : State) (p st : Nat) : WorkAbove n s (ptState s p st) := by
  unfold ptState
  dsimp only
  split
  · exact WorkAbove.refl n s
  · refine (workAbove_setPtp n s p { s.ptp p with state := st }).trans ?_
    generalize s.setPtp p { s.ptp p with state := st } = t
    obtain ⟨q, hq⟩ := irqSet_eq t (32 + p)
    rw [hq]
    exact ⟨rfl, fun _ _ _ => rfl⟩

theorem workAbove_sendCap (n : Nat) (s : State) (p : Nat) : WorkAbove n s (sendCap s p) := by
  have hsent := (sentOn_ptSend s p 1 (payOf [(s.instId, 4, 1), (1, 5, 1),
    (if (s.ptp p).state = 1 then 3 else (s.ptp p).lock, 6, 1), (ptTypes, 8, 2)])).frame
  unfold sendCap
  dsimp only
  rw [hsent]
  exact ⟨rfl, fun _ _ _ => rfl⟩

theorem workAbove_ptAttempt (n : Nat) (s : State) (p k : Nat) : WorkAbove n s (ptAttempt s p k) :=
  ((workAbove_setPtp n s p _).trans (workAbove_ptState n _ p 1)).trans (workAbove_sendCap n _ p)

theorem workAbove_regrant (n : Nat) (s : State) (p : Nat) : WorkAbove n s (regrant s p) := by
  unfold regrant
  split
  · exact ⟨rfl, fun _ _ _ => rfl⟩
  · exact WorkAbove.refl n s

/-! ### Held requests -/

theorem workAbove_bumpCnt {n : Nat} (s : State) {v o : Fld} (hv : n ≤ v.reg.desc.base) (ho : n ≤ o.reg.desc.base) (i j id : Nat) :
    WorkAbove n s (bumpCnt s v o i j id) := by
  have hcount : ∀ m, WorkAbove n s (if m = 0 then (s.setFld v m i j).setFld o 1 i j else s.setFld v m i j) := fun m => by
    have hval := (WorkAbove.refl n s).setFld hv m i j
    split
    · exact hval.setFld ho 1 i j
    · exact hval
  unfold bumpCnt
  extract_lets old new t u lim
  have hu : WorkAbove n s u := hcount new
  clear_value u
  split
  · exact hu.trans ⟨rfl, fun _ _ _ => rfl⟩
  · exact hu

theorem workAbove_fpEvent (s : State) (p ev : Nat) : WorkAbove 0x20000 s (fpEvent s p ev) := by
  refine WorkAbove.foldl _ fun t k _ => ?_
  split
  · exact workAbove_bumpCnt t (by decide) (by decide) _ _ _
  · exact WorkAbove.refl _ t

/-- Words of a store without an error are read as they are. -/
theorem wordRead_of_mask {s : State} (h : s.integ.mask = []) (st : Store) (unit w : Nat) :
    wordRead s st unit w = (s, some 0) := by
  have hmask : maskOf s st unit w = 0 := by rw [maskOf, h]; rfl
  rw [wordRead, if_pos hmask]

theorem rsRead_of_mask {s : State} (h : s.integ.mask = []) (base n : Nat) : rsRead s base n = (s, true) := by
  refine List.foldlRecOn (motive := fun a => a = (s, true)) _ _ rfl fun a ha k _ => ?_
  rw [ha, wordRead_of_mask h]
  rfl

theorem workAbove_wdogArm (n : Nat) (s : State) (m : Nat) : WorkAbove n s (s.wdogArm m) := by
  unfold State.wdogArm
  dsimp only
  split
  · exact ⟨rfl, fun _ _ _ => rfl⟩
  · exact WorkAbove.refl n s

theorem workAbove_presentHold (n : Nat) {s : State} (h : s.integ.mask = []) (k : Nat) : WorkAbove n s (presentHold s k) := by
  unfold presentHold
  rw [rsRead_of_mask h]
  dsimp only
  split
  · exact WorkAbove.refl n s
  · rw [if_neg (by simp)]
    split
    · exact ⟨rfl, fun _ _ _ => rfl⟩
    · have hhold : WorkAbove n s (s.setHoldE k { s.holdE k with wait := .presented }) := ⟨rfl, fun _ _ _ => rfl⟩
      refine (hhold.trans (workAbove_wdogArm n _ (sliceOf (s.holdE k).hdr.pa.toNat))).trans ?_
      exact ⟨rfl, fun _ _ _ => rfl⟩

theorem workAbove_presentAgain {s : State} (h : s.integ.mask = []) (p : HoldSlot → Bool) :
    WorkAbove 0x20000 s (presentAgain s p) := by
  refine WorkAbove.foldl _ fun t k ht => ?_
  have hevent := workAbove_fpEvent t (t.holdE k).port 0x0B
  exact hevent.trans (workAbove_presentHold _ (hevent.mask.trans (ht.mask.trans h)) k)

/-! ### The repair record -/

theorem workAbove_loadCluster (s : State) (c : Nat) : WorkAbove 0x100000 s (loadCluster s c) :=
  (((WorkAbove.refl _ s).setFld (by decide) _ _ _).setFld (by decide) _ _ _).setFld (by decide) _ _ _

end Sys2Proof.Machine

namespace Sys2Proof.Machine

/-! SUPPORT. The start of a wake with retention (R474, R508), in stores without an error. -/

/-- No store holds an error, and the injector of the Lehr SRAM is not armed. -/
def ErrorFree (s : State) : Prop := s.integ.mask = [] ∧ s.fld Fld.DIE_INJ_L_ARM = 0

namespace ErrorFree

variable {s u : State}

theorem cleanCount (h : ErrorFree s) : CleanCount s := ⟨by rw [maskOf, h.1]; rfl, h.2⟩

theorem of_regsBut {l : List Nat} (h : ErrorFree s) (hi : u.integ = s.integ) (hu : RegsBut s u l)
    (hl : RegName.DIE_INJ_L.addr 0 0 ∉ l) : ErrorFree u := ⟨by rw [hi]; exact h.1, (hu.fld Fld.DIE_INJ_L_ARM 0 0 hl).trans h.2⟩

theorem of_regStep {l : List Nat} (h : ErrorFree s) (hu : RegStep s u l) (hl : RegName.DIE_INJ_L.addr 0 0 ∉ l) : ErrorFree u :=
  h.of_regsBut (by rw [hu.1]) hu.2 hl

theorem lehrWrote (h : ErrorFree s) : ErrorFree (lehrWrote s [cntWord]) := by
  have hclean := lehrWrote_clean h.cleanCount
  have hmask : (Machine.lehrWrote s [cntWord]).integ.mask = [] := by
    obtain ⟨hzero, harm⟩ := h.cleanCount
    change (wordWritten s .lehr 0 cntWord).integ.mask = []
    simp [wordWritten, hzero, Store.cls, injFlds, harm, setInj, setMask, h.1, SMap.set, SMap.erase]
  exact ⟨hmask, (fld_congr (by rw [hclean]) _ 0 0).trans h.2⟩

end ErrorFree

/-- A word of the Lehr SRAM reads well where no store holds an error. -/
theorem lehrGood_of_mask {s : State} (h : s.integ.mask = []) (lo n : Nat) : lehrGood s lo n = (s, true) := by
  have hnone : sramErrs s lo n = [] := by rw [sramErrs, h]; rfl
  obtain ⟨r, hr, hgood⟩ := lehrGood_cases s lo n
  rw [hnone] at hr
  subst hr
  obtain ⟨-, hgood⟩ | ⟨w, hbad, -⟩ := hgood
  · exact hgood
  · cases hbad

theorem workAbove_loadRepair {s : State} (h : s.integ.mask = []) : WorkAbove 0x100000 s (loadRepair s) := by
  unfold loadRepair
  rw [lehrGood_of_mask h]
  dsimp only
  rw [if_pos rfl]
  refine WorkAbove.trans (WorkAbove.foldl _ fun t e _ => ?_) (WorkAbove.foldl _ fun t e _ => ⟨rfl, fun _ _ _ => rfl⟩)
  exact ((WorkAbove.refl _ t).setFld (by decide) _ _ _).setFld (by decide) _ _ _

/-- `u` is `s` but for what the start of a wake may write. -/
def WakeStep (s u : State) : Prop :=
  u = { s with
    regs := u.regs, fault := u.fault, frzReq := u.frzReq, irq := u.irq, nq := u.nq, pt := u.pt, ptTx := u.ptTx
    port := { u.port with recs := s.port.recs }, sl := { u.sl with banks := s.sl.banks }, cab := { s.cab with dr := u.cab.dr }
    stw := { u.stw with lmem := s.stw.lmem }, start := u.start, integ := u.integ, fb := u.fb, cmd := u.cmd, lehr := u.lehr }

theorem WakeStep.trans {s t u : State} (h : WakeStep s t) (k : WakeStep t u) : WakeStep s u := by
  unfold WakeStep at *
  rw [k, h]

theorem RegStep.wakeStep {s u : State} {l : List Nat} (h : RegStep s u l) : WakeStep s u := by
  unfold WakeStep
  rw [h.1]

theorem WorkAbove.wakeStep {n : Nat} {s u : State} (h : WorkAbove n s u) : WakeStep s u := by
  unfold WakeStep
  rw [h.1]

/-! ### Steps -/

/-- The start in progress goes on to step `k`. -/
theorem toStep_spec {s : State} {r : StartRun} (h : s.start.run = some r) {k : Nat} (hk : k < 16) :
    let u := toStep s k
    u = { s with regs := u.regs, start := { s.start with run := some { r with limit := stepLimit s } } } ∧
    RegsBut s u [RegName.START_STATUS.addr 0 0] ∧ u.fld Fld.START_STATUS_STEP = k ∧
    u.fld Fld.START_STATUS_KIND = s.fld Fld.START_STATUS_KIND := by
  have hstep := (RegStep.refl s [RegName.START_STATUS.addr 0 0]).setFld Fld.START_STATUS_STEP k (i := 0) (j := 0) (by simp)
  have hsame := (fld_setFld_same s Fld.START_STATUS_STEP k 0 0 (by decide)).trans (Nat.mod_eq_of_lt hk)
  have hkind := fld_setFld_disj s Fld.START_STATUS_STEP Fld.START_STATUS_KIND k 0 0 rfl (by decide)
  rw [toStep_of_run h]
  generalize s.setFld Fld.START_STATUS_STEP k = t at hstep hsame hkind
  exact ⟨by rw [hstep.1]; rfl, fun d m hm => hstep.2 d m hm, hsame, hkind⟩

/-- A start that completes, where the word of the counters has no error (R511). -/
theorem startDone_spec {s : State} (h : ErrorFree s) (r : StartRun) :
    let u := startDone s r
    u = { s with regs := u.regs, integ := u.integ, fb := u.fb, start := { s.start with run := none } } ∧
    RegsBut s u [RegName.START_CNT.addr 0 0] ∧ ErrorFree u ∧ u.fld Fld.START_CNT_WARM_FAIL = 0 ∧
    u.fld Fld.START_CNT_COLD_FAIL = 0 := by
  have hcnt : RegStep s ((s.setFld Fld.START_CNT_WARM_FAIL 0).setFld Fld.START_CNT_COLD_FAIL 0) [RegName.START_CNT.addr 0 0] :=
    ((RegStep.refl s _).setFld Fld.START_CNT_WARM_FAIL 0 (by simp)).setFld Fld.START_CNT_COLD_FAIL 0 (by simp)
  have hwarm : ((s.setFld Fld.START_CNT_WARM_FAIL 0).setFld Fld.START_CNT_COLD_FAIL 0).fld Fld.START_CNT_WARM_FAIL = 0 := by
    simp (disch := decide) only [fld_setFld_disj, fld_setFld_same]
    rfl
  have hcold := fld_setFld_same (s.setFld Fld.START_CNT_WARM_FAIL 0) Fld.START_CNT_COLD_FAIL 0 0 0 (by decide)
  unfold startDone
  generalize (s.setFld Fld.START_CNT_WARM_FAIL 0).setFld Fld.START_CNT_COLD_FAIL 0 = t at *
  have hfree := h.of_regStep hcnt (by decide)
  have hfree' := hfree.lehrWrote
  have hwrote := lehrWrote_clean hfree.cleanCount
  generalize lehrWrote t [cntWord] = w at *
  have hregs : w.regs = t.regs := by rw [hwrote]
  refine ⟨?_, fun d k hk => (congrArg (SMap.getD d · k) hregs).trans (hcnt.2 d k hk), hfree', (fld_congr hregs _ 0 0).trans hwarm,
    (fld_congr hregs _ 0 0).trans hcold⟩
  rw [hwrote, hcnt.1]
  rfl

/-- The begin of a wake start whose self-check is passed (R507, R508). -/
theorem startBegin_wake {s : State} {test : SelfTest}
    (h : (startShown (startAwake s) 2 test).fld Fld.LEHR_STATUS_SELFCHK ≠ 0) :
    startBegin s 2 test = planPoll (startShown (startAwake s) 2 test) := by
  have hshown : startBegin s 2 test =
      if (startShown (startAwake s) 2 test).fld Fld.LEHR_STATUS_SELFCHK = 0 then startFail (startShown (startAwake s) 2 test) 1
      else planPoll (startShown (startAwake s) 2 test) := rfl
  rw [hshown, if_neg h]

/-! ### The begin of the start, and the wake thread -/

theorem errorFree_startCounted {s : State} (h : ErrorFree s) (kind : Nat) : ErrorFree (startCounted s kind) := by
  obtain ⟨habort, hregs⟩ := cmdAbort_eq (fbClose s)
  have habort' : ErrorFree (cmdAbort (fbClose s)) :=
    h.of_regsBut (by rw [habort]; rfl) (u := cmdAbort (fbClose s)) (l := [RegName.CMD_RES.addr 0 0, RegName.CMD_VAL.addr 0 0])
      (fun d k hk => hregs d k hk) (by decide)
  have hadd := habort'.of_regStep (regStep_addFld (cmdAbort (fbClose s)) Fld.START_CNT_STARTS 1) (by decide)
  unfold startCounted
  rw [countRead_clean habort'.cleanCount]
  exact hadd.lehrWrote

/-- What the begin of a wake start leaves (R507, R508). -/
theorem startBegin_wake_spec {s : State} (hself : s.fld Fld.LEHR_STATUS_SELFCHK = 1) (hfree : ErrorFree s) (test : SelfTest) :
    let u := startBegin s 2 test
    WakeStep (startAwake s) u ∧ ErrorFree u ∧ u.fld Fld.START_STATUS_KIND = 2 ∧
      u.start.run = some (startRun1 (startAwake s) 2 test) := by
  obtain ⟨hshown, -⟩ := startShown_spec (startAwake s) (kind := 2) (by decide) test
  have hnoted : ErrorFree (startNoted (startAwake s) 2 test) :=
    ErrorFree.of_regsBut (s := startAwake s) hfree (by rw [(startNoted_step (startAwake s) 2 test).1]; rfl)
      (fun d k hk => (startNoted_step (startAwake s) 2 test).2 d k hk) (by decide)
  have hfree' : ErrorFree (startShown (startAwake s) 2 test) := errorFree_startCounted hnoted 2
  have hbegin := startBegin_wake (s := s) (test := test)
  generalize startShown (startAwake s) 2 test = t at *
  have hself' : t.fld Fld.LEHR_STATUS_SELFCHK ≠ 0 := by
    rw [hshown.regs.fld Fld.LEHR_STATUS_SELFCHK 0 0 (by decide)]
    exact ne_of_eq_of_ne hself one_ne_zero
  have hplan := planPoll_eq t
  have hregs : (planPoll t).regs = t.regs := by rw [hplan]
  have hkind := (fld_congr hregs Fld.START_STATUS_KIND 0 0).trans hshown.kindIs
  have harm := (fld_congr hregs Fld.DIE_INJ_L_ARM 0 0).trans hfree'.2
  have hframe := hshown.frame
  rw [hbegin hself']
  generalize planPoll t = u at *
  refine ⟨?_, ⟨by rw [hplan]; exact hfree'.1, harm⟩, hkind, ?_⟩
  · unfold WakeStep
    rw [hplan, hframe]
    rfl
  · rw [hplan, hframe]
    rfl

/-- The repair record is loaded, at step 5. -/
def wakeRepaired (s : State) : State := toStep ((List.range 16).foldl loadCluster (loadRepair (toStep s 3))) 5

theorem wakeRepaired_spec {s : State} (hfree : ErrorFree s) {r : StartRun} (hrun : s.start.run = some r) :
    let u := wakeRepaired s
    WakeStep s u ∧ ErrorFree u ∧ u.fld Fld.START_STATUS_KIND = s.fld Fld.START_STATUS_KIND ∧ u.start.run ≠ none := by
  obtain ⟨hstep, hregs, -, hkind⟩ := toStep_spec hrun (k := 3) (by decide)
  have hstepped := hfree.of_regsBut (u := toStep s 3) (by rw [hstep]) hregs (by decide)
  have hwork := (workAbove_loadRepair hstepped.1).trans (WorkAbove.foldl (List.range 16) (g := loadCluster)
    fun t c _ => workAbove_loadCluster t c)
  unfold wakeRepaired
  generalize toStep s 3 = t at *
  generalize (List.range 16).foldl loadCluster (loadRepair t) = w at *
  have hrunw : w.start.run = some { r with limit := stepLimit s } := by rw [hwork.1, hstep]
  have hfreew : ErrorFree w := ⟨hwork.mask.trans hstepped.1, (hwork.fld Fld.DIE_INJ_L_ARM (by decide)).trans hstepped.2⟩
  obtain ⟨hstep', hregs', -, hkind'⟩ := toStep_spec hrunw (k := 5) (by decide)
  have hlast := hfreew.of_regsBut (u := toStep w 5) (by rw [hstep']) hregs' (by decide)
  have hkindw := hwork.fld Fld.START_STATUS_KIND (by decide)
  have hmid := hwork.wakeStep
  clear hwork
  generalize toStep w 5 = u at *
  have hfirst : WakeStep s t := by unfold WakeStep; rw [hstep]
  have hlaststep : WakeStep w u := by unfold WakeStep; rw [hstep']
  refine ⟨(hfirst.trans hmid).trans hlaststep, hlast, hkind'.trans (hkindw.trans hkind), ?_⟩
  rw [hstep']
  nofun

/-- Steward 0 begins at the wake word (R508). -/
def wakeThread (s : State) (v : BitVec 64) : State :=
  (s.setThr 0 { thr0 with run := 1, pc := v, last := 0x10000 }).setFld Fld.BOOT_STATUS_CODE 2

theorem wakeRun_eq {s : State} {r : StartRun} (hrun : s.start.run = some r) (hmask : (wakeRepaired s).integ.mask = [])
    {v : BitVec 64} (hv : (wakeRepaired s).lword 0 8191 = v) (hpos : 0 < v.toNat) (hlt : v.toNat < 0x10000) :
    wakeRun s = wakeService (wakeThread (wakeRepaired s) v) r := by
  have hread : lread (wakeRepaired s) 0 wakeWord = (wakeRepaired s, some v) := by
    rw [lread, wordRead_of_mask hmask]
    change (_, some ((wakeRepaired s).lword 0 8191 ^^^ 0#64)) = _
    rw [hv, BitVec.xor_zero]
  have hpc : ¬ (v.toNat = 0 ∨ 0x10000 ≤ v.toNat) := by omega
  unfold wakeRun
  rw [hrun]
  dsimp only
  rw [← wakeRepaired, hread]
  dsimp only
  rw [if_neg hpc, BitVec.ofNat_toNat, BitVec.setWidth_eq]
  rfl

/-! ### SERVICE -/

/-- MODE is SERVICE and the start is complete (R474, R511). -/
def wakeServed (s : State) (r : StartRun) : State :=
  lehrIrq (startDone ((setMode (toStep s 10) 4 true).setFld Fld.SLEEP_STATUS_STATE 0) r) 3

/-- What a wake start that is complete shows. -/
structure WakeShown (u : State) : Prop where
  forced : u.fld Fld.MODE_FORCED = 1
  asleep : u.fld Fld.SLEEP_STATUS_STATE = 0
  stepIs : u.fld Fld.START_STATUS_STEP = 10
  warm : u.fld Fld.START_CNT_WARM_FAIL = 0
  cold : u.fld Fld.START_CNT_COLD_FAIL = 0
  irq : bit1 (u.fld Fld.LEHR_IRQ_SRC) 3 = true

theorem wakeServed_spec {s : State} (hv : s.vaux = true) (hfree : ErrorFree s) (hrun : s.start.run ≠ none) (r : StartRun) :
    let u := wakeServed s r
    WakeStep s u ∧ ErrorFree u ∧ u.start.run = none ∧ u.stw = s.stw ∧ u.mode = 4 ∧ WakeShown u ∧
    u.fld Fld.START_STATUS_KIND = s.fld Fld.START_STATUS_KIND ∧ u.fld Fld.BOOT_STATUS_CODE = s.fld Fld.BOOT_STATUS_CODE := by
  obtain ⟨r', hr'⟩ := Option.ne_none_iff_exists'.1 hrun
  obtain ⟨hstep, hstepregs, hten, hkind⟩ := toStep_spec hr' (k := 10) (by decide)
  have hvt : (toStep s 10).vaux = true := by rw [hstep]; exact hv
  have hstepped := hfree.of_regsBut (u := toStep s 10) (by rw [hstep]) hstepregs (by decide)
  unfold wakeServed
  generalize toStep s 10 = t at *
  obtain ⟨-, -, hforced, -⟩ := setMode_flds t (m := 4) (by decide) true
  have hmode := setMode_mode hvt (m := 4) (by decide) true
  have hset := setMode_step t (m := 4) (by decide) true
  generalize setMode t 4 true = a at *
  have hidle : RegStep a (a.setFld Fld.SLEEP_STATUS_STATE 0) [RegName.SLEEP_STATUS.addr 0 0] :=
    (RegStep.refl a _).setFld Fld.SLEEP_STATUS_STATE 0 (by simp)
  have hasleep : (a.setFld Fld.SLEEP_STATUS_STATE 0).fld Fld.SLEEP_STATUS_STATE = 0 :=
    fld_setFld_same a Fld.SLEEP_STATUS_STATE 0 0 0 (by decide)
  generalize a.setFld Fld.SLEEP_STATUS_STATE 0 = b at *
  obtain ⟨hdone, hdoneregs, hdonefree, hwarm, hcold⟩ := startDone_spec
    ((hstepped.of_regStep hset (by decide)).of_regStep hidle (by decide)) r
  have hdonemode : (startDone b r).mode = b.mode := by
    have hvaux : (startDone b r).vaux = b.vaux := by rw [hdone]
    rw [State.mode, State.mode, hvaux, hdoneregs.fld Fld.MODE_CUR 0 0 (by decide)]
  generalize startDone b r = c at *
  have hirq := lehrIrq_step c 3
  have hbit := bit1_lehrIrq c (k := 3) (by decide)
  generalize lehrIrq c 3 = u at *
  have hab : RegsBut t b [RegName.MODE.addr 0 0, RegName.SLEEP_STATUS.addr 0 0] := (hset.2.mono (by simp)).trans (hidle.2.mono (by simp))
  have hbu : RegsBut b u [RegName.START_CNT.addr 0 0, RegName.LEHR_IRQ.addr 0 0] := (hdoneregs.mono (by simp)).trans (hirq.2.mono (by simp))
  have hfirst : WakeStep s t := by unfold WakeStep; rw [hstep]
  have hlast : WakeStep b c := by unfold WakeStep; rw [hdone]
  refine ⟨hfirst.trans (hset.wakeStep.trans (hidle.wakeStep.trans (hlast.trans hirq.wakeStep))),
    hdonefree.of_regStep hirq (by decide), by rw [hirq.1, hdone], by rw [hirq.1, hdone, hidle.1, hset.1, hstep],
    (hirq.mode (by decide)).trans (hdonemode.trans ((hidle.mode (by decide)).trans hmode)), ?_, ?_, ?_⟩
  · exact
      { forced := (hbu.fld _ 0 0 (by decide)).trans ((hidle.2.fld _ 0 0 (by decide)).trans hforced)
        asleep := (hbu.fld _ 0 0 (by decide)).trans hasleep
        stepIs := (hbu.fld _ 0 0 (by decide)).trans ((hab.fld _ 0 0 (by decide)).trans hten)
        warm := (hirq.2.fld _ 0 0 (by decide)).trans hwarm
        cold := (hirq.2.fld _ 0 0 (by decide)).trans hcold
        irq := hbit }
  · exact (hbu.fld _ 0 0 (by decide)).trans ((hab.fld _ 0 0 (by decide)).trans hkind)
  · exact (hbu.fld _ 0 0 (by decide)).trans ((hab.fld _ 0 0 (by decide)).trans (hstepregs.fld _ 0 0 (by decide)))

/-- The enabled Punty ports train (R508). -/
def linksUp (s : State) : State :=
  (List.range 4).foldl (fun u p => if u.fld Fld.PT_CTL_EN p = 1 then ptAttempt u p 1 else u) s

theorem workAbove_linksUp (n : Nat) (s : State) : WorkAbove n s (linksUp s) := by
  refine WorkAbove.foldl _ fun t p _ => ?_
  split
  · exact workAbove_ptAttempt n t p 1
  · exact WorkAbove.refl n t

theorem wakeService_eq (s : State) (r : StartRun) : wakeService s r =
    (List.range 64).foldl regrant (presentAgain (raiseAgain (linksUp (wakeServed s r))) (fun v => v.wait == .parked)) := rfl

/-- What waited is taken at the end of a wake (R508). -/
theorem workAbove_wakeService {s : State} {r : StartRun} (h : (wakeServed s r).integ.mask = []) :
    WorkAbove 0x20000 (wakeServed s r) (wakeService s r) := by
  rw [wakeService_eq]
  generalize wakeServed s r = t at *
  have hreports := (workAbove_linksUp 0x20000 t).trans (workAbove_raiseAgain _)
  exact (hreports.trans (workAbove_presentAgain (hreports.mask.trans h) _)).trans
    (WorkAbove.foldl (List.range 64) fun t p _ => workAbove_regrant _ t p)

theorem WorkAbove.wakeShown {s u : State} (h : WorkAbove 0x20000 s u) (hs : WakeShown s) : WakeShown u where
  forced := (h.fld _ (by decide)).trans hs.forced
  asleep := (h.fld _ (by decide)).trans hs.asleep
  stepIs := (h.fld _ (by decide)).trans hs.stepIs
  warm := (h.fld _ (by decide)).trans hs.warm
  cold := (h.fld _ (by decide)).trans hs.cold
  irq := (congrArg (bit1 · 3) (h.fld Fld.LEHR_IRQ_SRC (by decide))).trans hs.irq

theorem wakeThread_spec {s : State} (hfree : ErrorFree s) (v : BitVec 64) :
    let u := wakeThread s v
    WakeStep s u ∧ ErrorFree u ∧ u.start.run = s.start.run ∧ u.thr 0 = { thr0 with run := 1, pc := v, last := 0x10000 } ∧
    u.fld Fld.START_STATUS_KIND = s.fld Fld.START_STATUS_KIND ∧ u.fld Fld.BOOT_STATUS_CODE = 2 := by
  have hregs := regsBut_setFld (s.setThr 0 { thr0 with run := 1, pc := v, last := 0x10000 }) Fld.BOOT_STATUS_CODE 2 0 0
  have hboot := fld_setFld_same (s.setThr 0 { thr0 with run := 1, pc := v, last := 0x10000 }) Fld.BOOT_STATUS_CODE 2 0 0 (by decide)
  have hthr := thr_setThr s 0 { thr0 with run := 1, pc := v, last := 0x10000 }
  exact ⟨rfl, ⟨hfree.1, (hregs.fld Fld.DIE_INJ_L_ARM 0 0 (by decide)).trans hfree.2⟩, rfl, hthr,
    hregs.fld Fld.START_STATUS_KIND 0 0 (by decide), hboot⟩

/-- What a wake start in stores without an error leaves (R474, R508). -/
theorem wakeRun_spec {s : State} (hv : s.vaux = true) (hfree : ErrorFree s) {r : StartRun} (hrun : s.start.run = some r)
    {v : BitVec 64} (hword : s.lword 0 8191 = v) (hpos : 0 < v.toNat) (hlt : v.toNat < 0x10000) :
    let u := wakeRun s
    WakeStep s u ∧ u.mode = 4 ∧ WakeShown u ∧ u.start.run = none ∧ u.thr 0 = { thr0 with run := 1, pc := v, last := 0x10000 } ∧
    u.fld Fld.START_STATUS_KIND = s.fld Fld.START_STATUS_KIND ∧ u.fld Fld.BOOT_STATUS_CODE = 2 := by
  obtain ⟨hrepaired, hrepfree, hrepkind, hreprun⟩ := wakeRepaired_spec hfree hrun
  have hword' : (wakeRepaired s).lword 0 8191 = v := by
    have hlmem : (wakeRepaired s).stw.lmem = s.stw.lmem := by rw [hrepaired]
    rw [State.lword, hlmem]
    exact hword
  rw [wakeRun_eq hrun hrepfree.1 hword' hpos hlt]
  generalize wakeRepaired s = t at *
  obtain ⟨hthread, hthreadfree, hthreadrun, hthr, hthreadkind, hboot⟩ := wakeThread_spec hrepfree v
  have hvw : (wakeThread t v).vaux = true := by rw [hthread, hrepaired]; exact hv
  generalize wakeThread t v = w at *
  obtain ⟨hserved, hservedfree, hservedrun, hstw, hmode, hshown, hkind, hboot'⟩ :=
    wakeServed_spec hvw hthreadfree (by rw [hthreadrun]; exact hreprun) r
  have hwork := workAbove_wakeService hservedfree.1
  generalize wakeServed w r = x at *
  generalize wakeService w r = u at *
  refine ⟨hrepaired.trans (hthread.trans (hserved.trans hwork.wakeStep)), (hwork.mode (by decide)).trans hmode,
    hwork.wakeShown hshown, by rw [hwork.1]; exact hservedrun, ?_, ?_, (hwork.fld _ (by decide)).trans (hboot'.trans hboot)⟩
  · have hstwu : u.stw = w.stw := by rw [hwork.1]; exact hstw
    rw [State.thr, hstwu]
    exact hthr
  · exact (hwork.fld _ (by decide)).trans (hkind.trans (hthreadkind.trans hrepkind))

end Sys2Proof.Machine

namespace Sys2Proof.Machine

/-! The statement about sleep and wake. -/

section
variable {s : State} (hdft : s.dft = false)
include hdft

/-- No wake starts without supply, in a reset, outside WAKING or without retention. -/
theorem completes_wakeStart_idle (h : s.vaux = false ∨ s.portUp = false ∨ s.coreUp = true ∨ s.coldRst = true ∨
      s.fld Fld.SLEEP_STATUS_STATE ≠ 4 ∨ s.fld Fld.MODE_RETAINED = 0) :
    Completes .wakeStart s (fun u => u = Begun s) := by
  have hstop : (! s.vaux) = true ∨ (! s.portUp) = true ∨ s.coreUp = true ∨ s.coldRst = true ∨
      s.fld Fld.SLEEP_STATUS_STATE ≠ 4 ∨ s.fld Fld.MODE_RETAINED = 0 := by simpa using h
  exact completes_run wakeStart rfl hdft (if_pos hstop)

/-- A wake with retention (R474, R508). -/
theorem completes_wakeStart {v : BitVec 64} (hv : s.vaux = true) (hport : s.portUp = true) (hcore : s.coreUp = false)
    (hcold : s.coldRst = false) (hst : s.fld Fld.SLEEP_STATUS_STATE = 4) (hret : s.fld Fld.MODE_RETAINED = 1)
    (hself : s.fld Fld.LEHR_STATUS_SELFCHK = 1) (hintact : Intact s) (hword : s.lword 0 8191 = v) (hpos : 0 < v.toNat)
    (hlt : v.toNat < 0x10000) :
    Completes .wakeStart s (fun u =>
      u.mode = 4 ∧ u.fld Fld.MODE_FORCED = 1 ∧ u.coreUp = true ∧ u.now = s.lehrNow ∧ u.fld Fld.SLEEP_STATUS_STATE = 0 ∧
      u.fld Fld.START_STATUS_STEP = 10 ∧ u.fld Fld.START_STATUS_KIND = 2 ∧ u.start.run = none ∧
      u.fld Fld.START_CNT_WARM_FAIL = 0 ∧ u.fld Fld.START_CNT_COLD_FAIL = 0 ∧ u.fld Fld.BOOT_STATUS_CODE = 2 ∧
      u.thr 0 = { thr0 with run := 1, pc := v, last := 0x10000 } ∧ bit1 (u.fld Fld.LEHR_IRQ_SRC) 3 = true ∧
      u.cab.words = s.cab.words ∧ u.agt = s.agt ∧ u.stw.lmem = s.stw.lmem ∧ u.port.recs = s.port.recs ∧
      u.sl.banks = s.sl.banks) := by
  obtain ⟨hmask, -, -, -, -, -, harm⟩ := hintact
  refine completes_run wakeStart rfl hdft ?_
  have hgo : ¬ ((! s.vaux) = true ∨ (! s.portUp) = true ∨ s.coreUp = true ∨ s.coldRst = true ∨
      s.fld Fld.SLEEP_STATUS_STATE ≠ 4 ∨ s.fld Fld.MODE_RETAINED = 0) := by
    simp [hv, hport, hcore, hcold, hst, hret]
  have hstart : wakeStart (Begun s) = wakeRun (startBegin (Begun s) 2 ⟨[], [], [], true⟩) := if_neg hgo
  obtain ⟨hbegun, hfree, hkind, hrun⟩ := startBegin_wake_spec (s := Begun s) hself ⟨hmask, harm⟩ ⟨[], [], [], true⟩
  rw [hstart]
  generalize startBegin (Begun s) 2 ⟨[], [], [], true⟩ = t at *
  have hvt : t.vaux = true := by rw [hbegun]; exact hv
  have hwordt : t.lword 0 8191 = v := by rw [hbegun]; exact hword
  obtain ⟨hwake, hmode, hshown, hnone, hthr, hkind', hboot⟩ := wakeRun_spec hvt hfree hrun hwordt hpos hlt
  have hall := hbegun.trans hwake
  generalize wakeRun t = u at *
  have hkept : u.coreUp = true ∧ u.now = s.lehrNow ∧ u.cab.words = s.cab.words ∧ u.agt = s.agt ∧ u.stw.lmem = s.stw.lmem ∧
      u.port.recs = s.port.recs ∧ u.sl.banks = s.sl.banks := by
    rw [hall]
    exact ⟨rfl, rfl, rfl, rfl, rfl, rfl, rfl⟩
  obtain ⟨hup, hnow, hwords, hagt, hlmem, hrecs, hbanks⟩ := hkept
  exact ⟨hmode, hshown.forced, hup, hnow, hshown.asleep, hshown.stepIs, hkind'.trans hkind, hnone, hshown.warm, hshown.cold, hboot,
    hthr, hshown.irq, hwords, hagt, hlmem, hrecs, hbanks⟩

end

/-- Settles O10, clause by clause: what wakes is the mask of the sources that fire, a commit keeps what the reset of CORE or of
PORT keeps, and a wake start keeps the stores since every part of it is a `WakeStep`. -/
theorem sleepAndWake : Obligations.SleepAndWake := by
  unfold Obligations.SleepAndWake
  intro s hdft
  refine ⟨fun srcs pins => ⟨fun h => ?idle, fun hsome hst => ?pending, fun hsome hst => ?asleep⟩,
    fun hv hexh hst => completes_mgmt_asleep hdft hv hexh hst, fun hv hexh hst => completes_mgmt_pending hdft hv hexh hst,
    fun hv h => completes_mgmt_idle hdft hv h, fun h => completes_sleepCommit_idle hdft h,
    fun hready hst hv => ⟨fun hf => completes_sleepCommit_abandoned hdft hready hst hv hf,
      fun hf hr => completes_sleepCommit_retained hdft hready hst hf hr,
      fun hf hr => completes_sleepCommit_railsOff hdft hready hst hf hr⟩,
    fun h => completes_wakeStart_idle hdft h,
    fun v hv hport hcore hcold hst hret hself hintact hword hpos hlt =>
      completes_wakeStart hdft hv hport hcore hcold hst hret hself hintact hword hpos hlt⟩
  case idle => exact completes_wake_idle hdft h
  case pending => exact completes_wake_pending hsome hdft hst
  case asleep => exact completes_wake_asleep hsome hdft hst

end Sys2Proof.Machine

namespace Sys2Proof.Machine

/-! SUPPORT. The fabric ports: what the commands of the Port Complex may write, and their operations one by one (R64, R65, R90). -/

/-- `u` is `s` but for the parts that commands of the Port Complex work on. -/
def PortWork (s u : State) : Prop :=
  u = { s with
    regs := u.regs, frzReq := u.frzReq, fault := u.fault, agt := u.agt, port := u.port, sl := u.sl, integ := u.integ
    work := u.work, now := u.now, lehrNow := u.lehrNow, conf := u.conf, tx := u.tx, memTx := u.memTx, ptTx := u.ptTx }

namespace PortWork

variable {s t u : State}

theorem trans (h : PortWork s t) (k : PortWork t u) : PortWork s u := by
  unfold PortWork at *
  rw [k, h]

theorem quietCore (h : PortWork s u) : QuietCore s u := by
  unfold PortWork at h
  rw [h]
  exact ⟨rfl, rfl, rfl, rfl, rfl, rfl, rfl, rfl, rfl, rfl⟩

end PortWork

theorem RegStep.portWork {s u : State} {l : List Nat} (h : RegStep s u l) : PortWork s u := by
  unfold PortWork
  rw [h.1]

theorem fport_setFport_ne (s : State) {p q : Nat} (h : q ≠ p) (f : FPort) : (s.setFport p f).fport q = s.fport q :=
  SMap.getD_set_ne _ _ _ _ _ h

theorem isReg_FP_ERR {p : Nat} (hp : p < 64) : IsReg .FP_ERR p 0 := isReg_of_lt .FP_ERR hp Nat.one_pos

/-- A report that is raised is held (R395). -/
theorem reported_raiseN (s : State) (path : FPath) (code subject : Nat) (dom : Dom) :
    Reported (raiseN s path code subject 1 false dom) code subject := by
  obtain ⟨r, hr⟩ := lcPass_eq s path code subject false
  unfold Reported raiseN
  rw [hr]
  dsimp only
  split
  · next hany =>
    obtain ⟨e, he, hsame⟩ := List.any_eq_true.1 hany
    have hsig : e.code = code ∧ e.subject = subject := by simpa [and_assoc] using And.left (by simpa using hsame)
    exact ⟨_, List.mem_map.2 ⟨e, he, if_pos hsame⟩, hsig⟩
  · exact ⟨_, List.mem_append_right _ (List.mem_singleton.2 rfl), rfl, rfl⟩

/-- A report of PORT passes no local collector (R394). -/
theorem raisePort_eq_fault (s : State) (code subject : Nat) :
    raisePort s code subject = { s with fault := (raisePort s code subject).fault } := rfl

/-- An error of a port writes FP_ERR and, where none stood there, FP_ERR_INFO (R90, R91). -/
theorem fpErr_step (s : State) (p : Nat) {f : Fld} (hf : f.reg = .FP_ERR) (agent typ : Nat) :
    RegStep s (fpErr s p f agent typ) [RegName.FP_ERR.addr p 0, RegName.FP_ERR_INFO.addr p 0] := by
  have hset : ∀ t, RegStep s t [RegName.FP_ERR.addr p 0, RegName.FP_ERR_INFO.addr p 0] →
      RegStep s (t.setFld f 1 p) [RegName.FP_ERR.addr p 0, RegName.FP_ERR_INFO.addr p 0] :=
    fun t ht => ht.setFld f 1 (by simp [hf])
  unfold fpErr
  dsimp only
  split
  · exact hset _ (((RegStep.refl s _).setFld Fld.FP_ERR_INFO_AGENT _ (by simp)).setFld Fld.FP_ERR_INFO_TYPE _ (by simp))
  · exact hset _ (RegStep.refl s _)

/-- The error's bit is set. -/
theorem fld_fpErr (s : State) (p : Nat) {f : Fld} (hf : f.hi = f.lo) (h64 : f.hi < 64) (agent typ : Nat) :
    (fpErr s p f agent typ).fld f p = 1 := by
  have hbit : f.hi + 1 - f.lo = 1 := by omega
  unfold fpErr
  dsimp only
  rw [fld_setFld_same _ _ _ _ _ h64, hbit]
  rfl

/-! ### Egress -/

/-- The port after a message has joined its class's order (R61). -/
def pushed (f : FPort) (m : FabMsg) : FPort :=
  match m.cls with
  | 0 => { f with snpQ := f.snpQ ++ [m] }
  | 1 => { f with rspQ := f.rspQ ++ [m] }
  | _ => { f with datQ := f.datQ ++ [m] }

theorem egPush_eq (s : State) (p : Nat) (m : FabMsg) : egPush s p m = (s.setFport p (pushed (s.fport p) m)).addWork (.eg p) := by
  unfold egPush pushed
  generalize m.cls = c
  rcases c with _ | _ | _ <;> rfl

/-! ### Credits -/

/-- The port when every free entry of its receive pools is credited (R64). -/
def granted64 (s : State) (p : Nat) : FPort :=
  { s.fport p with reqCred := 32 - (s.fport p).reqQ.length, datCred := 32 - (datUsed s p).length, rspCred := 64 }

theorem regrant_eq {s : State} (hup : s.portUp = true) (hv : s.vaux = true) (p : Nat) :
    regrant s p = if s.fld Fld.FP_CTL_EN p = 1 then s.setFport p (granted64 s p) else s := by
  unfold regrant granted64
  simp [hup, hv]

/-- A credit of class `c` more (R65). -/
def credited (f : FPort) (c : Nat) : FPort :=
  let f := { f with stalled := f.stalled.filter (· ≠ c) }
  match c with
  | 0 => { f with txSnp := f.txSnp + 1 }
  | 1 => { f with txRsp := f.txRsp + 1 }
  | _ => { f with txDat := f.txDat + 1 }

/-- The transmit credits of a class, and what waits for them. -/
def creditOf (f : FPort) (c : Nat) : Nat := if c = 0 then f.txSnp else if c = 1 then f.txRsp else f.txDat
def queueOf (f : FPort) (c : Nat) : List FabMsg := if c = 0 then f.snpQ else if c = 1 then f.rspQ else f.datQ

/-- The classes of transmit credits. -/
theorem class_cases {c : BitVec 2} (h : c ≠ 3) : c.toNat = 0 ∨ c.toNat = 1 ∨ c.toNat = 2 := by
  have hlt := c.isLt
  have hne : c.toNat ≠ 3 := fun h3 => h (BitVec.eq_of_toNat_eq h3)
  omega

theorem txCredit_room {s : State} (hup : s.portUp = true) (hv : s.vaux = true) {p c : Nat} (hc : c = 0 ∨ c = 1 ∨ c = 2)
    (h : creditOf (s.fport p) c < 255) : txCredit s p c = (s.setFport p (credited (s.fport p) c)).addWork (.eg p) := by
  rcases hc with rfl | rfl | rfl <;>
  · have hne : ¬ creditOf (s.fport p) _ = 255 := Nat.ne_of_lt h
    simp only [creditOf] at hne
    simp_all [txCredit, credited]

theorem txCredit_full {s : State} (hup : s.portUp = true) (hv : s.vaux = true) {p c : Nat} (hc : c = 0 ∨ c = 1 ∨ c = 2)
    (h : creditOf (s.fport p) c = 255) : txCredit s p c = fpErr s p Fld.FP_ERR_CRD_OVF 0 0 := by
  rcases hc with rfl | rfl | rfl <;> simp_all [txCredit, creditOf]

theorem txStall_cases {s : State} {p c : Nat} (hc : c = 0 ∨ c = 1 ∨ c = 2) : txStall s p c =
    match queueOf (s.fport p) c with
    | m :: _ =>
      if creditOf (s.fport p) c ≠ 0 ∨ c ∈ (s.fport p).stalled then s
      else raisePort (fpErr (s.setFport p { s.fport p with stalled := insertSorted c (s.fport p).stalled }) p
        Fld.FP_ERR_TX_STALL m.agent m.typ) 0x06 p
    | [] => s := by
  rcases hc with rfl | rfl | rfl <;> simp [txStall, queueOf, creditOf] <;> rfl

end Sys2Proof.Machine

namespace Sys2Proof.Machine

/-! The statement about transmit credits and links (R64, R65, R88, R89, R213). -/

/-- `u` is what a command leaves that works on the fabric ports, their registers and causes, and the reports alone. -/
def FpWork (s u : State) : Prop :=
  u = { Begun s with
    regs := u.regs, fault := u.fault, work := u.work, port := { s.port with fp := u.port.fp, evt := u.port.evt } }

/-- What such a command leaves as it was. -/
theorem FpWork.same {s u : State} (h : FpWork s u) :
    u.sl = s.sl ∧ u.agt = s.agt ∧ u.port.hold = s.port.hold ∧ u.port.dat = s.port.dat ∧ u.port.recs = s.port.recs ∧
      QuietCore s u := by
  unfold FpWork at h
  rw [h]
  exact ⟨rfl, rfl, rfl, rfl, rfl, rfl, rfl, rfl, rfl, rfl, rfl, rfl, rfl, rfl, rfl⟩

/-- Only port `p` is another, and it is `f`. -/
def PortIsOnly (s u : State) (p : Nat) (f : FPort) : Prop := u.fport p = f ∧ ∀ q, q ≠ p → u.fport q = s.fport q

theorem portIsOnly_setFport (s : State) (p : Nat) (f : FPort) : PortIsOnly s (s.setFport p f) p f :=
  ⟨fport_setFport s p f, fun _ h => fport_setFport_ne s h f⟩

section
variable {s : State} (hdft : s.dft = false) (hv : s.vaux = true) (hup : s.portUp = true)
include hdft

section
variable {p : BitVec 6} {c : BitVec 2} (hc : c ≠ 3)
include hc

/-- A credit comes while there is room for one (R65). -/
theorem completes_txCredit_room (hv : s.vaux = true) (hup : s.portUp = true) (h : creditOf (s.fport p.toNat) c.toNat < 255) :
    Completes (.txCredit p c) s (fun u => FpWork s u ∧ u.fault = s.fault ∧ u.regs = s.regs ∧ u.work = s.work ++ [.eg p.toNat] ∧
      PortIsOnly s u p.toNat (credited (s.fport p.toNat) c.toNat)) := by
  refine completes_run (fun t => txCreditRow t p c) rfl hdft ?_
  rw [txCreditRow, if_neg hc, txCredit_room (s := freshOut s) hup hv (class_cases hc) h]
  exact ⟨rfl, rfl, rfl, rfl, portIsOnly_setFport s p.toNat _⟩

theorem completes_txCredit_full (hv : s.vaux = true) (hup : s.portUp = true) (h : creditOf (s.fport p.toNat) c.toNat = 255) :
    Completes (.txCredit p c) s (fun u => FpWork s u ∧ PortIsOnly s u p.toNat (s.fport p.toNat) ∧
      u.fld Fld.FP_ERR_CRD_OVF p.toNat = 1) := by
  refine completes_run (fun t => txCreditRow t p c) rfl hdft ?_
  have hstep := fpErr_step (freshOut s) p.toNat (f := Fld.FP_ERR_CRD_OVF) rfl 0 0
  have hbit := fld_fpErr (freshOut s) p.toNat (f := Fld.FP_ERR_CRD_OVF) rfl (by decide) 0 0
  rw [txCreditRow, if_neg hc, txCredit_full (s := freshOut s) hup hv (class_cases hc) h]
  generalize fpErr (freshOut s) p.toNat Fld.FP_ERR_CRD_OVF 0 0 = u at *
  have hport : u.port = s.port := by rw [hstep.1]; rfl
  refine ⟨?_, ⟨by rw [State.fport, hport]; rfl, fun q _ => by rw [State.fport, hport]; rfl⟩, hbit⟩
  unfold FpWork
  rw [hstep.1]
  rfl

/-- A class that has waited for a credit is reported (R65). -/
theorem completes_txStall {m : FabMsg} {l : List FabMsg} (hq : queueOf (s.fport p.toNat) c.toNat = m :: l)
    (h : creditOf (s.fport p.toNat) c.toNat = 0) (hst : c.toNat ∉ (s.fport p.toNat).stalled) :
    Completes (.txStallTimeout p c) s (fun u => FpWork s u ∧ u.fld Fld.FP_ERR_TX_STALL p.toNat = 1 ∧
      Reported u 0x06 p.toNat ∧
      PortIsOnly s u p.toNat { s.fport p.toNat with stalled := insertSorted c.toNat (s.fport p.toNat).stalled }) := by
  refine completes_run (fun t => txStallRow t p c) rfl hdft ?_
  have hquiet : ¬ (creditOf ((freshOut s).fport p.toNat) c.toNat ≠ 0 ∨ c.toNat ∈ ((freshOut s).fport p.toNat).stalled) := by
    intro hor
    exact hor.elim (fun hne => hne h) hst
  have hq' : queueOf ((freshOut s).fport p.toNat) c.toNat = m :: l := hq
  rw [txStallRow, if_neg hc, txStall_cases (class_cases hc), hq']
  dsimp only
  rw [if_neg hquiet]
  have hport := portIsOnly_setFport (freshOut s) p.toNat
    { s.fport p.toNat with stalled := insertSorted c.toNat (s.fport p.toNat).stalled }
  have hframe : FpWork s ((freshOut s).setFport p.toNat
    { s.fport p.toNat with stalled := insertSorted c.toNat (s.fport p.toNat).stalled }) := rfl
  change PortIsOnly (freshOut s) ((freshOut s).setFport p.toNat { (freshOut s).fport p.toNat with
    stalled := insertSorted c.toNat ((freshOut s).fport p.toNat).stalled }) _ _ at hport
  change FpWork s ((freshOut s).setFport p.toNat { (freshOut s).fport p.toNat with
    stalled := insertSorted c.toNat ((freshOut s).fport p.toNat).stalled }) at hframe
  generalize (freshOut s).setFport p.toNat _ = t at *
  have hstep := fpErr_step t p.toNat (f := Fld.FP_ERR_TX_STALL) rfl m.agent m.typ
  have hbit := fld_fpErr t p.toNat (f := Fld.FP_ERR_TX_STALL) rfl (by decide) m.agent m.typ
  generalize fpErr t p.toNat Fld.FP_ERR_TX_STALL m.agent m.typ = w at *
  have hfp : (raisePort w 6 p.toNat).port = t.port := by rw [raisePort_eq_fault, hstep.1]
  refine ⟨?_, hbit, reported_raiseN w .inst 6 p.toNat .port, ?_⟩
  · unfold FpWork at *
    rw [raisePort_eq_fault, hstep.1, hframe]
  · simp only [PortIsOnly, State.fport, hfp] at hport ⊢
    exact hport

theorem completes_txStall_idle (h : queueOf (s.fport p.toNat) c.toNat = [] ∨ creditOf (s.fport p.toNat) c.toNat ≠ 0 ∨
    c.toNat ∈ (s.fport p.toNat).stalled) : Completes (.txStallTimeout p c) s (fun u => u = Begun s) := by
  refine completes_run (fun t => txStallRow t p c) rfl hdft ?_
  rw [txStallRow, if_neg hc, txStall_cases (class_cases hc)]
  rcases h with hq | hor
  · have hq' : queueOf ((freshOut s).fport p.toNat) c.toNat = [] := hq
    rw [hq']
  · split
    · exact if_pos hor
    · rfl

end

/-! ### Links -/

theorem completes_fpLinkDown_idle {p : BitVec 6} (h : (s.fport p.toNat).link = false) :
    Completes (.fpLinkDown p) s (fun u => u = Begun s) := by
  refine completes_run (fun t => linkDown t p.toNat) rfl hdft ?_
  have h' : (! ((freshOut s).fport p.toNat).link) = true := by
    change (! (s.fport p.toNat).link) = true
    rw [h]; rfl
  exact if_pos h'

omit hdft in
/-- The LINK cause of each agent of a list is set (R213). -/
theorem foldl_setCause (l : List Nat) (b : Nat) (s : State) :
    let u := l.foldl (fun t a => setCause t a b) s
    u = { s with port := { s.port with evt := u.port.evt } } ∧
    ∀ a, SMap.getD (fun _ => 0) u.port.evt a = if a ∈ l then SMap.getD (fun _ => 0) s.port.evt a ||| 2 ^ b
      else SMap.getD (fun _ => 0) s.port.evt a := by
  induction l generalizing s with
  | nil => exact ⟨rfl, fun a => by simp⟩
  | cons x l ih =>
    obtain ⟨hrest, hevt⟩ := ih (setCause s x b)
    refine ⟨hrest, fun a => ?_⟩
    rw [List.foldl_cons, hevt a]
    have hset : SMap.getD (fun _ => 0) (setCause s x b).port.evt a = if a = x then SMap.getD (fun _ => 0) s.port.evt a ||| 2 ^ b
        else SMap.getD (fun _ => 0) s.port.evt a := by
      split
      · next h => subst h; exact SMap.getD_set_same _ _ _ _
      · next h => exact SMap.getD_set_ne _ _ _ _ _ h
    rw [hset]
    by_cases hax : a = x <;> by_cases hal : a ∈ l <;> simp [hax, hal]

theorem completes_fpLinkDown {p : BitVec 6} (hup : s.portUp = true) (h : (s.fport p.toNat).link = true) :
    Completes (.fpLinkDown p) s (fun u => FpWork s u ∧ PortIsOnly s u p.toNat { s.fport p.toNat with link := false } ∧
      u.regs = s.regs ∧ u.fault = s.fault ∧ ∀ a, SMap.getD (fun _ => 0) u.port.evt a =
        if a ∈ s.agents ∧ s.agtFp a = p.toNat ∧ s.agtBound a = true then SMap.getD (fun _ => 0) s.port.evt a ||| 2
        else SMap.getD (fun _ => 0) s.port.evt a) := by
  refine completes_run (fun t => linkDown t p.toNat) rfl hdft ?_
  have hlink : linkDown (freshOut s) p.toNat =
      (s.agents.filter (fun a => s.agtFp a = p.toNat ∧ s.agtBound a)).foldl (fun t a => setCause t a 1)
        ((freshOut s).setFport p.toNat { s.fport p.toNat with link := false }) := by
    have h' : ¬ ((! ((freshOut s).fport p.toNat).link) = true) := by
      change ¬ ((! (s.fport p.toNat).link) = true)
      rw [h]; decide
    unfold linkDown
    rw [if_neg h']
    exact if_neg (by simp [hup])
  rw [hlink]
  obtain ⟨hframe, hevt⟩ := foldl_setCause (s.agents.filter (fun a => s.agtFp a = p.toNat ∧ s.agtBound a)) 1
    ((freshOut s).setFport p.toNat { s.fport p.toNat with link := false })
  have hport := portIsOnly_setFport s p.toNat { s.fport p.toNat with link := false }
  generalize (s.agents.filter (fun a => s.agtFp a = p.toNat ∧ s.agtBound a)).foldl _ _ = u at *
  refine ⟨?_, ?_, by rw [hframe]; rfl, by rw [hframe]; rfl, fun a => ?_⟩
  · unfold FpWork
    rw [hframe]
    rfl
  · rw [hframe]
    exact hport
  · rw [hevt a]
    simp only [List.mem_filter, decide_eq_true_eq]
    rfl

theorem completes_fpLinkUp {p : BitVec 6} (hv : s.vaux = true) (hup : s.portUp = true)
    (h : ∀ e ∈ s.conf, ∀ c, e.2 = some c → c.grace = false) :
    Completes (.fpLinkUp p) s (fun u => u = (Begun s).setFport p.toNat { s.fport p.toNat with link := true }) := by
  refine completes_run (fun t => linkUp t p.toNat) rfl hdft ?_
  unfold linkUp
  refine (if_neg (by simp [hv, hup])).trans ?_
  refine List.foldlRecOn (motive := fun t => t = (Begun s).setFport p.toNat { s.fport p.toNat with link := true }) _ _ rfl
    fun t ht e he => ?_
  split
  · next c hc =>
    rw [if_neg (fun hand => by simp [h e he c hc] at hand)]
    exact ht
  · exact ht

/-! ### FP_CTL.EN -/

theorem completes_fpEnWrite {p : BitVec 6} (hv : s.vaux = true) (hup : s.portUp = true) (v : BitVec 32) :
    Completes (.fpEnWrite p v) s (fun u => FpWork s u ∧ u.fld Fld.FP_CTL_EN p.toNat = v.toNat % 2 ∧ u.fault = s.fault ∧
      RegsBut s u [RegName.FP_CTL.addr p.toNat 0] ∧
      PortIsOnly s u p.toNat (if v.toNat % 2 = 1 then granted64 s p.toNat else s.fport p.toNat)) := by
  refine completes_run (fun t => portWrite t (RegName.FP_CTL.addr p.toNat 0) v) rfl hdft ?_
  have hd : domUp (freshOut s) RegName.FP_CTL.desc.dom = true := by simp [domUp, RegName.desc, hv, hup]
  rw [portWrite_addr (show p.toNat < RegName.FP_CTL.desc.n1 from p.isLt) Nat.one_pos hd rfl]
  have hen := fld_setFld_same (freshOut s) Fld.FP_CTL_EN (v.toNat % 2) p.toNat 0 (by decide)
  have hregs := regsBut_setFld (freshOut s) Fld.FP_CTL_EN (v.toNat % 2) p.toNat 0
  have hcut : v.toNat % 2 % 2 ^ (Fld.FP_CTL_EN.hi + 1 - Fld.FP_CTL_EN.lo) = v.toNat % 2 := Nat.mod_mod _ _
  rw [hcut] at hen
  have hw : regWrite32 (freshOut s) none .FP_CTL v.toNat p.toNat 0 = fpEnWrite (freshOut s) p.toNat v.toNat := rfl
  rw [hw, fpEnWrite, if_pos ⟨hup, hv⟩, regrant_eq (by exact hup) (by exact hv), hen]
  split
  · exact ⟨rfl, hen, rfl, hregs, portIsOnly_setFport s p.toNat (granted64 s p.toNat)⟩
  · exact ⟨rfl, hen, rfl, hregs, rfl, fun _ _ => rfl⟩

end

/-- What a credit that comes leaves of its port. -/
theorem credited_spec (f : FPort) {c : Nat} (hc : c = 0 ∨ c = 1 ∨ c = 2) :
    (∀ k, k < 3 → creditOf (credited f c) k = creditOf f k + if k = c then 1 else 0) ∧
    credited f c = { f with
      txSnp := (credited f c).txSnp, txRsp := (credited f c).txRsp, txDat := (credited f c).txDat
      stalled := f.stalled.filter (· ≠ c) } := by
  refine ⟨fun k hk => ?_, ?_⟩
  · rcases hc with rfl | rfl | rfl <;> interval_cases k <;> rfl
  · rcases hc with rfl | rfl | rfl <;> rfl

/-- Settles O28, command by command. -/
theorem creditsAndLinks : Obligations.CreditsAndLinks := by
  unfold Obligations.CreditsAndLinks
  intro p c s hdft hv hup hc
  refine ⟨fun h => ?room, fun h => ?full, fun m l hq h hst => ?stall, fun h => completes_txStall_idle hdft hc h,
    fun h => completes_fpLinkDown_idle hdft h, fun h => ?down, fun h => ?up, fun v => ?enable⟩
  case room =>
    refine (completes_txCredit_room hdft hc hv hup h).mono fun u ⟨hframe, hfault, hregs, hwork, hport, hother⟩ => ?_
    obtain ⟨hcredit, hshape⟩ := credited_spec (s.fport p.toNat) (class_cases hc)
    rw [hport]
    exact ⟨hframe.same, hfault, hregs, hwork, hcredit, hshape ▸ hport, hother⟩
  case full =>
    exact (completes_txCredit_full hdft hc hv hup h).mono fun u ⟨hframe, hport, hbit⟩ => ⟨hport, hframe.same, hbit⟩
  case stall =>
    exact (completes_txStall hdft hc hq h hst).mono fun u ⟨hframe, hbit, hrep, hport⟩ => ⟨hframe.same, hbit, hrep, hport⟩
  case down =>
    exact (completes_fpLinkDown hdft hup h).mono fun u ⟨hframe, hport, hregs, hfault, hevt⟩ =>
      ⟨hport, hframe.same, hregs, hfault, hevt⟩
  case up =>
    refine (completes_fpLinkUp hdft hv hup h).mono fun u hu => ?_
    have hframe : FpWork s u := by rw [hu]; rfl
    exact ⟨hu ▸ portIsOnly_setFport (Begun s) p.toNat _, hframe.same, by rw [hu]; rfl, by rw [hu]; rfl, by rw [hu]; rfl⟩
  case enable =>
    exact (completes_fpEnWrite hdft hv hup v).mono fun u ⟨hframe, hen, hfault, hregs, hport⟩ =>
      ⟨hen, hframe.same, hfault, hregs, hport⟩

end Sys2Proof.Machine

namespace Sys2Proof.Machine

/-! SUPPORT. A message at ingress: what its arrival counts, the checks it passes (R67), and what a refusal leaves (R63). -/

/-! ### The event counters of a port -/

/-- The offsets of a fabric port's event counters. -/
def fpCnts (p : Nat) : List Nat := (List.range 4).map (RegName.FP_TEL_CNT.addr p)

theorem fpCnts_bounds {p k : Nat} (hp : p < 64) (h : k ∈ fpCnts p) : 0x80000 ≤ k ∧ k < 0x90000 := by
  obtain ⟨x, hx, rfl⟩ := List.mem_map.1 h
  have hx' := List.mem_range.1 hx
  simp only [RegName.addr, RegName.desc]
  omega

theorem addr_notMem_fpCnts {r : RegName} {p i j : Nat} (hr : r ≠ .FP_TEL_CNT) (hp : p < 64) (h : IsReg r i j) :
    r.addr i j ∉ fpCnts p := by
  intro hmem
  obtain ⟨x, hx, heq⟩ := List.mem_map.1 hmem
  exact addr_ne hr h (isReg_of_lt .FP_TEL_CNT hp (List.mem_range.1 hx)) heq.symm

theorem regsBut_bumpCnt (s : State) (v o : Fld) (ho : o.reg = v.reg) (i j id : Nat) :
    RegsBut s (bumpCnt s v o i j id) [v.reg.addr i j] := by
  have hcount : ∀ m, RegsBut s (if m = 0 then (s.setFld v m i j).setFld o 1 i j else s.setFld v m i j) [v.reg.addr i j] := fun m => by
    have hval := regsBut_setFld s v m i j
    split
    · exact hval.trans (ho ▸ regsBut_setFld _ o 1 i j)
    · exact hval
  unfold bumpCnt
  extract_lets old new t u lim
  have hu : RegsBut s u [v.reg.addr i j] := hcount new
  clear_value u
  split
  · exact hu
  · exact hu

/-- An event of a port changes its counters alone (R529). -/
theorem regsBut_fpEvent (s : State) (p ev : Nat) : RegsBut s (fpEvent s p ev) (fpCnts p) := by
  refine List.foldlRecOn (motive := fun t => RegsBut s t (fpCnts p)) _ _ (RegsBut.refl s _) fun t ht k hk => ?_
  split
  · refine ht.trans ((regsBut_bumpCnt t Fld.FP_TEL_CNT_VALUE Fld.FP_TEL_CNT_OVF rfl p k _).mono ?_)
    exact List.cons_subset.2 ⟨List.mem_map_of_mem hk, List.nil_subset _⟩
  · exact ht

/-! ### What a message may change before it goes further -/

/-- `u` is `s` but for registers, reports, the ports and their work. -/
def Ingressed (s u : State) : Prop :=
  u = { s with
    regs := u.regs, frzReq := u.frzReq, fault := u.fault, work := u.work, port := { s.port with fp := u.port.fp } }

namespace Ingressed

variable {s t u : State}

theorem refl (s : State) : Ingressed s s := rfl

theorem trans (h : Ingressed s t) (k : Ingressed t u) : Ingressed s u := by
  unfold Ingressed at *
  rw [k, h]

theorem quietCore (h : Ingressed s u) : QuietCore s u := by
  unfold Ingressed at h
  rw [h]
  exact ⟨rfl, rfl, rfl, rfl, rfl, rfl, rfl, rfl, rfl, rfl⟩

theorem same (h : Ingressed s u) : u.port.hold = s.port.hold ∧ u.port.dat = s.port.dat ∧ u.agt = s.agt ∧ u.sl = s.sl := by
  unfold Ingressed at h
  rw [h]
  exact ⟨rfl, rfl, rfl, rfl⟩

theorem setFport (h : Ingressed s t) (p : Nat) (f : FPort) : Ingressed s (t.setFport p f) := h.trans rfl

theorem fpEvent (h : Ingressed s t) (p ev : Nat) : Ingressed s (fpEvent t p ev) := by
  obtain ⟨r, q, heq⟩ := fpEvent_eq t p ev
  rw [heq]
  exact h.trans rfl

theorem regrant (h : Ingressed s t) (p : Nat) : Ingressed s (regrant t p) := by
  unfold Machine.regrant
  split
  · exact h.trans rfl
  · exact h

theorem egPush (h : Ingressed s t) (p : Nat) (m : FabMsg) : Ingressed s (egPush t p m) := by
  rw [egPush_eq]
  exact h.trans rfl

theorem raisePort (h : Ingressed s t) (code subject : Nat) : Ingressed s (raisePort t code subject) := by
  rw [raisePort_eq_fault]
  exact h.trans rfl

end Ingressed

theorem RegStep.ingressed {s u : State} {l : List Nat} (h : RegStep s u l) : Ingressed s u := by
  unfold Ingressed
  rw [h.1]

/-! ### The checks -/

theorem wordLook_of_mask {s : State} (h : s.integ.mask = []) (st : Store) (unit w : Nat) : wordLook s st unit w = some (0, 0) := by
  have hmask : maskOf s st unit w = 0 := by rw [maskOf, h]; rfl
  rw [wordLook, if_pos hmask]

theorem mapsRead_of_mask {s : State} (h : s.integ.mask = []) (line : Nat) : mapsRead s line = s := by
  simp only [mapsRead, wordRead_of_mask h, Option.isSome_some, if_true]

theorem agentRead_of_mask {s : State} (h : s.integ.mask = []) (a : Nat) : agentRead s a = s := by
  simp only [agentRead, wordRead_of_mask h, Option.isSome_some, if_true]

theorem seenState_of_mask {s : State} (h : s.integ.mask = []) (a : Nat) : seenState s a = s.agtState a := by
  simp only [seenState, wordLook_of_mask h, Nat.xor_zero]
  rfl

/-- The form of a message is wrong: check 1 of R67. -/
def BadForm (s : State) (typ : Nat) (h : Hdr) : Prop :=
  h.mfield = 1 ∨ h.mfield = 2 ∨ h.mval = 1 ∨ ((typ = 0x1C ∨ typ = 0x1D) ∧ s.agtDc h.agent.toNat = false ∧ s.agtHb h.agent.toNat = false)

/-- The code of the first check that a message fails, 0 for none. -/
def ingressCode (s : State) (typ : Nat) (h : Hdr) : Nat := (ingressCheck s typ h).2

section
variable {s : State} (hmask : s.integ.mask = []) (typ : Nat) (h : Hdr)
include hmask

/-- Where no stored word is in error, the checks only look. -/
theorem ingressCheck_of_mask : ingressCheck s typ h = (s, ingressCode s typ h) := by
  have hmaps : (if typ = 0x1D then s else mapsRead s h.pa.toNat) = s := by rw [mapsRead_of_mask hmask, ite_self]
  unfold ingressCode ingressCheck
  simp only [hmaps, agentRead_of_mask hmask]
  repeat' split
  all_goals rfl

variable {typ h}

omit hmask in
theorem ingressCode_of_badForm (hbad : BadForm s typ h) : ingressCode s typ h = 4 := by
  unfold ingressCode ingressCheck
  dsimp only
  rw [if_pos]
  unfold BadForm at hbad
  simpa using hbad

/-- Of a message of the right form, the checks of its line and its agent. -/
theorem ingressCode_of_goodForm (hgood : ¬ BadForm s typ h) : ingressCode s typ h =
    if typ ≠ 0x1D ∧ ¬ homed s h.pa.toNat then 1
    else if ¬ (s.agtState h.agent.toNat = 1 ∨ s.agtState h.agent.toNat = 2 ∨ s.agtState h.agent.toNat = 3) then 3
    else if typ ≠ 0x1D ∧ s.agtTenant h.agent.toNat ≠ tenantOf s h.pa.toNat then 2 else 0 := by
  have hmaps : (if typ = 0x1D then s else mapsRead s h.pa.toNat) = s := by rw [mapsRead_of_mask hmask, ite_self]
  unfold ingressCode ingressCheck
  dsimp only
  rw [if_neg]
  · simp only [hmaps, agentRead_of_mask hmask, seenState_of_mask hmask]
    repeat' split
    all_goals rfl
  · unfold BadForm at hgood
    simpa using hgood

end

/-! ### Arrival -/

/-- Port `p` has taken a message of a class that counts `ev`, and holds `f` of its pools. -/
def arrived (s : State) (p : Nat) (f : FPort) (ev : Nat) : State := fpEvent (s.setFport p f) p ev

section
variable (s : State) {p : Nat} (hp : p < 64) (f : FPort) (ev : Nat)

theorem arrived_ingressed : Ingressed s (arrived s p f ev) := ((Ingressed.refl s).setFport p f).fpEvent p ev

theorem arrived_fport : (arrived s p f ev).fport p = f := by
  unfold arrived
  rw [State.fport, fpEvent_port]
  exact fport_setFport s p f

theorem arrived_regs : RegsBut s (arrived s p f ev) (fpCnts p) := regsBut_fpEvent (s.setFport p f) p ev

theorem arrived_fault : (arrived s p f ev).fault = s.fault := by simp [arrived]

theorem arrived_agt : (arrived s p f ev).agt = s.agt := by simp [arrived]

theorem arrived_integ : (arrived s p f ev).integ = s.integ := by simp [arrived]

include hp in
/-- An arrival changes nothing that the checks look at. -/
theorem arrived_reg {r : RegName} {i j : Nat} (hr : r.addr i j < 0x80000 ∨ 0x90000 ≤ r.addr i j) :
    (arrived s p f ev).reg r i j = s.reg r i j := by
  refine arrived_regs s f ev _ _ fun hmem => ?_
  have hbounds := fpCnts_bounds hp hmem
  omega

include hp in
theorem arrived_fld {g : Fld} {i j : Nat} (hr : g.reg.addr i j < 0x80000 ∨ 0x90000 ≤ g.reg.addr i j) :
    (arrived s p f ev).fld g i j = s.fld g i j := by
  rw [State.fld, arrived_reg s hp f ev hr]
  rfl

end

section
variable {s : State} (hmask : s.integ.mask = [])
include hmask

theorem amapW_of_mask (e : Nat) : amapW s e = (s.reg .AMAP e).toNat := by
  simp only [amapW, wordLook_of_mask hmask, Nat.xor_zero]

theorem hmapW_of_mask (w : Nat) : hmapW s w = (s.reg .HMAP w).toNat := by
  simp only [hmapW, wordLook_of_mask hmask, Nat.xor_zero]

variable {p : Nat} (hp : p < 64) (f : FPort) (ev : Nat)
include hp

theorem amapW_arrived (e : Nat) : amapW (arrived s p f ev) e = amapW s e := by
  rw [amapW_of_mask ((arrived_integ s f ev).symm ▸ hmask), amapW_of_mask hmask, arrived_reg s hp f ev]
  simp only [RegName.addr, RegName.desc]
  omega

theorem hmapW_arrived (w : Nat) : hmapW (arrived s p f ev) w = hmapW s w := by
  rw [hmapW_of_mask ((arrived_integ s f ev).symm ▸ hmask), hmapW_of_mask hmask, arrived_reg s hp f ev]
  simp only [RegName.addr, RegName.desc]
  omega

theorem homed_arrived (line : Nat) : homed (arrived s p f ev) line = homed s line := by
  unfold homed
  rw [hmapW_arrived hmask hp, amapW_arrived hmask hp, arrived_fld s hp f ev (g := Fld.STRAP_INST_ID) (by decide)]

/-- An arrival changes nothing that the checks look at. -/
theorem ingressCode_arrived (typ : Nat) (h : Hdr) : ingressCode (arrived s p f ev) typ h = ingressCode s typ h := by
  have hmask' : (arrived s p f ev).integ.mask = [] := (arrived_integ s f ev).symm ▸ hmask
  have hagt : ∀ a, (arrived s p f ev).agtW a = s.agtW a := fun a => by rw [State.agtW, arrived_agt]; rfl
  have hform : BadForm (arrived s p f ev) typ h ↔ BadForm s typ h := by simp only [BadForm, State.agtDc, State.agtHb, hagt]
  by_cases hbad : BadForm s typ h
  · rw [ingressCode_of_badForm hbad, ingressCode_of_badForm (hform.2 hbad)]
  · rw [ingressCode_of_goodForm hmask hbad, ingressCode_of_goodForm hmask' (mt hform.1 hbad), homed_arrived hmask hp,
      State.agtState, State.agtTenant, tenantOf, amapTenant, hagt, amapW_arrived hmask hp]
    rfl

end

/-! ### Refusals (R63) -/

/-- The bit of FP_ERR that a refusal sets. -/
def refusalBit (code : Nat) : Fld :=
  match code with
  | 1 => Fld.FP_ERR_MISROUTE | 2 => Fld.FP_ERR_TENANT | 3 => Fld.FP_ERR_AGENT | 4 => Fld.FP_ERR_BAD_OPC
  | _ => Fld.FP_ERR_UNEXP_RSP

theorem refusalBit_spec (code : Nat) :
    (refusalBit code).reg = .FP_ERR ∧ (refusalBit code).hi = (refusalBit code).lo ∧ (refusalBit code).hi < 64 := by
  unfold refusalBit
  split <;> exact ⟨rfl, rfl, by decide⟩

/-- CMP, and poisoned DATA, to a refused message. -/
def refusedCmp (h : Hdr) : FabMsg := plainMsg 0x28 h.agent.toNat h.pa.toNat h.tag.toNat
def refusedData (h : Hdr) : FabMsg :=
  { plainMsg 0x30 h.agent.toNat h.pa.toNat h.tag.toNat with poison := true, data := some 0, own := .refused }

/-- What answers a refused message in the RSP order and in the DAT order. -/
def refusalRsp (typ : Nat) (h : Hdr) : List FabMsg := if isReadT typ then [] else if isWrite typ ∨ isNdr typ then [refusedCmp h] else []
def refusalDat (typ : Nat) (h : Hdr) : List FabMsg := if isReadT typ then [refusedData h] else []

/-- What a refusal leaves: its report, its bit of FP_ERR, its answers. -/
def RefusedAt (s : State) (p : Nat) (a code : Nat) (bit : Fld) (rsp dat : List FabMsg) (u : State) : Prop :=
  Reported u code a ∧ u.fld bit p = 1 ∧ (u.fport p).rspQ = (s.fport p).rspQ ++ rsp ∧ (u.fport p).datQ = (s.fport p).datQ ++ dat ∧
  u.port.hold = s.port.hold ∧ u.port.dat = s.port.dat ∧ u.agt = s.agt ∧ u.sl = s.sl ∧ QuietCore s u

/-- `u` is `t` with messages added to the orders of port `p`. -/
def Answered (t : State) (p : Nat) (rsp dat : List FabMsg) (u : State) : Prop :=
  Ingressed t u ∧ u.fault = t.fault ∧ u.regs = t.regs ∧ (u.fport p).rspQ = (t.fport p).rspQ ++ rsp ∧
    (u.fport p).datQ = (t.fport p).datQ ++ dat

theorem answered_none (t : State) (p : Nat) : Answered t p [] [] t :=
  ⟨Ingressed.refl t, rfl, rfl, (List.append_nil _).symm, (List.append_nil _).symm⟩

theorem answered_egPush_rsp (t : State) (p : Nat) {m : FabMsg} (hm : m.cls = 1) : Answered t p [m] [] (egPush t p m) := by
  refine ⟨(Ingressed.refl t).egPush p m, ?_⟩
  have hf : (egPush t p m).fport p = { t.fport p with rspQ := (t.fport p).rspQ ++ [m] } := by
    rw [egPush_eq, pushed, hm]
    exact fport_setFport t p _
  rw [hf]
  exact ⟨by rw [egPush_eq]; rfl, by rw [egPush_eq]; rfl, rfl, (List.append_nil _).symm⟩

theorem answered_egPush_dat (t : State) (p : Nat) {m : FabMsg} (hm : m.cls = 2) : Answered t p [] [m] (egPush t p m) := by
  refine ⟨(Ingressed.refl t).egPush p m, ?_⟩
  have hf : (egPush t p m).fport p = { t.fport p with datQ := (t.fport p).datQ ++ [m] } := by
    rw [egPush_eq, pushed, hm]
    exact fport_setFport t p _
  rw [hf]
  exact ⟨by rw [egPush_eq]; rfl, by rw [egPush_eq]; rfl, (List.append_nil _).symm, rfl⟩

theorem answered_refuseMsgs (t : State) (p typ : Nat) (h : Hdr) :
    Answered t p (refusalRsp typ h) (refusalDat typ h) (refuseMsgs t p typ h) := by
  unfold refuseMsgs refusalRsp refusalDat
  dsimp only
  split
  · exact answered_egPush_dat t p rfl
  · split
    · exact answered_egPush_rsp t p rfl
    · exact answered_none t p

/-- A credit that returns leaves the orders of the port. -/
theorem regrant_fport_orders (t : State) (p : Nat) :
    ((regrant t p).fport p).rspQ = (t.fport p).rspQ ∧ ((regrant t p).fport p).datQ = (t.fport p).datQ := by
  unfold regrant
  split
  · dsimp only
    rw [fport_setFport]
    exact ⟨rfl, rfl⟩
  · exact ⟨rfl, rfl⟩

theorem regrant_reports (t : State) (p : Nat) : (regrant t p).fault = t.fault ∧ (regrant t p).regs = t.regs := by
  unfold regrant
  split <;> exact ⟨rfl, rfl⟩

/-- A refusal reports, sets its bit and answers the message by its type where the code is one of checks 2 to 4. -/
theorem refuse_spec (t : State) {p : Nat} (hp : p < 64) (typ : Nat) (h : Hdr) (code : Nat) :
    Ingressed t (refuse t p typ h code) ∧ Reported (refuse t p typ h code) code h.agent.toNat ∧
    (refuse t p typ h code).fld (refusalBit code) p = 1 ∧
    ((refuse t p typ h code).fport p).rspQ = (t.fport p).rspQ ++ (if code ≤ 3 then refusalRsp typ h else []) ∧
    ((refuse t p typ h code).fport p).datQ = (t.fport p).datQ ++ (if code ≤ 3 then refusalDat typ h else []) := by
  obtain ⟨hreg, honebit, h64⟩ := refusalBit_spec code
  have hstep := fpErr_step t p hreg h.agent.toNat typ
  have hbit := fld_fpErr t p honebit h64 h.agent.toNat typ
  have heq : refuse t p typ h code =
      if code ≤ 3 then refuseMsgs (raisePort (fpEvent (fpErr t p (refusalBit code) h.agent.toNat typ) p 9) code h.agent.toNat) p typ h
      else raisePort (fpEvent (fpErr t p (refusalBit code) h.agent.toNat typ) p 9) code h.agent.toNat := rfl
  generalize fpErr t p (refusalBit code) h.agent.toNat typ = v at *
  have hv : (v.fport p) = t.fport p := by rw [hstep.1]; rfl
  have hbit' : (fpEvent v p 9).fld (refusalBit code) p = 1 := by
    rw [(regsBut_fpEvent v p 9).fld _ _ _ (hreg ▸ addr_notMem_fpCnts (by decide) hp (isReg_FP_ERR hp)), hbit]
  have hin : Ingressed t (raisePort (fpEvent v p 9) code h.agent.toNat) := (hstep.ingressed.fpEvent p 9).raisePort _ _
  have hrep : Reported (raisePort (fpEvent v p 9) code h.agent.toNat) code h.agent.toNat := reported_raiseN _ _ _ _ _
  have hfp : (raisePort (fpEvent v p 9) code h.agent.toNat).fport p = t.fport p := by
    rw [raisePort_eq_fault, ← hv]
    simp only [State.fport, fpEvent_port]
  have hregs : (raisePort (fpEvent v p 9) code h.agent.toNat).regs = (fpEvent v p 9).regs := by rw [raisePort_eq_fault]
  generalize raisePort (fpEvent v p 9) code h.agent.toNat = w at *
  rw [heq]
  split
  · obtain ⟨hans, hfault, hregs', hrsp, hdat⟩ := answered_refuseMsgs w p typ h
    rw [hfp] at hrsp hdat
    refine ⟨hin.trans hans, ?_, ?_, hrsp, hdat⟩
    · unfold Reported; rw [hfault]; exact hrep
    · rw [fld_congr hregs', fld_congr hregs]; exact hbit'
  · rw [hfp]
    exact ⟨hin, hrep, (fld_congr hregs _ _ _).trans hbit', (List.append_nil _).symm, (List.append_nil _).symm⟩

/-- A message that has arrived is refused, and its credit returns. -/
theorem refusedAt_arrived (s : State) {p : Nat} (hp : p < 64) {f : FPort} (hrsp : f.rspQ = (s.fport p).rspQ)
    (hdat : f.datQ = (s.fport p).datQ) (ev typ : Nat) (h : Hdr) (code : Nat) :
    RefusedAt s p h.agent.toNat code (refusalBit code) (if code ≤ 3 then refusalRsp typ h else [])
      (if code ≤ 3 then refusalDat typ h else []) (regrant (refuse (arrived s p f ev) p typ h code) p) := by
  obtain ⟨hin, hrep, hbit, hr, hd⟩ := refuse_spec (arrived s p f ev) hp typ h code
  rw [arrived_fport, hrsp] at hr
  rw [arrived_fport, hdat] at hd
  generalize refuse (arrived s p f ev) p typ h code = w at *
  have hall : Ingressed s (regrant w p) := ((arrived_ingressed s f ev).trans hin).regrant p
  obtain ⟨hrq, hdq⟩ := regrant_fport_orders w p
  obtain ⟨hfault, hregs⟩ := regrant_reports w p
  obtain ⟨hhold, hdate, hagt, hsl⟩ := hall.same
  refine ⟨?_, (fld_congr hregs _ _ _).trans hbit, hrq.trans hr, hdq.trans hd, hhold, hdate, hagt, hsl, hall.quietCore⟩
  unfold Reported
  rw [hfault]
  exact hrep

end Sys2Proof.Machine

namespace Sys2Proof.Machine

/-! ### Messages that arrive while the instance runs -/

theorem fabricWake_awake {s : State} (h : s.mode ≠ 1) (p : Nat) : fabricWake s p = s := if_neg fun hand => h hand.1

section
variable {s : State} (hup : s.portUp = true) (hv : s.vaux = true) (p typ : Nat) (h : Hdr)

/-- The port once a REQ, one with data, a writeback or a message of the RSP class has taken its credits (R64). -/
def reqTaken (f : FPort) (data : Bool) : FPort :=
  { f with reqCred := f.reqCred - 1, datCred := if data then f.datCred - 1 else f.datCred }
def wbTaken (f : FPort) : FPort := { f with datCred := f.datCred - 1 }
def rspTaken (f : FPort) : FPort := { f with rspCred := f.rspCred - 1 }

include hup hv

theorem rspIn_eq (hcred : (s.fport p).rspCred ≠ 0) (use : State → State) :
    rspIn s p typ h use = regrant (use (arrived s p (rspTaken (s.fport p)) 4)) p := by
  unfold rspIn
  dsimp only
  rw [if_neg (by simp [hup, hv]), if_neg hcred]
  rfl

variable {p}
variable {code : Nat} (hcode : code ≠ 0) (hmask : s.integ.mask = []) (hp : p < 64)
include hmask hp

omit hup hv in
theorem ingressCheck_arrived (f : FPort) (ev : Nat) :
    ingressCheck (arrived s p f ev) typ h = (arrived s p f ev, ingressCode s typ h) := by
  rw [ingressCheck_of_mask ((arrived_integ s f ev).symm ▸ hmask), ingressCode_arrived hmask hp]

variable {typ h}

theorem rxReq_of_refused (hc : ingressCode s typ h = code) (hne : code ≠ 0) {data : Option Line} (hcred : (s.fport p).reqCred ≠ 0)
    (hdata : data.isSome = true → (s.fport p).datCred ≠ 0) :
    rxReq s p typ h data = regrant (refuse (arrived s p (reqTaken (s.fport p) data.isSome) 2) p typ h code) p := by
  have hin := ingressCheck_arrived typ h hmask hp (reqTaken (s.fport p) data.isSome) 2
  rw [hc] at hin
  unfold rxReq
  dsimp only
  rw [if_neg (by simp [hup, hv]), if_neg (by simp [hcred]; exact hdata)]
  unfold arrived reqTaken at *
  rw [hin]
  exact if_pos hne

theorem rxWb_of_refused (hc : ingressCode s typ h = code) (hne : code ≠ 0) (hcred : (s.fport p).datCred ≠ 0) (data : Line) :
    rxWb s p typ h data = regrant (refuse (arrived s p (wbTaken (s.fport p)) 3) p typ h code) p := by
  have hin := ingressCheck_arrived typ h hmask hp (wbTaken (s.fport p)) 3
  rw [hc] at hin
  unfold rxWb
  dsimp only
  rw [if_neg (by simp [hup, hv]), if_neg hcred]
  unfold arrived wbTaken at *
  rw [hin]
  exact if_pos hne

end

/-! ### Commands that a check refuses -/

theorem ingressCode_freshOut {s : State} (hmask : s.integ.mask = []) (typ : Nat) (h : Hdr) :
    ingressCode (freshOut s) typ h = ingressCode s typ h := by
  by_cases hbad : BadForm s typ h
  · rw [ingressCode_of_badForm hbad, ingressCode_of_badForm (s := freshOut s) hbad]
  · rw [ingressCode_of_goodForm hmask hbad, ingressCode_of_goodForm (s := freshOut s) hmask hbad]
    rfl

/-- A message of type `typ`, brought by `c`, is refused under the first check it fails. -/
def Refuses (s : State) (p : Nat) (typ : Nat) (h : Hdr) (c : Instr) : Prop :=
  ∀ code, ingressCode s typ h = code → code ≠ 0 → Completes c s (RefusedAt s p h.agent.toNat code (refusalBit code)
    (if code ≤ 3 then refusalRsp typ h else []) (if code ≤ 3 then refusalDat typ h else []))

/-- The state of a message's agent is none that may send. -/
theorem agentMayNotSend {s : State} {a : Nat} (h : s.agtState a = 0 ∨ 4 ≤ s.agtState a) :
    ¬ (s.agtState a = 1 ∨ s.agtState a = 2 ∨ s.agtState a = 3) := by omega

theorem agentMaySend {s : State} {a : Nat} (h : ¬ (s.agtState a = 0 ∨ 4 ≤ s.agtState a)) :
    s.agtState a = 1 ∨ s.agtState a = 2 ∨ s.agtState a = 3 := by omega

section
variable {s : State} (hdft : s.dft = false) (hawake : Awake s) (hintact : Intact s) {p : BitVec 6} {h : Hdr}

section
variable {typ : Nat} {c : Instr}
include hdft hawake hintact

theorem refuses_rxReq {data : Option Line} (hexec : exec c s = run (fun s => rxReqRow s p typ h data) s)
    (hcred : (s.fport p.toNat).reqCred ≠ 0) (hdata : data.isSome = true → (s.fport p.toNat).datCred ≠ 0) :
    Refuses s p.toNat typ h c := by
  obtain ⟨hv, hup, -, hmode⟩ := hawake
  intro code hcode hne
  refine completes_run _ hexec hdft ?_
  rw [rxReqRow, fabricWake_awake (s := freshOut s) hmode,
    rxReq_of_refused (s := freshOut s) hup hv hintact.1 p.isLt ((ingressCode_freshOut hintact.1 typ h).trans hcode) hne hcred hdata]
  exact refusedAt_arrived (freshOut s) p.isLt (f := reqTaken (s.fport p.toNat) data.isSome) rfl rfl 2 typ h code

theorem refuses_rxWb {data : Line} (hexec : exec c s = run (fun s => rxWb (fabricWake s p.toNat) p.toNat typ h data) s)
    (hcred : (s.fport p.toNat).datCred ≠ 0) : Refuses s p.toNat typ h c := by
  obtain ⟨hv, hup, -, hmode⟩ := hawake
  intro code hcode hne
  refine completes_run _ hexec hdft ?_
  rw [fabricWake_awake (s := freshOut s) hmode,
    rxWb_of_refused (s := freshOut s) hup hv hintact.1 p.isLt ((ingressCode_freshOut hintact.1 typ h).trans hcode) hne hcred]
  exact refusedAt_arrived (freshOut s) p.isLt (f := wbTaken (s.fport p.toNat)) rfl rfl 3 typ h code

omit hintact in
/-- A message of the RSP class is refused with a code where what uses it does so. -/
theorem completes_rspIn_refused {use : State → State} {code : Nat}
    (hexec : exec c s = run (fun s => rspIn (fabricWake s p.toNat) p.toNat typ h use) s)
    (hcred : (s.fport p.toNat).rspCred ≠ 0)
    (huse : let t := arrived (freshOut s) p.toNat (rspTaken (s.fport p.toNat)) 4; use t = refuse t p.toNat typ h code) :
    Completes c s (RefusedAt s p.toNat h.agent.toNat code (refusalBit code)
      (if code ≤ 3 then refusalRsp typ h else []) (if code ≤ 3 then refusalDat typ h else [])) := by
  obtain ⟨hv, hup, -, hmode⟩ := hawake
  refine completes_run _ hexec hdft ?_
  rw [fabricWake_awake (s := freshOut s) hmode, rspIn_eq (s := freshOut s) hup hv p.toNat typ h hcred]
  change RefusedAt _ _ _ _ _ _ _ (regrant (use (arrived (freshOut s) p.toNat (rspTaken (s.fport p.toNat)) 4)) p.toNat)
  rw [huse]
  exact refusedAt_arrived (freshOut s) p.isLt (f := rspTaken (s.fport p.toNat)) rfl rfl 4 typ h code

/-- So is one that is used only where it passes the checks. -/
theorem refuses_rspIn {use : State → State}
    (hexec : exec c s = run (fun s => rspIn (fabricWake s p.toNat) p.toNat typ h use) s)
    (huse : ∀ t bad, ingressCheck t typ h = (t, bad) → bad ≠ 0 → use t = refuse t p.toNat typ h bad)
    (hcred : (s.fport p.toNat).rspCred ≠ 0) : Refuses s p.toNat typ h c := by
  intro code hcode hne
  refine completes_rspIn_refused hdft hawake hexec hcred (huse _ _ ?_ hne)
  have hin := ingressCheck_arrived (s := freshOut s) typ h hintact.1 p.isLt (rspTaken (s.fport p.toNat)) 4
  rwa [ingressCode_freshOut hintact.1, hcode] at hin

end

end

section
variable {s : State} {p typ : Nat} {h : Hdr} {c : Instr} (hmask : s.integ.mask = []) (href : Refuses s p typ h c) {bad : Prop}
  (hform : BadForm s typ h ↔ bad)
include href hform

/-- A message of a wrong form has no answer. -/
theorem Refuses.form (hbad : bad) : Completes c s (RefusedAt s p h.agent.toNat 4 Fld.FP_ERR_BAD_OPC [] []) :=
  href 4 (ingressCode_of_badForm (hform.2 hbad)) (by decide)

include hmask

/-- A message whose agent may not send, past the check of its line. -/
theorem Refuses.agent (hgood : ¬ bad) (hline : typ = 0x1D ∨ homed s h.pa.toNat = true)
    (hag : s.agtState h.agent.toNat = 0 ∨ 4 ≤ s.agtState h.agent.toNat) :
    Completes c s (RefusedAt s p h.agent.toNat 3 Fld.FP_ERR_AGENT (refusalRsp typ h) (refusalDat typ h)) := by
  refine href 3 ?_ (by decide)
  rw [ingressCode_of_goodForm hmask (mt hform.1 hgood), if_neg (fun hand => hline.elim hand.1 hand.2), if_pos (agentMayNotSend hag)]

/-- The four checks of a message that names a line, in their order (R67). -/
theorem Refuses.checked (htyp : typ ≠ 0x1D) :
    let a := h.agent.toNat
    let badAgent := s.agtState a = 0 ∨ 4 ≤ s.agtState a
    (bad → Completes c s (RefusedAt s p a 4 Fld.FP_ERR_BAD_OPC [] [])) ∧
    (¬ bad → homed s h.pa.toNat = false →
      Completes c s (RefusedAt s p a 1 Fld.FP_ERR_MISROUTE (refusalRsp typ h) (refusalDat typ h))) ∧
    (¬ bad → homed s h.pa.toNat = true → badAgent →
      Completes c s (RefusedAt s p a 3 Fld.FP_ERR_AGENT (refusalRsp typ h) (refusalDat typ h))) ∧
    (¬ bad → homed s h.pa.toNat = true → ¬ badAgent → s.agtTenant a ≠ tenantOf s h.pa.toNat →
      Completes c s (RefusedAt s p a 2 Fld.FP_ERR_TENANT (refusalRsp typ h) (refusalDat typ h))) := by
  refine ⟨href.form hform, fun hgood hhome => ?misroute, fun hgood hhome => href.agent hmask hform hgood (.inr hhome),
    fun hgood hhome hag hten => ?tenant⟩
  case misroute =>
    refine href 1 ?_ (by decide)
    rw [ingressCode_of_goodForm hmask (mt hform.1 hgood), if_pos ⟨htyp, by simp [hhome]⟩]
  case tenant =>
    refine href 2 ?_ (by decide)
    rw [ingressCode_of_goodForm hmask (mt hform.1 hgood), if_neg (fun hand => hand.2 hhome),
      if_neg (not_not_intro (agentMaySend hag)), if_pos ⟨htyp, hten⟩]

end

/-- Only a profile message's form depends on its agent. -/
theorem badForm_of_mem {s : State} {typ : Nat} {h : Hdr} (h1 : typ ≠ 0x1C) (h2 : typ ≠ 0x1D) :
    BadForm s typ h ↔ h.mfield = 1 ∨ h.mfield = 2 ∨ h.mval = 1 := by
  simp [BadForm, h1, h2]

theorem badForm_of_profile {s : State} {typ : Nat} {h : Hdr} (htyp : typ = 0x1C ∨ typ = 0x1D) :
    BadForm s typ h ↔ (h.mfield = 1 ∨ h.mfield = 2 ∨ h.mval = 1) ∨ s.agtDc h.agent.toNat = false ∧ s.agtHb h.agent.toNat = false := by
  simp only [BadForm, htyp, true_and, or_assoc]

/-- A header that passes the checks, in a message of the right form. -/
theorem ingressCode_of_passes {s : State} {typ : Nat} {h : Hdr} (hmask : s.integ.mask = []) (hpass : PassesIngress s h)
    (hprofile : typ = 0x1C ∨ typ = 0x1D → ¬ (s.agtDc h.agent.toNat = false ∧ s.agtHb h.agent.toNat = false)) :
    ingressCode s typ h = 0 := by
  obtain ⟨hm1, hm2, hv, hhome, hstate, htenant⟩ := hpass
  have hgood : ¬ BadForm s typ h := fun hbad => by
    rcases hbad with hb | hb | hb | ⟨hty, hnone⟩
    exacts [hm1 hb, hm2 hb, hv hb, hprofile hty hnone]
  rw [ingressCode_of_goodForm hmask hgood, if_neg (fun hand => hand.2 hhome), if_neg (not_not_intro hstate),
    if_neg (fun hand => hand.2 htenant)]

theorem refusalRsp_of_write {typ : Nat} (ht : 0x10 ≤ typ ∧ typ ≤ 0x17) (h : Hdr) :
    refusalRsp typ h = [refusedCmp h] ∧ refusalDat typ h = [] := by
  have hread : isReadT typ = false := by simp [isReadT]; omega
  have hwrite : isWrite typ = true := by simp [isWrite, ht]
  simp [refusalRsp, refusalDat, hread, hwrite]

theorem refusalRsp_of_rsp {typ : Nat} (ht : 0x18 ≤ typ) (h : Hdr) : refusalRsp typ h = [] ∧ refusalDat typ h = [] := by
  have hread : isReadT typ = false := by simp [isReadT]; omega
  have hwrite : isWrite typ = false := by simp [isWrite]; omega
  have hndr : isNdr typ = false := by simp [isNdr]; omega
  simp [refusalRsp, refusalDat, hread, hwrite, hndr]

end Sys2Proof.Machine

namespace Sys2Proof.Machine

/-! The statement about refused messages (R63, R67). -/

section
variable {s : State} (hdft : s.dft = false) (hawake : Awake s) (hintact : Intact s) {p : BitVec 6} {h : Hdr}

section
include hdft hawake hintact

/-- A request without data is refused under its type (R67). -/
theorem refuses_req {c : Instr} {typ : Nat} (hexec : exec c s = run (fun s => rxReqRow s p typ h none) s)
    (hcred : (s.fport p.toNat).reqCred ≠ 0) : Refuses s p.toNat typ h c :=
  refuses_rxReq hdft hawake hintact hexec hcred nofun

theorem refuses_wb {kind : BitVec 2} (hk : kind ≠ 3) (d : Line) (hcred : (s.fport p.toNat).datCred ≠ 0) :
    Refuses s p.toNat (0x10 + kind.toNat) h (.wb p kind h d) ∧ Refuses s p.toNat (0x14 + kind.toNat) h (.wbp p kind h d) := by
  have hexec : ∀ part, run (fun s => rxWbRow s p part kind h d) s =
      run (fun s => rxWb (fabricWake s p.toNat) p.toNat ((if part then 0x14 else 0x10) + kind.toNat) h d) s :=
    fun part => congrArg (run · s) (funext fun _ => if_neg hk)
  exact ⟨refuses_rxWb hdft hawake hintact (hexec false) hcred, refuses_rxWb hdft hawake hintact (hexec true) hcred⟩

theorem refuses_biconf (hcred : (s.fport p.toNat).rspCred ≠ 0) : Refuses s p.toNat 0x09 h (.biconf p h) :=
  refuses_rspIn hdft hawake hintact rfl (fun t bad hin hne => by simp only [hin]; exact if_pos hne) hcred

theorem refuses_dfDone (hcred : (s.fport p.toNat).rspCred ≠ 0) : Refuses s p.toNat 0x1C h (.dfDone p h) :=
  refuses_rspIn hdft hawake hintact rfl (fun t bad hin hne => by simp only [hin]; exact if_pos hne) hcred

theorem refuses_dfHb (hcred : (s.fport p.toNat).rspCred ≠ 0) : Refuses s p.toNat 0x1D h (.dfHb p h) :=
  refuses_rspIn hdft hawake hintact rfl (fun t bad hin hne => by simp only [hin]; exact if_pos hne) hcred

theorem refuses_birsp {st : BitVec 2} (hst : st ≠ 3) (hcred : (s.fport p.toNat).rspCred ≠ 0) :
    Refuses s p.toNat (0x18 + st.toNat) h (.birsp p st h) := by
  have hexec : run (fun s => rxBirspRow s p st h) s = run (fun s => rxBirsp (fabricWake s p.toNat) p.toNat st.toNat h) s :=
    congrArg (run · s) (funext fun _ => if_neg hst)
  exact refuses_rspIn hdft hawake hintact hexec (fun t bad hin hne => by simp only [hin]; exact if_pos hne) hcred

end

section
include hdft hawake

/-- A header whose opcode R60 does not map. -/
theorem completes_unmapped {typ : BitVec 6} (htyp : unmapped typ.toNat = true) (hreq : (s.fport p.toNat).reqCred ≠ 0)
    (hrsp : (s.fport p.toNat).rspCred ≠ 0) :
    Completes (.unmappedOpcode p typ h) s (RefusedAt s p.toNat h.agent.toNat 4 Fld.FP_ERR_BAD_OPC [] []) := by
  obtain ⟨hv, hup, -, hmode⟩ := hawake
  refine completes_run (fun s => rxUnmappedRow s p typ h) rfl hdft ?_
  rw [rxUnmappedRow, if_pos htyp, fabricWake_awake (s := freshOut s) hmode, rxUnmapped]
  split
  · dsimp only
    rw [if_neg (by simp [freshOut, hup, hv]), if_neg (by exact hreq)]
    exact refusedAt_arrived (freshOut s) p.isLt (f := { s.fport p.toNat with reqCred := (s.fport p.toNat).reqCred - 1 })
      rfl rfl 2 typ.toNat h 4
  · rw [rspIn_eq (s := freshOut s) hup hv p.toNat typ.toNat h hrsp]
    exact refusedAt_arrived (freshOut s) p.isLt (f := rspTaken (s.fport p.toNat)) rfl rfl 4 typ.toNat h 4

end

/-! ### Answers that name no target -/

theorem fanE_arrived (t : State) (q : Nat) (f : FPort) (ev : Nat) : (arrived t q f ev).port.fan = t.port.fan := by simp only [arrived, fpEvent_port]; rfl

theorem biid_arrived (t : State) {q : Nat} (hq : q < 64) (f : FPort) (ev : Nat) :
    (arrived t q f ev).fld Fld.PC_BIID_BASE = t.fld Fld.PC_BIID_BASE :=
  arrived_fld t hq f ev (g := Fld.PC_BIID_BASE) (by decide)

theorem birspTid_arrived (t : State) {q : Nat} (hq : q < 64) (f : FPort) (ev a biid tag : Nat) :
    birspTid (arrived t q f ev) a biid tag = birspTid t a biid tag := by
  unfold birspTid State.fanE
  rw [biid_arrived t hq, fanE_arrived]

theorem dfTid_arrived (t : State) {q : Nat} (hq : q < 64) (f : FPort) (ev a biid pa : Nat) :
    dfTid (arrived t q f ev) a biid pa = dfTid t a biid pa := by
  unfold dfTid
  rw [biid_arrived t hq, fanE_arrived]

section
include hdft hawake hintact

theorem completes_birsp_unexpected {st : BitVec 2} (hst : st ≠ 3) (hcred : (s.fport p.toNat).rspCred ≠ 0)
    (hpass : PassesIngress s h) (hnone : birspTid s h.agent.toNat h.biid.toNat h.tag.toNat = none) :
    Completes (.birsp p st h) s (RefusedAt s p.toNat h.agent.toNat 5 Fld.FP_ERR_UNEXP_RSP [] []) := by
  have hexec : run (fun s => rxBirspRow s p st h) s = run (fun s => rxBirsp (fabricWake s p.toNat) p.toNat st.toNat h) s :=
    congrArg (run · s) (funext fun _ => if_neg hst)
  refine completes_rspIn_refused (typ := 0x18 + st.toNat) (code := 5) hdft hawake hexec hcred ?_
  have hcode : ingressCode (freshOut s) (0x18 + st.toNat) h = 0 :=
    (ingressCode_freshOut hintact.1 _ h).trans (ingressCode_of_passes hintact.1 hpass fun hor => by
      have hk := class_cases hst
      omega)
  have hin := ingressCheck_arrived (s := freshOut s) (0x18 + st.toNat) h hintact.1 p.isLt (rspTaken (s.fport p.toNat)) 4
  have htid := birspTid_arrived (freshOut s) p.isLt (rspTaken (s.fport p.toNat)) 4 h.agent.toNat h.biid.toNat h.tag.toNat
  have hnone' : birspTid (freshOut s) h.agent.toNat h.biid.toNat h.tag.toNat = none := hnone
  rw [hcode] at hin
  rw [hnone'] at htid
  simp only [hin, htid]
  rfl

theorem completes_dfDone_unexpected (hcred : (s.fport p.toNat).rspCred ≠ 0) (hpass : PassesIngress s h)
    (hprofile : ¬ (s.agtDc h.agent.toNat = false ∧ s.agtHb h.agent.toNat = false))
    (hnone : dfTid s h.agent.toNat h.biid.toNat h.pa.toNat = none) :
    Completes (.dfDone p h) s (RefusedAt s p.toNat h.agent.toNat 5 Fld.FP_ERR_UNEXP_RSP [] []) := by
  refine completes_rspIn_refused (typ := 0x1C) (code := 5) hdft hawake rfl hcred ?_
  have hcode : ingressCode (freshOut s) 0x1C h = 0 :=
    (ingressCode_freshOut hintact.1 _ h).trans (ingressCode_of_passes hintact.1 hpass fun _ => hprofile)
  have hin := ingressCheck_arrived (s := freshOut s) 0x1C h hintact.1 p.isLt (rspTaken (s.fport p.toNat)) 4
  have htid := dfTid_arrived (freshOut s) p.isLt (rspTaken (s.fport p.toNat)) 4 h.agent.toNat h.biid.toNat h.pa.toNat
  have hnone' : dfTid (freshOut s) h.agent.toNat h.biid.toNat h.pa.toNat = none := hnone
  rw [hcode] at hin
  rw [hnone'] at htid
  simp only [hin, htid]
  rfl

end

end

/-! ### The poisoned DATA leaves -/

/-- CMP follows the DATA of a refused read once it has left (R63). -/
theorem egHead_refused {s : State} {p : Nat} {m : FabMsg} {l : List FabMsg} (hq : (s.fport p).datQ = m :: l)
    (hown : m.own = .refused) (htyp : m.typ = 0x30) (hcred : (s.fport p).txDat ≠ 0) (hdead : toDead s m = false) :
    egHead s p 2 = (egPush { fpEvent (s.setFport p { s.fport p with datQ := l, txDat := (s.fport p).txDat - 1 }) p 7 with
      tx := (fpEvent (s.setFport p { s.fport p with datQ := l, txDat := (s.fport p).txDat - 1 }) p 7).tx ++ [(p, m)] } p
      (plainMsg 0x28 m.agent m.pa m.tag), true) := by
  have hclosed : closedSnoop s m = false := by rw [closedSnoop, hown]
  have hout : alreadyOut s m = false := by rw [alreadyOut, hown]
  unfold egHead
  simp only [hq, hclosed, hdead, hout, htyp, hcred, leave, hown]
  simp

theorem egHead_refused_spec {s : State} {p : Nat} {m : FabMsg} {l : List FabMsg} (hq : (s.fport p).datQ = m :: l)
    (hown : m.own = .refused) (htyp : m.typ = 0x30) (hcred : (s.fport p).txDat ≠ 0) (hdead : toDead s m = false) :
    ((egHead s p 2).1.fport p).datQ = l ∧ (egHead s p 2).1.tx = s.tx ++ [(p, m)] ∧
    ((egHead s p 2).1.fport p).rspQ = (s.fport p).rspQ ++ [plainMsg 0x28 m.agent m.pa m.tag] := by
  have hfp := arrived_fport s (p := p) { s.fport p with datQ := l, txDat := (s.fport p).txDat - 1 } 7
  have htx : (arrived s p { s.fport p with datQ := l, txDat := (s.fport p).txDat - 1 } 7).tx = s.tx := by simp [arrived]
  rw [egHead_refused hq hown htyp hcred hdead]
  unfold arrived at hfp htx
  generalize fpEvent (s.setFport p { s.fport p with datQ := l, txDat := (s.fport p).txDat - 1 }) p 7 = t at *
  have hans := answered_egPush_rsp { t with tx := t.tx ++ [(p, m)] } p (m := plainMsg 0x28 m.agent m.pa m.tag) rfl
  obtain ⟨-, -, -, hrsp, hdat⟩ := hans
  have hfp' : State.fport { t with tx := t.tx ++ [(p, m)] } p = _ := hfp
  rw [hfp'] at hrsp hdat
  refine ⟨hdat.trans (List.append_nil _), ?_, hrsp⟩
  rw [egPush_eq]
  exact congrArg (· ++ [(p, m)]) htx

/-- Settles O23: every arrival counts its message, passes the checks of R67 in their order, and is refused under the first it fails. -/
theorem ingressRefusals : Obligations.IngressRefusals := by
  unfold Obligations.IngressRefusals
  refine ⟨fun p h s hdft hawake hintact hreq hrsp hdat => ?_, fun p s m l hq hown htyp hcred hdead =>
    egHead_refused_spec hq hown htyp hcred hdead⟩
  have hmask := hintact.1
  have req : ∀ {c : Instr} {typ : Nat}, exec c s = run (fun s => rxReqRow s p typ h none) s → Refuses s p.toNat typ h c :=
    fun hexec => refuses_req hdft hawake hintact hexec hreq
  have mem : ∀ {typ : Nat}, typ ≠ 0x1C → typ ≠ 0x1D → (BadForm s typ h ↔ h.mfield = 1 ∨ h.mfield = 2 ∨ h.mval = 1) :=
    fun h1 h2 => badForm_of_mem h1 h2
  refine ⟨?reads, ?ndrs, ?writes, ?writebacks, ?spec, ?biconf, ?birsp, ?dfDone, ?hbForm, ?hbAgent, ?unmapped, ?birspOpen, ?dfOpen⟩
  case reads =>
    simp only [List.forall_mem_cons]
    exact ⟨(req (typ := 0x01) rfl).checked hmask (mem (by decide) (by decide)) (by decide),
      (req (typ := 0x02) rfl).checked hmask (mem (by decide) (by decide)) (by decide),
      (req (typ := 0x03) rfl).checked hmask (mem (by decide) (by decide)) (by decide),
      (req (typ := 0x04) rfl).checked hmask (mem (by decide) (by decide)) (by decide), List.forall_mem_nil _⟩
  case ndrs =>
    simp only [List.forall_mem_cons]
    exact ⟨(req (typ := 0x05) rfl).checked hmask (mem (by decide) (by decide)) (by decide),
      (req (typ := 0x06) rfl).checked hmask (mem (by decide) (by decide)) (by decide),
      (req (typ := 0x07) rfl).checked hmask (mem (by decide) (by decide)) (by decide),
      (req (typ := 0x0A) rfl).checked hmask (mem (by decide) (by decide)) (by decide), List.forall_mem_nil _⟩
  case writes =>
    exact fun d => ⟨(refuses_rxReq hdft hawake hintact (typ := 0x13) (data := some d) rfl hreq fun _ => hdat).checked hmask
        (mem (by decide) (by decide)) (by decide),
      (refuses_rxReq hdft hawake hintact (typ := 0x17) (data := some d) rfl hreq fun _ => hdat).checked hmask
        (mem (by decide) (by decide)) (by decide)⟩
  case writebacks =>
    intro kind d hk
    have hlt := class_cases hk
    obtain ⟨hwb, hwbp⟩ := refuses_wb hdft hawake hintact (p := p) (h := h) hk d hdat
    obtain ⟨hr, hd⟩ := refusalRsp_of_write (typ := 0x10 + kind.toNat) (by omega) h
    obtain ⟨hr', hd'⟩ := refusalRsp_of_write (typ := 0x14 + kind.toNat) (by omega) h
    have hc := hwb.checked hmask (mem (by omega) (by omega)) (by omega)
    have hc' := hwbp.checked hmask (mem (by omega) (by omega)) (by omega)
    rw [hr, hd] at hc
    rw [hr', hd'] at hc'
    exact ⟨hc, hc'⟩
  case spec => exact (req (typ := 0x08) rfl).checked hmask (mem (by decide) (by decide)) (by decide)
  case biconf => exact (refuses_biconf hdft hawake hintact hrsp).checked hmask (mem (by decide) (by decide)) (by decide)
  case birsp =>
    intro st hst
    have hlt := class_cases hst
    obtain ⟨hr, hd⟩ := refusalRsp_of_rsp (typ := 0x18 + st.toNat) (by omega) h
    have hc := (refuses_birsp hdft hawake hintact (h := h) hst hrsp).checked hmask (mem (by omega) (by omega)) (by omega)
    rw [hr, hd] at hc
    exact hc
  case dfDone => exact (refuses_dfDone hdft hawake hintact hrsp).checked hmask (badForm_of_profile (.inl rfl)) (by decide)
  case hbForm => exact (refuses_dfHb hdft hawake hintact hrsp).form (badForm_of_profile (.inr rfl))
  case hbAgent =>
    exact fun hgood hag => (refuses_dfHb hdft hawake hintact hrsp).agent hmask (badForm_of_profile (.inr rfl)) hgood (.inl rfl) hag
  case unmapped => exact fun typ htyp => completes_unmapped hdft hawake htyp hreq hrsp
  case birspOpen =>
    exact fun st hst hpass hnone => completes_birsp_unexpected hdft hawake hintact hst hrsp hpass hnone
  case dfOpen =>
    exact fun hpass hprofile hnone => completes_dfDone_unexpected hdft hawake hintact hrsp hpass hprofile hnone

end Sys2Proof.Machine

namespace Sys2Proof.Machine

/-! The statement about the messages that take no hold slot (R60, R63, R64, R84, R113, R202). -/

/-! ### LAST_HEARD -/

theorem heardOnly_setHeard (s : State) (a : Nat) : HeardOnly s (s.setHeard a) a := by
  refine ⟨?_, fun b hb => ?_⟩
  · have hword : (s.setHeard a).agtW a = (BitVec.ofNat 64 (s.agtW a % 2 ^ 32 + s.now / 1024 % 2 ^ 32 * 2 ^ 32)).toNat :=
      congrArg BitVec.toNat (SMap.getD_set_same _ s.agt a _)
    rw [hword, BitVec.toNat_ofNat]
    omega
  · exact congrArg BitVec.toNat (SMap.getD_set_ne _ s.agt a b _ hb)

theorem HeardOnly.congr {s t u v : State} {a : Nat} (h : HeardOnly t u a) (hagt : t.agt = s.agt) (hnow : t.now = s.now)
    (hv : v.agt = u.agt) : HeardOnly s v a := by
  unfold HeardOnly State.agtW at *
  rwa [hagt, hnow, ← hv] at h

/-- An agent that is heard keeps its port (R83). -/
theorem HeardOnly.agtFp {s u : State} {a : Nat} (h : HeardOnly s u a) : u.agtFp a = s.agtFp a := by
  unfold State.agtFp bits
  rw [h.1]
  omega

/-! ### A message that has passed the checks -/

/-- `u` is `s` once a message of agent `a` has arrived on port `p`, which holds `f`, and has passed the checks (R84). -/
def Admitted (s u : State) (p a : Nat) (f : FPort) : Prop :=
  u = { s with
    regs := u.regs, frzReq := u.frzReq, agt := u.agt, port := { s.port with fp := u.port.fp, hbNext := u.port.hbNext } } ∧
  HeardOnly s u a ∧ PortIsOnly s u p f

theorem admitted_passed (s : State) (p a : Nat) (f : FPort) (ev : Nat) : Admitted s (passed (arrived s p f ev) a) p a f := by
  have hheard := heardOnly_setHeard (arrived s p f ev) a
  have hport : (passed (arrived s p f ev) a).port.fp = (s.setFport p f).port.fp := by
    simp only [passed, setHeard_port, arrived, fpEvent_port]
  refine ⟨?_, hheard.congr (arrived_agt s f ev) (by simp [arrived]) rfl, ?_⟩
  · obtain ⟨r, q, hev⟩ := fpEvent_eq (s.setFport p f) p ev
    unfold passed arrived
    rw [hev]
    obtain ⟨a0, hset⟩ := setHeard_eq { s.setFport p f with regs := r, frzReq := q } a
    rw [hset]
    rfl
  · simp only [PortIsOnly, State.fport, hport]
    exact portIsOnly_setFport s p f

/-- Credits and answers on top of it. -/
def AgentHeard (s u : State) (a : Nat) : Prop :=
  HeardOnly s u a ∧ u.port.hold = s.port.hold ∧ u.port.recs = s.port.recs ∧
    u.port.dat = s.port.dat ∧ u.sl = s.sl ∧ u.fault = s.fault ∧ QuietCore s u

theorem Admitted.agentHeard {s t u : State} {p a : Nat} {f : FPort} (h : Admitted s t p a f) (k : Ingressed t u)
    (hfault : u.fault = t.fault) : AgentHeard s u a := by
  obtain ⟨hframe, hheard, -⟩ := h
  have hagt : u.agt = t.agt := k.same.2.2.1
  refine ⟨hheard.congr rfl rfl hagt, ?_⟩
  unfold Ingressed at k
  rw [k, hfault, hframe]
  exact ⟨rfl, rfl, rfl, rfl, rfl, rfl, rfl, rfl, rfl, rfl, rfl, rfl, rfl, rfl, rfl⟩

/-- Taking a credit, and returning one, leaves the RSP orders. -/
theorem Admitted.rspQ {s t : State} {p a : Nat} {f : FPort} (h : Admitted s t p a f) (hf : f.rspQ = (s.fport p).rspQ) (q : Nat) :
    (t.fport q).rspQ = (s.fport q).rspQ := by
  obtain ⟨-, -, hport, hother⟩ := h
  by_cases hq : q = p
  · rw [hq, hport, hf]
  · rw [hother q hq]

theorem regrant_rspQ (t : State) (p q : Nat) : ((regrant t p).fport q).rspQ = (t.fport q).rspQ := by
  by_cases hq : q = p
  · rw [hq]
    exact (regrant_fport_orders t p).1
  · unfold regrant
    split
    · dsimp only
      rw [fport_setFport_ne t hq]
    · rfl

/-- What the command of a request that passes does once its agent has been heard. -/
theorem rxReq_of_passed {s : State} (hup : s.portUp = true) (hv : s.vaux = true) (hmask : s.integ.mask = []) {p : Nat} (hp : p < 64)
    {typ : Nat} {h : Hdr} (hc : ingressCode s typ h = 0) (hcred : (s.fport p).reqCred ≠ 0) :
    let t := passed (arrived s p (reqTaken (s.fport p) false) 2) h.agent.toNat
    (typ = 0x0A → rxReq s p typ h none = regrant (egPush t p (refusedCmp h)) p) ∧
    (typ = 0x08 → rxReq s p typ h none = regrant t p ∨ ∃ l, rxReq s p typ h none = slFixed (regrant t p) l 5) := by
  have hin := ingressCheck_arrived typ h hmask hp (reqTaken (s.fport p) false) 2
  rw [hc] at hin
  unfold rxReq
  dsimp only
  rw [if_neg (by simp [hup, hv]), if_neg (by simp [hcred])]
  unfold arrived reqTaken at *
  simp only [Option.isSome_none] at *
  rw [hin]
  simp only [ne_eq, not_true_eq_false, if_false]
  refine ⟨fun ht => if_pos ht, fun ht => ?_⟩
  rw [if_neg (by omega), if_pos ht]
  exact (ite_eq_or_eq _ _ _).imp_right fun heq => ⟨_, heq⟩

/-- The state once a writeback has taken line `e` of its port's DAT pool. -/
def wbKept (t : State) (p e typ : Nat) (h : Hdr) (d : Line) : State :=
  (State.setDatE { t with port := { t.port with holdSeq := t.port.holdSeq + 1 } } p e
    ⟨.waiting, typ, h, d, t.port.holdSeq, false⟩).addWork .daten

theorem rxWb_of_passed {s : State} (hup : s.portUp = true) (hv : s.vaux = true) (hmask : s.integ.mask = []) {p : Nat} (hp : p < 64)
    {typ e : Nat} {h : Hdr} {d : Line} (hc : ingressCode s typ h = 0) (hcred : (s.fport p).datCred ≠ 0)
    (hfree : datFree s p = some e) :
    rxWb s p typ h d = wbKept (passed (arrived s p (wbTaken (s.fport p)) 3) h.agent.toNat) p e typ h d := by
  have hin := ingressCheck_arrived typ h hmask hp (wbTaken (s.fport p)) 3
  have hfree' : datFree (arrived s p (wbTaken (s.fport p)) 3) p = some e := by
    rw [← hfree]
    simp only [datFree, State.datE, arrived, fpEvent_port]
    rfl
  rw [hc] at hin
  unfold rxWb
  dsimp only
  rw [if_neg (by simp [hup, hv]), if_neg hcred]
  unfold arrived wbTaken at *
  rw [hin]
  simp only [hfree', ne_eq, not_true_eq_false, if_false]
  rfl

theorem work_passed (s : State) (p a : Nat) (f : FPort) (ev : Nat) : (passed (arrived s p f ev) a).work = s.work := by
  simp [passed, arrived]

/-- What the use of a message of the RSP class sees of one that passes. -/
theorem ingressCheck_passed {s : State} (hmask : s.integ.mask = []) {p : Nat} (hp : p < 64) {typ : Nat} {h : Hdr}
    (hc : ingressCode s typ h = 0) (f : FPort) (ev : Nat) : ingressCheck (arrived s p f ev) typ h = (arrived s p f ev, 0) := by
  rw [ingressCheck_arrived typ h hmask hp, hc]

/-- The header passes, in a message that does not speak for a profile. -/
theorem ingressCode_freshOut_of_passes {s : State} {typ : Nat} {h : Hdr} (hmask : s.integ.mask = []) (hpass : PassesIngress s h)
    (h1 : typ ≠ 0x1C) (h2 : typ ≠ 0x1D) : ingressCode (freshOut s) typ h = 0 :=
  (ingressCode_freshOut hmask typ h).trans (ingressCode_of_passes hmask hpass fun hor => absurd hor (not_or.2 ⟨h1, h2⟩))

section
variable {s : State} (hdft : s.dft = false) (hawake : Awake s) (hintact : Intact s) {p : BitVec 6} {h : Hdr} {d : Line}
include hdft hawake hintact

/-! ### SPEC, CLN_EV and BICONF -/

section
variable (hpass : PassesIngress s h)
include hpass

theorem completes_spec (hcred : (s.fport p.toNat).reqCred ≠ 0) : Completes (.spec p h) s (fun u =>
    AgentHeard s u h.agent.toNat ∧ (u.fport p.toNat).rspQ = (s.fport p.toNat).rspQ) := by
  obtain ⟨hv, hup, -, hmode⟩ := hawake
  refine completes_run (fun s => rxReqRow s p 0x08 h none) rfl hdft ?_
  rw [rxReqRow, fabricWake_awake (s := freshOut s) hmode]
  have hc : ingressCode (freshOut s) 0x08 h = 0 := ingressCode_freshOut_of_passes hintact.1 hpass (by decide) (by decide)
  have heq := (rxReq_of_passed (s := freshOut s) hup hv hintact.1 p.isLt hc hcred).2 rfl
  have hadm := admitted_passed (freshOut s) p.toNat h.agent.toNat (reqTaken ((freshOut s).fport p.toNat) false) 2
  have hrsp := hadm.rspQ rfl p.toNat
  generalize passed (arrived (freshOut s) p.toNat (reqTaken ((freshOut s).fport p.toNat) false) 2) h.agent.toNat = t at *
  have hin : Ingressed t (regrant t p.toNat) := (Ingressed.refl t).regrant p.toNat
  have hfault := (regrant_reports t p.toNat).1
  have hq : ((regrant t p.toNat).fport p.toNat).rspQ = (s.fport p.toNat).rspQ := (regrant_rspQ t p.toNat p.toNat).trans hrsp
  generalize regrant t p.toNat = w at *
  rcases heq with heq | ⟨l, heq⟩
  · rw [heq]
    exact ⟨hadm.agentHeard hin hfault, hq⟩
  · obtain ⟨r, fz, hfix⟩ := slFixed_eq w l 5
    rw [heq, hfix]
    exact ⟨hadm.agentHeard (hin.trans rfl) hfault, hq⟩

theorem completes_clnEv (hcred : (s.fport p.toNat).reqCred ≠ 0) : Completes (.clnEv p h) s (fun u =>
    AgentHeard s u h.agent.toNat ∧ (u.fport p.toNat).rspQ = (s.fport p.toNat).rspQ ++ [refusedCmp h]) := by
  obtain ⟨hv, hup, -, hmode⟩ := hawake
  refine completes_run (fun s => rxReqRow s p 0x0A h none) rfl hdft ?_
  rw [rxReqRow, fabricWake_awake (s := freshOut s) hmode]
  have hc : ingressCode (freshOut s) 0x0A h = 0 := ingressCode_freshOut_of_passes hintact.1 hpass (by decide) (by decide)
  rw [(rxReq_of_passed (s := freshOut s) hup hv hintact.1 p.isLt hc hcred).1 rfl]
  have hadm := admitted_passed (freshOut s) p.toNat h.agent.toNat (reqTaken ((freshOut s).fport p.toNat) false) 2
  have hrsp := hadm.rspQ rfl p.toNat
  generalize passed (arrived (freshOut s) p.toNat (reqTaken ((freshOut s).fport p.toNat) false) 2) h.agent.toNat = t at *
  obtain ⟨hin, hfault, -, hans, -⟩ := answered_egPush_rsp t p.toNat (m := refusedCmp h) rfl
  rw [hrsp] at hans
  exact ⟨hadm.agentHeard (hin.regrant p.toNat) ((regrant_reports _ p.toNat).1.trans hfault), (regrant_rspQ _ _ _).trans hans⟩

theorem completes_biconf (hcred : (s.fport p.toNat).rspCred ≠ 0) : Completes (.biconf p h) s (fun u =>
    AgentHeard s u h.agent.toNat ∧ (u.fport (s.agtFp h.agent.toNat)).rspQ =
      (s.fport (s.agtFp h.agent.toNat)).rspQ ++ [plainMsg 0x2B h.agent.toNat h.pa.toNat h.tag.toNat]) := by
  obtain ⟨hv, hup, -, hmode⟩ := hawake
  refine completes_run (fun s => rxBiconf (fabricWake s p.toNat) p.toNat h) rfl hdft ?_
  rw [fabricWake_awake (s := freshOut s) hmode, rxBiconf, rspIn_eq (s := freshOut s) hup hv p.toNat 0x09 h hcred]
  have hc : ingressCode (freshOut s) 0x09 h = 0 := ingressCode_freshOut_of_passes hintact.1 hpass (by decide) (by decide)
  simp only [ingressCheck_passed (s := freshOut s) hintact.1 p.isLt hc, ne_eq, not_true_eq_false, if_false]
  have hadm := admitted_passed (freshOut s) p.toNat h.agent.toNat (rspTaken ((freshOut s).fport p.toNat)) 4
  have hfp : State.agtFp _ _ = s.agtFp h.agent.toNat := hadm.2.1.agtFp
  have hrsp := hadm.rspQ rfl (s.agtFp h.agent.toNat)
  generalize passed (arrived (freshOut s) p.toNat (rspTaken ((freshOut s).fport p.toNat)) 4) h.agent.toNat = t at *
  rw [hfp]
  obtain ⟨hin, hfault, -, hans, -⟩ :=
    answered_egPush_rsp t (s.agtFp h.agent.toNat) (m := plainMsg 0x2B h.agent.toNat h.pa.toNat h.tag.toNat) rfl
  rw [hrsp] at hans
  exact ⟨hadm.agentHeard (hin.regrant p.toNat) ((regrant_reports _ p.toNat).1.trans hfault), (regrant_rspQ _ _ _).trans hans⟩

end

/-! ### Writebacks -/

omit hdft hawake hintact in
/-- The lines of a port's DAT pool are 32. -/
theorem datFree_lt {t : State} {q e : Nat} (hfree : datFree t q = some e) : e < 32 :=
  List.mem_range.1 (List.mem_of_find?_eq_some hfree)

omit hdft hawake hintact in
theorem datE_setDatE_ne (t : State) {q e q' x : Nat} (d : DatEntry) (he : e < 32) (hx : x < 32) (hne : (q', x) ≠ (q, e)) :
    (t.setDatE q e d).datE q' x = t.datE q' x := by
  refine SMap.getD_set_ne _ _ _ _ _ fun heq => hne ?_
  have hq : q' = q := by omega
  have hxe : x = e := by omega
  rw [hq, hxe]

/-- A writeback that has taken its line waits for its slice. -/
def WaitsFor (s : State) (p e typ : Nat) (h : Hdr) (d : Line) (u : State) : Prop :=
  u.datE p e = ⟨.waiting, typ, h, d, s.port.holdSeq, false⟩ ∧ u.port.holdSeq = s.port.holdSeq + 1 ∧
  (∀ q x, x < 32 → (q, x) ≠ (p, e) → u.datE q x = s.datE q x) ∧ HeardOnly s u h.agent.toNat ∧ u.work = s.work ++ [.daten] ∧
  u.port.hold = s.port.hold ∧ u.port.recs = s.port.recs ∧ u.sl = s.sl ∧ u.fault = s.fault ∧ QuietCore s u

omit hdft hawake hintact in
theorem waitsFor_wbKept {t : State} {f : FPort} (hadm : Admitted s t p.toNat h.agent.toNat f) (hwork : t.work = s.work)
    {e : Nat} (he : e < 32) (typ : Nat) (d : Line) : WaitsFor s p.toNat e typ h d (wbKept t p.toNat e typ h d) := by
  obtain ⟨hframe, hheard, -⟩ := hadm
  have hport : t.port.dat = s.port.dat ∧ t.port.holdSeq = s.port.holdSeq := by rw [hframe]; exact ⟨rfl, rfl⟩
  refine ⟨?_, congrArg (· + 1) hport.2, fun q x hx hne => ?_, hheard, congrArg (· ++ [Work.daten]) hwork, ?_⟩
  · rw [← hport.2]
    exact datE_setDatE _ p.toNat e _
  · refine (datE_setDatE_ne _ _ he hx hne).trans ?_
    simp only [State.datE, hport.1]
  · unfold wbKept
    rw [hframe]
    exact ⟨rfl, rfl, rfl, rfl, rfl, rfl, rfl, rfl, rfl, rfl, rfl, rfl, rfl, rfl⟩

theorem completes_rxWb {c : Instr} {typ e : Nat} (hexec : exec c s = run (fun s => rxWb (fabricWake s p.toNat) p.toNat typ h d) s)
    (hpass : PassesIngress s h) (h1 : typ ≠ 0x1C) (h2 : typ ≠ 0x1D) (hcred : (s.fport p.toNat).datCred ≠ 0)
    (hfree : datFree s p.toNat = some e) : Completes c s (WaitsFor s p.toNat e typ h d) := by
  obtain ⟨hv, hup, -, hmode⟩ := hawake
  refine completes_run _ hexec hdft ?_
  have hc : ingressCode (freshOut s) typ h = 0 := ingressCode_freshOut_of_passes hintact.1 hpass h1 h2
  rw [fabricWake_awake (s := freshOut s) hmode,
    rxWb_of_passed (s := freshOut s) hup hv hintact.1 p.isLt hc hcred hfree]
  exact waitsFor_wbKept (s := freshOut s) (admitted_passed (freshOut s) p.toNat h.agent.toNat _ 3) (work_passed _ _ _ _ _) (datFree_lt hfree) typ d

theorem completes_writebacks {kind : BitVec 2} (hk : kind ≠ 3) {e : Nat} (hpass : PassesIngress s h)
    (hcred : (s.fport p.toNat).datCred ≠ 0) (hfree : datFree s p.toNat = some e) :
    Completes (.wb p kind h d) s (WaitsFor s p.toNat e (0x10 + kind.toNat) h d) ∧
    Completes (.wbp p kind h d) s (WaitsFor s p.toNat e (0x14 + kind.toNat) h d) := by
  have hlt := class_cases hk
  have hexec : ∀ part, run (fun s => rxWbRow s p part kind h d) s =
      run (fun s => rxWb (fabricWake s p.toNat) p.toNat ((if part then 0x14 else 0x10) + kind.toNat) h d) s :=
    fun part => congrArg (run · s) (funext fun _ => if_neg hk)
  exact ⟨completes_rxWb hdft hawake hintact (hexec false) hpass (by omega) (by omega) hcred hfree,
    completes_rxWb hdft hawake hintact (hexec true) hpass (by omega) (by omega) hcred hfree⟩

/-! ### Profile heartbeats -/

omit hdft hawake hintact in
/-- A heartbeat that passes: only its agent and its form matter (R67). -/
theorem ingressCode_heartbeat (hmask : s.integ.mask = []) (h1 : h.mfield ≠ 1) (h2 : h.mfield ≠ 2) (h3 : h.mval ≠ 1)
    (hprofile : s.agtDc h.agent.toNat = true ∨ s.agtHb h.agent.toNat = true)
    (hstate : s.agtState h.agent.toNat = 1 ∨ s.agtState h.agent.toNat = 2 ∨ s.agtState h.agent.toNat = 3) :
    ingressCode s 0x1D h = 0 := by
  have hgood : ¬ BadForm s 0x1D h := by
    rw [badForm_of_profile (.inr rfl)]
    rintro (hbad | ⟨hdc, hhb⟩)
    · exact hbad.elim h1 fun hbad => hbad.elim h2 h3
    · simp [hdc, hhb] at hprofile
  rw [ingressCode_of_goodForm hmask hgood, if_neg (fun hand => hand.1 rfl), if_neg (not_not_intro hstate),
    if_neg (fun hand => hand.1 rfl)]

theorem completes_dfHb (hcode : ingressCode s 0x1D h = 0) (hcred : (s.fport p.toNat).rspCred ≠ 0) :
    Completes (.dfHb p h) s (fun u => AgentHeard s u h.agent.toNat ∧
      SMap.getD (fun _ => false) u.port.dfHeard h.agent.toNat = true ∧
      ∀ b, b ≠ h.agent.toNat → SMap.getD (fun _ => false) u.port.dfHeard b = SMap.getD (fun _ => false) s.port.dfHeard b) := by
  obtain ⟨hv, hup, -, hmode⟩ := hawake
  refine completes_run (fun s => rxDfHb (fabricWake s p.toNat) p.toNat h) rfl hdft ?_
  rw [fabricWake_awake (s := freshOut s) hmode, rxDfHb, rspIn_eq (s := freshOut s) hup hv p.toNat 0x1D h hcred]
  have hc : ingressCode (freshOut s) 0x1D h = 0 := (ingressCode_freshOut hintact.1 0x1D h).trans hcode
  simp only [ingressCheck_passed (s := freshOut s) hintact.1 p.isLt hc, ne_eq, not_true_eq_false, if_false]
  obtain ⟨hframe, hheard, -⟩ := admitted_passed (freshOut s) p.toNat h.agent.toNat (rspTaken ((freshOut s).fport p.toNat)) 4
  generalize passed (arrived (freshOut s) p.toNat (rspTaken ((freshOut s).fport p.toNat)) 4) h.agent.toNat = t at *
  have hin := (Ingressed.refl { t with port := { t.port with dfHeard := SMap.set (fun _ => false) t.port.dfHeard h.agent.toNat true } }).regrant
    p.toNat
  have hfault := (regrant_reports { t with
    port := { t.port with dfHeard := SMap.set (fun _ => false) t.port.dfHeard h.agent.toNat true } } p.toNat).1
  generalize regrant _ p.toNat = u at *
  have hdf : t.port.dfHeard = s.port.dfHeard := by rw [hframe]; rfl
  have hagt : u.agt = t.agt := hin.same.2.2.1
  unfold Ingressed at hin
  have hset : u.port.dfHeard = SMap.set (fun _ => false) s.port.dfHeard h.agent.toNat true := by
    rw [hin, ← hdf]
  refine ⟨⟨hheard.congr rfl rfl hagt, ?_⟩, ?_, fun b hb => ?_⟩
  · rw [hin, hfault, hframe]
    exact ⟨rfl, rfl, rfl, rfl, rfl, rfl, rfl, rfl, rfl, rfl, rfl, rfl, rfl, rfl, rfl⟩
  · rw [hset]
    exact SMap.getD_set_same _ _ _ _
  · rw [hset]
    exact SMap.getD_set_ne _ _ _ _ _ hb

end

/-- Settles O25: each message arrives, passes, and its agent is heard; what then happens depends on its type. -/
theorem hintsAcksAndWritebacks : Obligations.HintsAcksAndWritebacks := by
  unfold Obligations.HintsAcksAndWritebacks
  refine ⟨fun p h s hdft hawake hintact hpass => ⟨fun hcred => ?_, fun hcred => ?_, fun hcred => ?_⟩,
    fun p h d s hdft hawake hintact => ⟨fun kind e hk hpass hcred hfree => ?_, fun h1 h2 h3 hprofile hstate hcred => ?_⟩⟩
  · exact completes_spec hdft hawake hintact hpass hcred
  · exact completes_clnEv hdft hawake hintact hpass hcred
  · exact completes_biconf hdft hawake hintact hpass hcred
  · exact completes_writebacks hdft hawake hintact hk hpass hcred hfree
  · refine (completes_dfHb hdft hawake hintact (ingressCode_heartbeat hintact.1 h1 h2 h3 hprofile hstate) hcred).mono
      fun u ⟨⟨hheard, hhold, hrecs, hdat, hsl, hfault, hquiet⟩, hdf, hother⟩ => ?_
    exact ⟨hheard, hdf, hother, hhold, hdat, hsl, hfault, hquiet⟩

end Sys2Proof.Machine

namespace Sys2Proof.Machine

/-! SUPPORT. What a slice's look at a line may change (R139, R143, R158, R290, R291), and the issue of a request (R73, R102, R109). -/

/-! ### Looks -/

/-- The registers that a conflict check reads: the active bank's, and the Cullet tables. -/
def Checked (k : Nat) : Prop := k = 0x40 ∨ 0x700000 ≤ k ∧ 0xA0 ≤ k % 0x1000

/-- `u` is `s` but for what a look at a line of slice `n` changes: counters and reports, the Drawers' own records, the stream
detector of the slice. -/
def Looked (n : Nat) (s u : State) : Prop :=
  u = { s with
    regs := u.regs, frzReq := u.frzReq, fault := u.fault
    cab := { s.cab with dr := u.cab.dr, blindSeq := u.cab.blindSeq }, sl := { s.sl with sl := u.sl.sl } } ∧
  (∀ (d : Nat → BitVec 64) (k : Nat), Checked k → SMap.getD d u.regs k = SMap.getD d s.regs k) ∧
  (∀ m, m ≠ n → u.slq m = s.slq m) ∧ u.slq n = { s.slq n with streams := (u.slq n).streams }

/-- The logic that serves a slice: one of its cluster's places, whatever its CL_SLMAP says. -/
theorem logicOf_lt (s : State) {n : Nat} (h : n < 128) : logicOf s n < 151 := by
  have hplace : ∀ v, bits v (4 * (n % 8)) 4 < 16 := fun v => Nat.mod_lt _ (by decide)
  have := hplace (s.fld Fld.CL_SLMAP_POS (n / 8))
  unfold logicOf
  omega

namespace Looked

variable {n : Nat} {s t u : State}

theorem refl (n : Nat) (s : State) : Looked n s s := ⟨rfl, fun _ _ _ => rfl, fun _ _ => rfl, rfl⟩

theorem trans (h : Looked n s t) (k : Looked n t u) : Looked n s u := by
  obtain ⟨hs, hregs, hother, hq⟩ := h
  obtain ⟨ks, kregs, kother, kq⟩ := k
  refine ⟨?_, fun d x hx => (kregs d x hx).trans (hregs d x hx), fun m hm => (kother m hm).trans (hother m hm), ?_⟩
  · rw [ks, hs]
  · rw [kq, hq]

/-- What touches neither slices nor Drawers. -/
theorem of_counters (h : u = { s with regs := u.regs, frzReq := u.frzReq, fault := u.fault })
    (hregs : ∀ (d : Nat → BitVec 64) (k : Nat), Checked k → SMap.getD d u.regs k = SMap.getD d s.regs k) : Looked n s u := by
  have hsl : u.sl = s.sl := by rw [h]
  have hq : ∀ m, u.slq m = s.slq m := fun m => by rw [State.slq, hsl]; rfl
  refine ⟨?_, hregs, fun m _ => hq m, ?_⟩
  · rw [h]
  · rw [hq]

theorem of_regsBut {l : List Nat} (h : u = { s with regs := u.regs, frzReq := u.frzReq }) (hregs : RegsBut s u l)
    (hl : ∀ k ∈ l, ¬ Checked k) : Looked n s u :=
  of_counters (by rw [h]) fun d k hk => hregs d k fun hmem => hl k hmem hk

theorem setFld (h : Looked n s t) (f : Fld) (v : Nat) {i j : Nat} (hf : ¬ Checked (f.reg.addr i j)) : Looked n s (t.setFld f v i j) :=
  h.trans (of_regsBut rfl (regsBut_setFld t f v i j) (by simpa using hf))

theorem setDrq (h : Looked n s t) (d : Nat) (q : DrawerQ) : Looked n s (t.setDrq d q) :=
  h.trans ⟨rfl, fun _ _ _ => rfl, fun _ _ => rfl, rfl⟩

theorem blindTick (h : Looked n s t) : Looked n s (blindTick t) := h.trans ⟨rfl, fun _ _ _ => rfl, fun _ _ => rfl, rfl⟩

end Looked

section
variable {n : Nat} {s t : State} {l : Nat} (hl : l < 151)
include hl

/-- A counter of a slice logic is none of the registers that a check reads. -/
theorem counter_unchecked (k : Nat) (hk : k < 8) : ¬ Checked (RegName.SL_TEL_CNT.addr l k) := by
  simp only [Checked, RegName.addr, RegName.desc]
  omega

omit hl in
theorem looked_bumpCnt {v o : Fld} (ho : o.reg = v.reg) {i j : Nat} (hv : ¬ Checked (v.reg.addr i j)) (id : Nat) (h : Looked n s t) :
    Looked n s (bumpCnt t v o i j id) := by
  have hframe : bumpCnt t v o i j id =
      { t with regs := (bumpCnt t v o i j id).regs, frzReq := (bumpCnt t v o i j id).frzReq } := by
    obtain ⟨r, q, heq⟩ := bumpCnt_eq t v o i j id
    rw [heq]
  have hregs := regsBut_bumpCnt t v o ho i j id
  generalize bumpCnt t v o i j id = u at *
  exact h.trans (.of_regsBut hframe hregs (by simpa using hv))

theorem looked_slFixed (k : Nat) (hk : k < 8) (h : Looked n s t) : Looked n s (slFixed t l k) :=
  looked_bumpCnt (v := Fld.SL_TEL_CNT_VALUE) (o := Fld.SL_TEL_CNT_OVF) rfl (counter_unchecked hl k hk) _ h

theorem looked_slEvent (ev : Nat) (h : Looked n s t) : Looked n s (slEvent t l ev) := by
  unfold slEvent
  refine List.foldlRecOn (motive := fun u => Looked n s u) _ _ h fun u hu k hk => ?_
  have hlt := List.mem_range.1 hk
  split
  · exact looked_bumpCnt (v := Fld.SL_TEL_CNT_VALUE) (o := Fld.SL_TEL_CNT_OVF) rfl (counter_unchecked hl k (by omega)) _ hu
  · exact hu

omit hl in
theorem looked_lcLatch {valid ovf injF codeF subjF timeF : Fld} {i : Nat}
    (hf : ∀ f ∈ [valid, ovf, injF, codeF, subjF, timeF], ¬ Checked (f.reg.addr i 0)) (code subject : Nat) (inj : Bool)
    (h : Looked n s t) : Looked n s (lcLatch t valid ovf injF codeF subjF timeF i code subject inj) := by
  simp only [List.forall_mem_cons] at hf
  obtain ⟨hvalid, hovf, hinj, hcode, hsubj, htime, -⟩ := hf
  unfold lcLatch
  split
  · exact (((((h.setFld _ _ hvalid).setFld _ _ hcode).setFld _ _ hinj).setFld _ _ hsubj).setFld _ _ hovf).setFld _ _ htime
  · split
    · exact h
    · exact h.setFld _ _ hovf

/-- A report of a slice logic passes collectors that no check reads. -/
theorem looked_raiseN (code subject count : Nat) (inj : Bool) (dom : Dom) (h : Looked n s t) :
    Looked n s (raiseN t (.slice l) code subject count inj dom) := by
  have hslice : Looked n s (lcSlice t l code subject inj) := by
    refine looked_lcLatch (fun f hf => ?_) code subject inj h
    simp only [List.mem_cons, List.not_mem_nil, or_false] at hf
    rcases hf with rfl | rfl | rfl | rfl | rfl | rfl <;> simp only [Checked, RegName.addr, RegName.desc] <;> omega
  have hcluster : Looked n s (lcCluster (lcSlice t l code subject inj) (l / 9) code subject inj) := by
    refine looked_lcLatch (fun f hf => ?_) code subject inj hslice
    simp only [List.mem_cons, List.not_mem_nil, or_false] at hf
    rcases hf with rfl | rfl | rfl | rfl | rfl | rfl <;> simp only [Checked, RegName.addr, RegName.desc] <;> omega
  have hregion : Looked n s (lcPass t (.slice l) code subject inj) := by
    refine looked_lcLatch (fun f hf => ?_) code subject inj hcluster
    simp only [List.mem_cons, List.not_mem_nil, or_false] at hf
    rcases hf with rfl | rfl | rfl | rfl | rfl | rfl <;> simp only [Checked, RegName.addr, RegName.desc] <;> omega
  exact hregion.trans (.of_counters rfl fun _ _ _ => rfl)

end

section
variable {n : Nat} {s t : State} {d : Nat} (hd : d < 128)
include hd

theorem looked_raiseDrawer (code : Nat) (inj : Bool) (h : Looked n s t) : Looked n s (raiseDrawer t d code inj) :=
  looked_raiseN (logicOf_lt t hd) code d 1 inj .core h

theorem looked_raiseSlice (code subject : Nat) (h : Looked n s t) : Looked n s (raiseSlice t d code subject) :=
  looked_raiseN (logicOf_lt t hd) code subject 1 false .core h

omit hd in
/-- An error bit of a Drawer is none of the registers that a check reads. -/
theorem cabErr_unchecked : ¬ Checked (RegName.CAB_ERR.addr d 0) := by
  simp only [Checked, RegName.addr, RegName.desc]
  omega

theorem looked_makeBlind (set cause : Nat) (h : Looked n s t) : Looked n s (makeBlind t d set cause) := by
  have htick := h.blindTick
  unfold makeBlind
  dsimp only
  generalize blindTick t = u at *
  split
  · split
    · split
      · exact htick.setDrq _ _
      · exact htick
    · exact htick
  · split
    · exact htick.setDrq _ _
    · split
      · exact htick.setDrq _ _
      · exact (looked_raiseDrawer hd _ _ (htick.setFld _ _ cabErr_unchecked)).setDrq _ _

theorem looked_formatError (set : Nat) (h : Looked n s t) : Looked n s (formatError t d set) :=
  looked_makeBlind hd _ _ (looked_raiseDrawer hd _ _ (h.setFld _ _ cabErr_unchecked))

theorem looked_noRuleFault (typ set : Nat) (h : Looked n s t) : Looked n s (noRuleFault t d typ set) := by
  have hinfo : Looked n s (rbErrInfo t d typ 0) := by
    unfold rbErrInfo
    split
    · exact ((h.setFld _ _ (by simp [Checked, RegName.addr, RegName.desc])).setFld _ _
        (by simp [Checked, RegName.addr, RegName.desc])).setFld _ _ (by simp [Checked, RegName.addr, RegName.desc])
    · exact h
  exact looked_makeBlind hd _ _ (looked_raiseSlice hd _ _ (hinfo.setFld _ _ (by simp [Checked, RegName.addr, RegName.desc])))

end

/-! ### The decision of a request -/

theorem drawerRead_of_mask {s : State} (h : s.integ.mask = []) (d w : Nat) : drawerRead s d w = (s, some (drawerW s d w)) := by
  have hmask : ∀ st unit k, maskOf s st unit k = 0 := fun st unit k => by rw [maskOf, h]; rfl
  unfold drawerRead
  dsimp only
  rw [if_pos (hmask _ _ _)]

theorem setRead_of_mask {s : State} (h : s.integ.mask = []) (d set : Nat) : (setRead s d set).1 = s := by
  have hall : (setReadAll s d set).1 = s := by
    unfold setReadAll
    refine List.foldlRecOn (motive := fun (p : State × List (Nat × Option Nat)) => p.1 = s) _ _ rfl fun p hp w _ => ?_
    rw [hp, drawerRead_of_mask h]
  unfold setRead
  generalize setReadAll s d set = p at *
  exact hall

theorem matchFrom_of_mask {s : State} (h : s.integ.mask = []) (key l b n i : Nat) : (matchFrom key l b n i s).1 = s := by
  induction n generalizing i with
  | zero => rfl
  | succ n ih =>
    unfold matchFrom bankRead
    simp only [wordRead_of_mask h]
    split
    · rfl
    · exact ih _

theorem matchRule_of_mask {s : State} (h : s.integ.mask = []) (n b typ mode : Nat) (v : Seen) (r : Nat) :
    (matchRule s n b typ mode v r).1 = s := by
  unfold matchRule
  dsimp only
  split
  · rfl
  · have hm := matchFrom_of_mask h (matchKey typ (presentState s v.word mode) v.word mode (flagsOf s v r)) (logicOf s n) b 1024 0
    generalize matchFrom _ _ _ _ _ s = p at *
    obtain ⟨t, o⟩ := p
    cases o <;> exact hm

theorem looked_streamHit {n : Nat} {s t : State} (line agent : Nat) (h : Looked n s t) : Looked n s (streamHit t n line agent).1 := by
  have hset : ∀ l, Looked n s (t.setSlq n { t.slq n with streams := l }) := fun l => h.trans
    ⟨rfl, fun _ _ _ => rfl, fun m hm => SMap.getD_set_ne _ _ _ _ _ hm, by rw [slq_setSlq]⟩
  unfold streamHit
  extract_lets x y q sec mask rest
  split
  · exact h
  · split
    · exact hset _
    · exact hset _

section
variable {line : Nat} {s t : State} (hline : sliceOf line < 128) (hmask : t.integ.mask = [])
include hline hmask

theorem looked_readLine (h : Looked (sliceOf line) s t) : Looked (sliceOf line) s (readLine t line).1 := by
  have hread := setRead_of_mask hmask (sliceOf line) (setOf line)
  unfold readLine
  dsimp only
  rw [hread]
  split
  · exact looked_formatError hline _ h
  · exact h

theorem looked_decideMsg (typ r : Nat) (f : Found) (h : Looked (sliceOf line) s t) :
    Looked (sliceOf line) s (decideMsg t line typ r f).1 := by
  unfold decideMsg
  dsimp only
  split
  · exact looked_slEvent (logicOf_lt t hline) _ h
  · have hev := looked_slEvent (logicOf_lt t hline) (if (seenOf f.look).way.isSome then 6 else 7) h
    have hmask' : (slEvent t (logicOf t (sliceOf line)) (if (seenOf f.look).way.isSome then 6 else 7)).integ.mask = [] := by
      rw [slEvent_integ, hmask]
    generalize slEvent t _ _ = u at *
    have hm := matchRule_of_mask hmask' (sliceOf line) (activeEpoch u) typ u.decMode (seenOf f.look) r
    generalize matchRule u _ _ _ _ _ _ = p at *
    obtain ⟨v, o⟩ := p
    subst hm
    cases o with
    | some d => exact hev
    | none => exact looked_slEvent (logicOf_lt _ hline) _ (looked_noRuleFault hline _ _ hev)

omit hline hmask in
theorem looked_planCoarse (agent : Nat) (d : Dec) (f : Found) (h : Looked (sliceOf line) s t) :
    Looked (sliceOf line) s (planCoarse t line agent d f).1 := by
  have hhit := looked_streamHit line agent h
  unfold planCoarse
  dsimp only
  split
  · exact h
  · split
    · exact h
    · split <;> exact hhit

end

/-- The look at its line for a request: what was found, the decision, whether the line is unknown, and a planned coarse word. -/
def reqLook (s : State) (line typ agent : Nat) : State × Found × Dec × Option Bool × Bool :=
  let r := readLine s line
  let d := decideMsg r.1 line typ agent r.2
  let c := planCoarse d.1 line agent d.2.1 r.2
  (c.1, r.2, d.2.1, d.2.2, c.2)

theorem looked_reqLook {line : Nat} {s : State} (hline : sliceOf line < 128) (hmask : s.integ.mask = []) (typ agent : Nat) :
    Looked (sliceOf line) s (reqLook s line typ agent).1 := by
  have hread := looked_readLine hline hmask (Looked.refl _ s)
  have hmask' : (readLine s line).1.integ.mask = [] := by rw [hread.1, hmask]
  have hdec := looked_decideMsg hline hmask' typ agent (readLine s line).2 hread
  unfold reqLook
  generalize readLine s line = r at *
  dsimp only
  generalize decideMsg r.1 line typ agent r.2 = d at *
  exact looked_planCoarse agent _ _ hdec

/-! ### The conflict check -/

section
variable {n : Nat} {s u : State} (h : Looked n s u)
include h

theorem Looked.fld {f : Fld} {i j : Nat} (hf : Checked (f.reg.addr i j)) : u.fld f i j = s.fld f i j := by
  unfold State.fld State.reg
  rw [h.2.1 _ _ hf]

theorem Looked.drawerW (d w : Nat) : drawerW u d w = drawerW s d w := by
  have hcul : ∀ k, k < 8 → u.fld Fld.CULLET_VALID d k = s.fld Fld.CULLET_VALID d k ∧ u.fld Fld.CULLET_WORD d k = s.fld Fld.CULLET_WORD d k :=
    fun k hk => by
      have hc : Checked (RegName.CULLET.addr d k) := .inr (by simp only [RegName.addr, RegName.desc]; omega)
      exact ⟨h.fld hc, h.fld hc⟩
  have hspare : spareOf u d w = spareOf s d w := by
    unfold spareOf
    refine List.find?_congr fun k hk => ?_
    rw [(hcul k (List.mem_range.1 hk)).1, (hcul k (List.mem_range.1 hk)).2]
  unfold Machine.drawerW
  rw [hspare, h.1]

theorem Looked.slq_evQ (m : Nat) : (u.slq m).evQ = (s.slq m).evQ := by
  by_cases hm : m = n
  · rw [hm, h.2.2.2]
  · rw [h.2.2.1 m hm]

omit h in
/-- What a conflict check reads. -/
theorem blocker_congr {s u : State} (htrk : u.sl.trk = s.sl.trk) (hsink : u.sl.sinks = s.sl.sinks)
    (hev : ∀ m, (u.slq m).evQ = (s.slq m).evQ) (hword : ∀ d w, Machine.drawerW u d w = Machine.drawerW s d w)
    (line : Nat) (sector : Bool) (self : Option Nat) : blocker u line sector self = blocker s line sector self := by
  unfold Machine.blocker trkOfSlice sinksOfSlice evHolder
  rw [htrk, hsink]
  simp only [hev, hword]

/-- A look changes nothing that a conflict check meets. -/
theorem Looked.blocker (line : Nat) (sector : Bool) (self : Option Nat) : blocker u line sector self = blocker s line sector self := by
  have hsl : u.sl.trk = s.sl.trk ∧ u.sl.sinks = s.sl.sinks := by rw [h.1]; exact ⟨rfl, rfl⟩
  exact blocker_congr hsl.1 hsl.2 h.slq_evQ h.drawerW line sector self

end

end Sys2Proof.Machine

namespace Sys2Proof.Machine

/-! The statement about the conflict check of a presented request (R73, R102, R109 to R111, R114, R115). -/

/-! ### What an issue of slice `n` may change -/

/-- `u` is `s` but for one slice, its tracker entries, its cluster's notices, and what a look changes. -/
def Issued (n : Nat) (s u : State) : Prop :=
  u = { s with
    port := { s.port with notices := u.port.notices }, sl := { s.sl with sl := u.sl.sl, trk := u.sl.trk }
    regs := u.regs, frzReq := u.frzReq, fault := u.fault, integ := u.integ, work := u.work
    cab := { s.cab with dr := u.cab.dr, blindSeq := u.cab.blindSeq } } ∧
  (∀ m, m ≠ n → u.slq m = s.slq m) ∧ ∀ c, c ≠ n / 8 → u.notices c = s.notices c

namespace Issued

variable {n : Nat} {s t u : State}

theorem refl (n : Nat) (s : State) : Issued n s s := ⟨rfl, fun _ _ => rfl, fun _ _ => rfl⟩

theorem trans (h : Issued n s t) (k : Issued n t u) : Issued n s u := by
  obtain ⟨hs, hq, hn⟩ := h
  obtain ⟨ks, kq, kn⟩ := k
  refine ⟨?_, fun m hm => (kq m hm).trans (hq m hm), fun c hc => (kn c hc).trans (hn c hc)⟩
  rw [ks, hs]

end Issued

theorem Looked.issued {n : Nat} {s u : State} (h : Looked n s u) : Issued n s u := by
  obtain ⟨hs, -, hq, -⟩ := h
  refine ⟨?_, hq, fun c _ => ?_⟩ <;> rw [hs]
  rfl

theorem issued_setSlq (s : State) (n : Nat) (q : SliceQ) : Issued n s (s.setSlq n q) :=
  ⟨rfl, fun _ hm => SMap.getD_set_ne _ _ _ _ _ hm, fun _ _ => rfl⟩

theorem issued_notify (s : State) (n : Nat) (x : Notice) : Issued n s (State.notify s (n / 8) x) :=
  ⟨rfl, fun _ _ => rfl, fun _ hc => SMap.getD_set_ne _ _ _ _ _ hc⟩

theorem notices_notify (s : State) (c : Nat) (x : Notice) : (State.notify s c x).notices c = s.notices c ++ [x] :=
  SMap.getD_set_same _ _ _ _

/-- A register of slices, Drawers or counters alone. -/
theorem slq_of_sl {s u : State} (h : u.sl = s.sl) (m : Nat) : u.slq m = s.slq m := by rw [State.slq, h]; rfl

/-! ### A refusal -/

/-- The count-queue of a slice once a request has been refused (R73). -/
def refusedCq (s : State) (n h : Nat) (rsv : Bool) : List Rsv :=
  if rsv = true ∧ 3 ≤ (s.holdE h).nacks ∧ (∀ r ∈ (s.slq n).cq, r.hold ≠ h) ∧ (s.slq n).cq.length < 32 then
    (s.slq n).cq ++ [⟨(s.holdE h).hdr.pa.toNat, h, (s.holdE h).hdr.agent.toNat, s.now⟩]
  else (s.slq n).cq

/-- The slice `n` of `u` is `q`, and nothing but that slice and counters differ from `s`. -/
def SliceIs (n : Nat) (s u : State) (q : SliceQ) : Prop :=
  Issued n s u ∧ u.sl.trk = s.sl.trk ∧ u.work = s.work ∧ u.fault = s.fault ∧ u.cab = s.cab ∧ u.port = s.port ∧ u.slq n = q

theorem sliceIs_ticked {n : Nat} {s u : State} (h : u = { s with regs := u.regs, frzReq := u.frzReq }) : SliceIs n s u (s.slq n) := by
  have hsl : u.sl = s.sl := by rw [h]
  refine ⟨⟨?_, fun m _ => slq_of_sl hsl m, fun c _ => ?_⟩, ?_, ?_, ?_, ?_, ?_, slq_of_sl hsl n⟩ <;> rw [h]
  rfl

theorem SliceIs.trans {n : Nat} {s t u : State} {q q' : SliceQ} (h : SliceIs n s t q) (k : SliceIs n t u q') : SliceIs n s u q' := by
  obtain ⟨hs, htrk, hwork, hfault, hcab, hport, -⟩ := h
  obtain ⟨ks, ktrk, kwork, kfault, kcab, kport, kq⟩ := k
  exact ⟨hs.trans ks, ktrk.trans htrk, kwork.trans hwork, kfault.trans hfault, kcab.trans hcab, kport.trans hport, kq⟩

theorem sliceIs_setSlq (s : State) (n : Nat) (q : SliceQ) : SliceIs n s (s.setSlq n q) q :=
  ⟨issued_setSlq s n q, rfl, rfl, rfl, rfl, rfl, slq_setSlq s n q⟩

theorem ticked_slEvent (s : State) (l ev : Nat) :
    slEvent s l ev = { s with regs := (slEvent s l ev).regs, frzReq := (slEvent s l ev).frzReq } := by
  obtain ⟨r, q, heq⟩ := slEvent_eq s l ev
  rw [heq]

theorem ticked_slFixed (s : State) (l k : Nat) :
    slFixed s l k = { s with regs := (slFixed s l k).regs, frzReq := (slFixed s l k).frzReq } := by
  obtain ⟨r, q, heq⟩ := slFixed_eq s l k
  rw [heq]

theorem sliceIs_setSlq_slEvent (s : State) (n : Nat) (q : SliceQ) (l ev : Nat) : SliceIs n s (slEvent (s.setSlq n q) l ev) q := by
  have hev := sliceIs_ticked (n := n) (ticked_slEvent (s.setSlq n q) l ev)
  rw [slq_setSlq] at hev
  exact (sliceIs_setSlq s n q).trans hev

/-- The state once a refused request has taken its count-queue place, where it takes one. -/
def refusedQueued (t : State) (n h l : Nat) (rsv : Bool) (v : HoldSlot) : State :=
  if rsv ∧ 3 ≤ v.nacks ∧ ¬ (t.slq n).cq.any (fun r => r.hold = h) then
    if (t.slq n).cq.length < 32 then
      slEvent (t.setSlq n { t.slq n with cq := (t.slq n).cq ++ [⟨v.hdr.pa.toNat, h, v.hdr.agent.toNat, t.now⟩] }) l 5
    else t.addFld Fld.SL_CQ_OVF 1 l
  else t

theorem refuseReq_eq (s : State) (n h : Nat) (on : HoldWait) (rsv : Bool) (ev : Nat) : refuseReq s n h on rsv ev =
    State.notify (refusedQueued (slFixed (if ev = 0 then s else slEvent s (logicOf s n) ev) (logicOf s n) 5) n h (logicOf s n) rsv
      (s.holdE h)) (n / 8) (.refuse h on) := rfl

theorem sliceIs_refusedQueued (t : State) (n h l : Nat) (rsv : Bool) :
    SliceIs n t (refusedQueued t n h l rsv (t.holdE h)) { t.slq n with cq := refusedCq t n h rsv } := by
  have hall : (¬ (t.slq n).cq.any (fun r => r.hold = h) = true) ↔ ∀ r ∈ (t.slq n).cq, r.hold ≠ h := by simp
  unfold refusedQueued refusedCq
  split
  · next hplace =>
    obtain ⟨hrsv, hnacks, hnew⟩ := hplace
    split
    · next hroom =>
      rw [if_pos ⟨hrsv, hnacks, hall.1 hnew, hroom⟩]
      exact sliceIs_setSlq_slEvent t n _ l 5
    · next hfull =>
      rw [if_neg fun hand => hfull hand.2.2.2]
      exact sliceIs_ticked rfl
  · next hno =>
    rw [if_neg fun hand => hno ⟨hand.1, hand.2.1, hall.2 hand.2.2.1⟩]
    exact sliceIs_ticked rfl

/-- What a refusal leaves (R73, R77). -/
theorem refuseReq_spec {n : Nat} (s : State) (h : Nat) (on : HoldWait) (rsv : Bool) (ev : Nat) :
    let u := refuseReq s n h on rsv ev
    Issued n s u ∧ u.sl.trk = s.sl.trk ∧ u.work = s.work ∧ u.fault = s.fault ∧ u.cab = s.cab ∧
    u.notices (n / 8) = s.notices (n / 8) ++ [.refuse h on] ∧ u.slq n = { s.slq n with cq := refusedCq s n h rsv } := by
  have hev : SliceIs n s (if ev = 0 then s else slEvent s (logicOf s n) ev) (s.slq n) := by
    split
    · exact sliceIs_ticked rfl
    · exact sliceIs_ticked (ticked_slEvent s _ _)
  have ht := hev.trans (sliceIs_ticked (ticked_slFixed _ (logicOf s n) 5))
  rw [hev.2.2.2.2.2.2] at ht
  rw [refuseReq_eq]
  generalize slFixed (if ev = 0 then s else slEvent s (logicOf s n) ev) (logicOf s n) 5 = t at *
  have hq : t.slq n = s.slq n := ht.2.2.2.2.2.2
  have hhold : t.holdE h = s.holdE h := by rw [State.holdE, ht.2.2.2.2.2.1]; rfl
  have hcq : refusedCq t n h rsv = refusedCq s n h rsv := by
    have hnow : t.now = s.now := by rw [ht.1.1]
    rw [refusedCq, refusedCq, hq, hhold, hnow]
  have hu := sliceIs_refusedQueued t n h (logicOf s n) rsv
  rw [hhold, hcq, hq] at hu
  obtain ⟨hiss, htrk, hwork, hfault, hcab, hport, hslq⟩ := ht.trans hu
  generalize refusedQueued t n h (logicOf s n) rsv (s.holdE h) = u at *
  have hnot := notices_notify u (n / 8) (.refuse h on)
  have hold : u.notices (n / 8) = s.notices (n / 8) := by rw [State.notices, hport]; rfl
  rw [hold] at hnot
  exact ⟨hiss.trans (issued_notify u n _), htrk, hwork, hfault, hcab, hnot, hslq⟩

/-! ### An acceptance -/

/-- A tracker word is written: of the registers, at most its injector's change (R383). -/
theorem regsBut_wordWritten_trk (s : State) (unit w : Nat) :
    RegsBut s (wordWritten s .trk unit w) [RegName.CL_INJ.addr (unit / 9) 0] := by
  have hfresh : ∀ t : State, t.regs = s.regs → ∀ m b, RegsBut s (setInj (setMask t .trk unit w m) .trk unit w b) [RegName.CL_INJ.addr (unit / 9) 0] :=
    fun t ht m b d k _ => congrArg (fun r => SMap.getD d r k) ht
  unfold wordWritten
  have hpage : (if maskOf s .trk unit w ≠ 0 ∧ Store.trk ≠ .drawer ∧ Store.trk ≠ .spare ∧ wordLook s .trk unit w = none then
      pageFresh s .trk unit w else s).regs = s.regs := by
    split <;> rfl
  generalize (if maskOf s .trk unit w ≠ 0 ∧ Store.trk ≠ .drawer ∧ Store.trk ≠ .spare ∧ wordLook s .trk unit w = none then
      pageFresh s .trk unit w else s) = t at *
  have hinj : injFlds (Store.trk.cls unit) =
      (Fld.CL_INJ_MASK, Fld.CL_INJ_CONT, Fld.CL_INJ_ARM, Fld.CL_INJ_LAST, unit / 9, 0) := rfl
  rw [hinj]
  dsimp only
  split
  · have hlast := (hfresh t hpage (t.fld Fld.CL_INJ_MASK (unit / 9) 0 % 2 ^ (codeR Store.trk.bits + 1) * 2 ^ Store.trk.bits) true).trans
      (regsBut_setFld _ Fld.CL_INJ_LAST w (unit / 9) 0)
    split
    · exact hlast.trans (regsBut_setFld _ Fld.CL_INJ_ARM 0 (unit / 9) 0)
    · exact hlast
  · exact hfresh t hpage 0 false

/-- An entry is written to the tracker store. -/
theorem putEntry_spec {n : Nat} (s : State) (tid : Nat) (t : Trk) :
    let u := putEntry s tid t
    Issued n s u ∧ u.trkE tid = t ∧ (∀ k, k ≠ tid → u.trkE k = s.trkE k) ∧ u.work = s.work ++ [.trk tid] ∧ u.port = s.port ∧
    (∀ m, u.slq m = s.slq m) ∧ activeEpoch u = activeEpoch s := by
  obtain ⟨r, g, heq⟩ := wordWritten_eq (s.setTrkE tid t) .trk (logicOf s (tid / 512)) (tid % 512)
  have hregs := regsBut_wordWritten_trk (s.setTrkE tid t) (logicOf s (tid / 512)) (tid % 512)
  have hep : activeEpoch (putEntry s tid t) = activeEpoch s :=
    (hregs.fld Fld.RB_STATUS_ACTIVE 0 0 (by simp [RegName.addr, RegName.desc]; omega)).trans rfl
  refine ⟨?_, ?_, fun k hk => ?_, ?_, ?_, fun m => ?_, hep⟩ <;> unfold putEntry <;> rw [heq]
  · exact ⟨rfl, fun _ _ => rfl, fun _ _ => rfl⟩
  · exact SMap.getD_set_same _ _ _ _
  · exact SMap.getD_set_ne _ _ _ _ _ hk
  · rfl
  · rfl
  · rfl

/-- A slice's queues once the request of hold slot `h` for a line has left its count-queue (R115). -/
def queueLeft (q : SliceQ) (h line : Nat) : SliceQ :=
  { q with cq := q.cq.filter (fun r => r.hold ≠ h), reserved := q.reserved.filter (fun x => x.1 ≠ line) }

/-- The state once an entry has been allocated for the request in hold slot `h`, which held the head of its line's count-queue or
did not. -/
def reqAccepted (t : State) (n h e : Nat) (v : HoldSlot) (mine : Prop) [Decidable mine] (f : Found) (d : Dec) (unk : Option Bool)
    (coarse : Bool) : State :=
  let u := if mine then t.setSlq n (queueLeft (t.slq n) h v.hdr.pa.toNat) else t
  let w := slFixed (slEvent u (logicOf t n) 2) (logicOf t n) 4
  let x := putEntry w (n * 512 + e) (reqEntry w ⟨true, 0, v.typ, v.hdr, v.dat.map (fun x => (v.port, x)), false, false, v.nacks, 0⟩
    h d f unk coarse)
  State.notify x (n / 8) (.accept (n * 512 + e) h (activeEpoch x))

/-- The fields of a request's entry that do not come from its decision. -/
def EntryOf (t : Trk) (v : HoldSlot) (h ep : Nat) : Prop :=
  t.valid = true ∧ t.cls = 0 ∧ t.typ = v.typ ∧ t.agent = v.hdr.agent.toNat ∧ t.pa = v.hdr.pa.toNat ∧ t.hold = h ∧
  t.nacks = v.nacks ∧ t.hdr = v.hdr ∧ t.epoch = ep ∧ t.rel = false ∧ t.snpOut = false ∧ t.reqDat = v.dat.map (fun x => (v.port, x))

theorem entryOf_reqEntry (s : State) (v : HoldSlot) (h : Nat) (d : Dec) (f : Found) (unk : Option Bool) (coarse : Bool) :
    EntryOf (reqEntry s ⟨true, 0, v.typ, v.hdr, v.dat.map (fun x => (v.port, x)), false, false, v.nacks, 0⟩ h d f unk coarse) v h
      (activeEpoch s) :=
  ⟨rfl, rfl, rfl, rfl, rfl, rfl, rfl, rfl, rfl, rfl, rfl, rfl⟩

theorem reqAccepted_spec {n : Nat} (hn : n < 128) (t : State) (h e : Nat) (v : HoldSlot) (mine : Prop) [Decidable mine] (f : Found)
    (d : Dec) (unk : Option Bool) (coarse : Bool) :
    let u := reqAccepted t n h e v mine f d unk coarse
    Issued n t u ∧ EntryOf (u.trkE (n * 512 + e)) v h (activeEpoch t) ∧ (∀ k, k ≠ n * 512 + e → u.trkE k = t.trkE k) ∧
    u.work = t.work ++ [.trk (n * 512 + e)] ∧
    u.notices (n / 8) = t.notices (n / 8) ++ [.accept (n * 512 + e) h (activeEpoch t)] ∧
    u.slq n = if mine then queueLeft (t.slq n) h v.hdr.pa.toNat else t.slq n := by
  have hq : SliceIs n t (if mine then t.setSlq n (queueLeft (t.slq n) h v.hdr.pa.toNat) else t)
      (if mine then queueLeft (t.slq n) h v.hdr.pa.toNat else t.slq n) ∧
      (if mine then t.setSlq n (queueLeft (t.slq n) h v.hdr.pa.toNat) else t).regs = t.regs := by
    split
    · exact ⟨sliceIs_setSlq t n _, rfl⟩
    · exact ⟨sliceIs_ticked rfl, rfl⟩
  unfold reqAccepted
  dsimp only
  generalize (if mine then t.setSlq n (queueLeft (t.slq n) h v.hdr.pa.toNat) else t) = u at *
  generalize (if mine then queueLeft (t.slq n) h v.hdr.pa.toNat else t.slq n) = q at *
  obtain ⟨hu, hregs⟩ := hq
  have hl := logicOf_lt t hn
  have hcount := looked_slFixed hl 4 (by decide) (looked_slEvent hl 2 (Looked.refl n u))
  have hep : activeEpoch (slFixed (slEvent u (logicOf t n) 2) (logicOf t n) 4) = activeEpoch t :=
    (hcount.fld (f := Fld.RB_STATUS_ACTIVE) (i := 0) (j := 0) (.inl rfl)).trans (fld_congr hregs _ 0 0)
  have hev := hu.trans (sliceIs_ticked (ticked_slEvent u (logicOf t n) 2))
  have hw := hev.trans (sliceIs_ticked (ticked_slFixed _ (logicOf t n) 4))
  rw [hev.2.2.2.2.2.2, hu.2.2.2.2.2.2] at hw
  generalize slFixed (slEvent u (logicOf t n) 2) (logicOf t n) 4 = w at *
  have hentry := entryOf_reqEntry w v h d f unk coarse
  generalize reqEntry w _ h d f unk coarse = y at *
  obtain ⟨hx, hnew, hother, hwork, hport, hslq, hepx⟩ := putEntry_spec (n := n) w (n * 512 + e) y
  obtain ⟨hiss, htrk, hworkw, -, -, hportw, hslqw⟩ := hw
  generalize putEntry w (n * 512 + e) y = x at *
  have hnot := notices_notify x (n / 8) (.accept (n * 512 + e) h (activeEpoch x))
  have hold : x.notices (n / 8) = t.notices (n / 8) := by rw [State.notices, hport, hportw]; rfl
  rw [hold, hepx, hep] at hnot
  rw [hep] at hentry
  refine ⟨(hiss.trans hx).trans (issued_notify x n _), ?_, fun k hk => (hother k hk).trans ?_, ?_, ?_, (hslq n).trans hslqw⟩
  · change EntryOf (x.trkE (n * 512 + e)) v h (activeEpoch t)
    rw [hnew]
    exact hentry
  · rw [State.trkE, htrk]
    rfl
  · exact hwork.trans (congrArg (· ++ [Work.trk (n * 512 + e)]) hworkw)
  · rw [hepx, hep]
    exact hnot

end Sys2Proof.Machine

namespace Sys2Proof.Machine

/-! ### The request that is taken -/

/-- Slice `n`'s queues once it has taken the request of hold slot `h` (R101). -/
def queueTook (s : State) (n h : Nat) : SliceQ :=
  { s.slq n with
    reqQ := (s.slq n).reqQ.erase h, rot := (s.holdE h).port, reqPass := 0, wdog := s.now
    mntPass := if mntElig s n = true then (s.slq n).mntPass + 1 else 0 }

/-- The state once slice `n` has taken the request of hold slot `h` for its conflict check. -/
def reqPicked (s : State) (n h : Nat) : State :=
  let t := (slIssued s n 3).addWork .daten
  let q := t.slq n
  t.setSlq n { q with reqQ := q.reqQ.erase h, rot := (s.holdE h).port }

theorem slq_reqPicked (s : State) (n h : Nat) : (reqPicked s n h).slq n = queueTook s n h := by
  have hiss : ((slIssued s n 3).addWork .daten).slq n = (slIssued s n 3).slq n := rfl
  unfold reqPicked
  rw [slq_setSlq, hiss]
  unfold slIssued
  rw [slq_setSlq]
  cases hm : mntElig s n <;> simp [queueTook, hm]

theorem issued_reqPicked (s : State) (n h : Nat) : Issued n s (reqPicked s n h) := by
  have hwork : Issued n (slIssued s n 3) ((slIssued s n 3).addWork .daten) := ⟨rfl, fun _ _ => rfl, fun _ _ => rfl⟩
  exact ((issued_setSlq s n _).trans hwork).trans (issued_setSlq _ n _)

/-- Where no entry is free, the guard of a reserved line's head starts afresh (R114, R116). -/
def guardFresh (t : State) (n line : Nat) : State :=
  if isReserved t n line then
    t.setSlq n { t.slq n with reserved := (t.slq n).reserved.map (fun e => if e.1 = line then (line, 0) else e) } else t

/-- The conflict check of the request in hold slot `h`, once the slice has taken it, in the order of its tests (R73, R102, R109, R111). -/
def reqChecked (s : State) (n h : Nat) (v : HoldSlot) : State :=
  let line := v.hdr.pa.toNat
  let head := cqHead s n line
  if modeRefuses s line then refuseReq s n h .mode false 0
  else if isReserved s n line ∧ head.map (·.hold) ≠ some h then refuseReq s n h (.rsv line) true 4
  else match blocker s line false none with
    | some b => refuseReq s n h b true 3
    | none =>
      match allocEntry s n 0 with
      | none => refuseReq (guardFresh s n line) n h (.pool n) false 4
      | some e =>
        let k := reqLook s line v.typ v.hdr.agent.toNat
        match (if k.2.2.2.1.isNone && widens k.2.2.1 k.2.1 then blocker k.1 line true none else none) with
        | some b => refuseReq k.1 n h b true 3
        | none => reqAccepted k.1 n h e v (head.map (·.hold) = some h) k.2.1 k.2.2.1 k.2.2.2.1 k.2.2.2.2

theorem sliceReqIssue_eq {s : State} {n h : Nat} (helig : reqElig s n = true) (hmay : mayIssue s n 3 = true)
    (hpick : pickReq s n = some h) : sliceReqIssue s n = reqChecked (reqPicked s n h) n h (s.holdE h) := by
  unfold sliceReqIssue
  rw [if_neg (by simp [helig, hmay]), hpick]
  dsimp only
  have ht : reqPicked s n h = State.setSlq _ n _ := rfl
  rw [← ht]
  generalize s.holdE h = v
  generalize reqPicked s n h = t
  unfold reqChecked
  dsimp only
  refine if_congr Iff.rfl rfl ?_
  refine if_congr Iff.rfl rfl ?_
  cases blocker t v.hdr.pa.toNat false none with
  | some b => rfl
  | none =>
    cases allocEntry t n 0 with
    | none => rfl
    | some e =>
      unfold reqLook
      dsimp +instances only
      generalize readLine t v.hdr.pa.toNat = r
      generalize decideMsg r.1 v.hdr.pa.toNat v.typ v.hdr.agent.toNat r.2 = d
      generalize planCoarse d.1 v.hdr.pa.toNat v.hdr.agent.toNat d.2.1 r.2 = c
      cases (if (d.2.2.isNone && widens d.2.1 r.2) = true then blocker c.1 v.hdr.pa.toNat true none else none) with
      | some b => rfl
      | none => rfl

section
variable {t : State} {n h : Nat} {v : HoldSlot} (hmode : modeRefuses t v.hdr.pa.toNat = false)
  (hfree : isReserved t n v.hdr.pa.toNat = false ∨ (cqHead t n v.hdr.pa.toNat).map (·.hold) = some h)
include hmode hfree

theorem reqChecked_blocked {b : HoldWait} (hb : blocker t v.hdr.pa.toNat false none = some b) :
    reqChecked t n h v = refuseReq t n h b true 3 := by
  have hr : ¬ (isReserved t n v.hdr.pa.toNat = true ∧ (cqHead t n v.hdr.pa.toNat).map (·.hold) ≠ some h) :=
    fun ⟨hres, hmine⟩ => hfree.elim (fun hno => Bool.eq_false_iff.1 hno hres) hmine
  unfold reqChecked
  dsimp only
  rw [if_neg (Bool.eq_false_iff.1 hmode), if_neg hr, hb]

theorem reqChecked_full (hb : blocker t v.hdr.pa.toNat false none = none) (ha : allocEntry t n 0 = none) :
    reqChecked t n h v = refuseReq (guardFresh t n v.hdr.pa.toNat) n h (.pool n) false 4 := by
  have hr : ¬ (isReserved t n v.hdr.pa.toNat = true ∧ (cqHead t n v.hdr.pa.toNat).map (·.hold) ≠ some h) :=
    fun ⟨hres, hmine⟩ => hfree.elim (fun hno => Bool.eq_false_iff.1 hno hres) hmine
  unfold reqChecked
  dsimp only
  rw [if_neg (Bool.eq_false_iff.1 hmode), if_neg hr, hb, ha]

/-- With an entry free, the look at the line may widen the request's scope to its sector. -/
theorem reqChecked_entry {e : Nat} (hb : blocker t v.hdr.pa.toNat false none = none) (ha : allocEntry t n 0 = some e) :
    let k := reqLook t v.hdr.pa.toNat v.typ v.hdr.agent.toNat
    (∃ b, blocker k.1 v.hdr.pa.toNat true none = some b ∧ reqChecked t n h v = refuseReq k.1 n h b true 3) ∨
    reqChecked t n h v = reqAccepted k.1 n h e v ((cqHead t n v.hdr.pa.toNat).map (·.hold) = some h) k.2.1 k.2.2.1 k.2.2.2.1 k.2.2.2.2 := by
  have hr : ¬ (isReserved t n v.hdr.pa.toNat = true ∧ (cqHead t n v.hdr.pa.toNat).map (·.hold) ≠ some h) :=
    fun ⟨hres, hmine⟩ => hfree.elim (fun hno => Bool.eq_false_iff.1 hno hres) hmine
  unfold reqChecked
  dsimp only
  rw [if_neg (Bool.eq_false_iff.1 hmode), if_neg hr, hb, ha]
  generalize reqLook t v.hdr.pa.toNat v.typ v.hdr.agent.toNat = k
  dsimp only
  cases hwide : (k.2.2.2.1.isNone && widens k.2.2.1 k.2.1) with
  | false => exact .inr rfl
  | true =>
    rw [if_pos rfl]
    cases hsec : blocker k.1 v.hdr.pa.toNat true none with
    | some b => exact .inl ⟨b, rfl, rfl⟩
    | none => exact .inr rfl

end

/-- Taking a request changes nothing that its conflict check reads. -/
theorem reqPicked_reads (s : State) (n h line : Nat) :
    (∀ sector self, blocker (reqPicked s n h) line sector self = blocker s line sector self) ∧
    allocEntry (reqPicked s n h) n 0 = allocEntry s n 0 ∧ isReserved (reqPicked s n h) n line = isReserved s n line ∧
    cqHead (reqPicked s n h) n line = cqHead s n line ∧ modeRefuses (reqPicked s n h) line = modeRefuses s line := by
  have hev : ∀ m, ((reqPicked s n h).slq m).evQ = (s.slq m).evQ := fun m => by
    by_cases hm : m = n
    · rw [hm, slq_reqPicked]
      rfl
    · rw [(issued_reqPicked s n h).2.1 m hm]
  have hrest : reqPicked s n h = { s with sl := (reqPicked s n h).sl, work := s.work ++ [.daten] } := rfl
  have hsl : (reqPicked s n h).sl.trk = s.sl.trk ∧ (reqPicked s n h).sl.sinks = s.sl.sinks := ⟨rfl, rfl⟩
  generalize hp : reqPicked s n h = t at *
  have hword : ∀ d w, drawerW t d w = drawerW s d w := fun d w => by rw [hrest]; rfl
  have hused : usedEntries t n = usedEntries s n := by
    unfold usedEntries
    rw [hsl.1, hrest]
  refine ⟨blocker_congr hsl.1 hsl.2 hev hword line, ?_, ?_, ?_, ?_⟩ <;> subst hp
  · change lowestFree _ 464 16 = lowestFree _ 464 16
    rw [hused]
  · unfold isReserved
    rw [slq_reqPicked]
    rfl
  · unfold cqHead
    rw [slq_reqPicked]
    rfl
  · rw [hrest]
    rfl

/-! ### The outcomes -/

/-- Between the taking of a request and its outcome: slice `n`'s reservations are `rsv`, and its stream detector may have moved. -/
def Midway (n : Nat) (t x : State) (rsv : List (Nat × Nat)) : Prop :=
  Issued n t x ∧ x.sl.trk = t.sl.trk ∧ x.work = t.work ∧ x.port = t.port ∧
  x.slq n = { t.slq n with reserved := rsv, streams := (x.slq n).streams }

theorem midway_self (n : Nat) (t : State) : Midway n t t (t.slq n).reserved := ⟨Issued.refl n t, rfl, rfl, rfl, rfl⟩

theorem Looked.midway {n : Nat} {t x : State} (h : Looked n t x) : Midway n t x (t.slq n).reserved := by
  refine ⟨h.issued, ?_, ?_, ?_, h.2.2.2⟩ <;> rw [h.1]

theorem midway_guardFresh (t : State) (n line : Nat) :
    Midway n t (guardFresh t n line) ((t.slq n).reserved.map (fun e => if e.1 = line then (line, 0) else e)) := by
  unfold guardFresh
  split
  · refine ⟨issued_setSlq t n _, rfl, rfl, rfl, ?_⟩
    rw [slq_setSlq]
  · next hfree =>
    have hsame : (t.slq n).reserved.map (fun e => if e.1 = line then (line, 0) else e) = (t.slq n).reserved := by
      refine (List.map_congr_left fun e he => if_neg fun heq => hfree ?_).trans (List.map_id' _)
      exact List.any_eq_true.2 ⟨e, he, by simpa using heq⟩
    rw [hsame]
    exact midway_self n t

/-- The request of hold slot `h` has been taken and refused (R73). -/
def RefusedOf (s : State) (n h : Nat) (on : HoldWait) (rsv : Bool) (reserved : List (Nat × Nat)) (u : State) : Prop :=
  Issued n (freshOut s) u ∧ u.sl.trk = s.sl.trk ∧ u.work = s.work ++ [.daten] ∧
  u.notices (n / 8) = s.notices (n / 8) ++ [.refuse h on] ∧
  u.slq n = { queueTook s n h with reserved := reserved, streams := (u.slq n).streams, cq := refusedCq s n h rsv }

section
variable {s x : State} {n h : Nat} {reserved : List (Nat × Nat)} (hmid : Midway n (reqPicked (freshOut s) n h) x reserved)
include hmid

theorem refusedOf_refuseReq (on : HoldWait) (rsv : Bool) (ev : Nat) :
    RefusedOf s n h on rsv reserved (refuseReq x n h on rsv ev) ∧
    ((refuseReq x n h on rsv ev).slq n).streams = (x.slq n).streams ∧
    (refuseReq x n h on rsv ev).fault = x.fault ∧ (refuseReq x n h on rsv ev).cab = x.cab := by
  obtain ⟨hiss, htrk, hwork, hport, hslq⟩ := hmid
  obtain ⟨uiss, utrk, uwork, ufault, ucab, unot, uslq⟩ := refuseReq_spec (n := n) x h on rsv ev
  have hpick := issued_reqPicked (freshOut s) n h
  have hcq : refusedCq x n h rsv = refusedCq s n h rsv := by
    have hhold : x.holdE h = s.holdE h := by rw [State.holdE, hport]; rfl
    have hnow : x.now = s.now := by rw [hiss.1]; rfl
    have hcqs : (x.slq n).cq = (s.slq n).cq := by rw [hslq, slq_reqPicked]; rfl
    rw [refusedCq, refusedCq, hhold, hnow, hcqs]
  have hnot : x.notices (n / 8) = s.notices (n / 8) := by rw [State.notices, hport]; rfl
  have hstreams : ((refuseReq x n h on rsv ev).slq n).streams = (x.slq n).streams := by rw [uslq]
  refine ⟨⟨(hpick.trans hiss).trans uiss, utrk.trans htrk, uwork.trans hwork, hnot ▸ unot, ?_⟩, hstreams, ufault, ucab⟩
  rw [hstreams, uslq, hcq, hslq, slq_reqPicked]
  rfl

end

/-- The request of hold slot `h` has been taken and its entry allocated (R102, R110, R115). -/
def AcceptedAt (s : State) (n h e : Nat) (u : State) : Prop :=
  Issued n (freshOut s) u ∧ EntryOf (u.trkE (n * 512 + e)) (s.holdE h) h (s.fld Fld.RB_STATUS_ACTIVE) ∧
  (∀ k, k ≠ n * 512 + e → u.trkE k = s.trkE k) ∧ u.work = s.work ++ [.daten, .trk (n * 512 + e)] ∧
  u.notices (n / 8) = s.notices (n / 8) ++ [.accept (n * 512 + e) h (s.fld Fld.RB_STATUS_ACTIVE)] ∧
  ((cqHead s n (s.holdE h).hdr.pa.toNat).map (·.hold) = some h →
    u.slq n = { queueLeft (queueTook s n h) h (s.holdE h).hdr.pa.toNat with streams := (u.slq n).streams }) ∧
  ((cqHead s n (s.holdE h).hdr.pa.toNat).map (·.hold) ≠ some h →
    u.slq n = { queueTook s n h with streams := (u.slq n).streams })

theorem acceptedAt_reqAccepted {s x : State} {n h : Nat} (hn : n < 128) (hlook : Looked n (reqPicked (freshOut s) n h) x) (e : Nat)
    (mine : Prop) [Decidable mine] (hmine : mine ↔ (cqHead s n (s.holdE h).hdr.pa.toNat).map (·.hold) = some h)
    (f : Found) (d : Dec) (unk : Option Bool) (coarse : Bool) :
    AcceptedAt s n h e (reqAccepted x n h e (s.holdE h) mine f d unk coarse) := by
  obtain ⟨uiss, uentry, uother, uwork, unot, uslq⟩ := reqAccepted_spec hn x h e (s.holdE h) mine f d unk coarse
  have hpick := issued_reqPicked (freshOut s) n h
  have hep : activeEpoch x = s.fld Fld.RB_STATUS_ACTIVE := hlook.fld (f := Fld.RB_STATUS_ACTIVE) (i := 0) (j := 0) (.inl rfl)
  have hq : x.slq n = { queueTook s n h with streams := (x.slq n).streams } := by
    have hx := hlook.2.2.2
    rwa [slq_reqPicked] at hx
  obtain ⟨hiss, htrk, hwork, hport, -⟩ := hlook.midway
  have hnot : x.notices (n / 8) = s.notices (n / 8) := by rw [State.notices, hport]; rfl
  rw [hep] at uentry unot
  refine ⟨(hpick.trans hiss).trans uiss, uentry, fun k hk => (uother k hk).trans ?_, ?_, hnot ▸ unot, fun hm => ?_, fun hm => ?_⟩
  · rw [State.trkE, htrk]
    rfl
  · rw [uwork, hwork]
    exact List.append_assoc s.work [.daten] [.trk (n * 512 + e)]
  · rw [if_pos (hmine.2 hm), hq] at uslq
    rw [uslq]
    rfl
  · rw [if_neg (mt hmine.1 hm), hq] at uslq
    rw [uslq]

end Sys2Proof.Machine

namespace Sys2Proof.Machine

/-! ### The conflict check as a command -/

section
variable {s : State} {n : BitVec 7} {h : Nat} (hdft : s.dft = false)
include hdft

/-- A slice that may not issue a request does nothing. -/
theorem completes_sliceReqIssue_idle (hno : reqElig s n.toNat = false ∨ mayIssue s n.toNat 3 = false) :
    Completes (.sliceReqIssue n) s (fun u => u = Begun s) := by
  refine completes_run (fun s => sliceReqIssue s n.toNat) rfl hdft ?_
  have hno' : (! reqElig (freshOut s) n.toNat) = true ∨ (! mayIssue (freshOut s) n.toNat 3) = true := by
    rw [Bool.not_eq_true', Bool.not_eq_true']
    exact hno
  exact if_pos hno'

variable (helig : reqElig s n.toNat = true) (hmay : mayIssue s n.toNat 3 = true) (hpick : pickReq s n.toNat = some h)
include helig hmay hpick

theorem completes_sliceReqIssue {P : State → Prop}
    (hP : P (reqChecked (reqPicked (freshOut s) n.toNat h) n.toNat h (s.holdE h))) : Completes (.sliceReqIssue n) s P := by
  refine completes_run (fun s => sliceReqIssue s n.toNat) rfl hdft ?_
  rw [sliceReqIssue_eq (s := freshOut s) helig hmay hpick]
  exact hP

/-- What a refusal without a look at the line leaves besides. -/
def RefusedPlain (s : State) (n h : Nat) (on : HoldWait) (rsv : Bool) (u : State) : Prop :=
  RefusedOf s n h on rsv (s.slq n).reserved u ∧ (u.slq n).streams = (s.slq n).streams ∧ u.fault = s.fault ∧ u.cab = s.cab

omit hdft helig hmay hpick in
theorem refusedPlain_refuseReq (s : State) (n h : Nat) (on : HoldWait) (rsv : Bool) (ev : Nat) :
    RefusedPlain s n h on rsv (refuseReq (reqPicked (freshOut s) n h) n h on rsv ev) := by
  obtain ⟨href, hstreams, hfault, hcab⟩ := refusedOf_refuseReq (s := s) (midway_self n (reqPicked (freshOut s) n h)) on rsv ev
  rw [slq_reqPicked] at href hstreams
  exact ⟨href, hstreams, hfault, hcab⟩

theorem completes_modeRefuses (hmode : modeRefuses s (s.holdE h).hdr.pa.toNat = true) :
    Completes (.sliceReqIssue n) s (RefusedPlain s n.toNat h .mode false) := by
  refine completes_sliceReqIssue hdft helig hmay hpick ?_
  obtain ⟨-, -, -, -, hm⟩ := reqPicked_reads (freshOut s) n.toNat h (s.holdE h).hdr.pa.toNat
  unfold reqChecked
  dsimp only
  rw [if_pos (hm.trans hmode)]
  exact refusedPlain_refuseReq s n.toNat h .mode false 0

variable (hmode : modeRefuses s (s.holdE h).hdr.pa.toNat = false)
include hmode

theorem completes_reserved (hrsv : isReserved s n.toNat (s.holdE h).hdr.pa.toNat = true)
    (hmine : ¬ (cqHead s n.toNat (s.holdE h).hdr.pa.toNat).map (·.hold) = some h) :
    Completes (.sliceReqIssue n) s (RefusedPlain s n.toNat h (.rsv (s.holdE h).hdr.pa.toNat) true) := by
  refine completes_sliceReqIssue hdft helig hmay hpick ?_
  obtain ⟨-, -, hr, hc, hm⟩ := reqPicked_reads (freshOut s) n.toNat h (s.holdE h).hdr.pa.toNat
  have hm' : ¬ modeRefuses (reqPicked (freshOut s) n.toNat h) (s.holdE h).hdr.pa.toNat = true := by
    rw [hm]
    exact Bool.eq_false_iff.1 hmode
  unfold reqChecked
  dsimp only
  rw [if_neg hm', if_pos ⟨hr.trans hrsv, by rw [hc]; exact hmine⟩]
  exact refusedPlain_refuseReq s n.toNat h _ true 4

variable (hfree : isReserved s n.toNat (s.holdE h).hdr.pa.toNat = false ∨
  (cqHead s n.toNat (s.holdE h).hdr.pa.toNat).map (·.hold) = some h)
include hfree

/-- The line is free of reservations of others: what is left is the conflict check of its scope. -/
theorem completes_unreserved {P : State → Prop}
    (hP : (modeRefuses (reqPicked (freshOut s) n.toNat h) (s.holdE h).hdr.pa.toNat = false) →
      (isReserved (reqPicked (freshOut s) n.toNat h) n.toNat (s.holdE h).hdr.pa.toNat = false ∨
        (cqHead (reqPicked (freshOut s) n.toNat h) n.toNat (s.holdE h).hdr.pa.toNat).map (·.hold) = some h) →
      P (reqChecked (reqPicked (freshOut s) n.toNat h) n.toNat h (s.holdE h))) : Completes (.sliceReqIssue n) s P := by
  obtain ⟨-, -, hr, hc, hm⟩ := reqPicked_reads (freshOut s) n.toNat h (s.holdE h).hdr.pa.toNat
  refine completes_sliceReqIssue hdft helig hmay hpick (hP (hm.trans hmode) ?_)
  rw [hr, hc]
  exact hfree

theorem completes_blocked {b : HoldWait} (hb : blocker s (s.holdE h).hdr.pa.toNat false none = some b) :
    Completes (.sliceReqIssue n) s (RefusedPlain s n.toNat h b true) := by
  refine completes_unreserved hdft helig hmay hpick hmode hfree fun hm hf => ?_
  have hb' := (reqPicked_reads (freshOut s) n.toNat h (s.holdE h).hdr.pa.toNat).1 false none
  rw [reqChecked_blocked hm hf (hb'.trans hb)]
  exact refusedPlain_refuseReq s n.toNat h b true 3

variable (hb : blocker s (s.holdE h).hdr.pa.toNat false none = none)
include hb

theorem completes_full (hfull : allocEntry s n.toNat 0 = none) :
    Completes (.sliceReqIssue n) s (fun u => u.fault = s.fault ∧ u.cab = s.cab ∧ RefusedOf s n.toNat h (.pool n.toNat) false
      ((s.slq n.toNat).reserved.map (fun x => if x.1 = (s.holdE h).hdr.pa.toNat then ((s.holdE h).hdr.pa.toNat, 0) else x)) u) := by
  refine completes_unreserved hdft helig hmay hpick hmode hfree fun hm hf => ?_
  obtain ⟨hb', ha', -⟩ := reqPicked_reads (freshOut s) n.toNat h (s.holdE h).hdr.pa.toNat
  rw [reqChecked_full hm hf ((hb' false none).trans hb) (ha'.trans hfull)]
  have hmid := midway_guardFresh (reqPicked (freshOut s) n.toNat h) n.toNat (s.holdE h).hdr.pa.toNat
  obtain ⟨href, -, hfault, hcab⟩ := refusedOf_refuseReq (s := s) hmid (.pool n.toNat) false 4
  have hguard : ∀ t : State, (guardFresh t n.toNat (s.holdE h).hdr.pa.toNat).fault = t.fault ∧
      (guardFresh t n.toNat (s.holdE h).hdr.pa.toNat).cab = t.cab := fun t => by
    unfold guardFresh
    split <;> exact ⟨rfl, rfl⟩
  rw [slq_reqPicked] at href
  exact ⟨hfault.trans (hguard _).1, hcab.trans (hguard _).2, href⟩

/-- With an entry free, the look at the line decides the scope of the conflict check. -/
theorem completes_entry {e : Nat} (halloc : allocEntry s n.toNat 0 = some e) (hline : sliceOf (s.holdE h).hdr.pa.toNat = n.toNat)
    (hmask : s.integ.mask = []) :
    Completes (.sliceReqIssue n) s (fun u => AcceptedAt s n.toNat h e u ∨
      ∃ b, blocker s (s.holdE h).hdr.pa.toNat true none = some b ∧ RefusedOf s n.toNat h b true (s.slq n.toNat).reserved u) := by
  refine completes_unreserved hdft helig hmay hpick hmode hfree fun hm hf => ?_
  obtain ⟨hb', ha', -, hc, -⟩ := reqPicked_reads (freshOut s) n.toNat h (s.holdE h).hdr.pa.toNat
  have hlt : sliceOf (s.holdE h).hdr.pa.toNat < 128 := hline ▸ n.isLt
  have hlook := looked_reqLook (s := reqPicked (freshOut s) n.toNat h) hlt hmask (s.holdE h).typ (s.holdE h).hdr.agent.toNat
  rw [hline] at hlook
  have hscope := (hlook.blocker (s.holdE h).hdr.pa.toNat true none).trans (hb' true none)
  rcases reqChecked_entry hm hf ((hb' false none).trans hb) (ha'.trans halloc) with ⟨b, hwide, heq⟩ | heq
  · refine .inr ⟨b, hscope.symm.trans hwide, ?_⟩
    rw [heq]
    have href := (refusedOf_refuseReq (s := s) hlook.midway b true 3).1
    rwa [slq_reqPicked] at href
  · refine .inl ?_
    rw [heq]
    exact acceptedAt_reqAccepted n.isLt hlook e _ (by rw [hc]; rfl) _ _ _ _

end

/-- The frame of an issue, part by part. -/
theorem Issued.frame {n : Nat} {s u : State} (h : Issued n (freshOut s) u) :
    (u = { Begun s with
      port := u.port, sl := u.sl, regs := u.regs, cab := u.cab, fault := u.fault, integ := u.integ, frzReq := u.frzReq, work := u.work } ∧
      u.port = { s.port with notices := u.port.notices } ∧ u.cab.words = s.cab.words ∧ u.cab.spare = s.cab.spare ∧
      (∀ m, m ≠ n → u.slq m = s.slq m) ∧ u.sl.sinks = s.sl.sinks ∧ ∀ c, c ≠ n / 8 → u.notices c = s.notices c) := by
  obtain ⟨hs, hq, hn⟩ := h
  refine ⟨?_, ?_, ?_, ?_, hq, ?_, hn⟩ <;> rw [hs] <;> rfl

/-- Settles O29: the request is taken, then checked test by test; a look at its line changes nothing that the check reads. -/
theorem sliceIssue : Obligations.SliceIssue := by
  unfold Obligations.SliceIssue
  intro n s hdft hawake hintact hloaded hadopt
  refine ⟨fun hno => completes_sliceReqIssue_idle hdft hno, fun h helig hmay hpick => ?_⟩
  intro v line q head mine frame took refusedOf refused accepted hline
  have plain : ∀ on rsv u, RefusedPlain s n.toNat h on rsv u → refused on rsv u :=
    fun on rsv u ⟨⟨hiss, htrk, hwork, hnot, hslq⟩, hstreams, hfault, hcab⟩ =>
      ⟨⟨hiss.frame, htrk, hwork, hnot, hslq⟩, hstreams, hfault, hcab⟩
  have accept : ∀ e u, AcceptedAt s n.toNat h e u → accepted e u := by
    rintro e u ⟨hiss, ⟨h1, h2, h3, h4, h5, h6, h7, h8, h9, h10, h11, h12⟩, hother, hwork, hnot, hmine, hnone⟩
    refine ⟨hiss.frame, h1, h2, h3, h4, h5, h6, h7, h8, h9, h10, h11, h12, hother, hwork, hnot, ?_⟩
    by_cases hm : mine
    · rw [if_pos hm]
      exact hmine hm
    · rw [if_neg hm]
      exact hnone hm
  refine ⟨fun hmode => ?_, fun hmode hrsv hmine => ?_, fun hmode hfree => ⟨fun b hb => ?_, fun hb hfull => ?_,
    fun e hb hwide halloc => ?_, fun e b hb hwide halloc => ?_⟩⟩
  · exact (completes_modeRefuses hdft helig hmay hpick hmode).mono (plain _ _)
  · exact (completes_reserved hdft helig hmay hpick hmode hrsv hmine).mono (plain _ _)
  · exact (completes_blocked hdft helig hmay hpick hmode hfree hb).mono (plain _ _)
  · exact (completes_full hdft helig hmay hpick hmode hfree hb hfull).mono
      fun u ⟨hfault, hcab, hiss, htrk, hwork, hnot, hslq⟩ => ⟨hfault, hcab, hiss.frame, htrk, hwork, hnot, hslq⟩
  · refine (completes_entry hdft helig hmay hpick hmode hfree hb halloc hline hintact.1).mono fun u hu => ?_
    rcases hu with hacc | ⟨b, hb', -⟩
    · exact accept e u hacc
    · cases hwide.symm.trans hb'
  · refine (completes_entry hdft helig hmay hpick hmode hfree hb halloc hline hintact.1).mono fun u hu => ?_
    rcases hu with hacc | ⟨b', hb', hiss, htrk, hwork, hnot, hslq⟩
    · exact .inl (accept e u hacc)
    · cases hwide.symm.trans hb'
      exact .inr ⟨hiss.frame, htrk, hwork, hnot, hslq⟩

end Sys2Proof.Machine

namespace Sys2Proof.Machine

/-! The statement about probes and heartbeats fails while the parison image's programs are not up (R214, R307, R447). -/

/-- Nothing that goes on by itself can begin: no work, no walk, no command, no start, no thread, no Drawer in need, and the
image's programs are not up. -/
def Idle (s : State) : Prop :=
  s.work = [] ∧ s.frzReq = 0 ∧ s.sl.banks.swap = none ∧ s.sl.sl = [] ∧ s.stw.thr = [] ∧ s.mem.bulk = [] ∧ s.walks = [] ∧
  s.mode ≠ 5 ∧ s.cab.dr = [] ∧ s.cmd = none ∧ s.start.run = none ∧ progsUp s = false

section
variable {s : State} (h : Idle s)
include h

theorem settle_of_idle : settle s = s := by
  obtain ⟨hwork, -⟩ := h
  have hnone : ∀ n, settleN n s = s := fun n => by
    cases n with
    | zero => rfl
    | succ n => rw [settleN, hwork]
  exact hnone _

theorem agentPoll_of_idle : agentPoll s = s := by
  obtain ⟨-, -, -, -, -, -, -, -, -, hcmd, -, hprogs⟩ := h
  have hno : ∀ code, cmdIs s code = none := fun code => by rw [cmdIs, hcmd]
  have hdown : (! progsUp s) = true := by rw [hprogs]; rfl
  have hbind : bindPoll s = s := by rw [bindPoll, hno]
  have hrelease : releasePoll s = s := by rw [releasePoll, hno]
  have hprobe : probePoll s = s := by rw [probePoll, hno]
  have hdead : deadPoll s = s := if_pos hdown
  have hlive : livenessPoll s = s := if_pos hdown
  have hreclaim : reclaimPoll 64 s = s := if_pos hdown
  rw [agentPoll, hbind, hrelease, hprobe, hdead, hlive, hreclaim]

theorem cmdPoll_of_idle : cmdPoll s = s := by
  obtain ⟨-, -, -, -, -, -, -, -, -, hcmd, -, hprogs⟩ := h
  have hno : ∀ code, cmdIs s code = none := fun code => by rw [cmdIs, hcmd]
  have hload : rbLoadPoll s = s := by rw [rbLoadPoll, hno]
  have hswap : rbSwapPoll s = s := by rw [rbSwapPoll, hno]
  have hledger : ledgerLoadPoll s = s := by rw [ledgerLoadPoll, hno]
  have hhost : hostPoll s = s := if_pos (by rw [hprogs]; rfl)
  rw [cmdPoll, hload, hload, hload, hswap, hledger, hledger, hhost]

theorem sweepPoll_of_idle : sweepPoll s = s := by
  obtain ⟨-, -, -, hsl, -, -, hwalks, -⟩ := h
  have hsettle : settleWalk s = s := by rw [settleWalk, hwalks]; rfl
  have hdrain : drainSettle s = s := by rw [drainSettle, hsl]; rfl
  have hsweep : (s.walks.filter isSweep).foldl sweepStep s = s := by rw [hwalks]; rfl
  rw [sweepPoll, hsettle, hdrain]
  simp only [hsweep]

theorem polls_of_idle : polls s = s := by
  have hagent := agentPoll_of_idle h
  have hcmds := cmdPoll_of_idle h
  have hsweep := sweepPoll_of_idle h
  obtain ⟨-, hfrz, hswap, -, hthr, hbulk, -, hmode, hdr, -, hrun, hprogs⟩ := h
  have hfreeze : freezePoll s = s := if_pos hfrz
  have hswapPoll : swapPoll s = s := by rw [swapPoll, hswap]
  have hstw : stwPoll s = s := by rw [stwPoll, hthr]; rfl
  have hpoke : ∀ r, bulkPoke s r = s := fun r => by
    have hb : s.bulkE r = bulk0 := by rw [State.bulkE, hbulk]; rfl
    rw [bulkPoke, hb]
    rfl
  have hpokes : (List.range 4).foldl bulkPoke s = s := by
    refine List.foldlRecOn (motive := fun t => t = s) _ _ rfl fun t ht r _ => ?_
    rw [ht, hpoke]
  have hdrain : drainPoll s = s := if_neg fun hand => hmode hand.1
  have hcensus : censusPoll s = s := if_pos (.inl (by rw [hprogs]; rfl))
  have hretire : retirePoll s = s := by rw [retirePoll, hdr]; rfl
  have hstart : startPoll s = s := by rw [startPoll, startRunOn, hrun]
  rw [polls, hfreeze, hswapPoll, hstw, hpokes, hsweep, hdrain, hagent, hcensus, hretire, hcmds, hstart]

/-- Such a state keeps all but its interrupt edges. -/
theorem finish_of_idle : finish s = sampleIrq s := by
  have hrounds : ∀ n, rounds n s = s := fun n => by
    induction n with
    | zero => rfl
    | succ n ih => rw [rounds, polls_of_idle h, settle_of_idle h, ih, ite_self]
  rw [finish, settle_of_idle h, hrounds, ite_self]

end

/-- A confirmation of agent 1 whose probe has been answered, with its deadline at 5 ns, while the boot program has not run:
BOOT_STATUS.CODE is 0. MODE is SERVICE, PORT and CORE
are up, and the rest is as after reset. -/
def unbootedConf : State :=
  { State.reset with
    vaux := true, portUp := true, coreUp := true, regs := [(RegName.MODE.addr 0 0, 4)]
    conf := [(1, some ⟨0, 0, [], true, 5, false, false, 0⟩)] }

theorem unbootedConf_intact : Intact unbootedConf := by
  have hcluster : ∀ c, c < 16 → ∀ x, x < 5 → unbootedConf.fld Fld.CL_INJ_ARM c x = 0 := by decide +kernel
  exact ⟨rfl, rfl, by decide +kernel, fun c x hc hx => hcluster c hc x hx, by decide +kernel, by decide +kernel, by decide +kernel⟩

theorem unbootedConf_idle : Idle (freshOut unbootedConf) :=
  ⟨rfl, rfl, rfl, rfl, rfl, rfl, rfl, by decide +kernel, rfl, rfl, rfl, by decide +kernel⟩

/-- Refutes O19: the second part asks that an answered probe ends the confirmation at its deadline whether or not the image's
programs are up, but without them nothing runs a confirmation (R307, R447). In `unbootedConf` the command leaves the time at 0,
while the statement has it at 5 ns. -/
theorem not_agentLiveness : ¬ Obligations.AgentLiveness := by
  unfold Obligations.AgentLiveness
  intro h
  obtain ⟨-, hconf, -⟩ := h unbootedConf rfl ⟨rfl, rfl, rfl, by decide +kernel⟩ unbootedConf_intact
  obtain ⟨hanswered, -⟩ := hconf 1 ⟨0, 0, [], true, 5, false, false, 0⟩ rfl rfl (by decide) nofun
  obtain ⟨u, hexec, ⟨hu, -, -⟩, hsl, -, -⟩ := hanswered rfl (by decide +kernel)
  have hrun : exec (.probeTimeout 1 false) unbootedConf = .next (finish (freshOut unbootedConf)) := by
    have hnone : probeTimeout (freshOut unbootedConf) 1 false = freshOut unbootedConf := by
      have hdown : progsUp (freshOut unbootedConf) = false := by decide +kernel
      rw [probeTimeout, if_neg (by decide), hdown]
      rfl
    have hnext := run_next (fun s => probeTimeout s 1 false) unbootedConf rfl
    rw [← hnone]
    exact hnext
  have hidle : Idle u := by
    rw [hu, hsl]
    exact unbootedConf_idle
  have hfinish : finish (freshOut unbootedConf) = finish u := Host.Outcome.next.inj (hrun.symm.trans hexec)
  rw [finish_of_idle unbootedConf_idle, finish_of_idle hidle] at hfinish
  have hnow : (freshOut unbootedConf).now = u.now := by
    rw [← sampleIrq_now, hfinish, sampleIrq_now]
  rw [hu] at hnow
  change 0 = max 0 5 at hnow
  exact absurd hnow (by decide)

end Sys2Proof.Machine

namespace Sys2Proof.Machine

/-! SUPPORT. What follows a command by itself (`finish`) takes no hold slot: only a request that enters does (R74). Here: the
operations that leave the map of hold slots as it is, in the order of the model. They are rewriting rules of `simp`, so that
a caller's rule follows from those of the operations it is made of. -/

/-! ### Branches, folds and pairs -/

/-- The rule of an operation that branches is that of its branches. -/
@[simp] theorem ite_hold (c : Prop) [Decidable c] (s u : State) :
    (if c then s else u).port.hold = if c then s.port.hold else u.port.hold := apply_ite (·.port.hold) c s u

@[simp] theorem ite_fst_hold {α : Type} (c : Prop) [Decidable c] (s u : State × α) :
    (if c then s else u).1.port.hold = if c then s.1.port.hold else u.1.port.hold := apply_ite (·.1.port.hold) c s u

@[simp] theorem foldl_hold {α : Type} (f : State → α → State) (h : ∀ u x, (f u x).port.hold = u.port.hold) (l : List α)
    (s : State) : (l.foldl f s).port.hold = s.port.hold :=
  List.foldlRecOn (motive := fun u => u.port.hold = s.port.hold) l f rfl fun u ih x _ => (h u x).trans ih

/-- The state that a match on a pair names. -/
theorem hold_of_eq {α : Type} {p : State × α} {u : State} {v : α} {l : SMap HoldSlot} (h : p = (u, v))
    (hp : p.1.port.hold = l) : u.port.hold = l := by
  rw [← hp, h]

theorem foldl_fst_hold {α β : Type} (f : State × α → β → State × α) (h : ∀ p x, (f p x).1.port.hold = p.1.port.hold)
    (l : List β) (p : State × α) : (l.foldl f p).1.port.hold = p.1.port.hold :=
  List.foldlRecOn (motive := fun q => q.1.port.hold = p.1.port.hold) l f rfl fun q ih x _ => (h q x).trans ih

/-- `setFld_port` holds by unfolding, which the kernel would then do over a whole chain of writes. This rule does not. -/
theorem setFld_hold (s : State) (f : Fld) (v i j : ℕ) : (s.setFld f v i j).port.hold = s.port.hold := by
  rw [setFld_port]

theorem setReg_hold (s : State) (r : RegName) (v : BitVec 64) (i j : ℕ) : (s.setReg r v i j).port.hold = s.port.hold := by
  rw [setReg_port]

/-! ### The registers -/

@[simp] theorem resetRegs_hold (s : State) (p : Dom → Bool) : (s.resetRegs p).port.hold = s.port.hold := by rfl

/-! ### The stores of words and the reports -/

@[simp] theorem takeFree_hold (s : State) : s.takeFree.2.port.hold = s.port.hold := by rfl
@[simp] theorem setFport_hold (s : State) (p : ℕ) (f : FPort) : (s.setFport p f).port.hold = s.port.hold := by rfl
@[simp] theorem setDatE_hold (s : State) (p e : ℕ) (d : DatEntry) : (s.setDatE p e d).port.hold = s.port.hold := by rfl
@[simp] theorem setRecE_hold (s : State) (t : ℕ) (v : AccRec) : (s.setRecE t v).port.hold = s.port.hold := by rfl
@[simp] theorem setFanE_hold (s : State) (t : ℕ) (v : FanRec) : (s.setFanE t v).port.hold = s.port.hold := by rfl

@[simp] theorem setNotices_hold (s : State) (c : ℕ) (l : List Notice) :
    (s.setNotices c l).port.hold = s.port.hold := by rfl

@[simp] theorem notify_hold (s : State) (c : ℕ) (n : Notice) : (s.notify c n).port.hold = s.port.hold := by rfl

@[simp] theorem lcLatch_hold (s : State) (valid ovf injF codeF subjF timeF : Fld) (i code subject : ℕ) (inj : Bool) :
    (lcLatch s valid ovf injF codeF subjF timeF i code subject inj).port.hold = s.port.hold := by simp [lcLatch]

@[simp] theorem lcSlice_hold (s : State) (l code subject : ℕ) (inj : Bool) :
    (lcSlice s l code subject inj).port.hold = s.port.hold := by simp [lcSlice]

@[simp] theorem lcCluster_hold (s : State) (c code subject : ℕ) (inj : Bool) :
    (lcCluster s c code subject inj).port.hold = s.port.hold := by simp [lcCluster]

@[simp] theorem lcRegion_hold (s : State) (r code subject : ℕ) (inj : Bool) :
    (lcRegion s r code subject inj).port.hold = s.port.hold := by simp [lcRegion]

@[simp] theorem lcPass_hold (s : State) (path : FPath) (code subject : ℕ) (inj : Bool) :
    (lcPass s path code subject inj).port.hold = s.port.hold := by
  unfold lcPass
  split <;> simp

/-! ### The LEHR store and the stored words -/

@[simp] theorem setMask_hold (s : State) (st : Store) (unit w m : ℕ) :
    (setMask s st unit w m).port.hold = s.port.hold := by rfl

@[simp] theorem setPq_hold (s : State) (st : Store) (unit page q v : ℕ) :
    (setPq s st unit page q v).port.hold = s.port.hold := by rfl

@[simp] theorem setInj_hold (s : State) (st : Store) (unit w : ℕ) (b : Bool) :
    (setInj s st unit w b).port.hold = s.port.hold := by rfl

@[simp] theorem bucketAdd_hold (s : State) (level ovf : Fld) (i j n : ℕ) :
    (bucketAdd s level ovf i j n).1.port.hold = s.port.hold := by simp [bucketAdd]

@[simp] theorem bucket_hold (s : State) (c : IClass) (n : ℕ) : (bucket s c n).port.hold = s.port.hold := by
  unfold bucket
  split <;> simp

@[simp] theorem pageFresh_hold (s : State) (st : Store) (unit w : ℕ) :
    (pageFresh s st unit w).port.hold = s.port.hold := by rfl

@[simp] theorem wordRead_hold (s : State) (st : Store) (unit w : ℕ) : (wordRead s st unit w).1.port.hold = s.port.hold := by
  unfold wordRead
  (repeat' split) <;> simp

@[simp] theorem lehrWrote_hold (s : State) (ws : List ℕ) : (lehrWrote s ws).port.hold = s.port.hold := by simp [lehrWrote]

@[simp] theorem lehrGood_hold (s : State) (lo n : ℕ) : (lehrGood s lo n).1.port.hold = s.port.hold := by
  unfold lehrGood
  extract_lets ws
  generalize hr : ws.foldl _ _ = r
  have hread : r.1.port.hold = s.port.hold := by
    rw [← hr, foldl_fst_hold _ (fun p w => by simp)]
  dsimp only
  split
  · simp [hread]
  · exact hread

/-! ### Notices and the queues of a slice -/

@[simp] theorem parReady_hold (s : State) (w : BitVec 128) : (parReady s w).port.hold = s.port.hold := by rfl
@[simp] theorem lehrMsg_hold (s : State) (ws : List (BitVec 32)) : (lehrMsg s ws).port.hold = s.port.hold := by rfl
@[simp] theorem cmdDone_hold (s : State) (code val : ℕ) : (cmdDone s code val).port.hold = s.port.hold := by simp [cmdDone]
@[simp] theorem cmdEnd_hold (s : State) (code val : ℕ) : (cmdEnd s code val).port.hold = s.port.hold := by simp [cmdEnd]

/-! ### The maps and the agent table -/

@[simp] theorem shadowAmap_hold (s : State) (e w : ℕ) : (shadowAmap s e w).port.hold = s.port.hold := by simp [shadowAmap]

@[simp] theorem mapWritten_hold (s : State) (home : Bool) (k : ℕ) : (mapWritten s home k).port.hold = s.port.hold := by
  simp [mapWritten]

@[simp] theorem agtWrite_hold (s : State) (a w : ℕ) : (agtWrite s a w).port.hold = s.port.hold := by
  obtain ⟨v, f, h⟩ : ∃ v f, agtWrite s a w = { shadowAgt (wordWritten (s.setAgt a v) .agt 0 a) a v with fault := f } :=
    ⟨_, _, rfl⟩
  rw [h]
  simp

@[simp] theorem agtWriteState_hold (s : State) (a st : ℕ) : (agtWriteState s a st).port.hold = s.port.hold := by
  simp [agtWriteState]

/-! ### The Cabinet -/

@[simp] theorem raiseDrawer_hold (s : State) (d code : ℕ) (inj : Bool) :
    (raiseDrawer s d code inj).port.hold = s.port.hold := by simp [raiseDrawer]

@[simp] theorem blindTick_hold (s : State) : (blindTick s).port.hold = s.port.hold := by rfl

@[simp] theorem makeBlind_hold (s : State) (d k cause : ℕ) : (makeBlind s d k cause).port.hold = s.port.hold := by
  unfold makeBlind
  dsimp only
  (repeat' split) <;> simp

@[simp] theorem lostPage_hold (s : State) (d page : ℕ) (inj : Bool) : (lostPage s d page inj).port.hold = s.port.hold := by
  simp [lostPage]

@[simp] theorem formatError_hold (s : State) (d k : ℕ) : (formatError s d k).port.hold = s.port.hold := by simp [formatError]
@[simp] theorem wrFmtError_hold (s : State) (d k : ℕ) : (wrFmtError s d k).port.hold = s.port.hold := by simp [wrFmtError]
@[simp] theorem markHard_hold (s : State) (d w : ℕ) : (markHard s d w).port.hold = s.port.hold := by simp [markHard]

@[simp] theorem countCorrection_hold (s : State) (d w : ℕ) (rebuilt : Bool) :
    (countCorrection s d w rebuilt).port.hold = s.port.hold := by
  unfold countCorrection
  dsimp only
  (repeat' split) <;> simp

@[simp] theorem noteWritten_hold (s : State) (d w : ℕ) : (noteWritten s d w).port.hold = s.port.hold := by rfl

@[simp] theorem drawerRead_hold (s : State) (d w : ℕ) : (drawerRead s d w).1.port.hold = s.port.hold := by
  unfold drawerRead
  (repeat' split) <;> simp

@[simp] theorem drawerPut_hold (s : State) (d w : ℕ) (v : BitVec 120) : (drawerPut s d w v).port.hold = s.port.hold := by
  unfold drawerPut
  split <;> simp

@[simp] theorem drawerWrite_hold (s : State) (d w : ℕ) (v : BitVec 120) :
    (drawerWrite s d w v).1.port.hold = s.port.hold := by
  unfold drawerWrite
  (repeat' split) <;> simp

@[simp] theorem setReadAll_hold (s : State) (d k : ℕ) : (setReadAll s d k).1.port.hold = s.port.hold := by
  unfold setReadAll
  rw [foldl_fst_hold _ (fun p w => by simp)]

@[simp] theorem setRead_hold (s : State) (d k : ℕ) : (setRead s d k).1.port.hold = s.port.hold := by
  simp [setRead]

@[simp] theorem streamHit_hold (s : State) (d line agent : ℕ) : (streamHit s d line agent).1.port.hold = s.port.hold := by
  simp [streamHit]

@[simp] theorem scrubPageVisit_hold (s : State) (d page : ℕ) : (scrubPageVisit s d page).port.hold = s.port.hold := by
  unfold scrubPageVisit
  generalize hr : (List.range 32).foldl _ _ = r
  have hread : r.1.port.hold = s.port.hold := by
    rw [← hr, foldl_fst_hold _ (fun p w => by split <;> simp)]
  dsimp only
  (repeat' split) <;> simp [hread]

/-! ### The memory ports -/

@[simp] theorem setOp_hold (s : State) (id : ℕ) (o : Option MemOp) : (setOp s id o).port.hold = s.port.hold := by rfl

@[simp] theorem maskWrite_hold (s : State) (line : ℕ) : (maskWrite s line).port.hold = s.port.hold := by
  refine foldl_hold _ (fun t e => ?_) _ _
  dsimp only
  (repeat' split) <;> simp

@[simp] theorem issueOn_hold (s : State) (o : MemOp) : (issueOn s o).1.port.hold = s.port.hold := by
  unfold issueOn
  split
  · rfl
  · dsimp only
    rw [foldl_hold _ (fun t m => by simp)]
    rfl

@[simp] theorem issueMem_hold (s : State) (kind : ℕ) (org : MemOrg) (line : ℕ) (data : Line) (be : BitVec 64) (nt : Bool)
    (reqr : ℕ) : (issueMem s kind org line data be nt reqr).1.port.hold = s.port.hold := by simp [issueMem]

@[simp] theorem transfer_hold (s : State) (m r id : ℕ) (o : MemOp) : (transfer s m r id o).port.hold = s.port.hold := by
  simp [transfer]

@[simp] theorem burstEnd_hold (s : State) (m h keep : ℕ) : (burstEnd s m h keep).port.hold = s.port.hold := by rfl

@[simp] theorem arbOnce_hold (s : State) (m : ℕ) : (arbOnce s m).1.port.hold = s.port.hold := by
  unfold arbOnce
  dsimp only
  (repeat' split) <;> simp

@[simp] theorem arbRun_hold (fuel m : ℕ) (s : State) : (arbRun fuel m s).port.hold = s.port.hold := by
  induction fuel generalizing s with
  | zero => rfl
  | succ fuel ih => simp [arbRun, ih]

/-! ### Fan-out and egress -/

@[simp] theorem egPush_hold (s : State) (p : ℕ) (m : FabMsg) : (egPush s p m).port.hold = s.port.hold := by
  unfold egPush
  split <;> simp

@[simp] theorem leaveTrk_hold (s : State) (tid : ℕ) (isData : Bool) : (leaveTrk s tid isData).port.hold = s.port.hold := by
  simp [leaveTrk]

@[simp] theorem flushStaged_hold (s : State) : (flushStaged s).port.hold = s.port.hold := by
  unfold flushStaged
  dsimp only
  rw [foldl_hold _ (fun t e => by (repeat' split) <;> simp)]

@[simp] theorem stage_hold (s : State) (p : ℕ) (m : FabMsg) : (stage s p m).port.hold = s.port.hold := by simp [stage]

@[simp] theorem fanCheck_hold (s : State) (tid : ℕ) : (fanCheck s tid).port.hold = s.port.hold := by
  unfold fanCheck
  split <;> simp

@[simp] theorem noteProbe_hold (s : State) (tid a : ℕ) : (noteProbe s tid a).port.hold = s.port.hold := by
  unfold noteProbe
  split <;> simp

@[simp] theorem countAnswer_hold (s : State) (tid a st dead : ℕ) :
    (countAnswer s tid a st dead).port.hold = s.port.hold := by simp [countAnswer]

@[simp] theorem releaseDeferred_hold (s : State) : (releaseDeferred s).port.hold = s.port.hold := by simp [releaseDeferred]

@[simp] theorem leave_hold (s : State) (p : ℕ) (m : FabMsg) : (leave s p m).port.hold = s.port.hold := by
  unfold leave
  split <;> simp

@[simp] theorem egHead_hold (s : State) (p c : ℕ) : (egHead s p c).1.port.hold = s.port.hold := by
  unfold egHead
  dsimp only
  (repeat' split) <;> simp

@[simp] theorem egClass_hold (fuel p c : ℕ) (s : State) : (egClass fuel p c s).port.hold = s.port.hold := by
  induction fuel generalizing s with
  | zero => rfl
  | succ fuel ih => simp [egClass, ih]

@[simp] theorem egRun_hold (s : State) (p : ℕ) : (egRun s p).port.hold = s.port.hold := by simp [egRun]
@[simp] theorem sendSnoop_hold (s : State) (m : SnpMsg) : (sendSnoop s m).port.hold = s.port.hold := by rfl

/-! ### The rule banks -/

@[simp] theorem bankRead_hold (s : State) (logic b i bad : ℕ) : (bankRead s logic b i bad).1.port.hold = s.port.hold := by
  unfold bankRead
  dsimp only
  (repeat' split) <;> simp

@[simp] theorem matchFrom_hold (key logic b n i : ℕ) (s : State) :
    (matchFrom key logic b n i s).1.port.hold = s.port.hold := by
  induction n generalizing i s with
  | zero => rfl
  | succ n ih =>
    rw [matchFrom]
    dsimp only
    split <;> simp [ih]

@[simp] theorem matchRule_hold (s : State) (slice bank typ mode : ℕ) (v : Seen) (r : ℕ) :
    (matchRule s slice bank typ mode v r).1.port.hold = s.port.hold := by
  unfold matchRule
  dsimp only
  (repeat' split) <;> simp

/-! ### The entries of a slice -/

@[simp] theorem setT_hold (s : State) (tid : ℕ) (f : Trk → Trk) : (setT s tid f).port.hold = s.port.hold := by rfl
@[simp] theorem keepStore_hold (s : State) (n logic : ℕ) : (keepStore s n logic).port.hold = s.port.hold := by rfl
@[simp] theorem setBufs_hold (s : State) (c : ℕ) (l : List ℕ) : (setBufs s c l).port.hold = s.port.hold := by rfl

@[simp] theorem startRead_hold (s : State) (tid : ℕ) : (startRead s tid).1.port.hold = s.port.hold := by
  unfold startRead
  extract_lets t c took
  have htook : ∀ u t', took = some (u, t') → u.port.hold = s.port.hold := fun u t' h => by
    dsimp only [took] at h
    (repeat' split at h) <;> cases h <;> simp
  clear_value took
  split
  · simp
  · simp [htook _ _ rfl]

@[simp] theorem issueWr_hold (s : State) (tid : ℕ) (w : WrReq) (own : Bool) :
    (issueWr s tid w own).port.hold = s.port.hold := by simp [issueWr]

@[simp] theorem queueWr_hold (s : State) (tid : ℕ) (w : WrReq) : (queueWr s tid w).port.hold = s.port.hold := by
  simp [queueWr]

@[simp] theorem sendData_hold (s : State) (tid : ℕ) (d : Option Line) (poison : Bool) :
    (sendData s tid d poison).port.hold = s.port.hold := by simp [sendData]

@[simp] theorem sendFinal_hold (s : State) (tid : ℕ) : (sendFinal s tid).port.hold = s.port.hold := by simp [sendFinal]

@[simp] theorem putWord_hold (s : State) (d k way : ℕ) (c : Option CabW) :
    (putWord s d k way c).port.hold = s.port.hold := by simp [putWord]

@[simp] theorem writeCoarseNew_hold (s : State) (d line scope way : ℕ) (h0 : HS) (loc0 : ℕ) :
    (writeCoarseNew s d line scope way h0 loc0).port.hold = s.port.hold := by simp [writeCoarseNew]

@[simp] theorem pinWay_hold (s : State) (d k way : ℕ) : (pinWay s d k way).port.hold = s.port.hold := by rfl
@[simp] theorem unpinWay_hold (s : State) (d k way : ℕ) : (unpinWay s d k way).port.hold = s.port.hold := by rfl
@[simp] theorem queueEv_hold (s : State) (d : ℕ) (e : EvMsg) : (queueEv s d e).port.hold = s.port.hold := by simp [queueEv]

@[simp] theorem allocStep_hold (s : State) (tid line : ℕ) (folds : Bool) :
    (allocStep s tid line folds).1.port.hold = s.port.hold := by
  unfold allocStep
  dsimp only
  (repeat' split) <;> simp

@[simp] theorem freeWay_hold (s : State) (tid : ℕ) (t : Trk) : (freeWay s tid t).port.hold = s.port.hold := by
  unfold freeWay
  split <;> simp

@[simp] theorem settlePush_hold (s : State) (tid line : ℕ) : (settlePush s tid line).port.hold = s.port.hold := by
  simp [settlePush]

@[simp] theorem wakeWays_hold (s : State) (n : ℕ) : (wakeWays s n).port.hold = s.port.hold := by rfl
@[simp] theorem wroteWord_hold (s : State) (tid : ℕ) : (wroteWord s tid).port.hold = s.port.hold := by simp [wroteWord]

@[simp] theorem writeStep_hold (s : State) (tid : ℕ) (l : WList) (code : ℕ) :
    (writeStep s tid l code).1.port.hold = s.port.hold := by
  unfold writeStep
  extract_lets t d line set_ st scope lk a fin
  split
  · rfl
  have hfin : ∀ u w cur, (fin u w cur).port.hold = u.port.hold := fun u w cur => by
    dsimp only [fin]
    (repeat' split) <;> simp
  clear_value fin
  split
  · split
    · dsimp only
      split <;> simp
    · rfl
  split
  · exact hfin ..
  · split
    · simp
    split
    · simp
    · dsimp only
      (repeat' split) <;> simp [hfin]
  · dsimp only
    (repeat' split) <;> simp [hfin]
  · dsimp only
    (repeat' split) <;> simp [hfin]

@[simp] theorem splitStep_hold (s : State) (tid : ℕ) : (splitStep s tid).port.hold = s.port.hold := by
  unfold splitStep
  dsimp only
  (repeat' split) <;> simp

@[simp] theorem startPhase_hold (s : State) (tid : ℕ) (k : SnpKind) (g : SnpTgt) :
    (startPhase s tid k g).1.port.hold = s.port.hold := by
  unfold startPhase
  dsimp only
  (repeat' split) <;> simp

@[simp] theorem giveTaken_hold (s : State) (tid : ℕ) (k : Taken) (d : Line) :
    (giveTaken s tid k d).port.hold = s.port.hold := by simp [giveTaken]

@[simp] theorem rereadPump_hold (s : State) (tid : ℕ) : (rereadPump s tid).port.hold = s.port.hold := by
  unfold rereadPump
  dsimp only
  (repeat' split) <;> simp

@[simp] theorem censusStep_hold (fuel tid : ℕ) (s : State) : (censusStep fuel tid s).1.port.hold = s.port.hold := by
  induction fuel generalizing s with
  | zero => rfl
  | succ fuel ih =>
    rw [censusStep]
    dsimp only
    split
    · rfl
    next c =>
      generalize hr : allocStep s tid _ _ = r
      have halloc : r.1.port.hold = s.port.hold := hr ▸ allocStep_hold ..
      clear hr
      split
      · exact halloc
      · rw [ih, setT_hold]
        split
        · split <;> simp [halloc]
        · exact halloc

@[simp] theorem adv_hold (s : State) (tid : ℕ) : (adv s tid).port.hold = s.port.hold := by rfl
@[simp] theorem waitIn_hold (s : State) (tid ts : ℕ) : (waitIn s tid ts).1.port.hold = s.port.hold := by rfl

@[simp] theorem rbErrInfo_hold (s : State) (n typ idx : ℕ) : (rbErrInfo s n typ idx).port.hold = s.port.hold := by
  simp [rbErrInfo]

@[simp] theorem badStepFault_hold (s : State) (n typ idx k : ℕ) : (badStepFault s n typ idx k).port.hold = s.port.hold := by
  simp [badStepFault]

@[simp] theorem noRuleFault_hold (s : State) (n typ k : ℕ) : (noRuleFault s n typ k).port.hold = s.port.hold := by
  simp [noRuleFault]

@[simp] theorem badStep_hold (s : State) (tid idx : ℕ) : (badStep s tid idx).port.hold = s.port.hold := by simp [badStep]
@[simp] theorem lostRecord_hold (s : State) (tid by_ : ℕ) : (lostRecord s tid by_).port.hold = s.port.hold := by rfl
@[simp] theorem proto_hold (s : State) (tid : ℕ) : (proto s tid).port.hold = s.port.hold := by simp [proto]

@[simp] theorem runStep_hold (s : State) (tid : ℕ) (st : AStep) : (runStep s tid st).1.port.hold = s.port.hold := by
  unfold runStep
  dsimp only
  (repeat' split) <;> simp

@[simp] theorem endSeq_hold (s : State) (tid : ℕ) : (endSeq s tid).1.port.hold = s.port.hold := by simp [endSeq]

@[simp] theorem reserveLine_hold (s : State) (n line : ℕ) : (reserveLine s n line).port.hold = s.port.hold := by
  simp [reserveLine]

@[simp] theorem wakeWaiters_hold (s : State) (n : ℕ) : (wakeWaiters s n).port.hold = s.port.hold := by rfl

/-! ### Threads and Hutches -/

@[simp] theorem lwrite_hold (s : State) (t w : ℕ) (v : BitVec 64) : (lwrite s t w v).port.hold = s.port.hold := by
  simp [lwrite]

@[simp] theorem seqOp_hold (s : State) (t kind port : ℕ) : (seqOp s t kind port).port.hold = s.port.hold := by rfl
@[simp] theorem closeSeq_hold (s : State) (t : ℕ) : (closeSeq s t).port.hold = s.port.hold := by simp [closeSeq]
@[simp] theorem endLock_hold (s : State) (tid : ℕ) : (endLock s tid).port.hold = s.port.hold := by simp [endLock]
@[simp] theorem endLocks_hold (s : State) (t : ℕ) : (endLocks s t).port.hold = s.port.hold := by simp [endLocks]
@[simp] theorem dropDlock_hold (s : State) (t : ℕ) : (dropDlock s t).port.hold = s.port.hold := by rfl
@[simp] theorem haltThread_hold (s : State) (t : ℕ) : (haltThread s t).port.hold = s.port.hold := by simp [haltThread]
@[simp] theorem boundary_hold (s : State) (t : ℕ) : (boundary s t).port.hold = s.port.hold := by simp [boundary]

@[simp] theorem trap_hold (s : State) (t cause : ℕ) (info : BitVec 64) : (trap s t cause info).port.hold = s.port.hold := by
  simp [trap]

@[simp] theorem inboxPush_hold (s : State) (t : ℕ) (m : InMsg) : (inboxPush s t m).port.hold = s.port.hold := by
  simp [inboxPush]

@[simp] theorem takeMsg_hold (s : State) (t gd pd : ℕ) : (takeMsg s t gd pd).port.hold = s.port.hold := by
  unfold takeMsg
  split <;> simp

@[simp] theorem creditBack_hold (s : State) (t n : ℕ) : (creditBack s t n).port.hold = s.port.hold := by rfl
@[simp] theorem setHutEnt_hold (s : State) (c i : ℕ) (e : HEnt) : (setHutEnt s c i e).port.hold = s.port.hold := by rfl

@[simp] theorem setHutEvb_hold (s : State) (c k : ℕ) (e : Option HEvb) :
    (setHutEvb s c k e).port.hold = s.port.hold := by rfl

@[simp] theorem hutWritten_hold (s : State) (c i : ℕ) : (hutWritten s c i).port.hold = s.port.hold := by simp [hutWritten]

@[simp] theorem evbSend_hold (s : State) (c k line : ℕ) (data : Line) (poison : Bool) :
    (evbSend s c k line data poison).port.hold = s.port.hold := by simp [evbSend]

@[simp] theorem accFail_hold (s : State) (a : HAcc) : (accFail s a).port.hold = s.port.hold := by
  unfold accFail
  split <;> simp

@[simp] theorem accData_hold (s : State) (a : HAcc) (d : Line) : (accData s a d).port.hold = s.port.hold := by
  unfold accData
  (repeat' split) <;> simp

@[simp] theorem entRead_hold (s : State) (c i : ℕ) (l : List ℕ) : (entRead s c i l).1.port.hold = s.port.hold := by
  induction l generalizing s with
  | nil => rfl
  | cons k ks ih =>
    rw [entRead]
    dsimp only
    split <;> simp [ih]

@[simp] theorem hutOut_hold (s : State) (c i : ℕ) : (hutOut s c i).1.port.hold = s.port.hold := by
  unfold hutOut
  dsimp only
  (repeat' split) <;> simp

@[simp] theorem evictTo_hold (s : State) (c i k : ℕ) : (evictTo s c i k).port.hold = s.port.hold := by simp [evictTo]

@[simp] theorem hutMissStart_hold (s : State) (c : ℕ) (a : HAcc) (useMask : Bool) :
    (hutMissStart s c a useMask).port.hold = s.port.hold := by
  unfold hutMissStart
  dsimp only
  (repeat' split) <;> simp

@[simp] theorem hutServe_hold (s : State) (c : ℕ) (a : HAcc) (bulkDone : State → HAcc → Line → State)
    (hdone : ∀ u x l, (bulkDone u x l).port.hold = u.port.hold) : (hutServe s c a bulkDone).port.hold = s.port.hold := by
  unfold hutServe
  dsimp only
  (repeat' split) <;> simp [hdone]

@[simp] theorem hutPump_hold (bulkDone : State → HAcc → Line → State)
    (hdone : ∀ u x l, (bulkDone u x l).port.hold = u.port.hold) (fuel c : ℕ) (s : State) :
    (hutPump bulkDone fuel c s).port.hold = s.port.hold := by
  induction fuel generalizing s with
  | zero => rfl
  | succ fuel ih =>
    rw [hutPump]
    dsimp only
    (repeat' split) <;> simp [ih, hdone]

@[simp] theorem hutPrefetch_hold (s : State) (c : ℕ) (a : HAcc) : (hutPrefetch s c a).port.hold = s.port.hold := by
  simp [hutPrefetch]

@[simp] theorem hutFilled_hold (s : State) (c : ℕ) (d : MemDone) (bulkDone : State → HAcc → Line → State)
    (hdone : ∀ u x l, (bulkDone u x l).port.hold = u.port.hold) : (hutFilled s c d bulkDone).port.hold = s.port.hold := by
  unfold hutFilled
  dsimp only
  (repeat' split) <;> simp [hdone]

@[simp] theorem hutPfPut_hold (s : State) (c : ℕ) : (hutPfPut s c).port.hold = s.port.hold := by
  unfold hutPfPut
  (repeat' split) <;> simp

@[simp] theorem hutPfFilled_hold (s : State) (c : ℕ) (d : MemDone) : (hutPfFilled s c d).port.hold = s.port.hold := by
  simp [hutPfFilled]

@[simp] theorem maintEnd_hold (s : State) (c st : ℕ) : (maintEnd s c st).port.hold = s.port.hold := by rfl

@[simp] theorem maintRun_hold (s : State) (c : ℕ) : (maintRun s c).port.hold = s.port.hold := by
  unfold maintRun
  dsimp only
  (repeat' split) <;> simp

@[simp] theorem hutEvDone_hold (s : State) (c k : ℕ) : (hutEvDone s c k).port.hold = s.port.hold := by
  unfold hutEvDone
  dsimp only
  (repeat' split) <;> simp

/-! ### The bulk engine -/

@[simp] theorem bulkLineClean_hold (s : State) (c line : ℕ) : (bulkLineClean s c line).port.hold = s.port.hold := by
  unfold bulkLineClean
  split <;> simp

@[simp] theorem bulkData_hold (s : State) (a : HAcc) (d : Line) : (bulkData s a d).port.hold = s.port.hold := by
  unfold bulkData
  dsimp only
  (repeat' split) <;> simp

@[simp] theorem bulkProg_hold (s : State) (r : ℕ) (b : BulkRun) (res : ℕ) (last : Bool) :
    (bulkProg s r b res last).port.hold = s.port.hold := by rfl

@[simp] theorem hutRun_hold (s : State) (c : ℕ) : (hutRun s c).port.hold = s.port.hold := by simp [hutRun]

@[simp] theorem bulkPoke_hold (s : State) (r : ℕ) : (bulkPoke s r).port.hold = s.port.hold := by
  unfold bulkPoke
  dsimp only
  (repeat' split) <;> simp

@[simp] theorem bulkEnd_hold (s : State) (r : ℕ) (b : BulkRun) : (bulkEnd s r b).port.hold = s.port.hold := by simp [bulkEnd]

@[simp] theorem chunkDone_hold (s : State) (r : ℕ) (b : BulkRun) : (chunkDone s r b).port.hold = s.port.hold := by
  simp [chunkDone]

@[simp] theorem bulkLine_hold (s : State) (d : MemDone) : (bulkLine s d).port.hold = s.port.hold := by
  unfold bulkLine
  (repeat' split) <;> simp

/-! ### The stewards -/

@[simp] theorem dputPage_hold (s : State) (l : Loc) : (dputPage s l).1.port.hold = s.port.hold := by simp [dputPage]

@[simp] theorem lockNext_hold (s : State) (t gd : ℕ) (left held : List ℕ) (pa dl : ℕ) :
    (lockNext s t gd left held pa dl).port.hold = s.port.hold := by
  unfold lockNext
  split <;> simp

@[simp] theorem thrDone_hold (s : State) (t id : ℕ) (d : MemDone) : (thrDone s t id d).port.hold = s.port.hold := by
  unfold thrDone
  split <;> simp

@[simp] theorem lockDone_hold (s : State) (t id : ℕ) (d : MemDone) : (lockDone s t id d).port.hold = s.port.hold := by
  unfold lockDone
  (repeat' split) <;> simp

@[simp] theorem bankPut_hold (s : State) (idx : ℕ) (v : BitVec 64) : (bankPut s idx v).port.hold = s.port.hold := by
  simp [bankPut]

@[simp] theorem bankSwap_hold (s : State) : (bankSwap s).port.hold = s.port.hold := by rfl
@[simp] theorem swapBegin_hold (s : State) (who : Option (ℕ × ℕ)) : (swapBegin s who).port.hold = s.port.hold := by rfl

@[simp] theorem swapPoll_hold (s : State) : (swapPoll s).port.hold = s.port.hold := by
  unfold swapPoll
  (repeat' split) <;> simp

@[simp] theorem stewardFail_hold (s : State) (c : ℕ) : (stewardFail s c).port.hold = s.port.hold := by simp [stewardFail]

@[simp] theorem stwPoll_hold (s : State) : (stwPoll s).port.hold = s.port.hold := by
  refine foldl_hold _ (fun t e => ?_) _ _
  dsimp only
  (repeat' split) <;> simp

/-! ### LEHR -/

@[simp] theorem lehrRec_hold (s : State) (fs : List (ℕ × ℕ × ℕ)) : (lehrRec s fs).port.hold = s.port.hold := by rfl

@[simp] theorem startPass_hold (s : State) (reason : ℕ) (fresh : Bool) :
    (startPass s reason fresh).port.hold = s.port.hold := by rfl

@[simp] theorem ldgClear_hold (s : State) : (ldgClear s).port.hold = s.port.hold := by rfl

@[simp] theorem ldgCommit_hold (s : State) : (ldgCommit s).port.hold = s.port.hold := by
  unfold ldgCommit
  dsimp only
  have hbase : ∀ (l : List ℕ) (u : State),
      (l.foldl (fun u m => u.setFld Fld.AGE_MON_BASE (bits m 16 16) (bits m 8 5)) u).port.hold = u.port.hold :=
    fun l u => foldl_hold _ (fun u m => setFld_hold ..) l u
  (repeat' split) <;> simp [hbase]

/-! ### The Punty ports -/

@[simp] theorem setPtp_hold (s : State) (p : ℕ) (v : PtPort) : (s.setPtp p v).port.hold = s.port.hold := by rfl
@[simp] theorem ptState_hold (s : State) (p st : ℕ) : (ptState s p st).port.hold = s.port.hold := by simp [ptState]
@[simp] theorem ptOut_hold (s : State) (p : ℕ) (f : PtFrame) : (ptOut s p f).port.hold = s.port.hold := by rfl

@[simp] theorem ptPump_hold (fuel p : ℕ) (s : State) : (ptPump fuel p s).port.hold = s.port.hold := by
  induction fuel generalizing s with
  | zero => rfl
  | succ fuel ih =>
    rw [ptPump]
    (repeat' split) <;> simp [ih]

@[simp] theorem ptSend_hold (s : State) (p typ : ℕ) (pay : BitVec 256) : (ptSend s p typ pay).port.hold = s.port.hold := by
  simp [ptSend]

@[simp] theorem sendCap_hold (s : State) (p : ℕ) : (sendCap s p).port.hold = s.port.hold := by simp [sendCap]
@[simp] theorem ptAttempt_hold (s : State) (p k : ℕ) : (ptAttempt s p k).port.hold = s.port.hold := by simp [ptAttempt]
@[simp] theorem ptEnable_hold (s : State) (p v : ℕ) : (ptEnable s p v).port.hold = s.port.hold := by simp [ptEnable]

@[simp] theorem floodOn_hold (s : State) (inp : Option ℕ) (typ : ℕ) (pay : BitVec 256) :
    (floodOn s inp typ pay).port.hold = s.port.hold := by simp [floodOn]

@[simp] theorem flood_hold (s : State) (typ : ℕ) (body : List (ℕ × ℕ × ℕ)) : (flood s typ body).port.hold = s.port.hold := by
  simp [flood]

/-! ### The fabric ports -/

@[simp] theorem regrant_hold (s : State) (p : ℕ) : (regrant s p).port.hold = s.port.hold := by simp [regrant]
@[simp] theorem freeDat_hold (s : State) (p e : ℕ) : (freeDat s p e).port.hold = s.port.hold := by simp [freeDat]

@[simp] theorem fpErr_hold (s : State) (p : ℕ) (f : Fld) (agent typ : ℕ) :
    (fpErr s p f agent typ).port.hold = s.port.hold := by simp [fpErr]

@[simp] theorem refuseMsgs_hold (s : State) (p typ : ℕ) (h : Hdr) : (refuseMsgs s p typ h).port.hold = s.port.hold := by
  simp [refuseMsgs]

@[simp] theorem refuse_hold (s : State) (p typ : ℕ) (h : Hdr) (code : ℕ) :
    (refuse s p typ h code).port.hold = s.port.hold := by
  unfold refuse
  dsimp only
  (repeat' split) <;> simp

@[simp] theorem rsWrite_hold (s : State) (base n : ℕ) : (rsWrite s base n).port.hold = s.port.hold := by simp [rsWrite]

@[simp] theorem rsRead_hold (s : State) (base n : ℕ) : (rsRead s base n).1.port.hold = s.port.hold :=
  foldl_fst_hold _ (fun p w => by simp) _ _

@[simp] theorem dropHeld_hold (s : State) (h : ℕ) : (dropHeld s h).port.hold = s.port.hold := by simp [dropHeld]
@[simp] theorem popNotice_hold (s : State) (c : ℕ) : (popNotice s c).port.hold = s.port.hold := by simp [popNotice]

/-! ### Ingress and writebacks -/

@[simp] theorem readLine_hold (s : State) (line : ℕ) : (readLine s line).1.port.hold = s.port.hold := by
  unfold readLine
  dsimp only
  (repeat' split) <;> simp

@[simp] theorem decideMsg_hold (s : State) (line typ r : ℕ) (f : Found) :
    (decideMsg s line typ r f).1.port.hold = s.port.hold := by
  unfold decideMsg
  split
  · simp
  · dsimp only
    split
    next heq => exact hold_of_eq heq (by simp)
    next heq => simp [hold_of_eq heq]

@[simp] theorem planCoarse_hold (s : State) (line agent : ℕ) (d : Dec) (f : Found) :
    (planCoarse s line agent d f).1.port.hold = s.port.hold := by
  unfold planCoarse
  dsimp only
  (repeat' split) <;> simp

@[simp] theorem putEntry_hold (s : State) (tid : ℕ) (t : Trk) : (putEntry s tid t).port.hold = s.port.hold := by
  simp [putEntry]

@[simp] theorem evDone_hold (s : State) (w : Option ℕ) : (evDone s w).port.hold = s.port.hold := by
  unfold evDone
  split <;> simp

@[simp] theorem sinkWrite_hold (s : State) (line : ℕ) (a : WAsk) : (sinkWrite s line a).port.hold = s.port.hold := by
  unfold sinkWrite
  dsimp only
  (repeat' split) <;> simp

@[simp] theorem sinkDefault_hold (s : State) (line a kind : ℕ) (v : Seen) :
    (sinkDefault s line a kind v).port.hold = s.port.hold := by
  unfold sinkDefault
  dsimp only
  split
  · simp
  split
  · split <;> simp
  split
  · split <;> simp
  exact foldl_hold _ (fun u e => by split <;> simp) _ _

@[simp] theorem fetchStep_hold (s : State) (n : ℕ) (t : Trk) (k : ℕ) : (fetchStep s n t k).1.port.hold = s.port.hold := by
  unfold fetchStep
  split <;> simp

@[simp] theorem sinkProg_hold (line a next : ℕ) (t : Trk) (fuel k : ℕ) (s : State) :
    (sinkProg line a next t fuel k s).port.hold = s.port.hold := by
  induction fuel generalizing k s with
  | zero => rfl
  | succ fuel ih =>
    rw [sinkProg]
    have hfetch : (fetchStep s (sliceOf line) t k).1.port.hold = s.port.hold := fetchStep_hold ..
    split
    next heq => exact hold_of_eq heq hfetch
    next heq =>
      have hu := hold_of_eq heq hfetch
      dsimp only
      split <;> simp [ih, hu]

@[simp] theorem wbSink_hold (s : State) (p e k : ℕ) : (wbSink s p e k).port.hold = s.port.hold := by
  unfold wbSink
  extract_lets d line n a key
  split
  next u f hread =>
  have hu := hold_of_eq hread (readLine_hold s line)
  extract_lets v missed decided counted op dat user sink
  have hmissed : missed.port.hold = s.port.hold := by simp [missed, hu]
  clear_value missed
  have hdecided : decided.port.hold = s.port.hold := by
    dsimp only [decided]
    split
    · exact hu
    split
    · rw [sinkDefault_hold, hmissed]
    split
    next heq => rw [sinkProg_hold, hold_of_eq heq (matchRule_hold ..), hmissed]
    next heq => rw [noRuleFault_hold, hold_of_eq heq (matchRule_hold ..), hmissed]
  clear_value decided
  simp [sink, user, counted, hdecided]

@[simp] theorem wbMeets_hold (s : State) (p e tid : ℕ) : (wbMeets s p e tid).port.hold = s.port.hold := by
  unfold wbMeets
  dsimp only
  (repeat' split) <;> simp

@[simp] theorem wbTry_hold (s : State) (p e : ℕ) : (wbTry s p e).port.hold = s.port.hold := by
  unfold wbTry
  dsimp only
  (repeat' split) <;> simp

@[simp] theorem censusNote_hold (s : State) (n : ℕ) (t : Trk) : (censusNote s n t).port.hold = s.port.hold := by
  simp [censusNote]

@[simp] theorem retireNotes_hold (s : State) (tid : ℕ) (t : Trk) : (retireNotes s tid t).port.hold = s.port.hold := by
  unfold retireNotes
  dsimp only
  (repeat' split) <;> simp

@[simp] theorem retire_hold (s : State) (tid : ℕ) : (retire s tid).port.hold = s.port.hold := by
  unfold retire
  dsimp only
  (repeat' split) <;> simp

@[simp] theorem runEntry_hold (fuel tid : ℕ) (s : State) : (runEntry fuel tid s).port.hold = s.port.hold := by
  induction fuel generalizing s with
  | zero => rfl
  | succ fuel ih =>
    rw [runEntry]
    have hu : (rereadPump s tid).port.hold = s.port.hold := rereadPump_hold s tid
    generalize rereadPump s tid = u at hu
    dsimp only
    split
    · exact hu
    · have hfetch : ∀ k, (fetchStep u (tid / 512) (u.trkE tid) k).1.port.hold = s.port.hold := fun k => by simp [hu]
      split
      next heq => (repeat' split) <;> simp [ih, hold_of_eq heq (hfetch _)]
      next heq => (repeat' split) <;> simp [ih, hold_of_eq heq (hfetch _)]

@[simp] theorem resume_hold (s : State) (tid : ℕ) : (resume s tid).port.hold = s.port.hold := by simp [resume]
@[simp] theorem rewaitDat_hold (s : State) (sel : ℕ → Bool) : (rewaitDat s sel).port.hold = s.port.hold := by rfl
@[simp] theorem logicMark_hold (s : State) (c pos : ℕ) : (logicMark s c pos).port.hold = s.port.hold := by simp [logicMark]

@[simp] theorem takeKept_hold (s : State) (tid : ℕ) : (takeKept s tid).1.port.hold = s.port.hold := by
  unfold takeKept
  dsimp only
  (repeat' split) <;> simp

@[simp] theorem replayRec_hold (s : State) (tid : ℕ) : (replayRec s tid).port.hold = s.port.hold := by
  unfold replayRec
  dsimp only
  (repeat' split) <;> simp

@[simp] theorem dbufFill_hold (s : State) (tid : ℕ) (poison : Bool) : (dbufFill s tid poison).1.port.hold = s.port.hold := by
  unfold dbufFill
  extract_lets c base u
  have hu : u.port.hold = s.port.hold := by simp [u]
  clear_value u
  generalize hr : (List.range 8).foldl _ (u, true) = r
  have hread : r.1.port.hold = s.port.hold := by
    rw [← hr, foldl_fst_hold _ (fun p w => by simp), hu]
  dsimp only
  split <;> simp [hread]

@[simp] theorem cmpWb_hold (s : State) (p e : ℕ) : (cmpWb s p e).port.hold = s.port.hold := by simp [cmpWb]
@[simp] theorem sinkDone_hold (s : State) (key id : ℕ) : (sinkDone s key id).port.hold = s.port.hold := by simp [sinkDone]

@[simp] theorem trkWrDone_hold (s : State) (tid id : ℕ) : (trkWrDone s tid id).port.hold = s.port.hold := by
  unfold trkWrDone
  dsimp only
  (repeat' split) <;> simp

@[simp] theorem takeMemDone_hold (s : State) (d : MemDone) : (takeMemDone s d).port.hold = s.port.hold := by
  unfold takeMemDone
  dsimp only
  (repeat' split) <;> simp

/-! ### Agents -/

@[simp] theorem pushMnt_hold (s : State) (ms : List (ℕ × MntMsg)) : (pushMnt s ms).port.hold = s.port.hold := by
  simp [pushMnt]

@[simp] theorem walkBegin_hold (s : State) (kind a : ℕ) : (walkBegin s kind a).port.hold = s.port.hold := by rfl

@[simp] theorem walkStep_hold (s : State) (kind typ op : ℕ) : (walkStep s kind typ op).port.hold = s.port.hold := by
  simp [walkStep]

@[simp] theorem agtDeadRecord_hold (s : State) (a cause : ℕ) : (agtDeadRecord s a cause).port.hold = s.port.hold := by rfl
@[simp] theorem dropProbes_hold (s : State) (a : ℕ) : (dropProbes s a).port.hold = s.port.hold := by rfl
@[simp] theorem setConf_hold (s : State) (a : ℕ) (c : Option Conf) : (setConf s a c).port.hold = s.port.hold := by rfl

@[simp] theorem startReclaim_hold (s : State) (a cause : ℕ) : (startReclaim s a cause).port.hold = s.port.hold := by
  simp [startReclaim]

@[simp] theorem decideDeath_hold (s : State) (a cause : ℕ) : (decideDeath s a cause).port.hold = s.port.hold := by
  simp [decideDeath]

@[simp] theorem reclaimEnd_hold (s : State) (a : ℕ) : (reclaimEnd s a).port.hold = s.port.hold := by simp [reclaimEnd]
@[simp] theorem deadPoll_hold (s : State) : (deadPoll s).port.hold = s.port.hold := by simp [deadPoll]

@[simp] theorem confNext_hold (s : State) (a : ℕ) : (confNext s a).port.hold = s.port.hold := by
  unfold confNext
  (repeat' split) <;> simp

@[simp] theorem confStart_hold (s : State) (a cause : ℕ) : (confStart s a cause).port.hold = s.port.hold := by
  simp [confStart]

@[simp] theorem livenessPoll_hold (s : State) : (livenessPoll s).port.hold = s.port.hold := by
  unfold livenessPoll
  split
  · rfl
  dsimp only
  rw [foldl_hold _ (fun u e => by simp), foldl_hold _ (fun u e => by (repeat' split) <;> simp),
    foldl_hold _ (fun u e => by (repeat' split) <;> simp)]
  exact foldl_hold _ (fun u e => by (repeat' split) <;> simp) _ _

@[simp] theorem probePoll_hold (s : State) : (probePoll s).port.hold = s.port.hold := by
  unfold probePoll
  split <;> simp

/-! ### The census -/

@[simp] theorem censusBegin_hold (s : State) (x : CensusSet) : (censusBegin s x).port.hold = s.port.hold := by
  simp [censusBegin]

@[simp] theorem censusState_hold (s : State) (x : CensusSet) (cur : Option ℕ) :
    (censusState s x cur).port.hold = s.port.hold := by
  unfold censusState
  split <;> simp

@[simp] theorem pushCensus_hold (s : State) (sec kind who : ℕ) : (pushCensus s sec kind who).port.hold = s.port.hold := by
  simp [pushCensus]

@[simp] theorem censusCluster_hold (fuel : ℕ) (s : State) (c : ℕ) : (censusCluster fuel s c).port.hold = s.port.hold := by
  induction fuel generalizing s with
  | zero => rfl
  | succ fuel ih =>
    rw [censusCluster]
    dsimp only
    (repeat' split) <;> simp [ih]

@[simp] theorem windowStep_hold (s : State) (i w c : ℕ) : (windowStep s i w c).port.hold = s.port.hold := by
  unfold windowStep
  (repeat' split) <;> simp

@[simp] theorem censusWindow_hold (s : State) (i : ℕ) : (censusWindow s i).port.hold = s.port.hold := by
  unfold censusWindow
  dsimp only
  (repeat' split) <;> simp

@[simp] theorem censusPoll_hold (s : State) : (censusPoll s).port.hold = s.port.hold := by simp [censusPoll]

/-! ### Integrity -/

@[simp] theorem recordCullet_hold (s : State) (d k w : ℕ) : (recordCullet s d k w).port.hold = s.port.hold := by
  simp [recordCullet]

@[simp] theorem recordRetired_hold (s : State) (d : ℕ) : (recordRetired s d).port.hold = s.port.hold := by
  simp [recordRetired]

@[simp] theorem culletTake_hold (s : State) (d k w v : ℕ) : (culletTake s d k w v).port.hold = s.port.hold := by
  simp [culletTake]

@[simp] theorem retireEvict_hold (s : State) (d : ℕ) : (retireEvict s d).port.hold = s.port.hold := by simp [retireEvict]

/-! ### Modes and resets -/

@[simp] theorem stopSweep_hold (s : State) : (stopSweep s).port.hold = s.port.hold := by rfl

@[simp] theorem startSweep_hold (s : State) (kind : ℕ) (ws : List Walk) :
    (startSweep s kind ws).port.hold = s.port.hold := by rfl

@[simp] theorem setMode_hold (s : State) (m : ℕ) (forced : Bool) : (setMode s m forced).port.hold = s.port.hold := by
  simp [setMode]

@[simp] theorem preempt_hold (s : State) : (preempt s).port.hold = s.port.hold := by simp [preempt]
@[simp] theorem forceMode_hold (s : State) (m : ℕ) : (forceMode s m).port.hold = s.port.hold := by simp [forceMode]
@[simp] theorem reqDone_hold (s : State) : (reqDone s).port.hold = s.port.hold := by simp [reqDone]
@[simp] theorem startOSettle_hold (s : State) : (startOSettle s).port.hold = s.port.hold := by rfl
@[simp] theorem settleWalk_hold (s : State) : (settleWalk s).port.hold = s.port.hold := by simp [settleWalk]
@[simp] theorem drainSettle_hold (s : State) : (drainSettle s).port.hold = s.port.hold := by simp [drainSettle]

theorem flushWord_hold (s : State) (d : ℕ) (l : List (ℕ × CabW)) (ok : ℕ × CabW → Bool) :
    (l.foldl (fun u e => if ok e then queueEv u d ⟨e.1 / 16, e.1 % 16, none, none⟩ else drawerPut u d e.1 0) s).port.hold =
      s.port.hold :=
  foldl_hold _ (fun u e => by split <;> simp) _ _

@[simp] theorem flushWords_hold (s : State) : (flushWords s).port.hold = s.port.hold :=
  foldl_hold _ (fun t d => flushWord_hold t d _ (fun e => cabOk (encodeCab e.2).toNat)) _ s

@[simp] theorem hutClean_hold (s : State) (c : ℕ) (h : Hutch) : (hutClean s c h).port.hold = s.port.hold := by
  simp [hutClean]

@[simp] theorem dropHutches_hold (s : State) : (dropHutches s).port.hold = s.port.hold := by rfl
@[simp] theorem dropThreads_hold (s : State) : (dropThreads s).port.hold = s.port.hold := by rfl
@[simp] theorem stopThreads_hold (s : State) : (stopThreads s).port.hold = s.port.hold := by simp [stopThreads]

@[simp] theorem sweepStep_hold (s : State) (w : Walk) : (sweepStep s w).port.hold = s.port.hold := by
  unfold sweepStep
  split <;> simp

@[simp] theorem sweepPoll_hold (s : State) : (sweepPoll s).port.hold = s.port.hold := by simp [sweepPoll]
@[simp] theorem drainPoll_hold (s : State) : (drainPoll s).port.hold = s.port.hold := by simp [drainPoll]
@[simp] theorem coreRegs_hold (s : State) (keep : Bool) : (coreRegs s keep).port.hold = s.port.hold := by simp [coreRegs]

@[simp] theorem failedKept_hold (s : State) (l : List ℕ) : (failedKept s l).port.hold = s.port.hold :=
  foldl_hold _ (fun u c => by simp) l s

/-! ### Freezes -/

@[simp] theorem snapCounters_hold (s : State) : (snapCounters s).port.hold = s.port.hold := by
  unfold snapCounters
  generalize List.range 1664 = ids
  exact foldl_hold _ (fun u id => setReg_hold ..) ids s

@[simp] theorem snapSlices_hold (s : State) : (snapSlices s).port.hold = s.port.hold := by
  refine foldl_hold _ (fun t e => ?_) _ _
  dsimp only
  (repeat' split) <;> simp

@[simp] theorem snapClusters_hold (s : State) : (snapClusters s).port.hold = s.port.hold := by rfl
@[simp] theorem snapPorts_hold (s : State) : (snapPorts s).port.hold = s.port.hold := by rfl
@[simp] theorem snapLehr_hold (s : State) : (snapLehr s).port.hold = s.port.hold := by rfl
@[simp] theorem telReady_hold (s : State) (ps : List (List (BitVec 128))) : (telReady s ps).port.hold = s.port.hold := by rfl

@[simp] theorem freezeNow_hold (s : State) (causes : ℕ) : (freezeNow s causes).port.hold = s.port.hold := by
  simp only [freezeNow, ite_hold, flood_hold, telReady_hold, setFld_hold, snapLehr_hold, snapPorts_hold, snapClusters_hold,
    snapSlices_hold, snapCounters_hold, ite_self]

@[simp] theorem freezePoll_hold (s : State) : (freezePoll s).port.hold = s.port.hold := by simp [freezePoll]

/-! ### The jobs of the programs -/

@[simp] theorem jobRead_hold (s : State) (c : CmdRun) (n next : ℕ) : (jobRead s c n next).port.hold = s.port.hold := by
  simp [jobRead]

@[simp] theorem jobPoll_hold (s : State) (c : CmdRun) (n next : ℕ) : (jobPoll s c n next).port.hold = s.port.hold := by
  simp [jobPoll]

@[simp] theorem bankLoad_hold (s : State) (words : List (BitVec 64)) : (bankLoad s words).port.hold = s.port.hold := by
  simp [bankLoad]

@[simp] theorem rbLoadPoll_hold (s : State) : (rbLoadPoll s).port.hold = s.port.hold := by
  unfold rbLoadPoll
  split <;> simp

@[simp] theorem rbSwap_hold (s : State) : (rbSwap s).port.hold = s.port.hold := by
  unfold rbSwap
  split <;> simp

@[simp] theorem rbSwapPoll_hold (s : State) : (rbSwapPoll s).port.hold = s.port.hold := by
  unfold rbSwapPoll
  split <;> simp

@[simp] theorem ledgerEnd_hold (s : State) : (ledgerEnd s).port.hold = s.port.hold := by
  unfold ledgerEnd
  split <;> simp

@[simp] theorem ledgerLoadPoll_hold (s : State) : (ledgerLoadPoll s).port.hold = s.port.hold := by
  unfold ledgerLoadPoll
  split <;> simp

@[simp] theorem hostPoll_hold (s : State) : (hostPoll s).port.hold = s.port.hold := by simp [hostPoll]
@[simp] theorem cmdPoll_hold (s : State) : (cmdPoll s).port.hold = s.port.hold := by simp [cmdPoll]

/-! ### Starts -/

@[simp] theorem amapWrite_hold (s : State) (e w : ℕ) : (amapWrite s e w).port.hold = s.port.hold := by simp [amapWrite]

@[simp] theorem startRecord_hold (s : State) (typ : ℕ) (fs : List (ℕ × ℕ × ℕ)) :
    (startRecord s typ fs).port.hold = s.port.hold := by rfl

@[simp] theorem setRun_hold (s : State) (r : Option StartRun) : (setRun s r).port.hold = s.port.hold := by rfl
@[simp] theorem setBoot_hold (s : State) (b : BootC) : (setBoot s b).port.hold = s.port.hold := by rfl

@[simp] theorem toStep_hold (s : State) (k : ℕ) : (toStep s k).port.hold = s.port.hold := by
  unfold toStep
  split <;> simp

@[simp] theorem countRead_hold (s : State) : (countRead s).port.hold = s.port.hold := by simp [countRead]
@[simp] theorem countFail_hold (s : State) (cold : Bool) : (countFail s cold).port.hold = s.port.hold := by simp [countFail]
@[simp] theorem exhaust_hold (s : State) : (exhaust s).port.hold = s.port.hold := by rfl
@[simp] theorem bootFrom_hold (s : State) (src : ℕ) : (bootFrom s src).port.hold = s.port.hold := by simp [bootFrom]

@[simp] theorem bootNeedN_hold (fuel : ℕ) (s : State) (n : ℕ) : (bootNeedN fuel s n).1.port.hold = s.port.hold := by
  induction fuel generalizing s with
  | zero => rfl
  | succ fuel ih => simp [bootNeedN, ih]

@[simp] theorem bootNeed_hold (s : State) (n : ℕ) : (bootNeed s n).1.port.hold = s.port.hold := by simp [bootNeed]
@[simp] theorem bootCopy_hold (s : State) (x : Sect) : (bootCopy s x).port.hold = s.port.hold := by simp [bootCopy]
@[simp] theorem loadBank0_hold (s : State) (ws : List (BitVec 32)) : (loadBank0 s ws).port.hold = s.port.hold := by rfl
@[simp] theorem discBegin_hold (s : State) (r : StartRun) : (discBegin s r).port.hold = s.port.hold := by simp [discBegin]
@[simp] theorem discEnd_hold (s : State) (r : StartRun) : (discEnd s r).1.port.hold = s.port.hold := by simp [discEnd]

@[simp] theorem testCluster_hold (s : State) (t : SelfTest) (c : ℕ) : (testCluster s t c).port.hold = s.port.hold := by
  simp [testCluster]

@[simp] theorem testWord_hold (s : State) (e : ℕ × ℕ) : (testWord s e).port.hold = s.port.hold := by
  unfold testWord
  (repeat' split) <;> simp

@[simp] theorem loadCluster_hold (s : State) (c : ℕ) : (loadCluster s c).port.hold = s.port.hold := by rfl

@[simp] theorem loadRepair_hold (s : State) : (loadRepair s).port.hold = s.port.hold := by
  unfold loadRepair
  dsimp only
  rw [foldl_hold _ (fun u e => by simp), foldl_hold _ (fun u e => by simp)]
  split <;> simp

@[simp] theorem repairStep_hold (s : State) (r : StartRun) : (repairStep s r).1.port.hold = s.port.hold := by
  simp [repairStep]

@[simp] theorem verifyLap_hold (s : State) : (verifyLap s).port.hold = s.port.hold := by
  simp only [verifyLap]
  simp

@[simp] theorem puntyBegin_hold (s : State) : (puntyBegin s).port.hold = s.port.hold := by simp [puntyBegin]
@[simp] theorem raiseAgain_hold (s : State) : (raiseAgain s).port.hold = s.port.hold := by simp [raiseAgain]
@[simp] theorem startDone_hold (s : State) (r : StartRun) : (startDone s r).port.hold = s.port.hold := by simp [startDone]

/-! ### Polls -/

@[simp] theorem retirePoll_hold (s : State) : (retirePoll s).port.hold = s.port.hold := by simp [retirePoll]

end Sys2Proof.Machine

namespace Sys2Proof.Machine

/-! SUPPORT. The operations that free hold slots, park them or present them again: none takes a slot that was free, and so
neither does anything that goes on by itself after a command. -/

/-- No slot is in use in the second map that is free in the first. -/
structure Within (l m : SMap HoldSlot) : Prop where
  held : ∀ k, (SMap.getD (fun _ => hold0) m k).used = true → (SMap.getD (fun _ => hold0) l k).used = true

theorem Within.of_eq {l m : SMap HoldSlot} (h : m = l) : Within l m := ⟨fun _ hk => h ▸ hk⟩

theorem Within.refl (l : SMap HoldSlot) : Within l l := .of_eq rfl

theorem Within.trans {l m n : SMap HoldSlot} (h : Within l m) (h' : Within m n) : Within l n :=
  ⟨fun k hk => h.held k (h'.held k hk)⟩

theorem Within.trans_eq {l m n : SMap HoldSlot} (h : Within l m) (h' : n = m) : Within l n := h' ▸ h

theorem Within.after_eq {l m n : SMap HoldSlot} (h : m = l) (h' : Within m n) : Within l n := h ▸ h'

theorem foldl_within {α : Type} (f : State → α → State) (h : ∀ u x, Within u.port.hold (f u x).port.hold) (l : List α)
    (s : State) : Within s.port.hold (l.foldl f s).port.hold :=
  List.foldlRecOn (motive := fun u => Within s.port.hold u.port.hold) l f (.refl _) fun u ih x _ => ih.trans (h u x)

/-! ### Hold slots, notices and adoption -/

theorem setHoldE_within {s : State} {h : ℕ} {v : HoldSlot} (hv : v.used = true → (s.holdE h).used = true) :
    Within s.port.hold (s.setHoldE h v).port.hold := ⟨fun k hk => by
  by_cases hkh : k = h
  · subst hkh
    exact hv (by simpa [State.setHoldE] using hk)
  · exact SMap.getD_set_other (fun _ => hold0) (fun _ => hold0) s.port.hold h k v hkh ▸ hk⟩

theorem setHoldE_hold0_within (s : State) (h : ℕ) : Within s.port.hold (s.setHoldE h hold0).port.hold :=
  setHoldE_within nofun

theorem holdE_of_hold {s u : State} (h : u.port.hold = s.port.hold) (k : ℕ) : u.holdE k = s.holdE k := by
  rw [State.holdE, h, State.holdE]

theorem closeFans_hold (s : State) (sel : ℕ → Bool) : (closeFans s sel).port.hold = s.port.hold := by
  obtain ⟨P, hclose, -, hhold⟩ := closeFans_port s sel
  rw [hclose, hhold]

theorem presentHold_within (s : State) (h : ℕ) : Within s.port.hold (presentHold s h).port.hold := by
  unfold presentHold
  extract_lets v n
  split
  · exact .refl _
  next hused =>
  have hread := rsRead_hold s (holdWord h) 4
  generalize rsRead s (holdWord h) 4 = r at hread
  obtain ⟨u, ok⟩ := r
  have hset : ∀ w : HoldWait, Within s.port.hold (u.setHoldE h { v with wait := w }).port.hold := fun w =>
    hread ▸ setHoldE_within fun _ => (congrArg HoldSlot.used (holdE_of_hold hread h)).trans (by simpa [v] using hused)
  dsimp only
  split
  · exact .after_eq (by rw [raisePort_port]; exact hread) (setHoldE_hold0_within _ h)
  split
  · exact hset _
  · exact (hset .presented).trans_eq (by simp)

theorem presentAgain_within (s : State) (p : HoldSlot → Bool) : Within s.port.hold (presentAgain s p).port.hold :=
  foldl_within _ (fun t h => .after_eq (by rw [fpEvent_port]) (presentHold_within ..)) _ s

theorem replayEnd_within (s : State) (n : ℕ) : Within s.port.hold (replayEnd s n).port.hold := by
  unfold replayEnd
  extract_lets done port sl ended u
  have hu : u.port.hold = s.port.hold := by
    dsimp only [u]
    split
    · rw [setFld_hold]
    · rfl
  clear_value u
  split
  · split
    · exact .after_eq hu (presentAgain_within { u with port := { u.port with replaying := false } } _)
    · exact .of_eq hu
  · exact .after_eq hu (presentAgain_within ..)

theorem replayPump_within (s : State) : Within s.port.hold (replayPump s).port.hold := by
  refine foldl_within _ (fun u n => ?_) _ s
  extract_lets tried tids
  have htried : tried.port.hold = u.port.hold := foldl_hold _ (fun v e => wbTry_hold ..) _ u
  clear_value tried
  split
  · exact .of_eq htried
  · exact (Within.of_eq ((foldl_hold _ (fun v t => replayRec_hold ..) _ _).trans htried)).trans (replayEnd_within ..)

theorem datEnter_within (s : State) : Within s.port.hold (datEnter s).port.hold := by
  unfold datEnter
  split
  · exact .refl _
  extract_lets u w
  have hw : w.port.hold = u.port.hold := by
    dsimp only [w]
    split
    · rfl
    · exact foldl_hold _ (fun v e => wbTry_hold ..) _ u
  clear_value w
  exact (replayPump_within s).trans_eq (by rw [releaseDeferred_hold, hw])

theorem dropSlice_within (s : State) (n : ℕ) : Within s.port.hold (dropSlice s n).port.hold := by
  unfold dropSlice
  extract_lets back bufs owed credited freed held parked
  have hcredited : credited.port.hold = s.port.hold := foldl_hold _ (fun u t => creditBack_hold ..) owed s
  clear_value credited
  have hfreed : freed.port.hold = s.port.hold := (setBufs_hold ..).trans hcredited
  clear_value freed
  have hparked : Within freed.port.hold parked.port.hold :=
    foldl_within _ (fun u h => by exact setHoldE_within id) held freed
  clear_value parked
  exact .after_eq hfreed hparked

theorem freeHold_within (s : State) (h : ℕ) : Within s.port.hold (freeHold s h).port.hold := by
  unfold freeHold
  dsimp only
  split
  · exact (setHoldE_hold0_within s h).trans (presentHold_within ..)
  · exact setHoldE_hold0_within s h

theorem takeAccept_within (s : State) (c tid h ep : ℕ) : Within s.port.hold (takeAccept s c tid h ep).port.hold := by
  unfold takeAccept
  extract_lets v r u port w
  split
  · exact .refl _
  have hw : w.port.hold = s.port.hold := by simp [w, port, u]
  clear_value w
  rw [flushStaged_hold]
  exact .after_eq hw (freeHold_within ..)

theorem takeRetire_within (s : State) (tid : ℕ) : Within s.port.hold (takeRetire s tid).port.hold := by
  unfold takeRetire
  extract_lets r cleared u
  have hu : u.port.hold = s.port.hold := by
    dsimp only [u]
    (repeat' split) <;> simp [cleared]
  clear_value u
  exact .after_eq hu (presentAgain_within ..)

theorem takeRetireSink_within (s : State) (key p e : ℕ) : Within s.port.hold (takeRetireSink s key p e).port.hold :=
  (Within.of_eq (freeDat_hold s p e)).trans (presentAgain_within ..)

theorem takeRefuse_within (s : State) (h : ℕ) (on : HoldWait) : Within s.port.hold (takeRefuse s h on).port.hold := by
  unfold takeRefuse
  extract_lets v lvl a dropped freed t tmo
  split
  · exact .refl _
  next hused =>
  split
  · have hfreed : freed.port.hold = s.port.hold := by
      dsimp only [freed, dropped]
      split <;> simp
    clear_value freed
    exact (Within.of_eq (by simp [hfreed])).trans (freeHold_within ..)
  · rw [rsWrite_hold]
    exact setHoldE_within fun _ => by simpa [v] using hused

theorem takeNotice_within (s : State) (c : ℕ) (n : Notice) : Within s.port.hold (takeNotice s c n).port.hold := by
  unfold takeNotice
  extract_lets u
  have hu : Within s.port.hold u.port.hold := .of_eq (popNotice_hold s c)
  clear_value u
  cases n with
  | accept tid h ep => exact hu.trans (takeAccept_within ..)
  | retire tid => exact hu.trans (takeRetire_within ..)
  | retireSink key p e => exact hu.trans (takeRetireSink_within ..)
  | refuse h on => exact hu.trans (takeRefuse_within ..)
  | poolFree n =>
    dsimp only
    split
    · exact hu.trans (.after_eq (by rw [fpEvent_port]) (presentHold_within ..))
    · exact hu
  | rsvFree n line => exact hu.trans (presentAgain_within ..)

theorem drainNotices_within (fuel c : ℕ) (s : State) : Within s.port.hold (drainNotices fuel c s).port.hold := by
  induction fuel generalizing s with
  | zero => exact .refl _
  | succ fuel ih =>
    rw [drainNotices]
    split
    · exact .refl _
    · exact (takeNotice_within ..).trans (ih _)

theorem adopt_within (s : State) (n : ℕ) (forced : Bool) : Within s.port.hold (adopt s n forced).port.hold := by
  unfold adopt
  extract_lets c spare k w kept closed dropped w' mapped wrote port sl repair u
  have hkept : kept.port.hold = s.port.hold := by simp [kept]
  clear_value kept
  have hclosed : Within s.port.hold closed.port.hold :=
    .after_eq hkept ((drainNotices_within 4096 c kept).trans_eq (closeFans_hold ..))
  clear_value closed
  have hdropped : Within s.port.hold dropped.port.hold :=
    hclosed.trans (.after_eq (rewaitDat_hold ..) (dropSlice_within ..))
  clear_value dropped
  have hmapped : mapped.port.hold = dropped.port.hold := by simp only [mapped, setFld_hold]
  clear_value mapped
  exact hdropped.trans_eq ((lehrWrote_hold ..).trans hmapped)

theorem sliceFail_within (s : State) (n : ℕ) : Within s.port.hold (sliceFail s n).port.hold := by
  unfold sliceFail
  extract_lets c u pos
  have hu : u.port.hold = s.port.hold := by simp [u]
  clear_value u
  split
  · rw [raiseCluster_port]
    exact .after_eq (by simp [closeFans_hold, hu]) (dropSlice_within ..)
  · exact .after_eq hu (adopt_within ..)

theorem workStep_within (s : State) (w : Work) : Within s.port.hold (workStep s w).port.hold := by
  cases w with
  | trk tid => exact .of_eq (resume_hold ..)
  | done d => exact .of_eq (takeMemDone_hold ..)
  | arb m => exact .of_eq (arbRun_hold ..)
  | eg p => exact .of_eq (egRun_hold ..)
  | daten => exact datEnter_within s
  | fail n => exact sliceFail_within s n

theorem settleN_within (fuel : ℕ) (s : State) : Within s.port.hold (settleN fuel s).port.hold := by
  induction fuel generalizing s with
  | zero => exact .refl _
  | succ fuel ih =>
    rw [settleN]
    split
    · exact .refl _
    next w l _ => exact (workStep_within { s with work := l } w).trans (ih _)

theorem settle_within (s : State) : Within s.port.hold (settle s).port.hold := settleN_within _ s

/-! ### A start sequence and its failure -/

theorem parkHold_used (v : HoldSlot) : (parkHold v).used = v.used := by
  unfold parkHold
  split <;> rfl

theorem parkAll_within (l : SMap HoldSlot) :
    Within l (l.map (fun e => (e.1, if e.2.used then parkHold e.2 else e.2))) := ⟨fun k hk => by
  rw [SMap.getD_map_value _ l (fun v => if v.used then parkHold v else v) k rfl] at hk
  split at hk
  · rwa [parkHold_used] at hk
  · exact hk⟩

theorem coreReset_within (s : State) (keep : Bool) (pt : ℕ) : Within s.port.hold (coreReset s keep pt).port.hold := by
  unfold coreReset
  extract_lets failed resil u port parked w
  have hu : u.port.hold = s.port.hold := by simp [u, closeFans_hold]
  clear_value u
  exact .after_eq hu ((parkAll_within _).trans_eq (by simp [w, parked]))

theorem nil_within (l : SMap HoldSlot) : Within l [] := ⟨nofun⟩

theorem portReset_hold (s : State) : (portReset s).port.hold = [] := rfl

theorem portReset_within (s : State) : Within s.port.hold (portReset s).port.hold := portReset_hold s ▸ nil_within _

theorem failReset_within (s : State) (cold : Prop) [Decidable cold] :
    Within s.port.hold (if cold then portReset s else coreReset s false 1).port.hold := by
  split
  · exact portReset_within s
  · exact coreReset_within s false 1

theorem startFail_within (s : State) (code : ℕ) : Within s.port.hold (startFail s code).port.hold := by
  unfold startFail
  split
  · exact .refl _
  next r _ =>
  extract_lets cold recorded counted left retained asleep reset start u
  have hasleep : asleep.port.hold = s.port.hold := by
    have hcounted : counted.port.hold = s.port.hold := by simp [counted, recorded]
    clear_value counted
    have hleft : left.port.hold = s.port.hold := by
      dsimp only [left]
      split <;> simp [hcounted]
    clear_value left
    simp only [asleep, retained, ite_hold, setFld_hold, hleft, ite_self]
  have hreset : Within s.port.hold reset.port.hold := .after_eq hasleep (failReset_within asleep _)
  split
  · exact hreset.trans_eq (exhaust_hold u)
  · exact hreset

theorem bootFail_within (s : State) (code startCode : ℕ) : Within s.port.hold (bootFail s code startCode).port.hold := by
  unfold bootFail
  split
  · exact .of_eq (bootFrom_hold ..)
  · exact .after_eq (by simp) (startFail_within ..)

theorem bootBegin_within (s : State) : Within s.port.hold (bootBegin s).port.hold := by
  unfold bootBegin
  extract_lets thread u src boot w
  have hu : u.port.hold = s.port.hold := by simp [u]
  have hw : w.port.hold = s.port.hold := by simp [w, hu]
  clear_value u w
  split
  · split
    · exact .after_eq hw (bootFail_within ..)
    · exact .of_eq (by simp [hw])
  · exact .of_eq (by simp [hu])

theorem bootStep_within (s : State) : Within s.port.hold (bootStep s).1.port.hold := by
  unfold bootStep
  split
  · exact bootFail_within ..
  dsimp only
  split
  · exact .of_eq (by simp)
  split
  · exact .after_eq (by simp) (bootFail_within ..)
  split
  · exact .after_eq (by simp) (bootFail_within ..)
  split
  · exact .of_eq (by simp)
  split
  · exact .after_eq (by simp) (bootFail_within ..)
  · exact .of_eq (by simp)

theorem ruleStep_within (s : State) : Within s.port.hold (ruleStep s).1.port.hold := by
  unfold ruleStep
  split
  · exact bootFail_within ..
  split
  · exact bootFail_within ..
  dsimp only
  split
  · exact .of_eq (by simp)
  split
  · exact .after_eq (by simp) (bootFail_within ..)
  · exact .of_eq (by simp)

theorem libStep_within (s : State) : Within s.port.hold (libStep s).1.port.hold := by
  unfold libStep
  split
  · exact bootFail_within ..
  dsimp only
  split
  · exact .of_eq (by simp)
  split
  · exact .after_eq (by simp) (bootFail_within ..)
  · exact .of_eq (by simp)

theorem discStep_within (s : State) (r : StartRun) : Within s.port.hold (discStep s r).1.port.hold := by
  unfold discStep
  split
  · split
    · exact .refl _
    · exact .of_eq (by simp)
  split
  · split
    · exact .refl _
    dsimp only
    split
    · exact .of_eq (by simp)
    · exact .after_eq (by simp) (startFail_within ..)
  · exact libStep_within s

theorem startService_within (s : State) (r : StartRun) : Within s.port.hold (startService s r).port.hold := by
  unfold startService
  extract_lets stepped settled told raised again
  have htold : told.port.hold = s.port.hold := by simp [told, settled, stepped]
  clear_value told
  have hraised : raised.port.hold = told.port.hold := foldl_hold _ (fun u m => by split <;> simp) _ told
  clear_value raised
  rw [foldl_hold _ (fun u p => regrant_hold u p)]
  exact .after_eq (by simp [hraised, htold]) (presentAgain_within ..)

theorem startStep_within (s : State) (r : StartRun) : Within s.port.hold (startStep s r).1.port.hold := by
  unfold startStep
  dsimp only
  split
  · split <;> exact .of_eq (by simp)
  · split
    · exact .of_eq (by simp)
    · exact .after_eq (by simp) (startFail_within ..)
  · exact .after_eq (by split <;> simp) (bootBegin_within _)
  · exact bootStep_within s
  · exact ruleStep_within s
  · split
    · exact (discStep_within s r).trans_eq (by simp)
    · exact discStep_within s r
  · split
    · exact .refl _
    split
    · exact .of_eq (by simp)
    · exact .of_eq (by simp [replayBegin])
  · split
    · exact .refl _
    · exact startService_within s r
  · exact .refl _

theorem startRunOn_within (fuel : ℕ) (s : State) : Within s.port.hold (startRunOn fuel s).port.hold := by
  induction fuel generalizing s with
  | zero => exact .refl _
  | succ fuel ih =>
    rw [startRunOn]
    split
    · exact .refl _
    dsimp only
    split
    · exact .refl _
    split
    · exact (startStep_within ..).trans (ih _)
    · exact startStep_within ..

theorem startPoll_within (s : State) : Within s.port.hold (startPoll s).port.hold := startRunOn_within 16 s

/-! ### Agents that leave -/

theorem refuseHeld_within (s : State) (h : ℕ) : Within s.port.hold (refuseHeld s h).port.hold := by
  unfold refuseHeld
  extract_lets v dropped freed
  have hfreed : freed.port.hold = s.port.hold := by
    dsimp only [freed, dropped]
    split <;> simp
  clear_value freed
  exact .after_eq (by simp [hfreed]) (freeHold_within ..)

theorem refuseAgent_within (s : State) (a : ℕ) : Within s.port.hold (refuseAgent s a).port.hold := by
  refine foldl_within _ (fun t h => ?_) _ s
  split
  · exact refuseHeld_within ..
  · exact .refl _

theorem closeAgent_within (s : State) (a : ℕ) : Within s.port.hold (closeAgent s a).port.hold := by
  unfold closeAgent
  extract_lets port closing closed refused
  have hclosed : closed.port.hold = s.port.hold := foldl_hold _ (fun t e => by split <;> simp) _ closing
  clear_value closed
  exact .after_eq hclosed (refuseAgent_within closed a)

theorem reclaimRun_within (s : State) (a : ℕ) : Within s.port.hold (reclaimRun s a).port.hold :=
  (closeAgent_within s a).trans_eq (by simp [reclaimRun])

theorem reclaimPoll_within (fuel : ℕ) (s : State) : Within s.port.hold (reclaimPoll fuel s).port.hold := by
  induction fuel generalizing s with
  | zero => exact .refl _
  | succ fuel ih =>
    rw [reclaimPoll]
    split
    · exact .refl _
    split
    · split
      · exact reclaimRun_within ..
      · dsimp only
        split
        · exact .of_eq (by simp)
        · exact .after_eq (by simp) (ih _)
    · split
      · exact .refl _
      split
      · exact .refl _
      next a cause l _ =>
        extract_lets port popped st
        split
        · exact .after_eq (startReclaim_hold popped a cause) (ih _)
        · exact ih popped

theorem releasePoll_within (s : State) : Within s.port.hold (releasePoll s).port.hold := by
  unfold releasePoll
  split
  · exact .refl _
  next c hcmd =>
  extract_lets a u
  split
  · exact .refl _
  split
  · exact .of_eq (by simp)
  have hu : u.port.hold = s.port.hold := by
    dsimp only [u]
    (repeat' split) <;> simp
  clear_value u
  split
  · split
    · rw [cmdEnd_hold]
      exact .after_eq (by simp [hu]) (refuseAgent_within (agtWriteState u a 0) a)
    · exact .of_eq hu
  · exact .of_eq hu

theorem toLive_within (s : State) (a : ℕ) : Within s.port.hold (toLive s a).port.hold := by
  unfold toLive
  extract_lets u
  refine .after_eq (m := u.port.hold) (agtWriteState_hold ..) (foldl_within _ (fun t h => ?_) _ u)
  dsimp only
  split
  · exact setHoldE_within id
  · exact presentHold_within ..

theorem bindPoll_within (s : State) : Within s.port.hold (bindPoll s).port.hold := by
  unfold bindPoll
  split
  · dsimp only
    split
    · exact .refl _
    split
    · exact .of_eq (by simp)
    split
    · exact (toLive_within ..).trans_eq (cmdEnd_hold ..)
    · exact .refl _
  · exact .refl _

theorem agentPoll_within (s : State) : Within s.port.hold (agentPoll s).port.hold :=
  ((bindPoll_within s).trans (releasePoll_within _)).trans (.after_eq (by simp) (reclaimPoll_within 64 _))

/-! ### What goes on by itself -/

theorem polls_within (s : State) : Within s.port.hold (polls s).port.hold := by
  unfold polls
  extract_lets u
  have hu : u.port.hold = s.port.hold := by
    rw [foldl_hold _ (fun t r => bulkPoke_hold t r)]
    simp
  clear_value u
  have hagents : Within s.port.hold (agentPoll (drainPoll (sweepPoll u))).port.hold :=
    .after_eq (by simp [hu]) (agentPoll_within _)
  exact hagents.trans (.after_eq (by simp) (startPoll_within _))

theorem rounds_within (n : ℕ) (s : State) : Within s.port.hold (rounds n s).port.hold := by
  induction n generalizing s with
  | zero => exact .refl _
  | succ n ih =>
    rw [rounds]
    split
    · exact .refl _
    · exact ((polls_within s).trans (settle_within _)).trans (ih _)

/-- Nothing that goes on by itself after a command takes a hold slot (R74). -/
theorem finish_within (s : State) : Within s.port.hold (finish s).port.hold := by
  rw [finish, sampleIrq_port]
  split
  · exact .refl _
  · exact (settle_within s).trans (rounds_within 3 _)

end Sys2Proof.Machine

namespace Sys2Proof.Machine

/-! Two statements fail where a request holds its slot after the command and the statement has the slot free: nothing that
goes on by itself takes a slot. -/

/-- A slot in use after what follows a command was in use before it. -/
theorem holdE_used_of_finish {s : State} {k : ℕ} (h : ((finish s).holdE k).used = true) : (s.holdE k).used = true :=
  (finish_within s).held k h

/-- Where the block rests after a command's own effect, a slot then in use is in use in every state that a statement names for
that effect. -/
theorem holdE_used_of_completes {c : Instr} {s t : State} {P : State → Prop} (hrun : exec c s = .next (finish t))
    (hrest : restful t = true) {k : ℕ} (hk : (t.holdE k).used = true) (h : Completes c s P) :
    ∃ u, P u ∧ (u.holdE k).used = true := by
  obtain ⟨u, hexec, hP⟩ := h
  have hsame : finish t = finish u := Host.Outcome.next.inj (hrun.symm.trans hexec)
  refine ⟨u, hP, holdE_used_of_finish ?_⟩
  rw [← hsame, finish_restful t hrest, State.holdE, sampleIrq_port]
  exact hk

/-! ### An accepted request whose cluster's crossing queue is full -/

/-- A header of agent 5 for line 0x40. -/
def someHdr : Hdr := ⟨5, 0x40, 7, 0, 0, 0, 0, false, 0, 0⟩

/-- Cluster 0 tells that the request of slot 0 is accepted, and 16 entries of it wait for their release (R20, R21). MODE is
SERVICE, PORT and CORE are up, and the rest is as after reset. -/
def relFullState : State :=
  { State.reset with
    vaux := true, portUp := true, coreUp := true, regs := [(RegName.MODE.addr 0 0, 4)]
    port := { port0 with
      hold := [(0, ⟨true, 1, someHdr, 5, none, 0, 0, .presented, 0⟩)]
      notices := [(0, [.accept 20 0 1])], rel := [(0, List.replicate 16 16)] } }

theorem relFullState_intact : Intact relFullState := by
  have hcluster : ∀ c, c < 16 → ∀ x, x < 5 → relFullState.fld Fld.CL_INJ_ARM c x = 0 := by decide +kernel
  exact ⟨rfl, rfl, by decide +kernel, fun c x hc hx => hcluster c hc x hx, by decide +kernel, by decide +kernel,
    by decide +kernel⟩

/-- Refutes O27: an accept notice waits while its cluster's crossing queue of releases holds 16 entries (R20, R21), so that
the request of `relFullState` keeps its hold slot, which the first part has freed. -/
theorem not_noticesAndHeldRequests : ¬ Obligations.NoticesAndHeldRequests := by
  unfold Obligations.NoticesAndHeldRequests
  intro h
  obtain ⟨haccept, -⟩ := h.1 0 relFullState rfl ⟨rfl, rfl, rfl, by decide +kernel⟩ relFullState_intact rfl
  have hfreed := haccept 20 0 1 [] (by decide +kernel) (by decide +kernel)
  have hrun : exec (.acceptanceNotice 0) relFullState = .next (finish (freshOut relFullState)) :=
    run_next (fun s => noticeRow isAccept s 0) relFullState rfl
  obtain ⟨u, ⟨-, hfree, -⟩, hused⟩ := holdE_used_of_completes hrun (by decide +kernel) (k := 0) (by decide +kernel) hfreed
  rw [hfree] at hused
  exact absurd hused (by decide)

/-! ### A request where the map of ports lists a port twice -/

/-- Port 5 is listed with one REQ credit and no more, and then again with a REQ that waits. Agent 5 of tenant 1 is in
BINDING, address map entry 0 is of tenant 1 and window 0 is homed here. MODE is SERVICE, PORT and CORE are up, and the rest is
as after reset. -/
def portTwice : State :=
  { State.reset with
    vaux := true, portUp := true, coreUp := true, agt := [(5, 1 + 256)]
    regs := [(RegName.MODE.addr 0 0, 4), (RegName.HMAP.addr 0 0, 2 ^ 18), (RegName.AMAP.addr 0 0, 1 + 1 * 4 + 3 * 2 ^ 14)]
    port := { port0 with fp := [(5, { fp0 with reqCred := 1 }), (5, { fp0 with reqQ := [⟨1, someHdr, none, 0⟩] })] } }

theorem portTwice_intact : Intact portTwice := by
  have hcluster : ∀ c, c < 16 → ∀ x, x < 5 → portTwice.fld Fld.CL_INJ_ARM c x = 0 := by decide +kernel
  exact ⟨rfl, rfl, by decide +kernel, fun c x hc hx => hcluster c hc x hx, by decide +kernel, by decide +kernel,
    by decide +kernel⟩

theorem portTwice_passes : PassesIngress portTwice someHdr := by
  unfold PassesIngress
  decide +kernel

/-- Refutes O24: the statement asks whether a REQ waits on a port before the request has taken its credit, the model
afterwards. In `portTwice`, whose map of ports names port 5 twice, this credit is all that the first place of port 5 holds, so
that writing it drops both places: no REQ waits any more, and the request takes slot 0, which the statement leaves free. -/
theorem not_requestsAreHeldAndPresented : ¬ Obligations.RequestsAreHeldAndPresented := by
  unfold Obligations.RequestsAreHeldAndPresented
  intro h
  obtain ⟨⟨-, hpool⟩, -⟩ := h 5 someHdr 0 portTwice rfl ⟨rfl, rfl, rfl, by decide +kernel⟩ portTwice_intact portTwice_passes
    (by decide +kernel)
  have hwaits : ¬ ∀ e ∈ portTwice.port.fp, e.2.reqQ = [] := by decide
  have hpooled := hpool (.inl fun hopen => hwaits hopen.2)
  have hrun : exec (.rdS 5 someHdr) portTwice = .next (finish (rxReqRow (freshOut portTwice) 5 0x01 someHdr none)) :=
    run_next (fun s => rxReqRow s 5 0x01 someHdr none) portTwice rfl
  obtain ⟨u, ⟨⟨-, hhold, -⟩, -⟩, hused⟩ :=
    holdE_used_of_completes hrun (by decide +kernel) (k := 0) (by decide +kernel) hpooled
  rw [State.holdE, hhold] at hused
  exact absurd hused (by decide)

end Sys2Proof.Machine

namespace Sys2Proof.Machine

/-! The statement about the failure and adoption of slice logics fails where the word of the repair record that a failed logic
writes holds a stored error (R121, R374, R379). -/

/-- The word of the Lehr SRAM with cluster 0's slice map has a bad bit, and the boot program has not run: BOOT_STATUS.CODE is
0. MODE is SERVICE, PORT and CORE are up, and the rest is as after reset: logic 8 of cluster 0 is its spare. -/
def mapWordBad : State :=
  { State.reset with
    vaux := true, portUp := true, coreUp := true, regs := [(RegName.MODE.addr 0 0, 4)]
    integ := { mask := [(wordKey .lehr 0 (repMap 0), 1)], pq := [], inj := [] } }

/-- What the failure of the spare leaves: it is marked in CL_SPARE and in the repair record, whose word is written whole. -/
def mapWordMarked : State := logicParError (freshOut mapWordBad) 8

/-- A change of reports, of the repair record and of registers other than MODE and those that say whether the image's programs
are up leaves an idle block idle. -/
theorem Idle.of_marked {s u : State} {l : List Nat} (h : Idle s)
    (hu : u = { s with regs := u.regs, fault := u.fault, repair := u.repair }) (hregs : RegsBut s u l)
    (hmode : RegName.MODE.addr 0 0 ∉ l) (hboot : RegName.BOOT_STATUS.addr 0 0 ∉ l) (hstep : RegName.START_STATUS.addr 0 0 ∉ l) :
    Idle u := by
  obtain ⟨hwork, hfrz, hswap, hsl, hthr, hbulk, hwalks, hm, hdr, hcmd, hrun, hprogs⟩ := h
  have hmode' : u.mode = s.mode := by
    rw [State.mode, State.mode, hregs.fld Fld.MODE_CUR 0 0 hmode, hu]
  have hprogs' : progsUp u = progsUp s := by
    rw [progsUp, progsUp, hregs.fld Fld.BOOT_STATUS_CODE 0 0 hboot, hregs.fld Fld.START_STATUS_STEP 0 0 hstep, hu]
  refine ⟨?_, ?_, ?_, ?_, ?_, ?_, ?_, hmode' ▸ hm, ?_, ?_, ?_, hprogs'.trans hprogs⟩ <;> rw [hu] <;> assumption

theorem mapWordBad_idle : Idle (freshOut mapWordBad) :=
  ⟨rfl, rfl, rfl, rfl, rfl, rfl, rfl, by decide +kernel, rfl, rfl, rfl, by decide +kernel⟩

theorem mapWordMarked_idle : Idle mapWordMarked := by
  unfold Idle
  decide +kernel

/-- Refutes O31: the second part lists what the failure of a cluster's spare changes and leaves the state of the stored bits
out. The repair record's word is written with fresh check bits (R374), so that in `mapWordBad` its bad bit is gone, which the
statement has stay. -/
theorem not_sliceLogics : ¬ Obligations.SliceLogics := by
  unfold Obligations.SliceLogics
  intro h
  obtain ⟨-, hspare, -⟩ := h mapWordBad rfl rfl rfl
  have hserves : ∀ k, k < 8 → bits (mapWordBad.fld Fld.CL_SLMAP_POS 0) (4 * k) 4 ≠ 8 := by decide +kernel
  obtain ⟨u, hexec, hu, -, -, -, -, hregs⟩ := hspare 8 (by decide) hserves (by decide +kernel)
  have hrun : exec (.logicParError 8) mapWordBad = .next (finish mapWordMarked) :=
    run_next (fun s => logicParError s 8) mapWordBad rfl
  have hidle : Idle u := mapWordBad_idle.of_marked hu hregs (by decide) (by decide) (by decide)
  have hfinish : finish mapWordMarked = finish u := Host.Outcome.next.inj (hrun.symm.trans hexec)
  rw [finish_of_idle mapWordMarked_idle, finish_of_idle hidle] at hfinish
  have hinteg : mapWordMarked.integ = u.integ := by rw [← sampleIrq_integ, hfinish, sampleIrq_integ]
  have hkept : u.integ = mapWordBad.integ := by
    rw [hu]
    rfl
  have hclean : mapWordMarked.integ.mask = [] := by decide +kernel
  rw [hinteg, hkept] at hclean
  exact absurd hclean (by decide)

end Sys2Proof.Machine

namespace Sys2Proof.Machine

/-! SUPPORT. What a slice does as it issues a message of its own: its counters (R529), the entry it writes to the tracker store
(R374), and the collectors that its reports pass (R394, R424). -/

/-! ### The counters of a slice logic -/

theorem RegsKept.fld {s u : State} (h : RegsKept s u) (f : Fld) (i j : Nat) (hf : isCntOff (f.reg.addr i j) = false) :
    u.fld f i j = s.fld f i j := congrArg f.get (h _ _ hf)

theorem isCntOff_slCnt {l k : Nat} (hl : l < 144) (hk : k < 8) : isCntOff (RegName.SL_TEL_CNT.addr l k) = true := by
  have haddr : RegName.SL_TEL_CNT.addr l k = 0x4000A0 + 0x4000 * l + 8 * k := rfl
  rw [haddr]
  simp only [isCntOff, Bool.or_eq_true, Bool.and_eq_true, decide_eq_true_eq]
  omega

section
variable {l : Nat} (hl : l < 144)
include hl

theorem kept_slFixed (s : State) {k : Nat} (hk : k < 8) : RegsKept s (slFixed s l k) :=
  kept_bump s _ _ _ _ _ (isCntOff_slCnt hl hk) (isCntOff_slCnt hl hk)

theorem kept_slEvent (s : State) (ev : Nat) : RegsKept s (slEvent s l ev) := by
  refine List.foldlRecOn (motive := fun t => RegsKept s t) _ _ (kept_refl s) fun t ht k hk => ?_
  have hk' : k < 8 := Nat.lt_trans (List.mem_range.1 hk) (by decide)
  split
  · exact kept_trans ht (kept_bump t _ _ _ _ _ (isCntOff_slCnt hl hk') (isCntOff_slCnt hl hk'))
  · exact ht

end

/-- `u` is `s` but for telemetry: counters, and the request for a freeze that a counter's value makes (R534, R540). -/
def Counted (s u : State) : Prop := u = { s with regs := u.regs, frzReq := u.frzReq } ∧ RegsKept s u

theorem Counted.trans {s t u : State} (h : Counted s t) (k : Counted t u) : Counted s u := by
  obtain ⟨ht, hregs⟩ := h
  obtain ⟨hu, hregs'⟩ := k
  exact ⟨by rw [hu, ht], kept_trans hregs hregs'⟩

theorem counted_slEvent {l : Nat} (hl : l < 144) (s : State) (ev : Nat) : Counted s (slEvent s l ev) :=
  ⟨ticked_slEvent s l ev, kept_slEvent hl s ev⟩

theorem counted_slFixed {l : Nat} (hl : l < 144) (s : State) {k : Nat} (hk : k < 8) : Counted s (slFixed s l k) :=
  ⟨ticked_slFixed s l k, kept_slFixed hl s hk⟩

theorem isCntOff_cluster (c : Nat) : isCntOff (RegName.CL_SLMAP.addr c 0) = false ∧ isCntOff (RegName.CL_INJ.addr c 0) = false := by
  have hmap : RegName.CL_SLMAP.addr c 0 = 0x100100 + 0x10000 * c := by simp [RegName.addr, RegName.desc]
  have hinj : RegName.CL_INJ.addr c 0 = 0x100404 + 0x10000 * c := by simp [RegName.addr, RegName.desc]
  rw [hmap, hinj]
  simp only [isCntOff, Bool.or_eq_false_iff, Bool.and_eq_false_iff, decide_eq_false_iff_not]
  omega

theorem Counted.logicOf {s u : State} (h : Counted s u) (n : Nat) : logicOf u n = logicOf s n := by
  rw [Machine.logicOf, Machine.logicOf, h.2.fld Fld.CL_SLMAP_POS (n / 8) 0 (isCntOff_cluster _).1]

/-! ### An entry in the tracker store -/

/-- `u` is `s` with entry `t` written at `tid` and at work. -/
def EntryPut (s u : State) (tid : Nat) (t : Trk) : Prop :=
  u = { s with regs := u.regs, integ := u.integ, sl := (s.setTrkE tid t).sl, work := s.work ++ [.trk tid] }

theorem entryPut_putEntry (s : State) (tid : Nat) (t : Trk) : EntryPut s (putEntry s tid t) tid t := by
  obtain ⟨r, g, hg⟩ := wordWritten_eq (s.setTrkE tid t) .trk (logicOf s (tid / 512)) (tid % 512)
  unfold EntryPut putEntry
  rw [hg]
  rfl

/-- While the injector of the cluster's trackers is not armed, an entry that is written changes no register (R383). -/
theorem regs_putEntry {s : State} (hmask : s.integ.mask = []) {tid : Nat} (t : Trk)
    (harm : s.fld Fld.CL_INJ_ARM (logicOf s (tid / 512) / 9) 0 = 0) : (putEntry s tid t).regs = s.regs := by
  obtain ⟨g, hg⟩ := wordWritten_of_intact (s := s.setTrkE tid t) hmask .trk (logicOf s (tid / 512)) (tid % 512)
    (fun h1 => absurd (harm.symm.trans h1) (by decide))
  unfold putEntry
  rw [hg]
  rfl

theorem Intact.congr {s u : State} (h : Intact s) (hregs : u.regs = s.regs) (hinteg : u.integ = s.integ) : Intact u := by
  simp only [Intact, fld_congr hregs, hinteg]
  exact h

theorem logicOf_congr {s u : State} (h : u.regs = s.regs) (n : Nat) : logicOf u n = logicOf s n := by
  rw [logicOf, logicOf, fld_congr h]

/-- An entry that a slice writes once counters have moved changes no register more. -/
theorem Counted.regs_putEntry {s v : State} (h : Counted s v) (hs : Intact s) {n e : Nat} (hn : Machine.logicOf s n < 144)
    (he : e < 512) (t : Trk) : (putEntry v (n * 512 + e) t).regs = v.regs := by
  obtain ⟨hmask, -, -, harm, -⟩ := hs
  have hslice : (n * 512 + e) / 512 = n := by omega
  refine Machine.regs_putEntry (by rw [h.1]; exact hmask) t ?_
  rw [hslice, h.logicOf, h.2.fld Fld.CL_INJ_ARM _ 0 (isCntOff_cluster _).2]
  exact harm _ _ (by omega) (by decide)

section
variable {s u : State} {tid : Nat} {t : Trk} (h : EntryPut s u tid t)
include h

theorem EntryPut.trkE_self : u.trkE tid = t := by
  rw [h]
  exact trkE_setTrkE s tid t

theorem EntryPut.trkE_ne {k : Nat} (hk : k ≠ tid) : u.trkE k = s.trkE k := by
  rw [h]
  exact SMap.getD_set_ne _ _ _ _ _ hk

end

/-! ### The issue of a class -/

/-- Slice `n`'s queues once it has issued a message of a class (R101, R119). -/
theorem slq_slIssued (s : State) (n cls : Nat) : (slIssued s n cls).slq n = { s.slq n with
    wdog := s.now
    reqPass := if cls = 3 ∨ reqElig s n = false then 0 else (s.slq n).reqPass + 1
    mntPass := if cls = 4 ∨ mntElig s n = false then 0 else (s.slq n).mntPass + 1 } := by
  unfold slIssued
  rw [slq_setSlq]
  simp only [Bool.not_eq_true']

theorem lowestFree_bounds {used : List Nat} {n k e : Nat} (h : lowestFree used n k = some e) : k ≤ e ∧ e < k + n := by
  induction n generalizing k with
  | zero => cases h
  | succ n ih =>
    rw [lowestFree] at h
    split at h
    · have := ih h
      omega
    · cases h
      omega

/-- An entry number names an entry of one slice (R104). -/
theorem allocEntry_lt {s : State} {n cls e : Nat} (h : allocEntry s n cls = some e) : e < 512 := by
  have hpool : ∀ {k m : Nat}, k + m ≤ 512 → ∀ x, (lowestFree (usedEntries s n) k m).orElse (fun _ =>
      if s.fld Fld.SL_CTL_BORROW_LVL (logicOf s n) < sharedFree s n then lowestFree (usedEntries s n) 464 16 else none) = some x →
      x < 512 := fun {k m} hkm x hx => by
    cases hown : lowestFree (usedEntries s n) k m with
    | some y =>
      rw [hown] at hx
      cases hx
      have := lowestFree_bounds hown
      omega
    | none =>
      rw [hown, Option.orElse_none] at hx
      split at hx
      · have := lowestFree_bounds hx
        omega
      · cases hx
  match cls, h with
  | 0, h =>
    have := lowestFree_bounds h
    omega
  | 1, h => exact hpool (by decide) e h
  | _ + 2, h => exact hpool (by decide) e h

/-! ### Reports of a slice logic -/

theorem regsBut_lcLatch (s : State) {valid ovf injF codeF subjF timeF : Fld} {first time : RegName} {i : Nat}
    (hfirst : ∀ f ∈ [valid, ovf, injF, codeF, subjF], f.reg = first) (htime : timeF.reg = time) (code subject : Nat) (inj : Bool) :
    RegsBut s (lcLatch s valid ovf injF codeF subjF timeF i code subject inj) [first.addr i 0, time.addr i 0] := by
  have hset : ∀ (t : State) (f : Fld) (v : Nat), f.reg = first ∨ f.reg = time →
      RegsBut t (t.setFld f v i) [first.addr i 0, time.addr i 0] := fun t f v hf =>
    (regsBut_setFld t f v i 0).mono (by rcases hf with hf | hf <;> simp [hf])
  simp only [List.forall_mem_cons] at hfirst
  obtain ⟨hvalid, hovf, hinj, hcode, hsubj, -⟩ := hfirst
  unfold lcLatch
  split
  · exact ((((((hset _ _ _ (.inl hvalid)).trans (hset _ _ _ (.inl hcode))).trans (hset _ _ _ (.inl hinj))).trans
      (hset _ _ _ (.inl hsubj))).trans (hset _ _ _ (.inl hovf))).trans (hset _ _ _ (.inr htime)))
  · split
    · exact RegsBut.refl s _
    · exact hset _ _ _ (.inl hovf)

/-- A report of a slice logic writes the collectors it passes and no other register (R394). -/
theorem regsBut_raiseN_slice (s : State) (l code subject count : Nat) (inj : Bool) (dom : Dom) :
    RegsBut s (raiseN s (.slice l) code subject count inj dom) (SliceLc l) := by
  have hregion : l / 36 = l / 9 / 4 := (Nat.div_div_eq_div_mul l 9 4).symm
  have hslice : RegsBut s (lcSlice s l code subject inj) (SliceLc l) :=
    (regsBut_lcLatch s (first := .SLC_FIRST) (time := .SLC_TIME) (by simp) rfl code subject inj).mono (by simp [SliceLc])
  have hcluster : ∀ t, RegsBut t (lcCluster t (l / 9) code subject inj) (SliceLc l) := fun t =>
    (regsBut_lcLatch t (first := .CLC_FIRST) (time := .CLC_TIME) (by simp) rfl code subject inj).mono
      (by simp [SliceLc, ClusterLc])
  have hreg : ∀ t, RegsBut t (lcRegion t (l / 36) code subject inj) (SliceLc l) := fun t =>
    (regsBut_lcLatch t (first := .RLC_FIRST) (time := .RLC_TIME) (by simp) rfl code subject inj).mono
      (by simp [SliceLc, ClusterLc, RegionLc, hregion])
  exact (hslice.trans (hcluster _)).trans (hreg _)

/-- Where the collectors stand that a report of a slice logic passes. -/
theorem mem_sliceLc {k l : Nat} : k ∈ SliceLc l ↔ k = 0x400040 + 0x4000 * l ∨ k = 0x400044 + 0x4000 * l ∨
    k = 0x100500 + 0x10000 * (l / 9) ∨ k = 0x100504 + 0x10000 * (l / 9) ∨ k = 0x20800 + 16 * (l / 9 / 4) ∨
    k = 0x20804 + 16 * (l / 9 / 4) := by
  simp only [SliceLc, ClusterLc, RegionLc, RegName.addr, RegName.desc, List.mem_append, List.mem_cons, List.not_mem_nil, or_false,
    Nat.zero_mul, Nat.add_zero, or_assoc]

/-- An error of a slice logic is noted in SL_ERR and reported (R127, R394). -/
structure SlReported (s : State) (l code subject : Nat) (f : Fld) (v : State) : Prop where
  frame : v = { s with regs := v.regs, fault := v.fault }
  held : Reported v code subject
  error : v.fld f l = 1
  regs : RegsBut s v (RegName.SL_ERR.addr l 0 :: SliceLc l)

theorem slReported_raiseN (s : State) (l : Nat) {f : Fld} (hf : f.reg = .SL_ERR) (hbit : f.hi = f.lo)
    (h64 : f.hi < 64) (code subject : Nat) :
    SlReported s l code subject f (raiseN (s.setFld f 1 l) (.slice l) code subject 1 false .core) := by
  have herr := regsBut_setFld s f 1 l 0
  have hone := fld_setFld_same s f 1 l 0 h64
  have hframe : s.setFld f 1 l = { s with regs := (s.setFld f 1 l).regs } := rfl
  generalize s.setFld f 1 l = w at *
  have hreport := regsBut_raiseN_slice w l code subject 1 false .core
  obtain ⟨r, e, hraise⟩ := raiseN_eq w (.slice l) code subject 1 false .core
  refine ⟨?_, reported_raiseN w _ _ _ _, ?_, fun d k hk => ?_⟩
  · rw [hraise, hframe]
  · rw [hreport.fld, hone, hbit, Nat.add_sub_cancel_left]
    · rfl
    · rw [hf, mem_sliceLc]
      simp only [RegName.addr, RegName.desc]
      omega
  · rw [List.mem_cons, not_or] at hk
    rw [hreport d k hk.2, herr d k (by simpa [hf] using hk.1)]

end Sys2Proof.Machine

namespace Sys2Proof.Machine

/-! The statement about directory evictions and the guard of a reservation (R104, R109, R116, R155). -/

/-! ### The eviction that is taken -/

/-- The word that a waiting eviction names, and the line it gives up: a fine word's, or a coarse word's first. -/
def evWord (s : State) (n : Nat) (e : EvMsg) : CabW := decodeCab (drawerW s n (e.set * 16 + e.way))
def evLine (s : State) (n : Nat) (e : EvMsg) : Nat :=
  let c := evWord s n e
  sectorOfWord e.set c * 16 + if c.grain = 1 then c.loc % 16 else ((List.range 16).find? (fun i => bit1 c.loc i)).getD 0

theorem evGranule_empty {s : State} {n : Nat} {e : EvMsg} (h : (evWord s n e).grain = 0) : evGranule s n e = none := if_pos h

theorem evGranule_some {s : State} {n : Nat} {e : EvMsg} (h : (evWord s n e).grain ≠ 0) :
    evGranule s n e = some (evLine s n e, (evWord s n e).grain == 2) := if_neg h

/-- No other work has the victim granule (R108). -/
def EvClear (s : State) (n : Nat) (e : EvMsg) : Prop :=
  (∀ t ∈ trkOfSlice s n, some (n * 512 + t.1) = e.waiter ∨ meets t.2 (evLine s n e) ((evWord s n e).grain == 2) = false) ∧
  ∀ k ∈ sinksOfSlice s n, k.2.hdr.pa.toNat ≠ evLine s n e ∧
    ((evWord s n e).grain = 2 → sectorOf k.2.hdr.pa.toNat ≠ sectorOf (evLine s n e))

theorem evBusy_eq_false_iff (s : State) (n : Nat) (e : EvMsg) :
    evBusy s n e (evLine s n e) ((evWord s n e).grain == 2) = false ↔ EvClear s n e := by
  simp only [evBusy, EvClear, Bool.or_eq_false_iff, List.any_eq_false, decide_eq_true_eq, beq_iff_eq]
  refine and_congr (forall₂_congr fun t _ => ?_) (forall₂_congr fun k _ => ?_)
  · rw [not_and_or, not_not, Bool.not_eq_true]
  · rw [not_or, not_and]

section
variable {s : State} {n : Nat} {e : EvMsg} {l : List EvMsg} (hq : (s.slq n).evQ = e :: l)
include hq

theorem evElig_empty (h : (evWord s n e).grain = 0) (hiss : sliceIssues s n = true) : evElig s n = true := by
  rw [evElig, hq]
  dsimp only
  rw [evGranule_empty h, hiss]
  rfl

/-- The eviction of a word can issue where its granule is free and an entry is (R101, R109). -/
theorem evElig_iff (h : (evWord s n e).grain ≠ 0) :
    evElig s n = true ↔ sliceIssues s n = true ∧ EvClear s n e ∧ (allocEntry s n 1).isSome = true := by
  rw [evElig, hq]
  dsimp only
  rw [evGranule_some h]
  simp only [Bool.and_eq_true, Bool.not_eq_true', evBusy_eq_false_iff]

end

/-- Slice `n`'s queues once it has taken the eviction at their head (R101, R119). -/
def evTook (s : State) (n : Nat) (l : List EvMsg) : SliceQ := { s.slq n with
  evQ := l, wdog := s.now
  reqPass := if reqElig s n = true then (s.slq n).reqPass + 1 else 0
  mntPass := if mntElig s n = true then (s.slq n).mntPass + 1 else 0 }

def evPopped (s : State) (n : Nat) (l : List EvMsg) : State :=
  let t := (slIssued s n 2).addWork .daten
  t.setSlq n { t.slq n with evQ := l }

theorem slq_evPopped (s : State) (n : Nat) (l : List EvMsg) : (evPopped s n l).slq n = evTook s n l := by
  have hiss : ((slIssued s n 2).addWork .daten).slq n = (slIssued s n 2).slq n := rfl
  unfold evPopped
  rw [slq_setSlq, hiss, slq_slIssued]
  cases hr : reqElig s n <;> cases hm : mntElig s n <;> simp [evTook, hr, hm]

theorem slq_evPopped_ne (s : State) (l : List EvMsg) {n m : Nat} (h : m ≠ n) : (evPopped s n l).slq m = s.slq m :=
  (SMap.getD_set_ne _ _ _ _ _ h).trans (SMap.getD_set_ne _ _ _ _ _ h)

/-- The entry of an eviction (R106, R155). -/
def evEntry (s : State) (n : Nat) (e : EvMsg) : Trk :=
  let c := evWord s n e
  let line := evLine s n e
  { trk0 with
    valid := true, epoch := activeEpoch s, cls := 1, typ := 0x22, pa := line, sector := c.grain == 2
    cur := c.state, grain := c.grain, mode := s.decMode, uword := encodeCab c
    prog := evictSteps c (match e.waiter with
      | some w => if sectorOf (s.trkE w).pa = sectorOf line then some ((s.trkE w).pa % 16) else none
      | none => none)
    way := some e.way, waiter := e.waiter, msg := e.msg, sub := line % 16, start := s.now, agent := 0xFFFF
    operand := 0x10000, newWay := if e.waiter.isNone then some e.way else none }

/-- The line of the entry that asked, which that entry snoops itself, is one of the victim's own sector (R153). -/
theorem evEntry_prog (s : State) (n : Nat) (e : EvMsg) : (evEntry s n e).prog = evictSteps (evWord s n e)
    (e.waiter.bind fun w => if sectorOf (s.trkE w).pa = sectorOf (evLine s n e) then some ((s.trkE w).pa % 16) else none) := by
  unfold evEntry
  cases e.waiter <;> rfl

theorem dirEvict_idle {s : State} {n : Nat} (h : evElig s n = false ∨ mayIssue s n 2 = false) : dirEvict s n = s := by
  unfold dirEvict
  rw [if_pos (by simpa using h)]

section
variable {s : State} {n : Nat} {e : EvMsg} {l : List EvMsg} (hq : (s.slq n).evQ = e :: l) (helig : evElig s n = true)
  (hmay : mayIssue s n 2 = true)
include hq helig hmay

/-- A way that is empty already is free for the entry that asked (R155). -/
theorem dirEvict_empty (h : (evWord s n e).grain = 0) (hmsg : e.msg = none) :
    dirEvict s n = evDone (evPopped s n l) e.waiter := by
  have hgran : evGranule ((slIssued s n 2).addWork .daten) n e = none := evGranule_empty (s := s) h
  unfold dirEvict
  rw [if_neg (by simp [helig, hmay]), hq]
  dsimp only
  rw [hgran, hmsg]
  rfl

/-- A word takes an entry of the SNP pool (R104, R109). -/
theorem dirEvict_word (h : (evWord s n e).grain ≠ 0) {en : Nat} (ha : allocEntry s n 1 = some en) :
    dirEvict s n = putEntry (slFixed (slEvent (evPopped s n l) (logicOf s n) 10) (logicOf s n) 4) (n * 512 + en)
      (evEntry s n e) := by
  have hgran : evGranule ((slIssued s n 2).addWork .daten) n e = some (evLine s n e, (evWord s n e).grain == 2) :=
    evGranule_some (s := s) h
  have halloc : allocEntry ((slIssued s n 2).addWork .daten) n 1 = some en := ha
  unfold dirEvict
  rw [if_neg (by simp [helig, hmay]), hq]
  dsimp only
  rw [hgran, halloc]
  rfl

end

/-! ### What an eviction leaves -/

/-- The eviction has left the SNP class of its slice, whose other queues and entries are as they were. -/
def EvPopped (s : State) (n : Nat) (l : List EvMsg) (u : State) : Prop :=
  (∀ m, m ≠ n → u.slq m = s.slq m) ∧ u.slq n = evTook s n l

theorem evPopped_popped {s : State} {n : Nat} {l : List EvMsg} {u : State} (h : u.sl.sl = (evPopped s n l).sl.sl) :
    EvPopped s n l u := by
  have hslq : ∀ m, u.slq m = (evPopped s n l).slq m := fun m => congrArg (SMap.getD (fun _ => sliceQ0) · m) h
  exact ⟨fun m hm => (hslq m).trans (slq_evPopped_ne s l hm), (hslq n).trans (slq_evPopped s n l)⟩

theorem evPopped_eq (s : State) (n : Nat) (l : List EvMsg) :
    evPopped s n l = { s with sl := { s.sl with sl := (evPopped s n l).sl.sl }, work := s.work ++ [.daten] } := rfl

theorem evDone_valid {p : State} {w : Nat} (hw : (p.trkE w).valid = true) :
    evDone p (some w) = (p.setTrkE w { p.trkE w with tstate := 0 }).addWork (.trk w) := if_pos hw

/-- An empty way was freed: the entry that asked for it goes on (R155). -/
theorem evDone_evPopped {s : State} {n w : Nat} (l : List EvMsg) (hw : (s.trkE w).valid = true) :
    let u := evDone (evPopped s n l) (some w)
    u = { s with sl := u.sl, work := s.work ++ [.daten, .trk w] } ∧ EvPopped s n l u ∧ u.sl.sinks = s.sl.sinks ∧
      u.trkE w = { s.trkE w with tstate := 0 } ∧ ∀ k, k ≠ w → u.trkE k = s.trkE k := by
  have hpop := evPopped_eq s n l
  have hslice : ∀ u : State, u.sl.sl = (evPopped s n l).sl.sl → EvPopped s n l u := fun u => evPopped_popped
  intro u
  have hu : u = evDone (evPopped s n l) (some w) := rfl
  clear_value u
  generalize evPopped s n l = p at *
  have htrk : ∀ k, p.trkE k = s.trkE k := fun k => by rw [hpop]; rfl
  rw [evDone_valid ((htrk w).symm ▸ hw), htrk w] at hu
  refine ⟨?_, hslice u (by rw [hu]; rfl), by rw [hu, hpop]; rfl, by rw [hu]; exact trkE_setTrkE p w _, fun k hk => ?_⟩
  · rw [List.append_cons, hu, hpop]
    rfl
  · rw [hu]
    exact (SMap.getD_set_ne _ _ _ _ _ hk).trans (htrk k)

/-- An eviction's entry is written: of the registers, counters alone change (R383, R540). -/
theorem entry_evPopped {s : State} (hs : Intact s) {n : Nat} (hlogic : logicOf s n < 144) (l : List EvMsg) {en : Nat}
    (hen : en < 512) (t : Trk) :
    let u := putEntry (slFixed (slEvent (evPopped s n l) (logicOf s n) 10) (logicOf s n) 4) (n * 512 + en) t
    u = { s with
      sl := u.sl, regs := u.regs, integ := u.integ, frzReq := u.frzReq, work := s.work ++ [.daten, .trk (n * 512 + en)] } ∧
    EvPopped s n l u ∧ RegsKept s u ∧ u.trkE (n * 512 + en) = t ∧ ∀ k, k ≠ n * 512 + en → u.trkE k = s.trkE k := by
  have hpop := evPopped_eq s n l
  have hslice : ∀ u : State, u.sl.sl = (evPopped s n l).sl.sl → EvPopped s n l u := fun u => evPopped_popped
  generalize evPopped s n l = p at *
  have hregs : p.regs = s.regs := by rw [hpop]
  have hintact : Intact p := hs.congr hregs (by rw [hpop])
  have hcount := (counted_slEvent hlogic p 10).trans (counted_slFixed hlogic _ (k := 4) (by decide))
  have huregs := hcount.regs_putEntry hintact (n := n) (by rwa [logicOf_congr hregs]) hen t
  have hput := entryPut_putEntry (slFixed (slEvent p (logicOf s n) 10) (logicOf s n) 4) (n * 512 + en) t
  have htrk : p.sl.trk = s.sl.trk := by rw [hpop]
  intro u
  change EntryPut _ u _ _ at hput
  change u.regs = _ at huregs
  clear_value u
  generalize slFixed _ _ _ = v at *
  obtain ⟨hv, hkept⟩ := hcount
  refine ⟨?_, hslice u ?_, ?_, hput.trkE_self, fun k hk => (hput.trkE_ne hk).trans ?_⟩
  · rw [List.append_cons, hput, hv, hpop]
  · rw [hput, hv]
    rfl
  · exact fun d k hk => by rw [huregs, hkept d k hk, hregs]
  · rw [State.trkE, hv, htrk]
    rfl

/-! ### The guard of a reservation -/

/-- Slice `n`'s reservations once the guard of a line has expired with `r` at the head of its count-queue (R116). -/
def guardQueue (s : State) (n line : Nat) (r : Rsv) : SliceQ := { s.slq n with
  cq := (s.slq n).cq.erase r, reserved := (s.slq n).reserved.filter (fun e => e.1 ≠ line) }

/-- The state once the expired guard has been reported. -/
def guardExpired (s : State) (n line dl : Nat) (r : Rsv) : State :=
  let t : State := { s with now := max s.now dl, lehrNow := max s.lehrNow dl }
  let q := t.setSlq n (guardQueue s n line r)
  raiseSlice (q.setFld Fld.SL_ERR_CQ_TMO 1 (logicOf q n)) n 0x21 n

theorem cqGuard_eq {s : State} {n line dl : Nat} {r : Rsv}
    (hres : (s.slq n).reserved.find? (fun e => e.1 = line) = some (line, dl)) (hdl : dl ≠ 0) (hhead : cqHead s n line = some r) :
    cqGuard s n line =
      if isReserved (reserveLine (guardExpired s n line dl r) n line) n line then reserveLine (guardExpired s n line dl r) n line
      else State.notify (reserveLine (guardExpired s n line dl r) n line) (n / 8) (.rsvFree n line) := by
  have hhead' : cqHead { s with now := max s.now dl, lehrNow := max s.lehrNow dl } n line = some r := hhead
  unfold cqGuard
  dsimp only
  rw [hres]
  dsimp only
  rw [if_neg hdl, hhead']
  rfl

/-- What an expired guard leaves before its line is reserved again: the report, and the slice's reservations. -/
structure GuardExpired (s : State) (n line dl : Nat) (r : Rsv) (v : State) : Prop where
  frame : v = { s with
    now := max s.now dl, lehrNow := max s.lehrNow dl, sl := { s.sl with sl := v.sl.sl }, regs := v.regs, fault := v.fault }
  reported : Reported v 0x21 n
  error : v.fld Fld.SL_ERR_CQ_TMO (logicOf s n) = 1
  regs : RegsBut s v (RegName.SL_ERR.addr (logicOf s n) 0 :: SliceLc (logicOf s n))
  slq : v.slq n = guardQueue s n line r
  slq_ne : ∀ m, m ≠ n → v.slq m = s.slq m

theorem guardExpired_spec (s : State) {n : Nat} (hn : n < 128) (line dl : Nat) (r : Rsv) :
    GuardExpired s n line dl r (guardExpired s n line dl r) := by
  have hl := logicOf_lt s hn
  unfold guardExpired
  extract_lets t q
  have hq : q = { s with
      now := max s.now dl, lehrNow := max s.lehrNow dl, sl := { s.sl with sl := q.sl.sl } } := rfl
  have hslq : q.slq n = guardQueue s n line r := slq_setSlq t n _
  have hslq_ne : ∀ m, m ≠ n → q.slq m = s.slq m := fun m hm => SMap.getD_set_ne _ _ _ _ _ hm
  clear_value q
  have hregs : q.regs = s.regs := by rw [hq]
  have hlogic : logicOf q n = logicOf s n := logicOf_congr hregs n
  have hlogic' : logicOf (q.setFld Fld.SL_ERR_CQ_TMO 1 (logicOf s n)) n = logicOf s n := by
    rw [← hlogic, logicOf, logicOf, fld_setFld_ne]
    simp only [RegName.addr, RegName.desc]
    omega
  rw [hlogic, raiseSlice, hlogic']
  obtain ⟨hv, hheld, herr, hbut⟩ := slReported_raiseN q (logicOf s n) (f := Fld.SL_ERR_CQ_TMO) rfl rfl (by decide) 0x21 n
  generalize raiseN _ _ _ _ _ _ _ = v at *
  have hsl : v.sl = q.sl := by rw [hv]
  refine ⟨?_, hheld, herr, fun d k hk => (hbut d k hk).trans (by rw [hregs]), (slq_of_sl hsl n).trans hslq,
    fun m hm => (slq_of_sl hsl m).trans (hslq_ne m hm)⟩
  rw [hv, hq]

/-- A line with a reservation left is reserved for the next one, with its guard afresh (R115). -/
theorem reserveLine_again {s : State} {n line : Nat} (h : ∃ x ∈ (s.slq n).cq, x.line = line) :
    reserveLine s n line = s.setSlq n { s.slq n with
      reserved := (s.slq n).reserved.filter (fun e => e.1 ≠ line) ++
        [(line, s.now + max 1 (s.fld Fld.SL_CTL_CQ_GUARD (logicOf s n)) * 100)] } := by
  unfold reserveLine
  exact if_pos (by simpa using h)

theorem reserveLine_last {s : State} {n line : Nat} (h : ¬ ∃ x ∈ (s.slq n).cq, x.line = line) : reserveLine s n line = s := by
  unfold reserveLine
  exact if_neg (by simpa using h)

/-- What the expiry of a guard leaves (R115, R116): the head has lost its reservation, and the line is reserved for the next one
or free. -/
structure GuardOutcome (s : State) (n line dl : Nat) (r : Rsv) (u : State) : Prop where
  frame : u = { s with
    now := max s.now dl, lehrNow := max s.lehrNow dl, sl := u.sl, port := u.port, regs := u.regs, fault := u.fault }
  reported : Reported u 0x21 n
  error : u.fld Fld.SL_ERR_CQ_TMO (logicOf s n) = 1
  regs : RegsBut s u (RegName.SL_ERR.addr (logicOf s n) 0 :: SliceLc (logicOf s n))
  port : u.port = { s.port with notices := u.port.notices }
  trk : u.sl.trk = s.sl.trk
  sinks : u.sl.sinks = s.sl.sinks
  slq_ne : ∀ m, m ≠ n → u.slq m = s.slq m
  notices_ne : ∀ c, c ≠ n / 8 → u.notices c = s.notices c
  again : (∃ x ∈ (s.slq n).cq.erase r, x.line = line) →
    u.slq n = { guardQueue s n line r with reserved := (guardQueue s n line r).reserved ++
      [(line, max s.now dl + max 1 (s.fld Fld.SL_CTL_CQ_GUARD (logicOf s n)) * 100)] } ∧
    u.notices (n / 8) = s.notices (n / 8)
  last : (¬ ∃ x ∈ (s.slq n).cq.erase r, x.line = line) →
    u.slq n = guardQueue s n line r ∧ u.notices (n / 8) = s.notices (n / 8) ++ [.rsvFree n line]

section
variable {s v : State} {n line dl : Nat} {r : Rsv} (h : GuardExpired s n line dl r v)
include h

theorem GuardExpired.port : v.port = s.port := by rw [h.frame]

/-- The queues of the slices alone are still to change, and the notices of its cluster. -/
theorem GuardExpired.outcome {u : State} (hu : u = { v with sl := { v.sl with sl := u.sl.sl }, port := u.port })
    (hport : u.port = { v.port with notices := u.port.notices }) (hslq : ∀ m, m ≠ n → u.slq m = v.slq m)
    (hnot : ∀ c, c ≠ n / 8 → u.notices c = v.notices c)
    (hagain : (∃ x ∈ (s.slq n).cq.erase r, x.line = line) →
      u.slq n = { guardQueue s n line r with reserved := (guardQueue s n line r).reserved ++
        [(line, max s.now dl + max 1 (s.fld Fld.SL_CTL_CQ_GUARD (logicOf s n)) * 100)] } ∧
      u.notices (n / 8) = s.notices (n / 8))
    (hlast : (¬ ∃ x ∈ (s.slq n).cq.erase r, x.line = line) →
      u.slq n = guardQueue s n line r ∧ u.notices (n / 8) = s.notices (n / 8) ++ [.rsvFree n line]) :
    GuardOutcome s n line dl r u := by
  obtain ⟨hv, hheld, herr, hbut, -, hne⟩ := h
  have hvport : v.port = s.port := by rw [hv]
  have hregs : u.regs = v.regs := by rw [hu]
  refine ⟨?_, ?_, (fld_congr hregs _ _ _).trans herr, fun d k hk => ?_, by rw [hport, hvport], ?_, ?_,
    fun m hm => (hslq m hm).trans (hne m hm), fun c hc => (hnot c hc).trans ?_, hagain, hlast⟩
  · rw [hu, hv]
  · rw [hu]
    exact hheld
  · rw [hregs]
    exact hbut d k hk
  · rw [hu, hv]
  · rw [hu, hv]
  · rw [State.notices, hvport]
    rfl

theorem GuardExpired.reserved (hn : n < 128) (hagain : ∃ x ∈ (s.slq n).cq.erase r, x.line = line) :
    GuardOutcome s n line dl r (reserveLine v n line) ∧ isReserved (reserveLine v n line) n line = true := by
  have hguard : v.fld Fld.SL_CTL_CQ_GUARD (logicOf v n) = s.fld Fld.SL_CTL_CQ_GUARD (logicOf s n) := by
    have hl := logicOf_lt s hn
    have hmap : logicOf v n = logicOf s n := by
      rw [logicOf, logicOf, h.regs.fld]
      rw [List.mem_cons, mem_sliceLc]
      simp only [RegName.addr, RegName.desc]
      omega
    rw [hmap, h.regs.fld]
    rw [List.mem_cons, mem_sliceLc]
    simp only [RegName.addr, RegName.desc]
    omega
  have hnow : v.now = max s.now dl := by rw [h.frame]
  have hfilter : (guardQueue s n line r).reserved.filter (fun e => e.1 ≠ line) = (guardQueue s n line r).reserved := by
    simp [guardQueue]
  rw [reserveLine_again (by rwa [h.slq]), h.slq, hguard, hnow, hfilter]
  refine ⟨h.outcome rfl rfl (fun m hm => SMap.getD_set_ne _ _ _ _ _ hm) (fun _ _ => rfl) (fun _ => ⟨slq_setSlq v n _, ?_⟩)
    (absurd hagain), ?_⟩
  · change v.notices (n / 8) = s.notices (n / 8)
    rw [State.notices, h.port]
    rfl
  · rw [isReserved, slq_setSlq]
    simp

theorem GuardExpired.freed (hlast : ¬ ∃ x ∈ (s.slq n).cq.erase r, x.line = line) :
    GuardOutcome s n line dl r (State.notify (reserveLine v n line) (n / 8) (.rsvFree n line)) ∧
    isReserved (reserveLine v n line) n line = false := by
  rw [reserveLine_last (by rwa [h.slq])]
  refine ⟨h.outcome rfl rfl (fun _ _ => rfl) (fun c hc => SMap.getD_set_ne _ _ _ _ _ hc) (fun hag => absurd hag hlast)
    fun _ => ⟨h.slq, (notices_notify v _ _).trans ?_⟩, ?_⟩
  · rw [State.notices, h.port]
    rfl
  · rw [isReserved, h.slq]
    simp [guardQueue]

end

theorem guardOutcome_cqGuard {s : State} {n : Nat} (hn : n < 128) {line dl : Nat} {r : Rsv}
    (hres : (s.slq n).reserved.find? (fun e => e.1 = line) = some (line, dl)) (hdl : dl ≠ 0) (hhead : cqHead s n line = some r) :
    GuardOutcome s n line dl r (cqGuard s n line) := by
  have h := guardExpired_spec s hn line dl r
  rw [cqGuard_eq hres hdl hhead]
  by_cases hagain : ∃ x ∈ (s.slq n).cq.erase r, x.line = line
  · obtain ⟨hout, hr⟩ := h.reserved hn hagain
    rwa [if_pos hr]
  · obtain ⟨hout, hr⟩ := h.freed hagain
    rwa [if_neg (Bool.eq_false_iff.1 hr)]

theorem cqGuard_unreserved {s : State} {n line : Nat} (h : ∀ e ∈ (s.slq n).reserved, e.1 ≠ line) : cqGuard s n line = s := by
  have hnone : (s.slq n).reserved.find? (fun e => e.1 = line) = none := by simpa using h
  unfold cqGuard
  dsimp only
  rw [hnone]

/-- A guard that has not begun does not expire. -/
theorem cqGuard_unguarded {s : State} {n line : Nat}
    (h : (s.slq n).reserved.find? (fun e => e.1 = line) = some (line, 0)) : cqGuard s n line = s := by
  unfold cqGuard
  dsimp only
  rw [h]
  rfl

/-- Settles O30: an eviction is taken as its granule and its pool allow, and frees its way or writes its entry; an expired guard
takes the head's reservation, and its line goes to the next one or becomes free. -/
theorem evictionsAndReservations : Obligations.EvictionsAndReservations := by
  unfold Obligations.EvictionsAndReservations
  refine ⟨fun n s hdft hawake hintact hloaded hadopt hlogic => ?_, fun n line s hdft hvaux hcore => ⟨?_, ?_, ?_⟩⟩
  · have idle : evElig s n.toNat = false ∨ mayIssue s n.toNat 2 = false →
        Completes (.directoryEviction n) s (fun u => u = Begun s) := fun h =>
      completes_run (fun s => dirEvict s n.toNat) rfl hdft (dirEvict_idle (s := freshOut s) h)
    refine ⟨idle, fun e l hq => ?_⟩
    intro c sub line clear popped
    refine ⟨fun w hiss hmay hempty hmsg hwaiter hvalid => ?_, fun hword hbusy => ?_, fun hword hfull => ?_,
      fun en hiss hmay hword hclear halloc => ?_⟩
    · have helig : evElig s n.toNat = true := evElig_empty hq hempty hiss
      obtain ⟨hu, hpop, hsinks, hself, hother⟩ := evDone_evPopped (s := freshOut s) (n := n.toNat) l hvalid
      refine completes_run (fun s => dirEvict s n.toNat) rfl hdft ?_
      dsimp only
      rw [dirEvict_empty (s := freshOut s) hq helig hmay hempty hmsg, hwaiter]
      exact ⟨hu, hpop, hsinks, hself, hother⟩
    · exact idle (.inl (Bool.eq_false_iff.2 fun helig => hbusy ((evElig_iff hq hword).1 helig).2.1))
    · refine idle (.inl (Bool.eq_false_iff.2 fun helig => ?_))
      obtain ⟨-, -, hsome⟩ := (evElig_iff hq hword).1 helig
      rw [hfull] at hsome
      cases hsome
    · have helig : evElig s n.toNat = true := (evElig_iff hq hword).2 ⟨hiss, hclear, by rw [halloc]; rfl⟩
      obtain ⟨hu, hpop, hregs, hself, hother⟩ :=
        entry_evPopped (s := freshOut s) hintact hlogic l (allocEntry_lt halloc) (evEntry (freshOut s) n.toNat e)
      refine completes_run (fun s => dirEvict s n.toNat) rfl hdft ?_
      dsimp only
      rw [dirEvict_word (s := freshOut s) hq helig hmay hword halloc, hself]
      refine ⟨hu, hpop, hregs, rfl, rfl, rfl, rfl, beq_iff_eq, rfl, rfl, rfl, rfl, rfl, rfl, evEntry_prog _ _ _, hother⟩
  · exact fun hres => completes_run (fun s => cqGuard s n.toNat line.toNat) rfl hdft (cqGuard_unreserved (s := freshOut s) hres)
  · exact fun hres => completes_run (fun s => cqGuard s n.toNat line.toNat) rfl hdft (cqGuard_unguarded (s := freshOut s) hres)
  · intro dl r hres hdl hhead
    obtain ⟨hu, hheld, herr, hregs, hport, htrk, hsinks, hslq, hnot, hagain, hlast⟩ :=
      guardOutcome_cqGuard (s := freshOut s) n.isLt hres hdl hhead
    exact completes_run (fun s => cqGuard s n.toNat line.toNat) rfl hdft
      ⟨hu, hheld, herr, hregs, hport, htrk, hsinks, hslq, hnot, hagain, hlast⟩

end Sys2Proof.Machine

namespace Sys2Proof.Machine

/-! SUPPORT. What a look at a line leaves besides: the queues of every slice, and the registers below the clusters' but for the
error of the rule banks and the regions' collectors (R139, R158, R291). And what it finds in stores without an error. -/

/-- A register that no look writes. -/
def Unlooked (k : Nat) : Prop := k < 0x100000 ∧ k ≠ 0x50 ∧ k ≠ 0x54 ∧ (k < 0x20800 ∨ 0x20860 ≤ k)

/-- The slices' own parts and the registers that no look writes are those of `s`. -/
def Unmoved (s u : State) : Prop :=
  u.sl = s.sl ∧ ∀ (d : Nat → BitVec 64) (k : Nat), Unlooked k → SMap.getD d u.regs k = SMap.getD d s.regs k

namespace Unmoved

variable {s t u : State}

theorem refl (s : State) : Unmoved s s := ⟨rfl, fun _ _ _ => rfl⟩

theorem trans (h : Unmoved s t) (k : Unmoved t u) : Unmoved s u := by
  obtain ⟨hsl, hregs⟩ := h
  obtain ⟨ksl, kregs⟩ := k
  exact ⟨ksl.trans hsl, fun d x hx => (kregs d x hx).trans (hregs d x hx)⟩

theorem of_regsBut {l : List Nat} (hsl : u.sl = s.sl) (hregs : RegsBut s u l) (hl : ∀ k ∈ l, ¬ Unlooked k) : Unmoved s u :=
  ⟨hsl, fun d k hk => hregs d k fun hmem => hl k hmem hk⟩

theorem setFld (h : Unmoved s t) (f : Fld) (v : Nat) {i j : Nat} (hf : ¬ Unlooked (f.reg.addr i j)) :
    Unmoved s (t.setFld f v i j) :=
  h.trans (of_regsBut rfl (regsBut_setFld t f v i j) (by simpa using hf))

theorem fld (h : Unmoved s u) (f : Fld) (i j : Nat) (hf : Unlooked (f.reg.addr i j)) : u.fld f i j = s.fld f i j :=
  congrArg f.get (h.2 _ _ hf)

end Unmoved

section
variable {s t : State}

theorem unmoved_slEvent (h : Unmoved s t) (l ev : Nat) : Unmoved s (slEvent t l ev) := by
  have hcnt : ∀ k, ¬ Unlooked (RegName.SL_TEL_CNT.addr l k) := fun k => by
    simp only [Unlooked, RegName.addr, RegName.desc]
    omega
  refine List.foldlRecOn (motive := fun u => Unmoved s u) _ _ h fun u hu k _ => ?_
  split
  · refine hu.trans (.of_regsBut ?_ (regsBut_bumpCnt u Fld.SL_TEL_CNT_VALUE Fld.SL_TEL_CNT_OVF rfl l k _) (by simpa using hcnt k))
    obtain ⟨r, q, heq⟩ := bumpCnt_eq u Fld.SL_TEL_CNT_VALUE Fld.SL_TEL_CNT_OVF l k (8 * l + k)
    rw [heq]
  · exact hu

variable {n : Nat} (hn : n < 128)
include hn

theorem unmoved_raiseSlice (h : Unmoved s t) (code subject : Nat) (inj : Bool) :
    Unmoved s (raiseN t (.slice (logicOf t n)) code subject 1 inj .core) := by
  have hl := logicOf_lt t hn
  refine h.trans (.of_regsBut (by simp) (regsBut_raiseN_slice t (logicOf t n) code subject 1 inj .core) fun k hk hun => ?_)
  rw [mem_sliceLc] at hk
  unfold Unlooked at hun
  omega

omit hn in
theorem cabErr_not_unlooked : ¬ Unlooked (RegName.CAB_ERR.addr n 0) := by
  simp only [Unlooked, RegName.addr, RegName.desc]
  omega

theorem unmoved_makeBlind (h : Unmoved s t) (set cause : Nat) : Unmoved s (makeBlind t n set cause) := by
  have htick : Unmoved s (blindTick t) := h
  have hdrq : ∀ u q, Unmoved s u → Unmoved s (u.setDrq n q) := fun _ _ hu => hu
  unfold makeBlind
  dsimp only
  generalize blindTick t = u at *
  split
  · split
    · split
      · exact hdrq _ _ htick
      · exact htick
    · exact htick
  · split
    · exact hdrq _ _ htick
    · split
      · exact hdrq _ _ htick
      · exact hdrq _ _ (unmoved_raiseSlice hn (htick.setFld _ _ cabErr_not_unlooked) _ _ _)

theorem unmoved_formatError (h : Unmoved s t) (set : Nat) : Unmoved s (formatError t n set) :=
  unmoved_makeBlind hn (unmoved_raiseSlice hn (h.setFld _ _ cabErr_not_unlooked) _ _ _) _ _

theorem unmoved_noRuleFault (h : Unmoved s t) (typ set : Nat) : Unmoved s (noRuleFault t n typ set) := by
  have hinfo : Unmoved s (rbErrInfo t n typ 0) := by
    unfold rbErrInfo
    split
    · exact ((h.setFld _ _ (by simp [Unlooked, RegName.addr, RegName.desc])).setFld _ _
        (by simp [Unlooked, RegName.addr, RegName.desc])).setFld _ _ (by simp [Unlooked, RegName.addr, RegName.desc])
    · exact h
  exact unmoved_makeBlind hn (unmoved_raiseSlice hn (hinfo.setFld _ _ (by simp [Unlooked, RegName.addr, RegName.desc])) _ _ _) _ _

end

/-! ### Looks in stores without an error -/

theorem setReadAll_of_mask {s : State} (h : s.integ.mask = []) (d set : Nat) :
    setReadAll s d set = (s, (List.range 16).map (fun w => (w, some (drawerW s d (set * 16 + w))))) := by
  have hfold : ∀ (l : List Nat) (acc : List (Nat × Option Nat)), l.foldl (fun (p : State × List (Nat × Option Nat)) w =>
      ((drawerRead p.1 d (set * 16 + w)).1, p.2 ++ [(w, (drawerRead p.1 d (set * 16 + w)).2)])) (s, acc) =
      (s, acc ++ l.map (fun w => (w, some (drawerW s d (set * 16 + w))))) := by
    intro l
    induction l with
    | nil => exact fun acc => by simp
    | cons w l ih =>
      intro acc
      rw [List.foldl_cons, drawerRead_of_mask h, ih, List.map_cons, List.append_assoc]
      rfl
  exact hfold (List.range 16) []

/-- A look finds the words as written last; a bad set is blind from then on (R139). -/
theorem readLine_of_mask {s : State} (h : s.integ.mask = []) (line : Nat) :
    let lk := lookIn (peekSet s (sliceOf line) (setOf line)) line
    let t := if lk.bad then formatError s (sliceOf line) (setOf line) else s
    readLine s line = (t, ⟨lk, unknownOf t line⟩) := by
  have hread : setRead s (sliceOf line) (setOf line) = (s, peekSet s (sliceOf line) (setOf line)) := by
    unfold setRead
    rw [setReadAll_of_mask h]
    dsimp only
    rw [List.map_map]
    rfl
  intro lk t
  unfold readLine
  dsimp only
  rw [hread]

/-- A look at a set that is not bad changes nothing. -/
theorem readLine_of_good {s : State} (h : s.integ.mask = []) {line : Nat} (hgood : (readLine s line).2.look.bad = false) :
    readLine s line = (s, ⟨lookIn (peekSet s (sliceOf line) (setOf line)) line, unknownOf s line⟩) := by
  have hread := readLine_of_mask h line
  rw [hread] at hgood ⊢
  dsimp only at hgood ⊢
  rw [hgood]
  rfl

section
variable {line : Nat} {s t : State} (hline : sliceOf line < 128) (hmask : t.integ.mask = []) (h : Unmoved s t)
include hline hmask h

theorem unmoved_readLine : Unmoved s (readLine t line).1 := by
  rw [readLine_of_mask hmask]
  dsimp only
  split
  · exact unmoved_formatError hline h _
  · exact h

theorem unmoved_decideMsg (typ r : Nat) (f : Found) : Unmoved s (decideMsg t line typ r f).1 := by
  unfold decideMsg
  dsimp only
  split
  · exact unmoved_slEvent h _ _
  · have hev := unmoved_slEvent h (logicOf t (sliceOf line)) (if (seenOf f.look).way.isSome then 6 else 7)
    have hmask' : (slEvent t (logicOf t (sliceOf line)) (if (seenOf f.look).way.isSome then 6 else 7)).integ.mask = [] := by
      rw [slEvent_integ, hmask]
    generalize slEvent t _ _ = u at *
    have hm := matchRule_of_mask hmask' (sliceOf line) (activeEpoch u) typ u.decMode (seenOf f.look) r
    generalize matchRule u _ _ _ _ _ _ = p at *
    obtain ⟨v, o⟩ := p
    subst hm
    cases o with
    | some d => exact hev
    | none => exact unmoved_slEvent (unmoved_noRuleFault hline hev _ _) _ _

end

end Sys2Proof.Machine

namespace Sys2Proof.Machine

/-! The statement about the maintenance messages at the head of a slice's MNT class and the repeated census phase (R101, R104, R109,
R211, R214, R220, R225, R226). -/

/-! ### The message that is taken -/

/-- A message has sector scope where it says so, or where it may rewrite the coarse word of its line (R108). -/
theorem mntSector_iff (s : State) (m : MntMsg) : mntSector s m = true ↔ m.sector = true ∨
    (((m.typ = 0x3D ∧ m.operand ≠ 0) ∨ m.typ = 0x3E) ∧
      (lookIn (peekSet s (sliceOf m.pa) (setOf m.pa)) m.pa).fine = none ∧
      (lookIn (peekSet s (sliceOf m.pa) (setOf m.pa)) m.pa).line ≠ none) := by
  simp only [mntSector, Bool.or_eq_true, Bool.and_eq_true, beq_iff_eq, bne_iff_ne, Option.isNone_iff_eq_none, Option.isSome_iff_ne_none]

/-- What the head of the MNT class waits for (R101, R109, R463). -/
theorem mntElig_iff {s : State} {n : Nat} {m : MntMsg} {l : List MntMsg} (hq : (s.slq n).mntQ = m :: l) :
    mntElig s n = true ↔ sliceIssues s n = true ∧ (m.msg ≠ none ∨ m.typ = 0x3F ∨ s.govBg.getLsbD (n / 8) = true) ∧
      blocker s m.pa (mntSector s m) none = none ∧ (allocEntry s n 2).isSome = true := by
  rw [mntElig, hq]
  simp only [bgOn, Bool.and_eq_true, Bool.or_eq_true, beq_iff_eq, Option.isNone_iff_eq_none, Option.isSome_iff_ne_none, or_assoc,
    and_assoc]

/-- Slice `n`'s queues once it has taken the message at the head of its MNT class (R101, R119). -/
def mntQueue (s : State) (n : Nat) (l : List MntMsg) : SliceQ := { s.slq n with
  mntQ := l, mntPass := 0, wdog := s.now
  reqPass := if reqElig s n = true then (s.slq n).reqPass + 1 else 0 }

def mntPopped (s : State) (n : Nat) (l : List MntMsg) : State :=
  let t := (slIssued s n 4).addWork .daten
  t.setSlq n { t.slq n with mntQ := l }

theorem mntPopped_eq (s : State) (n : Nat) (l : List MntMsg) : mntPopped s n l =
    { s with sl := { s.sl with sl := (mntPopped s n l).sl.sl }, work := s.work ++ [.daten] } := rfl

theorem slq_mntPopped (s : State) (n : Nat) (l : List MntMsg) : (mntPopped s n l).slq n = mntQueue s n l := by
  have hiss : ((slIssued s n 4).addWork .daten).slq n = (slIssued s n 4).slq n := rfl
  unfold mntPopped
  rw [slq_setSlq, hiss, slq_slIssued]
  cases hr : reqElig s n <;> simp [mntQueue, hr]

theorem slq_mntPopped_ne (s : State) (l : List MntMsg) {n k : Nat} (h : k ≠ n) : (mntPopped s n l).slq k = s.slq k :=
  (SMap.getD_set_ne _ _ _ _ _ h).trans (SMap.getD_set_ne _ _ _ _ _ h)

/-- The entry of a message that was decided in state `s` (R106). -/
def mntEntry (s : State) (m : MntMsg) (sec : Bool) (f : Found) (d : Dec) (unk : Option Bool) : Trk :=
  let w := if unk.isSome ∨ m.typ = 0 ∨ m.typ = 0x3F then cabEmpty else (seenOf f.look).word
  { trk0 with
    valid := true, epoch := activeEpoch s, cls := 2, typ := m.typ
    agent := match m.msg with | some (t, _) => t | none => 0
    pa := m.pa, sector := sec, cur := w.state, grain := w.grain, prog := d.prog, next := d.next, rclass := 0, mode := s.decMode
    uword := encodeCab w, way := if unk.isSome then none else (seenOf f.look).way, unknown := unk.isSome
    rebuild := unk == some true, sub := m.pa % 16, operand := m.agent, lostBy := m.operand, aseq := d.aseq
    msg := m.msg, lasts := d.lasts, fetch := d.bank, tstate := if m.typ = 0 then 8 else 0, start := s.now
    deadline := if m.typ = 0x3F then s.now + max 1 (s.fld Fld.LIVE_CTL_PROBE_TMO) * 1000 else 0 }

/-- The entry of a probe of the health monitor is listed with the agent's confirmation (R93, R214). -/
def mntConf (s : State) (m : MntMsg) (tid deadline : Nat) : State :=
  if m.typ = 0x3F ∧ m.msg.isNone ∧ m.operand = 0 then
    match SMap.getD (fun _ => none) s.conf m.agent with
    | some c => { s with conf := SMap.set (fun _ => none) s.conf m.agent (some { c with tids := c.tids ++ [tid], deadline := deadline }) }
    | none => s
  else s

/-- How a message that has left its queue is decided, against its own read of its line. -/
def mntDecided (s : State) (m : MntMsg) : State × Dec × Option Bool := mntDec (readLine s m.pa).1 m (readLine s m.pa).2

/-- The entry that the message takes from the state `p` that it has left its queue in. -/
def mntTaken (p : State) (m : MntMsg) (sec : Bool) : Trk :=
  mntEntry (mntDecided p m).1 m sec (readLine p m.pa).2 (mntDecided p m).2.1 (mntDecided p m).2.2

theorem mntIssue_idle {s : State} {n : Nat} (want : MntMsg → Bool) (h : mntElig s n = false ∨ mayIssue s n 4 = false) :
    mntIssue s n want = s := if_pos (by simpa using h)

theorem mntIssue_entry {s : State} {n : Nat} {m : MntMsg} {l : List MntMsg} {want : MntMsg → Bool} {e : Nat}
    (hq : (s.slq n).mntQ = m :: l) (helig : mntElig s n = true) (hmay : mayIssue s n 4 = true) (hwant : want m = true)
    (htyp : m.typ ≠ 0) (hfree : blocker s m.pa (mntSector s m) none = none) (halloc : allocEntry s n 2 = some e) :
    let p := mntPopped s n l
    let v := (mntDecided p m).1
    let t := mntTaken p m (mntSector s m)
    mntIssue s n want = mntConf (putEntry (slFixed v (logicOf v n) 4) (n * 512 + e) t) m (n * 512 + e) t.deadline := by
  intro p
  have hp : ((slIssued s n 4).addWork .daten).setSlq n { ((slIssued s n 4).addWork .daten).slq n with mntQ := l } = p := rfl
  unfold mntIssue
  rw [if_neg (by simp [helig, hmay]), hq]
  dsimp only
  rw [if_neg (by simp [hwant]), hfree, halloc]
  dsimp only
  rw [if_neg htyp, hp]
  unfold mntTaken mntDecided
  clear_value p
  generalize readLine p m.pa = r
  generalize mntDec r.1 m r.2 = d
  rfl

/-! ### What the decision leaves -/

/-- A census or a probe has steps of its own, but is matched as the others are (R289). -/
theorem mntDec_matching {s : State} {m : MntMsg} (htyp : m.typ ≠ 0) (f : Found) :
    (mntDec s m f).1 = (decideMsg s m.pa m.typ m.agent f).1 ∧ (mntDec s m f).2.2 = (decideMsg s m.pa m.typ m.agent f).2.2 := by
  unfold mntDec
  rw [if_neg htyp]
  dsimp only
  split
  · exact ⟨rfl, rfl⟩
  · split <;> exact ⟨rfl, rfl⟩

/-- The decision of a message leaves no more than its read of its line and its rule match do. -/
theorem mntDecided_left {p : State} {m : MntMsg} (hline : sliceOf m.pa < 128) (hmask : p.integ.mask = []) (htyp : m.typ ≠ 0) :
    Looked (sliceOf m.pa) p (mntDecided p m).1 ∧ Unmoved p (mntDecided p m).1 := by
  have hlook := looked_readLine hline hmask (Looked.refl _ p)
  have hstay := unmoved_readLine hline hmask (Unmoved.refl p)
  have hmask' : (readLine p m.pa).1.integ.mask = [] := by rw [hlook.1, hmask]
  unfold mntDecided
  rw [(mntDec_matching htyp _).1]
  exact ⟨looked_decideMsg hline hmask' _ _ _ hlook, unmoved_decideMsg hline hmask' hstay _ _ _⟩

/-- What the entry of a message is, however its line was found. -/
structure EntryFor (s : State) (m : MntMsg) (sec : Bool) (t : Trk) : Prop where
  valid : t.valid = true
  cls : t.cls = 2
  typ : t.typ = m.typ
  pa : t.pa = m.pa
  sector : t.sector = sec
  operand : t.operand = m.agent
  lostBy : t.lostBy = m.operand
  msg : t.msg = m.msg
  deadline : m.typ = 0x3F → t.deadline = s.now + max 1 (s.fld Fld.LIVE_CTL_PROBE_TMO) * 1000
  epoch : t.epoch = s.fld Fld.RB_STATUS_ACTIVE

/-- `u` is `s` once slice `n` has issued the message at the head of its MNT class and has written entry `tid` for it. -/
structure MntTook (s : State) (n : Nat) (l : List MntMsg) (tid : Nat) (u : State) : Prop where
  frame : u = { s with
    sl := u.sl, regs := u.regs, cab := u.cab, fault := u.fault, integ := u.integ, frzReq := u.frzReq
    conf := u.conf, work := s.work ++ [.daten, .trk tid] }
  words : u.cab.words = s.cab.words
  spare : u.cab.spare = s.cab.spare
  sinks : u.sl.sinks = s.sl.sinks
  slq : u.slq n = mntQueue s n l
  slq_ne : ∀ k, k ≠ n → u.slq k = s.slq k
  trkE_ne : ∀ k, k ≠ tid → u.trkE k = s.trkE k

section
variable {s v : State} {n : Nat} {l : List MntMsg} (hlook : Looked n (mntPopped s n l) v) (hstay : Unmoved (mntPopped s n l) v)
include hlook hstay

theorem entryFor_mntEntry (m : MntMsg) (sec : Bool) (f : Found) (d : Dec) (unk : Option Bool) :
    EntryFor s m sec (mntEntry v m sec f d unk) := by
  have hpop := mntPopped_eq s n l
  generalize mntPopped s n l = p at *
  have hregs : p.regs = s.regs := by rw [hpop]
  have hnow : v.now = s.now := by rw [hlook.1, hpop]
  have htmo : v.fld Fld.LIVE_CTL_PROBE_TMO = s.fld Fld.LIVE_CTL_PROBE_TMO :=
    (hstay.fld Fld.LIVE_CTL_PROBE_TMO 0 0 (by simp [Unlooked, RegName.addr, RegName.desc])).trans (fld_congr hregs _ _ _)
  have hact : v.fld Fld.RB_STATUS_ACTIVE = s.fld Fld.RB_STATUS_ACTIVE :=
    (hstay.fld Fld.RB_STATUS_ACTIVE 0 0 (by simp [Unlooked, RegName.addr, RegName.desc])).trans (fld_congr hregs _ _ _)
  refine ⟨rfl, rfl, rfl, rfl, rfl, rfl, rfl, rfl, fun h3F => ?_, hact⟩
  rw [← hnow, ← htmo]
  exact if_pos h3F

theorem mntTook_putEntry (lc tid : Nat) (t : Trk) :
    MntTook s n l tid (putEntry (slFixed v lc 4) tid t) ∧ (putEntry (slFixed v lc 4) tid t).trkE tid = t ∧
      (putEntry (slFixed v lc 4) tid t).conf = s.conf := by
  have hpop := mntPopped_eq s n l
  have hself := slq_mntPopped s n l
  have hother := fun k (hk : k ≠ n) => slq_mntPopped_ne s l hk
  generalize mntPopped s n l = p at *
  have hput := entryPut_putEntry (slFixed v lc 4) tid t
  generalize putEntry (slFixed v lc 4) tid t = u at *
  have htick := ticked_slFixed v lc 4
  generalize slFixed v lc 4 = w at *
  obtain ⟨hv, -⟩ := hlook
  have hcab : u.cab = v.cab := by rw [hput, htick]
  have hwsl : w.sl = p.sl := by rw [htick, hstay.1]
  have hslices : u.sl.sl = p.sl.sl := by
    rw [hput, ← hwsl]
    rfl
  have hsinks : u.sl.sinks = p.sl.sinks := by
    rw [hput, ← hwsl]
    rfl
  have hslq : ∀ k, u.slq k = p.slq k := fun k => congrArg (SMap.getD (fun _ => sliceQ0) · k) hslices
  refine ⟨⟨?_, ?_, ?_, ?_, (hslq n).trans hself, fun k hk => (hslq k).trans (hother k hk), fun k hk => ?_⟩, hput.trkE_self, ?_⟩
  · rw [List.append_cons, hput, htick, hv, hpop]
  · rw [hcab, hv, hpop]
  · rw [hcab, hv, hpop]
  · rw [hsinks, hpop]
  · rw [hput.trkE_ne hk, State.trkE, hwsl, hpop]
    rfl
  · rw [hput, htick, hv, hpop]

end

/-! ### The agent's confirmation -/

/-- A message that is not a probe of the health monitor leaves the confirmations. -/
theorem mntConf_other {m : MntMsg} (h : m.typ ≠ 0x3F ∨ m.msg ≠ none ∨ m.operand ≠ 0) (s : State) (tid dl : Nat) :
    mntConf s m tid dl = s := by
  unfold mntConf
  rw [if_neg]
  rwa [Option.isNone_iff_eq_none, not_and_or, not_and_or]

theorem mntConf_eq (s : State) (m : MntMsg) (tid dl : Nat) : mntConf s m tid dl = { s with conf := (mntConf s m tid dl).conf } := by
  unfold mntConf
  split
  · split <;> rfl
  · rfl

theorem mntConf_listed {s : State} {m : MntMsg} (h3F : m.typ = 0x3F) (hmsg : m.msg = none) (hop : m.operand = 0) {cf : Conf}
    (hcf : SMap.getD (fun _ => none) s.conf m.agent = some cf) (tid dl : Nat) :
    SMap.getD (fun _ => none) (mntConf s m tid dl).conf m.agent = some { cf with tids := cf.tids ++ [tid], deadline := dl } := by
  unfold mntConf
  rw [if_pos ⟨h3F, by rw [hmsg]; rfl, hop⟩, hcf]
  dsimp only
  exact SMap.getD_set_same (fun _ => none) s.conf m.agent _

theorem MntTook.mntConf {s w : State} {n tid : Nat} {l : List MntMsg} (h : MntTook s n l tid w) (m : MntMsg) (dl : Nat) :
    MntTook s n l tid (mntConf w m tid dl) ∧ (Machine.mntConf w m tid dl).trkE tid = w.trkE tid := by
  have heq := mntConf_eq w m tid dl
  generalize Machine.mntConf w m tid dl = u at *
  obtain ⟨hframe, hwords, hspare, hsinks, hslq, hslq_ne, htrk_ne⟩ := h
  have hsl : u.sl = w.sl := by rw [heq]
  have hcab : u.cab = w.cab := by rw [heq]
  have htrk : ∀ k, u.trkE k = w.trkE k := fun k => by rw [State.trkE, hsl]; rfl
  refine ⟨⟨?_, by rw [hcab, hwords], by rw [hcab, hspare], by rw [hsl, hsinks], (slq_of_sl hsl n).trans hslq,
    fun k hk => (slq_of_sl hsl k).trans (hslq_ne k hk), fun k hk => (htrk k).trans (htrk_ne k hk)⟩, htrk tid⟩
  rw [heq, hframe]

/-! ### The steps of a message -/

section
variable {s : State} {m : MntMsg}

/-- A probe's steps are R214's in every bank. -/
theorem mntDec_probe (h : m.typ = 0x3F) (f : Found) : (mntDec s m f).2.1.prog = [.snoop .cur .agent, .wait true false] := by
  unfold mntDec
  rw [if_neg (by omega)]
  dsimp only
  rw [if_neg (by omega), if_pos h]
  rfl

/-- A census's steps are R225's in every bank. -/
theorem mntDec_census (h : m.typ = 0x3D) (hop : m.operand = 0) (f : Found) :
    (mntDec s m f).2.1.prog = censusSteps s m.pa := by
  unfold mntDec
  rw [if_neg (by omega)]
  dsimp only
  rw [if_pos ⟨h, hop⟩]
  rfl

theorem mntDec_matched (h0 : m.typ ≠ 0) (hcensus : ¬ (m.typ = 0x3D ∧ m.operand = 0)) (hprobe : m.typ ≠ 0x3F) (f : Found) :
    mntDec s m f = decideMsg s m.pa m.typ m.agent f := by
  unfold mntDec
  rw [if_neg h0]
  dsimp only
  rw [if_neg hcensus, if_neg hprobe]

theorem Looked.censusSteps {n : Nat} {u : State} (h : Looked n s u) (line : Nat) :
    Machine.censusSteps u line = Machine.censusSteps s line := by
  have hpeek : ∀ set, peekSet u (sliceOf line) set = peekSet s (sliceOf line) set := fun set => by
    simp only [peekSet, h.drawerW]
  unfold Machine.censusSteps
  dsimp only
  rw [hpeek]

end

/-! ### The decision by the default bank -/

/-- What the default bank decides for a maintenance message that names `r` (R179, R211, R220). -/
def mntDefault (s : State) (typ mode : Nat) (v : Seen) (r : Nat) : Dec :=
  match typ with
  | 0x3C => decideSettle v.word
  | 0x3D => decideReclaim mode (presentState s v.word mode) (flagsOf s v r) v.word
  | 0x3E => decideRelease mode (presentState s v.word mode) (flagsOf s v r) v.word
  | 0x3F => decideProbe
  | _ => decideReq typ mode (presentState s v.word mode) (flagsOf s v r) v.word

theorem matchRule_pure {s : State} {n b : Nat} (h : bankPure s (logicOf s n) b = true) (typ mode : Nat) (v : Seen) (r : Nat) :
    ∃ a, matchRule s n b typ mode v r = (s, some { mntDefault s typ mode v r with aseq := a }) := by
  unfold matchRule
  dsimp only
  rw [if_pos h]
  exact ⟨_, rfl⟩

/-- `u` is `s` but for the slices' queues, telemetry, work and what is sent: all that a decision reads is as it was. -/
def Decides (s u : State) : Prop :=
  u = { s with
    sl := { s.sl with sl := u.sl.sl }, regs := u.regs, frzReq := u.frzReq, work := u.work, tx := u.tx, memTx := u.memTx
    ptTx := u.ptTx } ∧ RegsKept s u

namespace Decides

variable {s u : State} (h : Decides s u)
include h

theorem counted {v : State} (k : Counted u v) : Decides s v := by
  obtain ⟨hu, hregs⟩ := h
  obtain ⟨hv, hregs'⟩ := k
  exact ⟨by rw [hv, hu], kept_trans hregs hregs'⟩

theorem decMode : u.decMode = s.decMode := by
  have hmode : u.mode = s.mode := by
    rw [State.mode, State.mode, h.2.fld Fld.MODE_CUR 0 0 (by decide), h.1]
  rw [State.decMode, State.decMode, hmode]

theorem activeEpoch : Machine.activeEpoch u = Machine.activeEpoch s := h.2.fld Fld.RB_STATUS_ACTIVE 0 0 (by decide)

theorem logicOf (n : Nat) : Machine.logicOf u n = Machine.logicOf s n := by
  rw [Machine.logicOf, Machine.logicOf, h.2.fld Fld.CL_SLMAP_POS (n / 8) 0 (isCntOff_cluster _).1]

theorem shEligible (a : Nat) : u.shEligible a = s.shEligible a := by
  rw [h.1]
  rfl

theorem presentState (c : CabW) (mode : Nat) : Machine.presentState u c mode = Machine.presentState s c mode := by
  simp only [Machine.presentState, h.shEligible]

theorem flagsOf (v : Seen) (r : Nat) : Machine.flagsOf u v r = Machine.flagsOf s v r := by
  simp only [Machine.flagsOf, h.shEligible, h.2.fld Fld.RB_CTL_UFLAG 0 0 (by decide)]

theorem bankPure (l b : Nat) : Machine.bankPure u l b = Machine.bankPure s l b := by
  rw [h.1]
  rfl

theorem mntDefault (typ mode : Nat) (v : Seen) (r : Nat) : Machine.mntDefault u typ mode v r = Machine.mntDefault s typ mode v r := by
  simp only [Machine.mntDefault, h.presentState, h.flagsOf]

end Decides

/-- Where the default bank decides a line that is known, the steps are its. -/
theorem decideMsg_pure {s u : State} {line typ r : Nat} {f : Found} (hdec : Decides s u) (hlogic : logicOf s (sliceOf line) < 144)
    (hknown : f.unknown = none) (hpure : bankPure s (logicOf s (sliceOf line)) (activeEpoch s) = true) :
    (decideMsg u line typ r f).2.1.prog = (mntDefault s typ s.decMode (seenOf f.look) r).prog ∧
      (decideMsg u line typ r f).2.2 = none := by
  rw [← hdec.logicOf] at hlogic
  have hlater : Decides s (slEvent u (logicOf u (sliceOf line)) (if (seenOf f.look).way.isSome then 6 else 7)) :=
    hdec.counted (counted_slEvent hlogic u _)
  unfold decideMsg
  dsimp only
  rw [hknown]
  dsimp only
  generalize slEvent u _ _ = w at *
  have hpure' : bankPure w (logicOf w (sliceOf line)) (activeEpoch w) = true := by
    rw [hlater.bankPure, hlater.logicOf, hlater.activeEpoch, hpure]
  obtain ⟨a, ha⟩ := matchRule_pure hpure' typ w.decMode (seenOf f.look) r
  rw [ha, hlater.mntDefault, hlater.decMode]
  exact ⟨rfl, rfl⟩

theorem decides_mntPopped (s : State) (n : Nat) (l : List MntMsg) :
    Decides s (mntPopped (freshOut s) n l) ∧ (mntPopped (freshOut s) n l).regs = s.regs := by
  have hpop := mntPopped_eq (freshOut s) n l
  generalize mntPopped (freshOut s) n l = p at *
  have hregs : p.regs = s.regs := by
    rw [hpop]
    rfl
  refine ⟨⟨?_, fun d k _ => by rw [hregs]⟩, hregs⟩
  rw [hpop]
  rfl

theorem peekSet_congr {s u : State} (hregs : u.regs = s.regs) (hcab : u.cab = s.cab) (d set : Nat) :
    peekSet u d set = peekSet s d set := by
  simp only [peekSet, drawerW, spareOf, fld_congr hregs, hcab]

theorem unknownOf_congr {s u : State} (hregs : u.regs = s.regs) (hcab : u.cab = s.cab) (line : Nat) :
    unknownOf u line = unknownOf s line := by
  have hdrq : ∀ d, u.drq d = s.drq d := fun d => by rw [State.drq, hcab]; rfl
  have hblind : ∀ d set, blindOf u d set = blindOf s d set := fun d set => by
    have hdead : setDead u d set = setDead s d set := by simp only [setDead, hdrq]
    unfold blindOf
    rw [hdrq, hdead]
  have hadopt : adoptOf u line = adoptOf s line := by
    simp only [adoptOf, fld_congr hregs]
  unfold unknownOf
  rw [hblind, hadopt]

/-- What a look that meets no error finds rests on the Drawers and the registers. -/
theorem readLine_same {s u : State} {line : Nat} (hmask : s.integ.mask = []) (hmask' : u.integ.mask = [])
    (hregs : u.regs = s.regs) (hcab : u.cab = s.cab) (hgood : (readLine s line).2.look.bad = false) :
    readLine u line = (u, (readLine s line).2) := by
  have hread := readLine_of_good hmask hgood
  rw [hread] at hgood ⊢
  rw [readLine_of_mask hmask', peekSet_congr hregs hcab]
  dsimp only at hgood ⊢
  rw [hgood, ← unknownOf_congr hregs hcab]
  rfl

/-- The entry of a message whose line is known has its word and its way. -/
theorem mntTaken_known {p : State} {m : MntMsg} {f : Found} (hread : readLine p m.pa = (p, f)) (h0 : m.typ ≠ 0)
    (hprobe : m.typ ≠ 0x3F) (hunk : (decideMsg p m.pa m.typ m.agent f).2.2 = none) (sec : Bool) :
    (mntTaken p m sec).uword = encodeCab (seenOf f.look).word ∧ (mntTaken p m sec).way = (seenOf f.look).way := by
  have hunk' : (mntDec p m f).2.2 = none := (mntDec_matching h0 f).2.trans hunk
  unfold mntTaken mntDecided
  rw [hread]
  dsimp only
  generalize mntDec _ _ _ = d at *
  rw [hunk']
  exact ⟨congrArg encodeCab (if_neg (by simp [h0, hprobe])), rfl⟩

theorem mntTaken_prog {p : State} {m : MntMsg} {f : Found} (hread : readLine p m.pa = (p, f)) (h0 : m.typ ≠ 0)
    (hcensus : ¬ (m.typ = 0x3D ∧ m.operand = 0)) (hprobe : m.typ ≠ 0x3F) (sec : Bool) :
    (mntTaken p m sec).prog = (decideMsg p m.pa m.typ m.agent f).2.1.prog := by
  unfold mntTaken mntDecided
  rw [hread]
  dsimp only
  rw [mntDec_matched h0 hcensus hprobe]
  rfl

/-- The entry of a message whose line is known and that the default bank decides. -/
theorem mntTaken_pure {s p : State} (hdec : Decides s p) (hregs : p.regs = s.regs) (hmask : s.integ.mask = []) {m : MntMsg}
    (hlogic : logicOf s (sliceOf m.pa) < 144) (hknown : (readLine s m.pa).2.unknown = none)
    (hgood : (readLine s m.pa).2.look.bad = false) (hpure : bankPure s (logicOf s (sliceOf m.pa)) (activeEpoch s) = true)
    (h0 : m.typ ≠ 0) (hprobe : m.typ ≠ 0x3F) (sec : Bool) :
    let v := seenOf (readLine s m.pa).2.look
    let st := presentState s v.word s.decMode
    (mntTaken p m sec).uword = encodeCab v.word ∧ (mntTaken p m sec).way = v.way ∧
      (m.typ = 0x3C → (mntTaken p m sec).prog = (decideSettle v.word).prog) ∧
      (m.typ = 0x3E → (mntTaken p m sec).prog = (decideRelease s.decMode st (flagsOf s v m.agent) v.word).prog) ∧
      (m.typ = 0x3D → m.operand ≠ 0 →
        (mntTaken p m sec).prog = (decideReclaim s.decMode st (flagsOf s v m.agent) v.word).prog) := by
  have hread := readLine_same (u := p) hmask (by rw [hdec.1]; exact hmask) hregs (by rw [hdec.1]) hgood
  obtain ⟨hprog, hunk⟩ := decideMsg_pure (typ := m.typ) (r := m.agent) hdec hlogic hknown hpure
  obtain ⟨huword, hway⟩ := mntTaken_known hread h0 hprobe hunk sec
  intro v st
  have hsteps : ¬ (m.typ = 0x3D ∧ m.operand = 0) → (mntTaken p m sec).prog = (mntDefault s m.typ s.decMode v m.agent).prog :=
    fun hcensus => (mntTaken_prog hread h0 hcensus hprobe sec).trans hprog
  refine ⟨huword, hway, fun h3C => ?_, fun h3E => ?_, fun h3D hop => ?_⟩
  · rw [hsteps (by omega), h3C]
    rfl
  · rw [hsteps (by omega), h3E]
    rfl
  · rw [hsteps (by omega), h3D]
    rfl

/-! ### The issue of a message -/

/-- `c` is slice `n`'s command for the message. -/
def MntCommand (c : Instr) (n : BitVec 7) (m : MntMsg) : Prop :=
  (c = .settle n ∧ m.typ = 0x3C) ∨ (c = .release n ∧ m.typ = 0x3E) ∨ (c = .reclaim n ∧ m.typ = 0x3D ∧ m.operand ≠ 0) ∨
    (c = .census n ∧ m.typ = 0x3D ∧ m.operand = 0) ∨ (c = .probe n ∧ m.typ = 0x3F)

theorem MntCommand.typ_ne_zero {c : Instr} {n : BitVec 7} {m : MntMsg} (h : MntCommand c n m) : m.typ ≠ 0 := by
  unfold MntCommand at h
  omega

/-- The command of a message issues it. -/
theorem MntCommand.completes {c : Instr} {n : BitVec 7} {m : MntMsg} (h : MntCommand c n m) {s : State} (hdft : s.dft = false) :
    ∃ want : MntMsg → Bool, want m = true ∧ ∀ P : State → Prop, P (mntIssue (freshOut s) n.toNat want) → Completes c s P := by
  have hrun : ∀ want : MntMsg → Bool, exec c s = run (fun s => mntIssue s n.toNat want) s → want m = true →
      ∃ want : MntMsg → Bool, want m = true ∧ ∀ P : State → Prop, P (mntIssue (freshOut s) n.toNat want) → Completes c s P :=
    fun want hx hwant => ⟨want, hwant, fun P => completes_run _ hx hdft⟩
  rcases h with ⟨rfl, h⟩ | ⟨rfl, h⟩ | ⟨rfl, h, hop⟩ | ⟨rfl, h, hop⟩ | ⟨rfl, h⟩
  · exact hrun _ rfl (by simp [h])
  · exact hrun _ rfl (by simp [h])
  · exact hrun _ rfl (by simp [h, hop])
  · exact hrun _ rfl (by simp [h, hop])
  · exact hrun _ rfl (by simp [h])

theorem mntTaken_census {s : State} (hmask : s.integ.mask = []) (n : Nat) (l : List MntMsg) {m : MntMsg} (hline : sliceOf m.pa < 128)
    (htyp : m.typ = 0x3D) (hop : m.operand = 0) (sec : Bool) :
    (mntTaken (mntPopped s n l) m sec).prog = censusSteps s m.pa := by
  have hpop := mntPopped_eq s n l
  generalize mntPopped s n l = p at *
  have hlook := looked_readLine hline (t := p) (by rw [hpop]; exact hmask) (Looked.refl _ p)
  refine (mntDec_census htyp hop _).trans ((hlook.censusSteps m.pa).trans ?_)
  rw [hpop]
  rfl

theorem mntTaken_probe (p : State) {m : MntMsg} (htyp : m.typ = 0x3F) (sec : Bool) :
    (mntTaken p m sec).prog = [.snoop .cur .agent, .wait true false] := mntDec_probe htyp _

/-- A message that can issue takes its entry. -/
theorem mntIssue_took {s : State} (hmask : s.integ.mask = []) {n : Nat} (hn : n < 128) {m : MntMsg} {l : List MntMsg}
    {want : MntMsg → Bool} {e : Nat} (hq : (s.slq n).mntQ = m :: l) (helig : mntElig s n = true) (hmay : mayIssue s n 4 = true)
    (hwant : want m = true) (htyp : m.typ ≠ 0) (hfree : blocker s m.pa (mntSector s m) none = none)
    (halloc : allocEntry s n 2 = some e) (hline : sliceOf m.pa = n) :
    let t := mntTaken (mntPopped s n l) m (mntSector s m)
    MntTook s n l (n * 512 + e) (mntIssue s n want) ∧ (mntIssue s n want).trkE (n * 512 + e) = t ∧ EntryFor s m (mntSector s m) t ∧
      ∃ w, w.conf = s.conf ∧ mntIssue s n want = mntConf w m (n * 512 + e) t.deadline := by
  subst hline
  intro t
  obtain ⟨hlook, hstay⟩ := mntDecided_left (p := mntPopped s (sliceOf m.pa) l) hn hmask htyp
  obtain ⟨htook, hself, hconf⟩ := mntTook_putEntry hlook hstay
    (logicOf (mntDecided (mntPopped s (sliceOf m.pa) l) m).1 (sliceOf m.pa)) (sliceOf m.pa * 512 + e) t
  obtain ⟨htook', hself'⟩ := htook.mntConf m t.deadline
  have hu := mntIssue_entry hq helig hmay hwant htyp hfree halloc
  rw [hu]
  exact ⟨htook', hself'.trans hself, entryFor_mntEntry hlook hstay _ _ _ _ _, _, hconf, rfl⟩

/-! ### The census phase that is repeated -/

/-- While no entry waits for a repetition, nothing is repeated. -/
theorem censusRepeat_idle {s : State} {n : Nat} (h : ∀ e ∈ trkOfSlice s n, e.2.deadline = 0) : censusRepeat s n = s := by
  have hnone : (trkOfSlice s n).find? (fun e => e.2.valid && e.2.cls == 2 && e.2.typ == 0x3D && e.2.deadline != 0) = none :=
    List.find?_eq_none.2 fun e he => by simp [h e he]
  unfold censusRepeat
  rw [hnone]

/-- The phase goes back to its snoop once its time has passed (R226). -/
theorem censusRepeat_due {s : State} {n e : Nat} {t : Trk}
    (h : (trkOfSlice s n).find? (fun e => e.2.valid && e.2.cls == 2 && e.2.typ == 0x3D && e.2.deadline != 0) = some (e, t))
    (ht : s.trkE (512 * n + e) = t) :
    censusRepeat s n = ((advanceTo s t.deadline).setTrkE (512 * n + e) { t with deadline := 0, step := t.step - 2 }).addWork
      (.trk (512 * n + e)) := by
  have hold : (advanceTo s t.deadline).trkE (512 * n + e) = t := ht
  unfold censusRepeat
  rw [h]
  dsimp only
  rw [setT, hold]

/-- Settles O32: a message waits as its class, its granule and its pool say, and takes its entry as its own read of its line decides
it; a census phase that is due goes back to its snoop. -/
theorem maintenanceEntries : Obligations.MaintenanceEntries := by
  unfold Obligations.MaintenanceEntries
  refine ⟨fun n s c m l hdft hawake hintact hloaded hadopt hlogic hq hc => ?_,
    fun n s hdft => ⟨fun hidle => ?_, fun e t hdue ht => ?_⟩⟩
  · obtain ⟨want, hwant, hrun⟩ := MntCommand.completes hc hdft
    have htyp := MntCommand.typ_ne_zero hc
    dsimp only
    have idle : mntElig s n.toNat = false ∨ mayIssue s n.toNat 4 = false → Completes c s (fun u => u = Begun s) := fun h =>
      hrun _ (mntIssue_idle (s := freshOut s) want h)
    have wait : ¬ (sliceIssues s n.toNat = true ∧ (m.msg ≠ none ∨ m.typ = 0x3F ∨ s.govBg.getLsbD (n.toNat / 8) = true) ∧
        blocker s m.pa (mntSector s m) none = none ∧ (allocEntry s n.toNat 2).isSome = true) →
        Completes c s (fun u => u = Begun s) := fun h =>
      idle (.inl (Bool.eq_false_iff.2 fun helig => h ((mntElig_iff hq).1 helig)))
    refine ⟨idle, mntSector_iff s m, fun hmsg hprobe hbg => wait ?_, fun b hb => wait ?_, fun hfull => wait ?_,
      fun e hiss hmay hallow hfree halloc hline => hrun _ ?_⟩
    · rintro ⟨-, hallow, -⟩
      rw [hbg] at hallow
      simp [hmsg, hprobe] at hallow
    · rintro ⟨-, -, hfree, -⟩
      rw [hb] at hfree
      cases hfree
    · rintro ⟨-, -, -, hsome⟩
      rw [hfull] at hsome
      cases hsome
    · have helig : mntElig s n.toNat = true := (mntElig_iff hq).2 ⟨hiss, hallow, hfree, by rw [halloc]; rfl⟩
      obtain ⟨hdec, hregs⟩ := decides_mntPopped s n.toNat l
      have hpure := fun hknown hgood hbank h3F => mntTaken_pure (m := m) hdec hregs hintact.1 (by rw [hline]; exact hlogic) hknown hgood
        (by rw [hline]; exact hbank) htyp h3F (mntSector (freshOut s) m)
      have hcensus := mntTaken_census (s := freshOut s) hintact.1 n.toNat l (hline.symm ▸ n.isLt)
      have hprobe := fun h3F => mntTaken_probe (mntPopped (freshOut s) n.toNat l) (m := m) h3F (mntSector s m)
      obtain ⟨⟨hframe, hwords, hspare, hsinks, hslq, hslq_ne, htrk_ne⟩, hself, hentry, x, hx, hu⟩ :=
        mntIssue_took (s := freshOut s) hintact.1 n.isLt hq helig hmay hwant htyp hfree halloc hline
      obtain ⟨hvalid, hcls, htyp', hpa, hsec, hoperand, hlost, hmsg, hdl, hep⟩ := hentry
      generalize mntIssue (freshOut s) n.toNat want = u at *
      rw [hself]
      refine ⟨hframe, hwords, hspare, hsinks, hslq, hslq_ne, hvalid, hcls, htyp', hpa, hsec, hoperand, hlost, hmsg, hdl, hep, htrk_ne,
        fun h => ?_, fun cf h3F hnone hop hcf => ?_, hprobe, fun h3D hop => hcensus h3D hop _, hpure⟩
      · rw [hu, mntConf_other h]
        exact hx
      · rw [hu, mntConf_listed h3F hnone hop (hx.symm ▸ hcf), hdl h3F]
        rfl
  · exact completes_run (fun s => censusRepeat s n.toNat) rfl hdft (censusRepeat_idle (s := freshOut s) hidle)
  · refine completes_run (fun s => censusRepeat s n.toNat) rfl hdft ?_
    dsimp only
    rw [censusRepeat_due (s := freshOut s) hdue ht]
    exact ⟨rfl, rfl, trkE_setTrkE _ _ _, fun k hk => SMap.getD_set_ne _ _ _ _ _ hk⟩

end Sys2Proof.Machine

namespace Sys2Proof.Machine

/-! SUPPORT. What follows a command by itself while nothing waits but Drawers in need, and the parison image's programs are not
up: ways that are to be retired ask for their evictions (R378), and nothing else changes. -/

/-- Nothing that goes on by itself can begin but a way's retirement: no work, no walk, no command, no start, no thread, and the
image's programs are not up. -/
structure Parked (s : State) : Prop where
  work : s.work = []
  frzReq : s.frzReq = 0
  swap : s.sl.banks.swap = none
  thr : s.stw.thr = []
  bulk : s.mem.bulk = []
  walks : s.walks = []
  mode : s.mode ≠ 5
  cmd : s.cmd = none
  run : s.start.run = none
  progs : progsUp s = false

/-- Nothing but what waits at the slices changed. -/
def QueuedOnly (s u : State) : Prop := u = { s with sl := { s.sl with sl := u.sl.sl } }

namespace QueuedOnly

theorem refl (s : State) : QueuedOnly s s := rfl

theorem trans {s t u : State} (hst : QueuedOnly s t) (htu : QueuedOnly t u) : QueuedOnly s u := by
  rw [QueuedOnly, htu, hst]

theorem regs {s u : State} (h : QueuedOnly s u) : u.regs = s.regs := by rw [h]

theorem parked {s u : State} (h : QueuedOnly s u) (hs : Parked s) : Parked u := by
  rw [h]
  exact ⟨hs.work, hs.frzReq, hs.swap, hs.thr, hs.bulk, hs.walks, hs.mode, hs.cmd, hs.run, hs.progs⟩

theorem foldl {α : Type} {f : State → α → State} (hf : ∀ t a, QueuedOnly t (f t a)) (l : List α) (s : State) :
    QueuedOnly s (l.foldl f s) :=
  List.foldlRecOn l f (refl s) fun t ht a _ => ht.trans (hf t a)

end QueuedOnly

theorem queuedOnly_wdogArm (s : State) (n : Nat) : QueuedOnly s (s.wdogArm n) := by
  unfold State.wdogArm
  dsimp only
  split
  · rfl
  · exact .refl s

theorem queuedOnly_queueEv (s : State) (d : Nat) (e : EvMsg) : QueuedOnly s (queueEv s d e) :=
  (queuedOnly_wdogArm s d).trans rfl

theorem queuedOnly_retireEvict (s : State) (d : Nat) : QueuedOnly s (retireEvict s d) :=
  QueuedOnly.foldl (fun t w => by
    split
    · exact .refl t
    · exact queuedOnly_queueEv t d _) _ s

theorem queuedOnly_retirePoll (s : State) : QueuedOnly s (retirePoll s) := by
  unfold retirePoll
  refine QueuedOnly.foldl (fun t e => ?_) _ s
  exact queuedOnly_retireEvict t e.1

namespace Parked

variable {s : State} (h : Parked s)
include h

theorem settle_eq : settle s = s := by
  rw [settle, settleN, h.work]

theorem cmdIs_eq (code : Nat) : cmdIs s code = none := by
  rw [cmdIs, h.cmd]

theorem agentPoll_eq : agentPoll s = s := by
  have hdead : deadPoll s = s := if_pos (by rw [h.progs]; rfl)
  have hlive : livenessPoll s = s := if_pos (by rw [h.progs]; rfl)
  have hreclaim : reclaimPoll 64 s = s := if_pos (by rw [h.progs]; rfl)
  simp only [agentPoll, bindPoll, releasePoll, probePoll, h.cmdIs_eq, hdead, hlive, hreclaim]

theorem cmdPoll_eq : cmdPoll s = s := by
  have hhost : hostPoll s = s := if_pos (by rw [h.progs]; rfl)
  simp only [cmdPoll, rbLoadPoll, rbSwapPoll, ledgerLoadPoll, h.cmdIs_eq, hhost]

theorem sweepPoll_eq : sweepPoll s = s := by
  have hsettle : settleWalk s = s := by rw [settleWalk, h.walks]; rfl
  have hdrain : drainSettle s = s := by
    refine List.foldlRecOn (motive := fun t => t = s) _ _ rfl fun t ht e _ => ?_
    rw [ht, if_pos (.inr (by simp [h.walks]))]
  rw [sweepPoll, hsettle, hdrain]
  simp only [h.walks, List.filter_nil, List.foldl_nil]

theorem bulkPokes_eq : (List.range 4).foldl bulkPoke s = s := by
  refine List.foldlRecOn (motive := fun t => t = s) _ _ rfl fun t ht r _ => ?_
  have hbulk : s.bulkE r = bulk0 := by rw [State.bulkE, h.bulk]; rfl
  rw [ht, bulkPoke, hbulk]
  rfl

theorem polls_eq : polls s = retirePoll s := by
  have hfreeze : freezePoll s = s := if_pos h.frzReq
  have hswap : swapPoll s = s := by rw [swapPoll, h.swap]
  have hstw : stwPoll s = s := by rw [stwPoll, h.thr]; rfl
  have hdrain : drainPoll s = s := if_neg fun hand => h.mode hand.1
  have hcensus : censusPoll s = s := if_pos (.inl (by rw [h.progs]; rfl))
  have hretired : Parked (retirePoll s) := (queuedOnly_retirePoll s).parked h
  have hstart : startPoll (retirePoll s) = retirePoll s := by rw [startPoll, startRunOn, hretired.run]
  rw [polls, hfreeze, hswap, hstw, h.bulkPokes_eq, h.sweepPoll_eq, hdrain, h.agentPoll_eq, hcensus, hretired.cmdPoll_eq, hstart]

theorem rounds_queuedOnly (n : Nat) : QueuedOnly s (rounds n s) := by
  induction n generalizing s with
  | zero => exact .refl s
  | succ n ih =>
    have hpolls : QueuedOnly s (retirePoll s) := queuedOnly_retirePoll s
    rw [rounds, h.polls_eq, (hpolls.parked h).settle_eq]
    split
    · exact .refl s
    · exact hpolls.trans (ih (hpolls.parked h))

/-- No register changes after the command's own effect. -/
theorem finish_regs : (finish s).regs = s.regs := by
  rw [finish, sampleIrq_regs, h.settle_eq]
  split
  · rfl
  · exact (h.rounds_queuedOnly 3).regs

/-- A change of the Drawers, the stored bits, the repair record, and registers other than MODE and those that
say whether the image's programs are up leaves a parked state parked. -/
theorem of_upkeep {u : State} {l : List Nat} (hu : u = { s with cab := u.cab, integ := u.integ, regs := u.regs, repair := u.repair })
    (hregs : RegsBut s u l) (hmode : RegName.MODE.addr 0 0 ∉ l) (hboot : RegName.BOOT_STATUS.addr 0 0 ∉ l)
    (hstep : RegName.START_STATUS.addr 0 0 ∉ l) : Parked u := by
  have hmode' : u.mode = s.mode := by
    rw [State.mode, State.mode, hregs.fld Fld.MODE_CUR 0 0 hmode, hu]
  have hprogs' : progsUp u = progsUp s := by
    rw [progsUp, progsUp, hregs.fld Fld.BOOT_STATUS_CODE 0 0 hboot, hregs.fld Fld.START_STATUS_STEP 0 0 hstep, hu]
  obtain ⟨hwork, hfrz, hswap, hthr, hbulk, hwalks, hm, hcmd, hrun, hprogs⟩ := h
  refine ⟨?_, ?_, ?_, ?_, ?_, ?_, hmode' ▸ hm, ?_, ?_, hprogs'.trans hprogs⟩ <;> rw [hu] <;> assumption

end Parked

/-! The statement about the Drawers' own work fails where the injector of the Lehr SRAM is armed: a Cullet copy writes the
repair record (R379, R383). -/

/-- Word 5 of Drawer 0 is hard and waits for its copy into a Cullet spare, and the injector of the Lehr SRAM is armed to invert
check bit 0 of the next word. MODE is TEST, in which an injector can be armed (R383), and CORE is up; the rest is as after reset. -/
def lehrArmed : State :=
  { State.reset with
    vaux := true, portUp := true, coreUp := true
    regs := [(RegName.MODE.addr 0 0, 7), (RegName.DIE_INJ_L.addr 0 0, 0x201)]
    cab := { State.reset.cab with dr := [(0, { drawer0 with hard := [5] })] } }

/-- What the copy leaves: the word's spare is valid, and the injector has met the word of the repair record that follows it. -/
def lehrArmedCopied : State := culletCopy (freshOut lehrArmed) 0

theorem lehrArmed_parked : Parked (freshOut lehrArmed) := by constructor <;> decide +kernel

/-- The record's word has used the injector up. -/
theorem lehrArmedCopied_arm : lehrArmedCopied.fld Fld.DIE_INJ_L_ARM = 0 := by decide +kernel

theorem lehrArmedCopied_parked : Parked lehrArmedCopied := by constructor <;> decide +kernel

/-- Refutes O49: its clause about the Cullet copy asks that no register but the Cullet entry changes, and of the injectors has
only the Drawer's own unarmed. But the repair record in the Lehr SRAM follows the entry (R379), and the write of its word goes
through the injector of that store (R383). In `lehrArmed` this disarms the injector, which the statement has stay armed. -/
theorem not_drawerUpkeepAndScrubbing : ¬ Obligations.DrawerUpkeepAndScrubbing := by
  unfold Obligations.DrawerUpkeepAndScrubbing
  rintro ⟨hdrawer, -⟩
  obtain ⟨-, -, -, -, hcopy, -⟩ := hdrawer 0 lehrArmed rfl rfl
  obtain ⟨u, hexec, hu, hregs, -⟩ := hcopy 5 [] 0 (by decide +kernel) (by decide +kernel) (by decide +kernel) (by decide) (by decide)
    (by decide +kernel) nofun
  have hrun : exec (.culletCopy 0) lehrArmed = .next (finish lehrArmedCopied) := run_next (fun s => culletCopy s 0) lehrArmed rfl
  have hfinish : finish lehrArmedCopied = finish u := Host.Outcome.next.inj (hrun.symm.trans hexec)
  have hparked : Parked u := by
    refine lehrArmed_parked.of_upkeep ?_ hregs (by decide) (by decide) (by decide)
    rw [hu]
  have hsame : lehrArmedCopied.regs = u.regs := by
    rw [← lehrArmedCopied_parked.finish_regs, hfinish, hparked.finish_regs]
  have hstays : u.fld Fld.DIE_INJ_L_ARM = 1 := by
    rw [hregs.fld Fld.DIE_INJ_L_ARM 0 0 (by decide)]
    decide +kernel
  rw [← fld_congr hsame, lehrArmedCopied_arm] at hstays
  exact absurd hstays (by decide)

end Sys2Proof.Machine

namespace Sys2Proof.Machine

/-! The statement about home-map handoffs fails where the slices' copy of DRAIN is not that of the map: the handoff writes the
entry whole, and its copy with it (R24, R502). -/

/-- DRAIN of window 0 is 0 in the home map and 1 in the slices' copy, as after a write of the map while CORE is in reset (R24).
Port 0 is UP, and the boot program has not run: BOOT_STATUS.CODE is 0. MODE is SERVICE, PORT and CORE are up, and the rest is
as after reset. -/
def drainStale : State :=
  { State.reset with
    vaux := true, portUp := true, coreUp := true, regs := [(RegName.MODE.addr 0 0, 4)]
    shadow := { State.reset.shadow with hmap := [(0, true)] }
    pt := { State.reset.pt with port := [(0, { ptPort0 with state := 3 })] } }

/-- The link header of the first frame in order. -/
def firstFrame : PtHdr := ⟨0, false, 0, true⟩

/-- Instance 1 hands window 0 to itself, with GEN = 1. -/
def drainHandoff : State := ptHmapSet (freshOut drainStale) 0 firstFrame ⟨1, 5, 1⟩ 0 1 1 1 1

theorem drainStale_intact : Intact drainStale := by
  have hcluster : ∀ c, c < 16 → ∀ x, x < 5 → drainStale.fld Fld.CL_INJ_ARM c x = 0 := by decide +kernel
  exact ⟨rfl, rfl, by decide +kernel, fun c x hc hx => hcluster c hc x hx, by decide +kernel, by decide +kernel, by decide +kernel⟩

theorem drainStale_hears : Hears drainStale 0 firstFrame := by
  unfold Hears
  decide +kernel

theorem drainStale_idle : Idle (freshOut drainStale) := by
  unfold Idle
  decide +kernel

theorem drainHandoff_idle : Idle drainHandoff := by
  unfold Idle
  decide +kernel

/-- A change of ports, packets, interrupts, generations, reports, and registers other than MODE and those that say whether the
image's programs are up leaves an idle block idle. -/
theorem Idle.of_handoff {s u : State} {l : List Nat} (h : Idle s)
    (hu : u = { s with
      pt := u.pt, ptTx := u.ptTx, regs := u.regs, irq := u.irq, nq := u.nq, port := u.port, integ := u.integ, fault := u.fault })
    (hregs : RegsBut s u l) (hmode : RegName.MODE.addr 0 0 ∉ l) (hboot : RegName.BOOT_STATUS.addr 0 0 ∉ l)
    (hstep : RegName.START_STATUS.addr 0 0 ∉ l) : Idle u := by
  obtain ⟨hwork, hfrz, hswap, hsl, hthr, hbulk, hwalks, hm, hdr, hcmd, hrun, hprogs⟩ := h
  have hmode' : u.mode = s.mode := by
    rw [State.mode, State.mode, hregs.fld Fld.MODE_CUR 0 0 hmode, hu]
  have hprogs' : progsUp u = progsUp s := by
    rw [progsUp, progsUp, hregs.fld Fld.BOOT_STATUS_CODE 0 0 hboot, hregs.fld Fld.START_STATUS_STEP 0 0 hstep, hu]
  refine ⟨?_, ?_, ?_, ?_, ?_, ?_, ?_, hmode' ▸ hm, ?_, ?_, ?_, hprogs'.trans hprogs⟩ <;> rw [hu] <;> assumption

/-- Refutes O60: its clause about a handoff that is applied asks that nothing but the entry, its generation and what records
them changes, which leaves the slices' copy of DRAIN out. The handoff sends that copy the entry it wrote (R24), so that in
`drainStale` the copy's 1 is gone, which the statement has stay. -/
theorem not_homeMapHandoff : ¬ Obligations.HomeMapHandoff := by
  unfold Obligations.HomeMapHandoff
  intro h
  obtain ⟨hset, -⟩ := h drainStale rfl ⟨rfl, rfl, rfl, by decide +kernel⟩ drainStale_intact
  obtain ⟨-, -, hnewer⟩ := hset 0 firstFrame ⟨1, 5, 1⟩ 0 1 1 true 1 drainStale_hears
  obtain ⟨u, hexec, hu, -, -, -, -, hregs, -⟩ := hnewer (by unfold NewFlood; decide +kernel) (by decide +kernel)
  have hrun : exec (.hmapSet 0 firstFrame ⟨1, 5, 1⟩ 0 1 1 true 1) drainStale = .next (finish drainHandoff) :=
    run_next (fun s => ptHmapSet s 0 firstFrame ⟨1, 5, 1⟩ 0 1 1 1 1) drainStale rfl
  have hidle : Idle u := by
    refine drainStale_idle.of_handoff ?_ hregs (by decide) (by decide) (by decide)
    rw [hu]
  have hfinish : finish drainHandoff = finish u := Host.Outcome.next.inj (hrun.symm.trans hexec)
  rw [finish_of_idle drainHandoff_idle, finish_of_idle hidle] at hfinish
  have hshadow : drainHandoff.shadow = u.shadow := by rw [← sampleIrq_shadow, hfinish, sampleIrq_shadow]
  have hkept : u.shadow = drainStale.shadow := by
    rw [hu]
    rfl
  have hcopied : drainHandoff.shadow.hmap = [] := by decide +kernel
  rw [hshadow, hkept] at hcopied
  exact absurd hcopied (by decide)

end Sys2Proof.Machine

namespace Sys2Proof.Machine

/-! SUPPORT. What follows a command by itself (`finish`) writes the agent table, the records of agents' deaths and reclaims, and
the reclaim that runs only through the programs of chapter 8 and the resets. Here: the operations that leave all three as they
are, in the order of the model. They are rewriting rules of `simp`, so that a caller's rule follows from those of the operations
it is made of. -/

/-- A packet of records of an agent's death or of the end of a reclaim (R216, R222). -/
def isAgentRec (p : List (BitVec 128)) : Bool := p.all fun w => bits w.toNat 0 8 == 0x40 || bits w.toNat 0 8 == 0x42

/-- The agent table, the records of agents' deaths and reclaims that are ready, and the reclaim that runs are the same. -/
@[simp] abbrev SameRoll (s u : State) : Prop :=
  u.agt = s.agt ∧ u.nq.readyPar.filter isAgentRec = s.nq.readyPar.filter isAgentRec ∧ u.port.dying = s.port.dying

theorem SameRoll.refl (s : State) : SameRoll s s := ⟨rfl, rfl, rfl⟩

theorem SameRoll.trans {s t u : State} (h : SameRoll s t) (k : SameRoll t u) : SameRoll s u :=
  ⟨k.1.trans h.1, k.2.1.trans h.2.1, k.2.2.trans h.2.2⟩

/-! ### Branches, folds and pairs -/

@[simp] theorem ite_agt (c : Prop) [Decidable c] (s u : State) :
    (if c then s else u).agt = if c then s.agt else u.agt := apply_ite State.agt c s u

@[simp] theorem ite_agentRecs (c : Prop) [Decidable c] (s u : State) :
    (if c then s else u).nq.readyPar.filter isAgentRec =
      if c then s.nq.readyPar.filter isAgentRec else u.nq.readyPar.filter isAgentRec :=
  apply_ite (·.nq.readyPar.filter isAgentRec) c s u

@[simp] theorem ite_dying (c : Prop) [Decidable c] (s u : State) :
    (if c then s else u).port.dying = if c then s.port.dying else u.port.dying := apply_ite (·.port.dying) c s u

@[simp] theorem ite_fst {α : Type} (c : Prop) [Decidable c] (s u : State × α) :
    (if c then s else u).1 = if c then s.1 else u.1 := apply_ite Prod.fst c s u

@[simp] theorem foldl_roll {α : Type} (f : State → α → State) (h : ∀ u x, SameRoll u (f u x)) (l : List α) (s : State) :
    SameRoll s (l.foldl f s) :=
  List.foldlRecOn (motive := SameRoll s) l f (.refl s) fun u ih x _ => ih.trans (h u x)

theorem foldl_fst_roll {α β : Type} (f : State × α → β → State × α) (h : ∀ p x, SameRoll p.1 (f p x).1) (l : List β)
    (p : State × α) : SameRoll p.1 (l.foldl f p).1 :=
  List.foldlRecOn (motive := fun q => SameRoll p.1 q.1) l f (.refl p.1) fun q ih x _ => ih.trans (h q x)

/-- The state that a match on a pair names. -/
theorem roll_of_eq {α : Type} {p : State × α} {s u : State} {v : α} (h : p = (u, v)) (hp : SameRoll s p.1) : SameRoll s u := by
  rw [h] at hp
  exact hp

theorem setFld_roll (s : State) (f : Fld) (v i j : ℕ) : SameRoll s (s.setFld f v i j) := by simp

theorem setReg_roll (s : State) (r : RegName) (v : BitVec 64) (i j : ℕ) : SameRoll s (s.setReg r v i j) := by simp

/-! ### Records -/

/-- The fields of a record above its type leave the type as it is. -/
theorem foldl_recOf_mod {fs : List (ℕ × ℕ × ℕ)} (hfs : fs.all (fun e => 8 ≤ e.2.1) = true) (a : ℕ) :
    (fs.foldl (fun a (v, lo, n) => a + v % 2 ^ n * 2 ^ lo) a) % 256 = a % 256 := by
  induction fs generalizing a with
  | nil => rfl
  | cons e fs ih =>
    obtain ⟨he, hfs⟩ := Bool.and_eq_true_iff.1 hfs
    obtain ⟨k, hk⟩ := Nat.exists_eq_add_of_le (of_decide_eq_true he)
    have hplace : e.1 % 2 ^ e.2.2 * 2 ^ e.2.1 = 256 * (e.1 % 2 ^ e.2.2 * 2 ^ k) := by
      rw [hk, Nat.pow_add]
      ring
    rw [List.foldl_cons, ih hfs]
    dsimp only
    rw [hplace, Nat.add_mul_mod_self_left]

theorem recOf_type {t : ℕ} {fs : List (ℕ × ℕ × ℕ)} (ht : t < 256) (hfs : fs.all (fun e => 8 ≤ e.2.1) = true) :
    bits (recOf ((t, 0, 8) :: fs)).toNat 0 8 = t := by
  have hmod := foldl_recOf_mod hfs (t % 2 ^ 8)
  simp only [recOf, bits, List.foldl_cons, BitVec.toNat_ofNat] at hmod ⊢
  simp only [Nat.zero_add, pow_zero, Nat.mul_one, Nat.div_one]
  rw [Nat.mod_mod_of_dvd _ (by norm_num : 2 ^ 8 ∣ 2 ^ 128)]
  omega

/-- A record of a type other than those of agents. -/
theorem isAgentRec_recOf {t : ℕ} {fs : List (ℕ × ℕ × ℕ)} (ht : t < 256) (hdead : t ≠ 0x40) (hend : t ≠ 0x42)
    (hfs : fs.all (fun e => 8 ≤ e.2.1) = true) : isAgentRec [recOf ((t, 0, 8) :: fs)] = false := by
  simp [isAgentRec, recOf_type ht hfs, hdead, hend]

/-! ### The stores of words and the reports -/

@[simp] theorem takeFree_roll (s : State) : SameRoll s s.takeFree.2 := ⟨rfl, rfl, rfl⟩
@[simp] theorem setFport_roll (s : State) (p : ℕ) (f : FPort) : SameRoll s (s.setFport p f) := ⟨rfl, rfl, rfl⟩
@[simp] theorem setDatE_roll (s : State) (p e : ℕ) (d : DatEntry) : SameRoll s (s.setDatE p e d) := ⟨rfl, rfl, rfl⟩
@[simp] theorem setHoldE_roll (s : State) (h : ℕ) (v : HoldSlot) : SameRoll s (s.setHoldE h v) := ⟨rfl, rfl, rfl⟩
@[simp] theorem setRecE_roll (s : State) (t : ℕ) (v : AccRec) : SameRoll s (s.setRecE t v) := ⟨rfl, rfl, rfl⟩
@[simp] theorem setFanE_roll (s : State) (t : ℕ) (v : FanRec) : SameRoll s (s.setFanE t v) := ⟨rfl, rfl, rfl⟩

@[simp] theorem setNotices_roll (s : State) (c : ℕ) (l : List Notice) : SameRoll s (s.setNotices c l) := ⟨rfl, rfl, rfl⟩

@[simp] theorem notify_roll (s : State) (c : ℕ) (n : Notice) : SameRoll s (s.notify c n) := ⟨rfl, rfl, rfl⟩

/-! ### The LEHR store and the stored words -/

@[simp] theorem setMask_roll (s : State) (st : Store) (unit w m : ℕ) : SameRoll s (setMask s st unit w m) := ⟨rfl, rfl, rfl⟩

@[simp] theorem setPq_roll (s : State) (st : Store) (unit page q v : ℕ) : SameRoll s (setPq s st unit page q v) := ⟨rfl, rfl, rfl⟩

@[simp] theorem bucketAdd_roll (s : State) (level ovf : Fld) (i j n : ℕ) :
    SameRoll s (bucketAdd s level ovf i j n).1 := by simp [bucketAdd]

@[simp] theorem bucket_roll (s : State) (c : IClass) (n : ℕ) : SameRoll s (bucket s c n) := by
  unfold bucket
  split <;> simp

@[simp] theorem wordRead_roll (s : State) (st : Store) (unit w : ℕ) : SameRoll s (wordRead s st unit w).1 := by
  unfold wordRead
  (repeat' split) <;> simp

@[simp] theorem lehrWrote_roll (s : State) (ws : List ℕ) : SameRoll s (lehrWrote s ws) := by simp [lehrWrote]

@[simp] theorem lehrGood_roll (s : State) (lo n : ℕ) : SameRoll s (lehrGood s lo n).1 := by
  unfold lehrGood
  extract_lets ws
  generalize hr : ws.foldl _ _ = r
  have hread : SameRoll s r.1 := by
    rw [← hr]
    exact foldl_fst_roll _ (fun p w => by simp) ..
  dsimp only
  split
  · simp [hread]
  · exact hread

/-! ### Notices and the queues of a slice -/

/-- A packet whose record is of another type than an agent's. -/
theorem parReady_roll (s : State) {w : BitVec 128} (h : isAgentRec [w] = false) : SameRoll s (parReady s w) :=
  ⟨rfl, by simp [parReady, h], rfl⟩

@[simp] theorem cmdDone_roll (s : State) (code val : ℕ) : SameRoll s (cmdDone s code val) := by simp [cmdDone]
@[simp] theorem cmdEnd_roll (s : State) (code val : ℕ) : SameRoll s (cmdEnd s code val) := by simp [cmdEnd]

/-! ### The maps and the agent table -/

@[simp] theorem shadowAmap_roll (s : State) (e w : ℕ) : SameRoll s (shadowAmap s e w) := by simp [shadowAmap]

@[simp] theorem mapWritten_roll (s : State) (home : Bool) (k : ℕ) : SameRoll s (mapWritten s home k) := by
  simp [mapWritten]

/-! ### The Cabinet -/

@[simp] theorem raiseDrawer_roll (s : State) (d code : ℕ) (inj : Bool) :
    SameRoll s (raiseDrawer s d code inj) := by simp [raiseDrawer]

@[simp] theorem blindTick_roll (s : State) : SameRoll s (blindTick s) := ⟨rfl, rfl, rfl⟩

@[simp] theorem makeBlind_roll (s : State) (d k cause : ℕ) : SameRoll s (makeBlind s d k cause) := by
  unfold makeBlind
  dsimp only
  (repeat' split) <;> simp

@[simp] theorem lostPage_roll (s : State) (d page : ℕ) (inj : Bool) : SameRoll s (lostPage s d page inj) := by
  simp [lostPage]

@[simp] theorem formatError_roll (s : State) (d k : ℕ) : SameRoll s (formatError s d k) := by simp [formatError]
@[simp] theorem wrFmtError_roll (s : State) (d k : ℕ) : SameRoll s (wrFmtError s d k) := by simp [wrFmtError]
@[simp] theorem markHard_roll (s : State) (d w : ℕ) : SameRoll s (markHard s d w) := by simp [markHard]

@[simp] theorem countCorrection_roll (s : State) (d w : ℕ) (rebuilt : Bool) : SameRoll s (countCorrection s d w rebuilt) := by
  unfold countCorrection
  dsimp only
  (repeat' split) <;> simp

@[simp] theorem noteWritten_roll (s : State) (d w : ℕ) : SameRoll s (noteWritten s d w) := ⟨rfl, rfl, rfl⟩

@[simp] theorem drawerRead_roll (s : State) (d w : ℕ) : SameRoll s (drawerRead s d w).1 := by
  unfold drawerRead
  (repeat' split) <;> simp

@[simp] theorem drawerPut_roll (s : State) (d w : ℕ) (v : BitVec 120) : SameRoll s (drawerPut s d w v) := by
  unfold drawerPut
  split <;> simp

@[simp] theorem drawerWrite_roll (s : State) (d w : ℕ) (v : BitVec 120) : SameRoll s (drawerWrite s d w v).1 := by
  unfold drawerWrite
  (repeat' split) <;> simp

@[simp] theorem setReadAll_roll (s : State) (d k : ℕ) : SameRoll s (setReadAll s d k).1 := by
  unfold setReadAll
  exact foldl_fst_roll _ (fun p w => by simp) ..

@[simp] theorem setRead_roll (s : State) (d k : ℕ) : SameRoll s (setRead s d k).1 := by
  simp [setRead]

@[simp] theorem streamHit_roll (s : State) (d line agent : ℕ) : SameRoll s (streamHit s d line agent).1 := by
  simp [streamHit]

@[simp] theorem scrubPageVisit_roll (s : State) (d page : ℕ) : SameRoll s (scrubPageVisit s d page) := by
  unfold scrubPageVisit
  generalize hr : (List.range 32).foldl _ _ = r
  have hread : SameRoll s r.1 := by
    rw [← hr]
    exact foldl_fst_roll _ (fun p w => by split <;> simp) ..
  dsimp only
  (repeat' split) <;> simp [hread]

/-! ### The memory ports -/

@[simp] theorem setOp_roll (s : State) (id : ℕ) (o : Option MemOp) : SameRoll s (setOp s id o) := ⟨rfl, rfl, rfl⟩

@[simp] theorem maskWrite_roll (s : State) (line : ℕ) : SameRoll s (maskWrite s line) := by
  refine foldl_roll _ (fun t e => ?_) _ _
  dsimp only
  (repeat' split) <;> simp

@[simp] theorem issueOn_roll (s : State) (o : MemOp) : SameRoll s (issueOn s o).1 := by
  unfold issueOn
  split
  · exact .refl _
  · dsimp only
    exact foldl_roll _ (fun t m => by simp) ..

@[simp] theorem issueMem_roll (s : State) (kind : ℕ) (org : MemOrg) (line : ℕ) (data : Line) (be : BitVec 64) (nt : Bool)
    (reqr : ℕ) : SameRoll s (issueMem s kind org line data be nt reqr).1 := by simp [issueMem]

@[simp] theorem transfer_roll (s : State) (m r id : ℕ) (o : MemOp) : SameRoll s (transfer s m r id o) := by
  simp [transfer]

@[simp] theorem burstEnd_roll (s : State) (m h keep : ℕ) : SameRoll s (burstEnd s m h keep) := ⟨rfl, rfl, rfl⟩

@[simp] theorem arbOnce_roll (s : State) (m : ℕ) : SameRoll s (arbOnce s m).1 := by
  unfold arbOnce
  dsimp only
  (repeat' split) <;> simp

@[simp] theorem arbRun_roll (fuel m : ℕ) (s : State) : SameRoll s (arbRun fuel m s) := by
  induction fuel generalizing s with
  | zero => exact .refl _
  | succ fuel ih => simp [arbRun, ih]

/-! ### Fan-out and egress -/

@[simp] theorem egPush_roll (s : State) (p : ℕ) (m : FabMsg) : SameRoll s (egPush s p m) := by
  unfold egPush
  split <;> simp

@[simp] theorem leaveTrk_roll (s : State) (tid : ℕ) (isData : Bool) : SameRoll s (leaveTrk s tid isData) := by
  simp [leaveTrk]

@[simp] theorem flushStaged_roll (s : State) : SameRoll s (flushStaged s) := by
  unfold flushStaged
  dsimp only
  exact foldl_roll _ (fun t e => by (repeat' split) <;> simp) ..

@[simp] theorem stage_roll (s : State) (p : ℕ) (m : FabMsg) : SameRoll s (stage s p m) := by simp [stage]

@[simp] theorem fanCheck_roll (s : State) (tid : ℕ) : SameRoll s (fanCheck s tid) := by
  unfold fanCheck
  split <;> simp

@[simp] theorem noteProbe_roll (s : State) (tid a : ℕ) : SameRoll s (noteProbe s tid a) := by
  unfold noteProbe
  split <;> simp

@[simp] theorem countAnswer_roll (s : State) (tid a st dead : ℕ) :
    SameRoll s (countAnswer s tid a st dead) := by simp [countAnswer]

@[simp] theorem releaseDeferred_roll (s : State) : SameRoll s (releaseDeferred s) := by simp [releaseDeferred]

@[simp] theorem leave_roll (s : State) (p : ℕ) (m : FabMsg) : SameRoll s (leave s p m) := by
  unfold leave
  split <;> simp

@[simp] theorem egHead_roll (s : State) (p c : ℕ) : SameRoll s (egHead s p c).1 := by
  unfold egHead
  dsimp only
  (repeat' split) <;> simp

@[simp] theorem egClass_roll (fuel p c : ℕ) (s : State) : SameRoll s (egClass fuel p c s) := by
  induction fuel generalizing s with
  | zero => exact .refl _
  | succ fuel ih => simp [egClass, ih]

@[simp] theorem egRun_roll (s : State) (p : ℕ) : SameRoll s (egRun s p) := by simp [egRun]
@[simp] theorem sendSnoop_roll (s : State) (m : SnpMsg) : SameRoll s (sendSnoop s m) := ⟨rfl, rfl, rfl⟩

/-! ### The rule banks -/

@[simp] theorem bankRead_roll (s : State) (logic b i bad : ℕ) : SameRoll s (bankRead s logic b i bad).1 := by
  unfold bankRead
  dsimp only
  (repeat' split) <;> simp

@[simp] theorem matchFrom_roll (key logic b n i : ℕ) (s : State) : SameRoll s (matchFrom key logic b n i s).1 := by
  induction n generalizing i s with
  | zero => exact .refl _
  | succ n ih =>
    rw [matchFrom]
    dsimp only
    split <;> simp [ih]

@[simp] theorem matchRule_roll (s : State) (slice bank typ mode : ℕ) (v : Seen) (r : ℕ) :
    SameRoll s (matchRule s slice bank typ mode v r).1 := by
  unfold matchRule
  dsimp only
  (repeat' split) <;> simp

/-! ### The entries of a slice -/

@[simp] theorem setT_roll (s : State) (tid : ℕ) (f : Trk → Trk) : SameRoll s (setT s tid f) := ⟨rfl, rfl, rfl⟩
@[simp] theorem keepStore_roll (s : State) (n logic : ℕ) : SameRoll s (keepStore s n logic) := ⟨rfl, rfl, rfl⟩
@[simp] theorem setBufs_roll (s : State) (c : ℕ) (l : List ℕ) : SameRoll s (setBufs s c l) := ⟨rfl, rfl, rfl⟩

@[simp] theorem startRead_roll (s : State) (tid : ℕ) : SameRoll s (startRead s tid).1 := by
  unfold startRead
  extract_lets t c took
  have htook : ∀ u t', took = some (u, t') → SameRoll s u := fun u t' h => by
    dsimp only [took] at h
    (repeat' split at h) <;> cases h <;> simp
  clear_value took
  split
  · simp
  · simp [htook _ _ rfl]

@[simp] theorem issueWr_roll (s : State) (tid : ℕ) (w : WrReq) (own : Bool) :
    SameRoll s (issueWr s tid w own) := by simp [issueWr]

@[simp] theorem queueWr_roll (s : State) (tid : ℕ) (w : WrReq) : SameRoll s (queueWr s tid w) := by
  simp [queueWr]

@[simp] theorem sendData_roll (s : State) (tid : ℕ) (d : Option Line) (poison : Bool) :
    SameRoll s (sendData s tid d poison) := by simp [sendData]

@[simp] theorem sendFinal_roll (s : State) (tid : ℕ) : SameRoll s (sendFinal s tid) := by simp [sendFinal]

@[simp] theorem putWord_roll (s : State) (d k way : ℕ) (c : Option CabW) : SameRoll s (putWord s d k way c) := by simp [putWord]

@[simp] theorem writeCoarseNew_roll (s : State) (d line scope way : ℕ) (h0 : HS) (loc0 : ℕ) :
    SameRoll s (writeCoarseNew s d line scope way h0 loc0) := by simp [writeCoarseNew]

@[simp] theorem pinWay_roll (s : State) (d k way : ℕ) : SameRoll s (pinWay s d k way) := ⟨rfl, rfl, rfl⟩
@[simp] theorem unpinWay_roll (s : State) (d k way : ℕ) : SameRoll s (unpinWay s d k way) := ⟨rfl, rfl, rfl⟩
@[simp] theorem queueEv_roll (s : State) (d : ℕ) (e : EvMsg) : SameRoll s (queueEv s d e) := by simp [queueEv]

@[simp] theorem allocStep_roll (s : State) (tid line : ℕ) (folds : Bool) : SameRoll s (allocStep s tid line folds).1 := by
  unfold allocStep
  dsimp only
  (repeat' split) <;> simp

@[simp] theorem freeWay_roll (s : State) (tid : ℕ) (t : Trk) : SameRoll s (freeWay s tid t) := by
  unfold freeWay
  split <;> simp

@[simp] theorem settlePush_roll (s : State) (tid line : ℕ) : SameRoll s (settlePush s tid line) := by
  simp [settlePush]

@[simp] theorem wakeWays_roll (s : State) (n : ℕ) : SameRoll s (wakeWays s n) := ⟨rfl, rfl, rfl⟩
@[simp] theorem wroteWord_roll (s : State) (tid : ℕ) : SameRoll s (wroteWord s tid) := by simp [wroteWord]

@[simp] theorem writeStep_roll (s : State) (tid : ℕ) (l : WList) (code : ℕ) : SameRoll s (writeStep s tid l code).1 := by
  unfold writeStep
  extract_lets t d line set_ st scope lk a fin
  split
  · exact .refl _
  have hfin : ∀ u w cur, SameRoll u (fin u w cur) := fun u w cur => by
    dsimp only [fin]
    (repeat' split) <;> simp
  clear_value fin
  split
  · split
    · dsimp only
      split <;> simp
    · exact .refl _
  split
  · exact hfin ..
  · split
    · simp
    split
    · simp
    · dsimp only
      (repeat' split) <;> simp [hfin]
  · dsimp only
    (repeat' split) <;> simp [hfin]
  · dsimp only
    (repeat' split) <;> simp [hfin]

@[simp] theorem splitStep_roll (s : State) (tid : ℕ) : SameRoll s (splitStep s tid) := by
  unfold splitStep
  dsimp only
  (repeat' split) <;> simp

@[simp] theorem startPhase_roll (s : State) (tid : ℕ) (k : SnpKind) (g : SnpTgt) : SameRoll s (startPhase s tid k g).1 := by
  unfold startPhase
  dsimp only
  (repeat' split) <;> simp

@[simp] theorem giveTaken_roll (s : State) (tid : ℕ) (k : Taken) (d : Line) :
    SameRoll s (giveTaken s tid k d) := by simp [giveTaken]

@[simp] theorem rereadPump_roll (s : State) (tid : ℕ) : SameRoll s (rereadPump s tid) := by
  unfold rereadPump
  dsimp only
  (repeat' split) <;> simp

@[simp] theorem censusStep_roll (fuel tid : ℕ) (s : State) : SameRoll s (censusStep fuel tid s).1 := by
  induction fuel generalizing s with
  | zero => exact .refl _
  | succ fuel ih =>
    rw [censusStep]
    dsimp only
    split
    · exact .refl _
    next c =>
      generalize hr : allocStep s tid _ _ = r
      have halloc : SameRoll s r.1 := hr ▸ allocStep_roll ..
      clear hr
      split
      · exact halloc
      · refine SameRoll.trans ?_ ((setT_roll ..).trans (ih _))
        split
        · split <;> simp [halloc]
        · exact halloc

@[simp] theorem adv_roll (s : State) (tid : ℕ) : SameRoll s (adv s tid) := ⟨rfl, rfl, rfl⟩
@[simp] theorem waitIn_roll (s : State) (tid ts : ℕ) : SameRoll s (waitIn s tid ts).1 := ⟨rfl, rfl, rfl⟩

@[simp] theorem rbErrInfo_roll (s : State) (n typ idx : ℕ) : SameRoll s (rbErrInfo s n typ idx) := by
  simp [rbErrInfo]

@[simp] theorem badStepFault_roll (s : State) (n typ idx k : ℕ) : SameRoll s (badStepFault s n typ idx k) := by
  simp [badStepFault]

@[simp] theorem noRuleFault_roll (s : State) (n typ k : ℕ) : SameRoll s (noRuleFault s n typ k) := by
  simp [noRuleFault]

@[simp] theorem badStep_roll (s : State) (tid idx : ℕ) : SameRoll s (badStep s tid idx) := by simp [badStep]
@[simp] theorem lostRecord_roll (s : State) (tid by_ : ℕ) : SameRoll s (lostRecord s tid by_) :=
  SameRoll.trans (by simp) (parReady_roll _ (isAgentRec_recOf (by decide) (by decide) (by decide) rfl))

@[simp] theorem proto_roll (s : State) (tid : ℕ) : SameRoll s (proto s tid) := by simp [proto]

@[simp] theorem runStep_roll (s : State) (tid : ℕ) (st : AStep) : SameRoll s (runStep s tid st).1 := by
  unfold runStep
  dsimp only
  (repeat' split) <;> simp

@[simp] theorem endSeq_roll (s : State) (tid : ℕ) : SameRoll s (endSeq s tid).1 := by simp [endSeq]

@[simp] theorem reserveLine_roll (s : State) (n line : ℕ) : SameRoll s (reserveLine s n line) := by
  simp [reserveLine]

@[simp] theorem wakeWaiters_roll (s : State) (n : ℕ) : SameRoll s (wakeWaiters s n) := ⟨rfl, rfl, rfl⟩

/-! ### Threads and Hutches -/

@[simp] theorem lwrite_roll (s : State) (t w : ℕ) (v : BitVec 64) : SameRoll s (lwrite s t w v) := by
  simp [lwrite]

@[simp] theorem seqOp_roll (s : State) (t kind port : ℕ) : SameRoll s (seqOp s t kind port) := ⟨rfl, rfl, rfl⟩
@[simp] theorem closeSeq_roll (s : State) (t : ℕ) : SameRoll s (closeSeq s t) := by simp [closeSeq]
@[simp] theorem endLock_roll (s : State) (tid : ℕ) : SameRoll s (endLock s tid) := by simp [endLock]
@[simp] theorem endLocks_roll (s : State) (t : ℕ) : SameRoll s (endLocks s t) := by simp [endLocks]
@[simp] theorem dropDlock_roll (s : State) (t : ℕ) : SameRoll s (dropDlock s t) := ⟨rfl, rfl, rfl⟩
@[simp] theorem haltThread_roll (s : State) (t : ℕ) : SameRoll s (haltThread s t) := by simp [haltThread]
@[simp] theorem boundary_roll (s : State) (t : ℕ) : SameRoll s (boundary s t) := by simp [boundary]

@[simp] theorem trap_roll (s : State) (t cause : ℕ) (info : BitVec 64) : SameRoll s (trap s t cause info) := by
  simp [trap]

@[simp] theorem inboxPush_roll (s : State) (t : ℕ) (m : InMsg) : SameRoll s (inboxPush s t m) := by
  simp [inboxPush]

@[simp] theorem takeMsg_roll (s : State) (t gd pd : ℕ) : SameRoll s (takeMsg s t gd pd) := by
  unfold takeMsg
  split <;> simp

@[simp] theorem creditBack_roll (s : State) (t n : ℕ) : SameRoll s (creditBack s t n) := ⟨rfl, rfl, rfl⟩
@[simp] theorem setHutEnt_roll (s : State) (c i : ℕ) (e : HEnt) : SameRoll s (setHutEnt s c i e) := ⟨rfl, rfl, rfl⟩

@[simp] theorem setHutEvb_roll (s : State) (c k : ℕ) (e : Option HEvb) : SameRoll s (setHutEvb s c k e) := ⟨rfl, rfl, rfl⟩

@[simp] theorem hutWritten_roll (s : State) (c i : ℕ) : SameRoll s (hutWritten s c i) := by simp [hutWritten]

@[simp] theorem evbSend_roll (s : State) (c k line : ℕ) (data : Line) (poison : Bool) :
    SameRoll s (evbSend s c k line data poison) := by simp [evbSend]

@[simp] theorem accFail_roll (s : State) (a : HAcc) : SameRoll s (accFail s a) := by
  unfold accFail
  split <;> simp

@[simp] theorem accData_roll (s : State) (a : HAcc) (d : Line) : SameRoll s (accData s a d) := by
  unfold accData
  (repeat' split) <;> simp

@[simp] theorem entRead_roll (s : State) (c i : ℕ) (l : List ℕ) : SameRoll s (entRead s c i l).1 := by
  induction l generalizing s with
  | nil => exact .refl _
  | cons k ks ih =>
    rw [entRead]
    dsimp only
    split <;> simp [ih]

@[simp] theorem hutOut_roll (s : State) (c i : ℕ) : SameRoll s (hutOut s c i).1 := by
  unfold hutOut
  dsimp only
  (repeat' split) <;> simp

@[simp] theorem evictTo_roll (s : State) (c i k : ℕ) : SameRoll s (evictTo s c i k) := by simp [evictTo]

@[simp] theorem hutMissStart_roll (s : State) (c : ℕ) (a : HAcc) (useMask : Bool) : SameRoll s (hutMissStart s c a useMask) := by
  unfold hutMissStart
  dsimp only
  (repeat' split) <;> simp

@[simp] theorem hutServe_roll (s : State) (c : ℕ) (a : HAcc) (bulkDone : State → HAcc → Line → State)
    (hdone : ∀ u x l, SameRoll u (bulkDone u x l)) : SameRoll s (hutServe s c a bulkDone) := by
  unfold hutServe
  dsimp only
  (repeat' split) <;> simp [hdone]

@[simp] theorem hutPump_roll (bulkDone : State → HAcc → Line → State)
    (hdone : ∀ u x l, SameRoll u (bulkDone u x l)) (fuel c : ℕ) (s : State) : SameRoll s (hutPump bulkDone fuel c s) := by
  induction fuel generalizing s with
  | zero => exact .refl _
  | succ fuel ih =>
    rw [hutPump]
    dsimp only
    (repeat' split) <;> simp [ih, hdone]

@[simp] theorem hutPrefetch_roll (s : State) (c : ℕ) (a : HAcc) : SameRoll s (hutPrefetch s c a) := by
  simp [hutPrefetch]

@[simp] theorem hutFilled_roll (s : State) (c : ℕ) (d : MemDone) (bulkDone : State → HAcc → Line → State)
    (hdone : ∀ u x l, SameRoll u (bulkDone u x l)) : SameRoll s (hutFilled s c d bulkDone) := by
  unfold hutFilled
  dsimp only
  (repeat' split) <;> simp [hdone]

@[simp] theorem hutPfPut_roll (s : State) (c : ℕ) : SameRoll s (hutPfPut s c) := by
  unfold hutPfPut
  (repeat' split) <;> simp

@[simp] theorem hutPfFilled_roll (s : State) (c : ℕ) (d : MemDone) : SameRoll s (hutPfFilled s c d) := by
  simp [hutPfFilled]

@[simp] theorem maintEnd_roll (s : State) (c st : ℕ) : SameRoll s (maintEnd s c st) := ⟨rfl, rfl, rfl⟩

@[simp] theorem maintRun_roll (s : State) (c : ℕ) : SameRoll s (maintRun s c) := by
  unfold maintRun
  dsimp only
  (repeat' split) <;> simp

@[simp] theorem hutEvDone_roll (s : State) (c k : ℕ) : SameRoll s (hutEvDone s c k) := by
  unfold hutEvDone
  dsimp only
  (repeat' split) <;> simp

/-! ### The bulk engine -/

@[simp] theorem bulkLineClean_roll (s : State) (c line : ℕ) : SameRoll s (bulkLineClean s c line) := by
  unfold bulkLineClean
  split <;> simp

@[simp] theorem bulkData_roll (s : State) (a : HAcc) (d : Line) : SameRoll s (bulkData s a d) := by
  unfold bulkData
  dsimp only
  (repeat' split) <;> simp

@[simp] theorem bulkProg_roll (s : State) (r : ℕ) (b : BulkRun) (res : ℕ) (last : Bool) :
    SameRoll s (bulkProg s r b res last) := ⟨rfl, rfl, rfl⟩

@[simp] theorem hutRun_roll (s : State) (c : ℕ) : SameRoll s (hutRun s c) := by simp [hutRun]

@[simp] theorem bulkPoke_roll (s : State) (r : ℕ) : SameRoll s (bulkPoke s r) := by
  unfold bulkPoke
  dsimp only
  (repeat' split) <;> simp

@[simp] theorem bulkEnd_roll (s : State) (r : ℕ) (b : BulkRun) : SameRoll s (bulkEnd s r b) := by simp [bulkEnd]

@[simp] theorem chunkDone_roll (s : State) (r : ℕ) (b : BulkRun) : SameRoll s (chunkDone s r b) := by
  simp [chunkDone]

@[simp] theorem bulkLine_roll (s : State) (d : MemDone) : SameRoll s (bulkLine s d) := by
  unfold bulkLine
  (repeat' split) <;> simp

/-! ### The stewards -/

@[simp] theorem dputPage_roll (s : State) (l : Loc) : SameRoll s (dputPage s l).1 := by simp [dputPage]

@[simp] theorem lockNext_roll (s : State) (t gd : ℕ) (left held : List ℕ) (pa dl : ℕ) :
    SameRoll s (lockNext s t gd left held pa dl) := by
  unfold lockNext
  split <;> simp

@[simp] theorem thrDone_roll (s : State) (t id : ℕ) (d : MemDone) : SameRoll s (thrDone s t id d) := by
  unfold thrDone
  split <;> simp

@[simp] theorem lockDone_roll (s : State) (t id : ℕ) (d : MemDone) : SameRoll s (lockDone s t id d) := by
  unfold lockDone
  (repeat' split) <;> simp

@[simp] theorem bankPut_roll (s : State) (idx : ℕ) (v : BitVec 64) : SameRoll s (bankPut s idx v) := by
  simp [bankPut]

@[simp] theorem bankSwap_roll (s : State) : SameRoll s (bankSwap s) := by simp [bankSwap]
@[simp] theorem swapBegin_roll (s : State) (who : Option (ℕ × ℕ)) : SameRoll s (swapBegin s who) := ⟨rfl, rfl, rfl⟩

@[simp] theorem swapPoll_roll (s : State) : SameRoll s (swapPoll s) := by
  unfold swapPoll
  (repeat' split) <;> simp

@[simp] theorem stewardFail_roll (s : State) (c : ℕ) : SameRoll s (stewardFail s c) := by simp [stewardFail]

@[simp] theorem stwPoll_roll (s : State) : SameRoll s (stwPoll s) := by
  refine foldl_roll _ (fun t e => ?_) _ _
  dsimp only
  (repeat' split) <;> simp

/-! ### LEHR -/

@[simp] theorem startPass_roll (s : State) (reason : ℕ) (fresh : Bool) : SameRoll s (startPass s reason fresh) := ⟨rfl, rfl, rfl⟩

@[simp] theorem ldgClear_roll (s : State) : SameRoll s (ldgClear s) := ⟨rfl, rfl, rfl⟩

@[simp] theorem ldgCommit_roll (s : State) : SameRoll s (ldgCommit s) := by
  unfold ldgCommit
  dsimp only
  have hbase : ∀ (l : List ℕ) (u : State),
      SameRoll u (l.foldl (fun u m => u.setFld Fld.AGE_MON_BASE (bits m 16 16) (bits m 8 5)) u) :=
    fun l u => foldl_roll _ (fun u m => setFld_roll ..) l u
  (repeat' split) <;> simp [hbase]

/-! ### The Punty ports -/

@[simp] theorem setPtp_roll (s : State) (p : ℕ) (v : PtPort) : SameRoll s (s.setPtp p v) := ⟨rfl, rfl, rfl⟩
@[simp] theorem ptState_roll (s : State) (p st : ℕ) : SameRoll s (ptState s p st) := by
  unfold ptState
  dsimp only
  split
  · exact .refl _
  · exact SameRoll.trans (by simp) (parReady_roll _ (isAgentRec_recOf (by decide) (by decide) (by decide) rfl))

@[simp] theorem ptOut_roll (s : State) (p : ℕ) (f : PtFrame) : SameRoll s (ptOut s p f) := ⟨rfl, rfl, rfl⟩

@[simp] theorem ptPump_roll (fuel p : ℕ) (s : State) : SameRoll s (ptPump fuel p s) := by
  induction fuel generalizing s with
  | zero => exact .refl _
  | succ fuel ih =>
    rw [ptPump]
    (repeat' split) <;> simp [ih]

@[simp] theorem ptSend_roll (s : State) (p typ : ℕ) (pay : BitVec 256) : SameRoll s (ptSend s p typ pay) := by
  simp [ptSend]

@[simp] theorem sendCap_roll (s : State) (p : ℕ) : SameRoll s (sendCap s p) := by simp [sendCap]
@[simp] theorem ptAttempt_roll (s : State) (p k : ℕ) : SameRoll s (ptAttempt s p k) := by simp [ptAttempt]
@[simp] theorem ptEnable_roll (s : State) (p v : ℕ) : SameRoll s (ptEnable s p v) := by simp [ptEnable]

@[simp] theorem floodOn_roll (s : State) (inp : Option ℕ) (typ : ℕ) (pay : BitVec 256) :
    SameRoll s (floodOn s inp typ pay) := by simp [floodOn]

@[simp] theorem flood_roll (s : State) (typ : ℕ) (body : List (ℕ × ℕ × ℕ)) : SameRoll s (flood s typ body) := by
  simp [flood]

/-! ### The fabric ports -/

@[simp] theorem regrant_roll (s : State) (p : ℕ) : SameRoll s (regrant s p) := by simp [regrant]
@[simp] theorem freeDat_roll (s : State) (p e : ℕ) : SameRoll s (freeDat s p e) := by simp [freeDat]

@[simp] theorem fpErr_roll (s : State) (p : ℕ) (f : Fld) (agent typ : ℕ) : SameRoll s (fpErr s p f agent typ) := by simp [fpErr]

@[simp] theorem refuseMsgs_roll (s : State) (p typ : ℕ) (h : Hdr) : SameRoll s (refuseMsgs s p typ h) := by
  simp [refuseMsgs]

@[simp] theorem refuse_roll (s : State) (p typ : ℕ) (h : Hdr) (code : ℕ) : SameRoll s (refuse s p typ h code) := by
  unfold refuse
  dsimp only
  (repeat' split) <;> simp

@[simp] theorem rsWrite_roll (s : State) (base n : ℕ) : SameRoll s (rsWrite s base n) := by simp [rsWrite]

@[simp] theorem rsRead_roll (s : State) (base n : ℕ) : SameRoll s (rsRead s base n).1 :=
  foldl_fst_roll _ (fun p w => by simp) _ _

@[simp] theorem dropHeld_roll (s : State) (h : ℕ) : SameRoll s (dropHeld s h) := by simp [dropHeld]
@[simp] theorem popNotice_roll (s : State) (c : ℕ) : SameRoll s (popNotice s c) := by simp [popNotice]

/-! ### Ingress and writebacks -/

@[simp] theorem readLine_roll (s : State) (line : ℕ) : SameRoll s (readLine s line).1 := by
  unfold readLine
  dsimp only
  (repeat' split) <;> simp

@[simp] theorem decideMsg_roll (s : State) (line typ r : ℕ) (f : Found) : SameRoll s (decideMsg s line typ r f).1 := by
  unfold decideMsg
  split
  · simp
  · dsimp only
    split
    next heq => exact roll_of_eq heq (by simp)
    next heq => exact (roll_of_eq heq (by simp)).trans (by simp)

@[simp] theorem planCoarse_roll (s : State) (line agent : ℕ) (d : Dec) (f : Found) :
    SameRoll s (planCoarse s line agent d f).1 := by
  unfold planCoarse
  dsimp only
  (repeat' split) <;> simp

@[simp] theorem putEntry_roll (s : State) (tid : ℕ) (t : Trk) : SameRoll s (putEntry s tid t) := by
  simp [putEntry]

@[simp] theorem evDone_roll (s : State) (w : Option ℕ) : SameRoll s (evDone s w) := by
  unfold evDone
  split <;> simp

@[simp] theorem sinkWrite_roll (s : State) (line : ℕ) (a : WAsk) : SameRoll s (sinkWrite s line a) := by
  unfold sinkWrite
  dsimp only
  (repeat' split) <;> simp

@[simp] theorem sinkDefault_roll (s : State) (line a kind : ℕ) (v : Seen) : SameRoll s (sinkDefault s line a kind v) := by
  unfold sinkDefault
  dsimp only
  split
  · simp
  split
  · split <;> simp
  split
  · split <;> simp
  exact foldl_roll _ (fun u e => by split <;> simp) _ _

@[simp] theorem fetchStep_roll (s : State) (n : ℕ) (t : Trk) (k : ℕ) : SameRoll s (fetchStep s n t k).1 := by
  unfold fetchStep
  split <;> simp

@[simp] theorem sinkProg_roll (line a next : ℕ) (t : Trk) (fuel k : ℕ) (s : State) :
    SameRoll s (sinkProg line a next t fuel k s) := by
  induction fuel generalizing k s with
  | zero => exact .refl _
  | succ fuel ih =>
    rw [sinkProg]
    have hfetch : SameRoll s (fetchStep s (sliceOf line) t k).1 := fetchStep_roll ..
    split
    next heq => exact roll_of_eq heq hfetch
    next heq =>
      have hu := roll_of_eq heq hfetch
      dsimp only
      split <;> simp [ih, hu]

@[simp] theorem wbSink_roll (s : State) (p e k : ℕ) : SameRoll s (wbSink s p e k) := by
  unfold wbSink
  extract_lets d line n a key
  split
  next u f hread =>
  have hu := roll_of_eq hread (readLine_roll s line)
  extract_lets v missed decided counted op dat user sink
  have hmissed : SameRoll s missed := by simp [missed, hu]
  clear_value missed
  have hdecided : SameRoll s decided := by
    dsimp only [decided]
    split
    · exact hu
    split
    · exact hmissed.trans (sinkDefault_roll ..)
    split
    next heq => exact (hmissed.trans (roll_of_eq heq (matchRule_roll ..))).trans (sinkProg_roll ..)
    next heq => exact (hmissed.trans (roll_of_eq heq (matchRule_roll ..))).trans (noRuleFault_roll ..)
  clear_value decided
  simp [sink, user, counted, hdecided]

@[simp] theorem wbMeets_roll (s : State) (p e tid : ℕ) : SameRoll s (wbMeets s p e tid) := by
  unfold wbMeets
  dsimp only
  (repeat' split) <;> simp

@[simp] theorem wbTry_roll (s : State) (p e : ℕ) : SameRoll s (wbTry s p e) := by
  unfold wbTry
  dsimp only
  (repeat' split) <;> simp

@[simp] theorem censusNote_roll (s : State) (n : ℕ) (t : Trk) : SameRoll s (censusNote s n t) := by
  simp [censusNote]

@[simp] theorem retireNotes_roll (s : State) (tid : ℕ) (t : Trk) : SameRoll s (retireNotes s tid t) := by
  unfold retireNotes
  dsimp only
  (repeat' split) <;> simp

@[simp] theorem retire_roll (s : State) (tid : ℕ) : SameRoll s (retire s tid) := by
  unfold retire
  dsimp only
  (repeat' split) <;> simp

@[simp] theorem runEntry_roll (fuel tid : ℕ) (s : State) : SameRoll s (runEntry fuel tid s) := by
  induction fuel generalizing s with
  | zero => exact .refl _
  | succ fuel ih =>
    rw [runEntry]
    have hu : SameRoll s (rereadPump s tid) := rereadPump_roll s tid
    generalize rereadPump s tid = u at hu
    dsimp only
    split
    · exact hu
    · have hfetch : ∀ k, SameRoll s (fetchStep u (tid / 512) (u.trkE tid) k).1 := fun k => by simp [hu]
      split
      next heq => (repeat' split) <;> simp [ih, roll_of_eq heq (hfetch _)]
      next heq => (repeat' split) <;> simp [ih, roll_of_eq heq (hfetch _)]

@[simp] theorem resume_roll (s : State) (tid : ℕ) : SameRoll s (resume s tid) := by simp [resume]
@[simp] theorem rewaitDat_roll (s : State) (sel : ℕ → Bool) : SameRoll s (rewaitDat s sel) := ⟨rfl, rfl, rfl⟩
@[simp] theorem logicMark_roll (s : State) (c pos : ℕ) : SameRoll s (logicMark s c pos) := by simp [logicMark]

@[simp] theorem takeKept_roll (s : State) (tid : ℕ) : SameRoll s (takeKept s tid).1 := by
  unfold takeKept
  dsimp only
  (repeat' split) <;> simp

@[simp] theorem replayRec_roll (s : State) (tid : ℕ) : SameRoll s (replayRec s tid) := by
  unfold replayRec
  dsimp only
  (repeat' split) <;> simp

@[simp] theorem dbufFill_roll (s : State) (tid : ℕ) (poison : Bool) : SameRoll s (dbufFill s tid poison).1 := by
  unfold dbufFill
  extract_lets c base u
  have hu : SameRoll s u := by simp [u]
  clear_value u
  generalize hr : (List.range 8).foldl _ (u, true) = r
  have hread : SameRoll s r.1 := by
    rw [← hr]
    exact hu.trans (foldl_fst_roll _ (fun p w => by simp) _ (u, true))
  dsimp only
  split <;> simp [hread]

@[simp] theorem cmpWb_roll (s : State) (p e : ℕ) : SameRoll s (cmpWb s p e) := by simp [cmpWb]
@[simp] theorem sinkDone_roll (s : State) (key id : ℕ) : SameRoll s (sinkDone s key id) := by simp [sinkDone]

@[simp] theorem trkWrDone_roll (s : State) (tid id : ℕ) : SameRoll s (trkWrDone s tid id) := by
  unfold trkWrDone
  dsimp only
  (repeat' split) <;> simp

@[simp] theorem takeMemDone_roll (s : State) (d : MemDone) : SameRoll s (takeMemDone s d) := by
  unfold takeMemDone
  dsimp only
  (repeat' split) <;> simp

/-! ### Agents -/

@[simp] theorem pushMnt_roll (s : State) (ms : List (ℕ × MntMsg)) : SameRoll s (pushMnt s ms) := by
  simp [pushMnt]

@[simp] theorem walkBegin_roll (s : State) (kind a : ℕ) : SameRoll s (walkBegin s kind a) := ⟨rfl, rfl, rfl⟩

@[simp] theorem walkStep_roll (s : State) (kind typ op : ℕ) : SameRoll s (walkStep s kind typ op) := by
  simp [walkStep]

@[simp] theorem dropProbes_roll (s : State) (a : ℕ) : SameRoll s (dropProbes s a) := ⟨rfl, rfl, rfl⟩
@[simp] theorem setConf_roll (s : State) (a : ℕ) (c : Option Conf) : SameRoll s (setConf s a c) := ⟨rfl, rfl, rfl⟩

@[simp] theorem probePoll_roll (s : State) : SameRoll s (probePoll s) := by
  unfold probePoll
  split <;> simp

/-! ### The census -/

@[simp] theorem censusBegin_roll (s : State) (x : CensusSet) : SameRoll s (censusBegin s x) := by
  simp [censusBegin]

@[simp] theorem censusState_roll (s : State) (x : CensusSet) (cur : Option ℕ) : SameRoll s (censusState s x cur) := by
  unfold censusState
  split <;> simp

@[simp] theorem pushCensus_roll (s : State) (sec kind who : ℕ) : SameRoll s (pushCensus s sec kind who) := by
  simp [pushCensus]

@[simp] theorem censusCluster_roll (fuel : ℕ) (s : State) (c : ℕ) : SameRoll s (censusCluster fuel s c) := by
  induction fuel generalizing s with
  | zero => exact .refl _
  | succ fuel ih =>
    rw [censusCluster]
    dsimp only
    (repeat' split) <;> simp [ih]

@[simp] theorem windowStep_roll (s : State) (i w c : ℕ) : SameRoll s (windowStep s i w c) := by
  unfold windowStep
  (repeat' split) <;> simp

@[simp] theorem censusWindow_roll (s : State) (i : ℕ) : SameRoll s (censusWindow s i) := by
  unfold censusWindow
  dsimp only
  (repeat' split) <;> simp

@[simp] theorem censusPoll_roll (s : State) : SameRoll s (censusPoll s) := by simp [censusPoll]

/-! ### Integrity -/

@[simp] theorem recordCullet_roll (s : State) (d k w : ℕ) : SameRoll s (recordCullet s d k w) := by
  simp [recordCullet]

@[simp] theorem recordRetired_roll (s : State) (d : ℕ) : SameRoll s (recordRetired s d) := by
  simp [recordRetired]

@[simp] theorem culletTake_roll (s : State) (d k w v : ℕ) : SameRoll s (culletTake s d k w v) := by
  simp [culletTake]

@[simp] theorem retireEvict_roll (s : State) (d : ℕ) : SameRoll s (retireEvict s d) := by simp [retireEvict]

/-! ### Modes and resets -/

@[simp] theorem stopSweep_roll (s : State) : SameRoll s (stopSweep s) := ⟨rfl, rfl, rfl⟩

@[simp] theorem setMode_roll (s : State) (m : ℕ) (forced : Bool) : SameRoll s (setMode s m forced) := by
  simp [setMode]

@[simp] theorem preempt_roll (s : State) : SameRoll s (preempt s) := by simp [preempt]
@[simp] theorem forceMode_roll (s : State) (m : ℕ) : SameRoll s (forceMode s m) := by simp [forceMode]
@[simp] theorem reqDone_roll (s : State) : SameRoll s (reqDone s) := by simp [reqDone]
@[simp] theorem startOSettle_roll (s : State) : SameRoll s (startOSettle s) := ⟨rfl, rfl, rfl⟩
@[simp] theorem settleWalk_roll (s : State) : SameRoll s (settleWalk s) := by simp [settleWalk]
@[simp] theorem drainSettle_roll (s : State) : SameRoll s (drainSettle s) := by simp [drainSettle]

theorem flushWord_roll (s : State) (d : ℕ) (l : List (ℕ × CabW)) (ok : ℕ × CabW → Bool) :
    SameRoll s (l.foldl (fun u e => if ok e then queueEv u d ⟨e.1 / 16, e.1 % 16, none, none⟩ else drawerPut u d e.1 0) s) :=
  foldl_roll _ (fun u e => by split <;> simp) _ _

@[simp] theorem flushWords_roll (s : State) : SameRoll s (flushWords s) :=
  foldl_roll _ (fun t d => flushWord_roll t d _ (fun e => cabOk (encodeCab e.2).toNat)) _ s

@[simp] theorem hutClean_roll (s : State) (c : ℕ) (h : Hutch) : SameRoll s (hutClean s c h) := by
  simp [hutClean]

@[simp] theorem dropHutches_roll (s : State) : SameRoll s (dropHutches s) := ⟨rfl, rfl, rfl⟩
@[simp] theorem dropThreads_roll (s : State) : SameRoll s (dropThreads s) := ⟨rfl, rfl, rfl⟩
@[simp] theorem stopThreads_roll (s : State) : SameRoll s (stopThreads s) := by simp [stopThreads]

@[simp] theorem sweepStep_roll (s : State) (w : Walk) : SameRoll s (sweepStep s w) := by
  unfold sweepStep
  split <;> simp

@[simp] theorem sweepPoll_roll (s : State) : SameRoll s (sweepPoll s) := by simp [sweepPoll]
@[simp] theorem drainPoll_roll (s : State) : SameRoll s (drainPoll s) := by simp [drainPoll]

/-! ### Freezes -/

@[simp] theorem snapCounters_roll (s : State) : SameRoll s (snapCounters s) := by
  unfold snapCounters
  generalize List.range 1664 = ids
  exact foldl_roll _ (fun u id => setReg_roll ..) ids s

@[simp] theorem snapSlices_roll (s : State) : SameRoll s (snapSlices s) := by
  refine foldl_roll _ (fun t e => ?_) _ _
  dsimp only
  (repeat' split) <;> simp

@[simp] theorem snapClusters_roll (s : State) : SameRoll s (snapClusters s) := by simp [snapClusters]
@[simp] theorem snapPorts_roll (s : State) : SameRoll s (snapPorts s) := by
  simp only [snapPorts, SameRoll, setFld_roll, foldl_roll, implies_true, and_self]

@[simp] theorem snapLehr_roll (s : State) : SameRoll s (snapLehr s) := by
  simp only [snapLehr, SameRoll, setFld_roll, and_self]

@[simp] theorem telReady_roll (s : State) (ps : List (List (BitVec 128))) : SameRoll s (telReady s ps) := ⟨rfl, rfl, rfl⟩

@[simp] theorem freezeNow_roll (s : State) (causes : ℕ) : SameRoll s (freezeNow s causes) := by
  simp only [freezeNow, SameRoll, ite_agt, ite_agentRecs, ite_dying, flood_roll, telReady_roll, setFld_roll, snapLehr_roll,
    snapPorts_roll, snapClusters_roll, snapSlices_roll, snapCounters_roll, ite_self, and_self]

@[simp] theorem freezePoll_roll (s : State) : SameRoll s (freezePoll s) := by simp [freezePoll]

/-! ### The jobs of the programs -/

@[simp] theorem jobRead_roll (s : State) (c : CmdRun) (n next : ℕ) : SameRoll s (jobRead s c n next) := by
  simp [jobRead]

@[simp] theorem jobPoll_roll (s : State) (c : CmdRun) (n next : ℕ) : SameRoll s (jobPoll s c n next) := by
  simp [jobPoll]

@[simp] theorem bankLoad_roll (s : State) (words : List (BitVec 64)) : SameRoll s (bankLoad s words) := by
  simp [bankLoad]

@[simp] theorem rbLoadPoll_roll (s : State) : SameRoll s (rbLoadPoll s) := by
  unfold rbLoadPoll
  split <;> simp

@[simp] theorem rbSwap_roll (s : State) : SameRoll s (rbSwap s) := by
  unfold rbSwap
  split <;> simp

@[simp] theorem rbSwapPoll_roll (s : State) : SameRoll s (rbSwapPoll s) := by
  unfold rbSwapPoll
  split <;> simp

@[simp] theorem ledgerEnd_roll (s : State) : SameRoll s (ledgerEnd s) := by
  unfold ledgerEnd
  split <;> simp

@[simp] theorem ledgerLoadPoll_roll (s : State) : SameRoll s (ledgerLoadPoll s) := by
  unfold ledgerLoadPoll
  split <;> simp

@[simp] theorem hostPoll_roll (s : State) : SameRoll s (hostPoll s) := by simp [hostPoll]
@[simp] theorem cmdPoll_roll (s : State) : SameRoll s (cmdPoll s) := by simp [cmdPoll]

/-! ### Starts -/

@[simp] theorem amapWrite_roll (s : State) (e w : ℕ) : SameRoll s (amapWrite s e w) := by simp [amapWrite]

@[simp] theorem startRecord_roll (s : State) (typ : ℕ) (fs : List (ℕ × ℕ × ℕ)) :
    SameRoll s (startRecord s typ fs) := ⟨rfl, rfl, rfl⟩

@[simp] theorem setRun_roll (s : State) (r : Option StartRun) : SameRoll s (setRun s r) := ⟨rfl, rfl, rfl⟩
@[simp] theorem setBoot_roll (s : State) (b : BootC) : SameRoll s (setBoot s b) := ⟨rfl, rfl, rfl⟩

@[simp] theorem toStep_roll (s : State) (k : ℕ) : SameRoll s (toStep s k) := by
  unfold toStep
  split <;> simp

@[simp] theorem bootFrom_roll (s : State) (src : ℕ) : SameRoll s (bootFrom s src) := by simp [bootFrom]

@[simp] theorem bootNeedN_roll (fuel : ℕ) (s : State) (n : ℕ) : SameRoll s (bootNeedN fuel s n).1 := by
  induction fuel generalizing s with
  | zero => exact .refl _
  | succ fuel ih => simp [bootNeedN, ih]

@[simp] theorem bootNeed_roll (s : State) (n : ℕ) : SameRoll s (bootNeed s n).1 := by simp [bootNeed]
@[simp] theorem bootCopy_roll (s : State) (x : Sect) : SameRoll s (bootCopy s x) := by simp [bootCopy]
@[simp] theorem loadBank0_roll (s : State) (ws : List (BitVec 32)) : SameRoll s (loadBank0 s ws) := ⟨rfl, rfl, rfl⟩
@[simp] theorem discBegin_roll (s : State) (r : StartRun) : SameRoll s (discBegin s r) := by simp [discBegin]
@[simp] theorem discEnd_roll (s : State) (r : StartRun) : SameRoll s (discEnd s r).1 := by simp [discEnd]

@[simp] theorem testCluster_roll (s : State) (t : SelfTest) (c : ℕ) : SameRoll s (testCluster s t c) := by
  simp [testCluster]

@[simp] theorem testWord_roll (s : State) (e : ℕ × ℕ) : SameRoll s (testWord s e) := by
  unfold testWord
  (repeat' split) <;> simp

@[simp] theorem loadCluster_roll (s : State) (c : ℕ) : SameRoll s (loadCluster s c) := ⟨rfl, rfl, rfl⟩

@[simp] theorem loadRepair_roll (s : State) : SameRoll s (loadRepair s) := by
  unfold loadRepair
  dsimp only
  refine SameRoll.trans ?_ ((foldl_roll _ (fun u e => by simp) _ _).trans (foldl_roll _ (fun u e => by simp) _ _))
  split <;> simp

@[simp] theorem repairStep_roll (s : State) (r : StartRun) : SameRoll s (repairStep s r).1 := by
  simp [repairStep]

@[simp] theorem verifyLap_roll (s : State) : SameRoll s (verifyLap s) := by
  simp only [verifyLap]
  simp

@[simp] theorem puntyBegin_roll (s : State) : SameRoll s (puntyBegin s) := by simp [puntyBegin]
@[simp] theorem raiseAgain_roll (s : State) : SameRoll s (raiseAgain s) := by simp [raiseAgain]
@[simp] theorem startDone_roll (s : State) (r : StartRun) : SameRoll s (startDone s r) := by simp [startDone]

/-! ### Polls -/

@[simp] theorem retirePoll_roll (s : State) : SameRoll s (retirePoll s) := by simp [retirePoll]


/-! ### Hold slots, notices and adoption -/

@[simp] theorem closeFans_roll (s : State) (sel : ℕ → Bool) : SameRoll s (closeFans s sel) := by
  unfold closeFans
  refine List.foldlRecOn (motive := SameRoll s) _ _ ⟨rfl, rfl, rfl⟩ fun u hu e _ => ?_
  dsimp only
  split
  · exact hu
  · exact hu.trans ⟨rfl, rfl, rfl⟩

@[simp] theorem presentHold_roll (s : State) (h : ℕ) : SameRoll s (presentHold s h) := by
  unfold presentHold
  extract_lets v n
  split
  · exact .refl _
  have hread := rsRead_roll s (holdWord h) 4
  generalize rsRead s (holdWord h) 4 = r at hread
  dsimp only
  (repeat' split) <;> simp [hread]

@[simp] theorem presentAgain_roll (s : State) (p : HoldSlot → Bool) : SameRoll s (presentAgain s p) := by simp [presentAgain]

@[simp] theorem replayEnd_roll (s : State) (n : ℕ) : SameRoll s (replayEnd s n) := by
  unfold replayEnd
  dsimp only
  (repeat' split) <;> simp

@[simp] theorem replayPump_roll (s : State) : SameRoll s (replayPump s) := by
  refine foldl_roll _ (fun u n => ?_) _ s
  dsimp only
  split <;> simp

@[simp] theorem datEnter_roll (s : State) : SameRoll s (datEnter s) := by
  unfold datEnter
  dsimp only
  (repeat' split) <;> simp

@[simp] theorem dropSlice_roll (s : State) (n : ℕ) : SameRoll s (dropSlice s n) := by simp [dropSlice]

@[simp] theorem freeHold_roll (s : State) (h : ℕ) : SameRoll s (freeHold s h) := by
  unfold freeHold
  dsimp only
  split <;> simp

@[simp] theorem takeAccept_roll (s : State) (c tid h ep : ℕ) : SameRoll s (takeAccept s c tid h ep) := by
  unfold takeAccept
  dsimp only
  (repeat' split) <;> simp

@[simp] theorem takeRetire_roll (s : State) (tid : ℕ) : SameRoll s (takeRetire s tid) := by
  unfold takeRetire
  dsimp only
  (repeat' split) <;> simp

@[simp] theorem takeRetireSink_roll (s : State) (key p e : ℕ) : SameRoll s (takeRetireSink s key p e) := by
  simp [takeRetireSink]

@[simp] theorem takeRefuse_roll (s : State) (h : ℕ) (on : HoldWait) : SameRoll s (takeRefuse s h on) := by
  unfold takeRefuse
  dsimp only
  (repeat' split) <;> simp

@[simp] theorem takeNotice_roll (s : State) (c : ℕ) (n : Notice) : SameRoll s (takeNotice s c n) := by
  unfold takeNotice
  cases n with
  | accept tid h ep => simp
  | retire tid => simp
  | retireSink key p e => simp
  | refuse h on => simp
  | poolFree n =>
    dsimp only
    split <;> simp
  | rsvFree n line => simp

@[simp] theorem drainNotices_roll (fuel c : ℕ) (s : State) : SameRoll s (drainNotices fuel c s) := by
  induction fuel generalizing s with
  | zero => exact .refl _
  | succ fuel ih =>
    rw [drainNotices]
    split <;> simp [ih]

@[simp] theorem adopt_roll (s : State) (n : ℕ) (forced : Bool) : SameRoll s (adopt s n forced) := by simp [adopt]

@[simp] theorem sliceFail_roll (s : State) (n : ℕ) : SameRoll s (sliceFail s n) := by
  unfold sliceFail
  dsimp only
  split <;> simp

@[simp] theorem workStep_roll (s : State) (w : Work) : SameRoll s (workStep s w) := by
  cases w <;> simp [workStep]

@[simp] theorem settleN_roll (fuel : ℕ) (s : State) : SameRoll s (settleN fuel s) := by
  induction fuel generalizing s with
  | zero => exact .refl _
  | succ fuel ih =>
    rw [settleN]
    split <;> simp [ih]

/-- The work of a command leaves the agent table, the records of deaths and reclaims, and the reclaim that runs. -/
@[simp] theorem settle_roll (s : State) : SameRoll s (settle s) := settleN_roll _ s

@[simp] theorem refuseHeld_roll (s : State) (h : ℕ) : SameRoll s (refuseHeld s h) := by
  unfold refuseHeld
  dsimp only
  split <;> simp

@[simp] theorem refuseAgent_roll (s : State) (a : ℕ) : SameRoll s (refuseAgent s a) := by simp [refuseAgent]

@[simp] theorem closeAgent_roll (s : State) (a : ℕ) : SameRoll s (closeAgent s a) := by simp [closeAgent]

@[simp] theorem reclaimRun_roll (s : State) (a : ℕ) : SameRoll s (reclaimRun s a) := by simp [reclaimRun]

/-! ### A start sequence and its failure -/

/-- The roll is the same, or a reset has emptied it of its records. -/
def RollOrReset (s u : State) : Prop := SameRoll s u ∨ u.nq.readyPar.filter isAgentRec = []

namespace RollOrReset

theorem refl (s : State) : RollOrReset s s := .inl (.refl s)

theorem of_roll {s u : State} (h : SameRoll s u) : RollOrReset s u := .inl h

theorem of_reset {s u : State} (h : u.nq = nq0) : RollOrReset s u := .inr (by rw [h]; rfl)

theorem trans {s t u : State} (h : RollOrReset s t) (k : RollOrReset t u) : RollOrReset s u := by
  rcases k with k | k
  · rcases h with h | h
    · exact .inl (h.trans k)
    · exact .inr (k.2.1.trans h)
  · exact .inr k

theorem roll_trans {s t u : State} (h : SameRoll s t) (k : RollOrReset t u) : RollOrReset s u := (of_roll h).trans k

theorem trans_roll {s t u : State} (h : RollOrReset s t) (k : SameRoll t u) : RollOrReset s u := h.trans (of_roll k)

end RollOrReset

theorem coreReset_nq (s : State) (keep : Bool) (pt : ℕ) : (coreReset s keep pt).nq = nq0 := rfl

theorem portReset_nq (s : State) : (portReset s).nq = nq0 := rfl

theorem startFail_roll (s : State) (code : ℕ) : RollOrReset s (startFail s code) := by
  unfold startFail
  split
  · exact .refl s
  next r _ =>
  extract_lets cold recorded counted left retained asleep reset start u
  have hreset : u.nq = nq0 := by
    change reset.nq = nq0
    dsimp only [reset]
    split
    · exact portReset_nq _
    · exact coreReset_nq _ false 1
  split <;> exact .of_reset hreset

theorem bootFail_roll (s : State) (code startCode : ℕ) : RollOrReset s (bootFail s code startCode) := by
  unfold bootFail
  split
  · exact .of_roll (bootFrom_roll ..)
  · exact .roll_trans (by simp) (startFail_roll ..)

theorem bootBegin_roll (s : State) : RollOrReset s (bootBegin s) := by
  unfold bootBegin
  extract_lets thread u src boot w
  have hu : SameRoll s u := by simp [u]
  have hw : SameRoll s w := hu.trans (by simp [w])
  clear_value u w
  split
  · split
    · exact .roll_trans hw (bootFail_roll ..)
    · exact .of_roll (hw.trans (by simp))
  · exact .of_roll (hu.trans (by simp))

theorem bootStep_roll (s : State) : RollOrReset s (bootStep s).1 := by
  unfold bootStep
  split
  · exact bootFail_roll ..
  dsimp only
  split
  · exact .of_roll (by simp)
  split
  · exact .roll_trans (by simp) (bootFail_roll ..)
  split
  · exact .roll_trans (by simp) (bootFail_roll ..)
  split
  · exact .of_roll (by simp)
  split
  · exact .roll_trans (by simp) (bootFail_roll ..)
  · exact .of_roll (by simp)

theorem ruleStep_roll (s : State) : RollOrReset s (ruleStep s).1 := by
  unfold ruleStep
  split
  · exact bootFail_roll ..
  split
  · exact bootFail_roll ..
  dsimp only
  split
  · exact .of_roll (by simp)
  split
  · exact .roll_trans (by simp) (bootFail_roll ..)
  · exact .of_roll (by simp)

theorem libStep_roll (s : State) : RollOrReset s (libStep s).1 := by
  unfold libStep
  split
  · exact bootFail_roll ..
  dsimp only
  split
  · exact .of_roll (by simp)
  split
  · exact .roll_trans (by simp) (bootFail_roll ..)
  · exact .of_roll (by simp)

theorem discStep_roll (s : State) (r : StartRun) : RollOrReset s (discStep s r).1 := by
  unfold discStep
  split
  · split
    · exact .refl s
    · exact .of_roll (by simp)
  split
  · split
    · exact .refl s
    dsimp only
    split
    · exact .of_roll (by simp)
    · exact .roll_trans (by simp) (startFail_roll ..)
  · exact libStep_roll s

@[simp] theorem startService_roll (s : State) (r : StartRun) : SameRoll s (startService s r) := by
  unfold startService
  extract_lets stepped settled told raised again
  have htold : SameRoll s told := by simp [told, settled, stepped]
  clear_value told
  have hraised : SameRoll told raised := foldl_roll _ (fun u m => by split <;> simp) _ told
  clear_value raised
  exact (htold.trans hraised).trans (SameRoll.trans (by simp [again]) (foldl_roll _ (fun u p => regrant_roll u p) ..))

theorem startStep_roll (s : State) (r : StartRun) : RollOrReset s (startStep s r).1 := by
  unfold startStep
  dsimp only
  split
  · split <;> exact .of_roll (by simp)
  · split
    · exact .of_roll (by simp)
    · exact .roll_trans (by simp) (startFail_roll ..)
  · exact .roll_trans (by split <;> simp) (bootBegin_roll _)
  · exact bootStep_roll s
  · exact ruleStep_roll s
  · split
    · exact (discStep_roll s r).trans_roll (by simp)
    · exact discStep_roll s r
  · split
    · exact .refl s
    split
    · exact .of_roll (by simp)
    · exact .of_roll (by simp [replayBegin])
  · split
    · exact .refl s
    · exact .of_roll (startService_roll s r)
  · exact .refl s

theorem startRunOn_roll (fuel : ℕ) (s : State) : RollOrReset s (startRunOn fuel s) := by
  induction fuel generalizing s with
  | zero => exact .refl s
  | succ fuel ih =>
    rw [startRunOn]
    split
    · exact .refl s
    dsimp only
    split
    · exact .refl s
    split
    · exact (startStep_roll ..).trans (ih _)
    · exact startStep_roll ..

theorem startPoll_roll (s : State) : RollOrReset s (startPoll s) := startRunOn_roll 16 s

end Sys2Proof.Machine

namespace Sys2Proof.Machine

/-! SUPPORT. What the programs of chapter 8 and the resets that follow a command by themselves may write of an agent's word. No
program writes STATE = 1 (BINDING). STATE = 4 (DEAD) is written where a reclaim begins, with a record, and a reclaim begins only
once the one that runs has ended, with another record (R215, R217). So until two more records are ready, an agent that is DEAD
while a reclaim runs keeps its word or its STATE changes. A reset empties the ready packets, which an empty packet among them
shows. -/

/-! ### Writes of the agent table -/

/-- The bits of an agent's word that a write takes (R83). -/
def agtBits (w : ℕ) : ℕ := w % 2 ^ 24 + w / 2 ^ 32 % 2 ^ 32 * 2 ^ 32

theorem agtWrite_eq (s : State) (a w : ℕ) : ∃ f, agtWrite s a w =
    { shadowAgt (wordWritten (s.setAgt a (agtBits w)) .agt 0 a) a (agtBits w) with fault := f } := ⟨_, rfl⟩

theorem agtWriteState_agt (s : State) (a x : ℕ) : (agtWriteState s a x).agt =
    SMap.set (fun _ => 0) s.agt a (BitVec.ofNat 64 (agtBits (s.agtW a / 8 * 8 + x))) := by
  obtain ⟨f, h⟩ := agtWrite_eq s a (s.agtW a / 8 * 8 + x)
  rw [agtWriteState, h]
  simp [State.setAgt]

theorem agtWrite_nq (s : State) (a w : ℕ) : (agtWrite s a w).nq = s.nq := by
  obtain ⟨v, f, h⟩ : ∃ v f, agtWrite s a w = { shadowAgt (wordWritten (s.setAgt a v) .agt 0 a) a v with fault := f } :=
    ⟨_, _, rfl⟩
  rw [h]
  simp

theorem agtWrite_port (s : State) (a w : ℕ) : (agtWrite s a w).port = s.port := by
  obtain ⟨v, f, h⟩ : ∃ v f, agtWrite s a w = { shadowAgt (wordWritten (s.setAgt a v) .agt 0 a) a v with fault := f } :=
    ⟨_, _, rfl⟩
  rw [h]
  simp

theorem agtWriteState_nq (s : State) (a x : ℕ) : (agtWriteState s a x).nq = s.nq := agtWrite_nq ..

theorem agtWriteState_port (s : State) (a x : ℕ) : (agtWriteState s a x).port = s.port := agtWrite_port ..

theorem agtW_congr {s u : State} (h : u.agt = s.agt) (b : ℕ) : u.agtW b = s.agtW b := by rw [State.agtW, State.agtW, h]

theorem agtState_congr {s u : State} (h : u.agt = s.agt) (b : ℕ) : u.agtState b = s.agtState b := by
  rw [State.agtState, State.agtState, agtW_congr h]

theorem agtWriteState_agt_congr {s u : State} (h : u.agt = s.agt) (a x : ℕ) :
    (agtWriteState u a x).agt = (agtWriteState s a x).agt := by
  rw [agtWriteState_agt, agtWriteState_agt, agtW_congr h, h]

theorem agtW_agtWriteState_ne (s : State) {a b : ℕ} (h : b ≠ a) (x : ℕ) : (agtWriteState s a x).agtW b = s.agtW b := by
  rw [State.agtW, agtWriteState_agt, SMap.getD_set_ne _ _ _ _ _ h, State.agtW]

/-- STATE reads as written. -/
theorem agtState_agtWriteState (s : State) (a : ℕ) {x : ℕ} (hx : x < 8) : (agtWriteState s a x).agtState a = x := by
  rw [State.agtState, State.agtW, agtWriteState_agt, SMap.getD_set_same, BitVec.toNat_ofNat, bits, agtBits]
  omega

/-! ### Agents' programs in terms of these writes -/

theorem toLive_roll (s : State) (a : ℕ) : SameRoll (agtWriteState s a 2) (toLive s a) := by
  unfold toLive
  refine foldl_roll _ (fun t h => ?_) _ _
  dsimp only
  split <;> simp

theorem unbind_roll (s : State) (a : ℕ) : SameRoll (agtWriteState s a 0) (unbind s a) := refuseAgent_roll _ a

theorem confNext_of_decideDeath {s : State} (P : State → Prop) (hroll : ∀ u, SameRoll s u → P u)
    (hdeath : ∀ a cause, P (decideDeath s a cause)) (a : ℕ) : P (confNext s a) := by
  unfold confNext
  split
  · exact hroll s (.refl s)
  split
  · exact hdeath ..
  dsimp only
  (repeat' split)
  · exact hdeath ..
  · exact hroll _ (by simp)
  · exact hroll _ (by simp)

theorem startReclaim_agt (s : State) (a cause : ℕ) : (startReclaim s a cause).agt = (agtWriteState s a 4).agt := by
  have hdead : (raisePort (agtDeadRecord s a cause) 0x09 a).agt = s.agt := by
    rw [raisePort_agt]
    rfl
  rw [← agtWriteState_agt_congr hdead]
  simp [startReclaim]

theorem startReclaim_dying (s : State) (a cause : ℕ) : (startReclaim s a cause).port.dying = some (a, cause) := by
  simp [startReclaim]

theorem isAgentRec_dead {fs : List (ℕ × ℕ × ℕ)} (hfs : fs.all (fun e => 8 ≤ e.2.1) = true) :
    isAgentRec [recOf ((0x40, 0, 8) :: fs)] = true := by
  have htype : bits (recOf ((0x40, 0, 8) :: fs)).toNat 0 8 = 0x40 := recOf_type (by decide) hfs
  simp [isAgentRec, htype]

theorem isAgentRec_reclaimed {fs : List (ℕ × ℕ × ℕ)} (hfs : fs.all (fun e => 8 ≤ e.2.1) = true) :
    isAgentRec [recOf ((0x42, 0, 8) :: fs)] = true := by
  have htype : bits (recOf ((0x42, 0, 8) :: fs)).toNat 0 8 = 0x42 := recOf_type (by decide) hfs
  simp [isAgentRec, htype]

theorem filter_parReady {s : State} {w : BitVec 128} (h : isAgentRec [w] = true) :
    (parReady s w).nq.readyPar.filter isAgentRec = s.nq.readyPar.filter isAgentRec ++ [[w]] := by
  simp [parReady, h]

theorem startReclaim_recs (s : State) (a cause : ℕ) : ∃ w,
    (startReclaim s a cause).nq.readyPar.filter isAgentRec = s.nq.readyPar.filter isAgentRec ++ [[w]] := by
  refine ⟨_, Eq.trans ?_ (filter_parReady (s := s) (isAgentRec_dead
    (fs := [(a, 8, 16), (cause, 24, 3), (s.agtTenant a, 27, 10), (s.agtFp a, 37, 6)] ++ recTail s.now) rfl))⟩
  simp only [startReclaim, flood_roll, setFld_roll, dropProbes_roll, setConf_roll, agtWriteState_nq, raisePort_nq]
  rfl

theorem reclaimEnd_agt (s : State) (a : ℕ) : (reclaimEnd s a).agt = (agtWriteState s a 5).agt := rfl

theorem reclaimEnd_recs (s : State) (a : ℕ) : ∃ w,
    (reclaimEnd s a).nq.readyPar.filter isAgentRec = s.nq.readyPar.filter isAgentRec ++ [[w]] := by
  rw [← agtWriteState_nq s a 5]
  exact ⟨_, filter_parReady (s := { agtWriteState s a 5 with port := _, walks := _ }) (isAgentRec_reclaimed rfl)⟩

end Sys2Proof.Machine

namespace Sys2Proof.Machine

/-! SUPPORT. A word of the agent table through what follows a command by itself. -/

/-- Agent `a` has the word `w` or a STATE other than `st`; DEAD (4) stands for it only while a reclaim runs or after one more
record. It holds until a reset, which the empty packet shows, or three packets of records. -/
def Unrewritten (a w st : ℕ) (s : State) : Prop :=
  [] ∈ s.nq.readyPar.filter isAgentRec → 3 ≤ (s.nq.readyPar.filter isAgentRec).length ∨
    ((s.agtW a = w ∨ s.agtState a ≠ st) ∧
      (st ≠ 4 ∨ s.port.dying ≠ none ∨ 2 ≤ (s.nq.readyPar.filter isAgentRec).length))

namespace Unrewritten

variable {a w st : ℕ} {s u : State}

theorem of_roll (h : SameRoll s u) (hs : Unrewritten a w st s) : Unrewritten a w st u := by
  obtain ⟨hagt, hrecs, hdying⟩ := h
  rw [Unrewritten, hrecs, hdying, agtW_congr hagt, agtState_congr hagt]
  exact hs

theorem of_rollOrReset (h : RollOrReset s u) (hs : Unrewritten a w st s) : Unrewritten a w st u := by
  rcases h with h | h
  · exact hs.of_roll h
  · intro hmark
    rw [h] at hmark
    exact absurd hmark List.not_mem_nil

/-- A write of another STATE, after which the word is of that STATE. -/
theorem write {b x : ℕ} (hx : x < 8) (hst : x ≠ st) (hagt : u.agt = (agtWriteState s b x).agt)
    (h : s.agtW a = w ∨ s.agtState a ≠ st) : u.agtW a = w ∨ u.agtState a ≠ st := by
  rw [agtW_congr hagt, agtState_congr hagt]
  by_cases hb : a = b
  · subst hb
    rw [agtState_agtWriteState s a hx]
    exact .inr hst
  · rw [State.agtState, agtW_agtWriteState_ne s hb]
    exact h

theorem agtWriteState {b x : ℕ} (hx : x < 8) (hst : x ≠ st) (hs : Unrewritten a w st s) :
    Unrewritten a w st (agtWriteState s b x) := by
  rw [Unrewritten, agtWriteState_nq, agtWriteState_port]
  intro hmark
  exact (hs hmark).imp_right fun ⟨hword, hdead⟩ => ⟨write hx hst rfl hword, hdead⟩

/-- A packet of one record is not the empty one. -/
theorem mark_of_append {l : List (List (BitVec 128))} {r : BitVec 128} (h : [] ∈ l ++ [[r]]) : [] ∈ l := by simpa using h

/-- The end of a reclaim: DEAD may stand again for the agent, and there are two packets of records. -/
theorem reclaimEnd {b : ℕ} (hst : st ≠ 5) (hs : Unrewritten a w st s) : Unrewritten a w st (reclaimEnd s b) := by
  obtain ⟨r, hrecs⟩ := reclaimEnd_recs s b
  rw [Unrewritten, hrecs, List.length_append, List.length_singleton]
  intro hmark
  have hsome := List.length_pos_of_mem (mark_of_append hmark)
  rcases hs (mark_of_append hmark) with hmany | ⟨hword, -⟩
  · exact .inl (by omega)
  · exact .inr ⟨write (by decide) hst.symm (reclaimEnd_agt s b) hword, .inr (.inr (by omega))⟩

/-- The begin of a reclaim, with none running: it writes DEAD, and for `st = 4` there are three packets of records. -/
theorem startReclaim {b cause : ℕ} (hnone : s.port.dying = none) (hs : Unrewritten a w st s) :
    Unrewritten a w st (startReclaim s b cause) := by
  obtain ⟨r, hrecs⟩ := startReclaim_recs s b cause
  rw [Unrewritten, hrecs, List.length_append, List.length_singleton, startReclaim_dying]
  intro hmark
  rcases hs (mark_of_append hmark) with hmany | ⟨hword, hdead⟩
  · exact .inl (by omega)
  by_cases hst : st = 4
  · rcases hdead with h | h | h
    · exact absurd hst h
    · exact absurd hnone h
    · exact .inl (by omega)
  · exact .inr ⟨write (by decide) (Ne.symm hst) (startReclaim_agt s b cause) hword, .inl hst⟩

theorem foldl {α : Type} (f : State → α → State) (h : ∀ t x, Unrewritten a w st t → Unrewritten a w st (f t x)) (l : List α)
    (hs : Unrewritten a w st s) : Unrewritten a w st (l.foldl f s) :=
  List.foldlRecOn (motive := Unrewritten a w st) l f hs fun t ih x _ => h t x ih

theorem dying_of_not_reclaiming (h : reclaiming s = false) : s.port.dying = none := by
  simpa [reclaiming] using (Bool.or_eq_false_iff.1 h).1

/-! ### The programs of chapter 8, for STATE = BINDING (1) or DEAD (4) -/

section Programs

variable (hst : st = 1 ∨ st = 4)
include hst

theorem decideDeath (b cause : ℕ) (hs : Unrewritten a w st s) : Unrewritten a w st (decideDeath s b cause) := by
  unfold Machine.decideDeath
  extract_lets _ dropped written
  split
  · exact hs
  split
  · have hdropped : Unrewritten a w st dropped := hs.of_roll (by simp [dropped])
    have hwritten : Unrewritten a w st written := by
      dsimp only [written]
      split
      · exact hdropped.agtWriteState (by decide) (by omega)
      · exact hdropped
    exact hwritten.of_roll ⟨rfl, rfl, rfl⟩
  next hfree =>
    exact hs.startReclaim (dying_of_not_reclaiming (by simpa using (not_or.1 hfree).1))

theorem confNext (b : ℕ) (hs : Unrewritten a w st s) : Unrewritten a w st (confNext s b) :=
  confNext_of_decideDeath _ (fun _ h => hs.of_roll h) (fun b cause => hs.decideDeath hst b cause) b

theorem confStart (b cause : ℕ) (hs : Unrewritten a w st s) : Unrewritten a w st (confStart s b cause) :=
  ((hs.agtWriteState (b := b) (x := 3) (by decide) (by omega)).of_roll (by simp)).confNext hst b

theorem deadPoll (hs : Unrewritten a w st s) : Unrewritten a w st (deadPoll s) := by
  unfold Machine.deadPoll
  split
  · exact hs
  · exact foldl _ (fun t b ht => ht.decideDeath hst b 4) _ (hs.of_roll ⟨rfl, rfl, rfl⟩)

theorem livenessPoll (hs : Unrewritten a w st s) : Unrewritten a w st (livenessPoll s) := by
  unfold Machine.livenessPoll
  extract_lets lost pend port emptied started alive
  have hlost : Unrewritten a w st lost := by
    refine foldl _ (fun t e ht => ?_) _ hs
    (repeat' split)
    · exact ht.confNext hst _
    · exact ht
    · exact ht
  have hemptied : Unrewritten a w st emptied := hlost.of_roll ⟨rfl, rfl, rfl⟩
  have hstarted : Unrewritten a w st started := by
    refine foldl _ (fun t e ht => ?_) _ hemptied
    split
    · exact ht.confStart hst _ _
    · exact ht
  have halive : Unrewritten a w st alive := by
    refine foldl _ (fun t e ht => ?_) _ hstarted
    (repeat' split)
    · exact (ht.agtWriteState (b := e.1) (x := 2) (by decide) (by omega)).of_roll (by simp)
    · exact ht
    · exact ht
  split
  · exact hs
  · refine foldl _ (fun t e ht => ?_) _ halive
    exact (ht.of_roll (takeFree_roll t)).decideDeath hst _ _

theorem bindPoll (hs : Unrewritten a w st s) : Unrewritten a w st (bindPoll s) := by
  unfold Machine.bindPoll
  split
  · dsimp only
    split
    · exact hs
    split
    · exact hs.of_roll (by simp)
    split
    · refine Unrewritten.of_roll (cmdEnd_roll ..) ?_
      exact (hs.agtWriteState (x := 2) (by decide) (by omega)).of_roll (toLive_roll ..)
    · exact hs
  · exact hs

theorem releasePoll (hs : Unrewritten a w st s) : Unrewritten a w st (releasePoll s) := by
  unfold Machine.releasePoll
  split
  · exact hs
  next c _ =>
  extract_lets b u
  have hu : Unrewritten a w st u := by
    refine hs.of_roll ?_
    dsimp only [u]
    (repeat' split) <;> simp
  clear_value u
  split
  · exact hs
  split
  · exact hs.of_roll (by simp)
  split
  · split
    · refine Unrewritten.of_roll (cmdEnd_roll ..) ?_
      exact (hu.agtWriteState (x := 0) (by decide) (by omega)).of_roll (unbind_roll ..)
    · exact hu
  · exact hu

theorem reclaimPoll (fuel : ℕ) (hs : Unrewritten a w st s) : Unrewritten a w st (reclaimPoll fuel s) := by
  induction fuel generalizing s with
  | zero => exact hs
  | succ fuel ih =>
    rw [Machine.reclaimPoll]
    split
    · exact hs
    split
    · next b cause _ =>
      split
      · exact (hs.of_roll (reclaimRun_roll s b)).of_roll ⟨rfl, rfl, rfl⟩
      · have hwalk : Unrewritten a w st (walkStep s 2 0x3D 1) := hs.of_roll (by simp)
        dsimp only
        split
        · exact hwalk
        · exact ih (hwalk.reclaimEnd (by omega))
    · next hnone =>
      split
      · exact hs
      split
      · exact hs
      next b cause l _ =>
        extract_lets port popped state
        have hpopped : Unrewritten a w st popped := hs.of_roll ⟨rfl, rfl, rfl⟩
        refine ih ?_
        split
        · exact hpopped.startReclaim hnone
        · exact hpopped

theorem agentPoll (hs : Unrewritten a w st s) : Unrewritten a w st (agentPoll s) :=
  ((((hs.bindPoll hst).releasePoll hst).of_roll (probePoll_roll _)).deadPoll hst).livenessPoll hst |>.reclaimPoll hst 64

/-! ### What goes on by itself -/

theorem polls (hs : Unrewritten a w st s) : Unrewritten a w st (polls s) := by
  unfold Machine.polls
  extract_lets u
  have hu : SameRoll s u := SameRoll.trans (by simp) (foldl_roll _ (fun t r => bulkPoke_roll t r) _ _)
  clear_value u
  have hagents : Unrewritten a w st (Machine.agentPoll (drainPoll (sweepPoll u))) :=
    ((hs.of_roll hu).of_roll (by simp)).agentPoll hst
  exact (hagents.of_roll (by simp)).of_rollOrReset (startPoll_roll _)

theorem rounds (n : ℕ) (hs : Unrewritten a w st s) : Unrewritten a w st (rounds n s) := by
  induction n generalizing s with
  | zero => exact hs
  | succ n ih =>
    rw [Machine.rounds]
    split
    · exact hs
    · exact ih ((hs.polls hst).of_roll (settle_roll _))

theorem finish (hs : Unrewritten a w st s) : Unrewritten a w st (finish s) := by
  have hrest : Unrewritten a w st (if restful s then s else Machine.rounds 3 (settle s)) := by
    split
    · exact hs
    · exact (hs.of_roll (settle_roll s)).rounds hst 3
  exact hrest.of_roll (by simp [Machine.finish])

end Programs

end Unrewritten

end Sys2Proof.Machine

namespace Sys2Proof.Machine

/-! Three statements about agents fail where a reserved bit of the agent's word is 1: a write of STATE clears it (R5, R83), and
the statements, which speak of every state and not only of those in which reserved bits are 0, have it kept. They name the state
of the command alone, before what follows it, which may write the word again; `Unrewritten` says how far it can. -/

namespace Unrewritten

variable {a w st : ℕ} {s t u : State} {c : Instr}

theorem of_word (hword : s.agtW a = w) (hdead : st ≠ 4 ∨ s.port.dying ≠ none) : Unrewritten a w st s :=
  fun _ => .inr ⟨.inl hword, hdead.imp_right .inl⟩

/-- The state in which a command ends, from the word that a statement gives the agent. -/
theorem of_completes (hst : st = 1 ∨ st = 4) (hrun : exec c s = .next (Machine.finish t))
    (hexec : exec c s = .next (Machine.finish u)) (hword : u.agtW a = w) (hdead : st ≠ 4 ∨ u.port.dying ≠ none) :
    Unrewritten a w st (Machine.finish t) := by
  rw [Host.Outcome.next.inj (hrun.symm.trans hexec)]
  exact (of_word hword hdead).finish hst

end Unrewritten

/-! ### The states -/

/-- Agent 1 is LIVE, and reserved bit 24 of its word is 1. An empty packet of records is ready. The boot program has run and
port 0 is UP. MODE is SERVICE, PORT and CORE are up, and the rest is as after reset. -/
def reservedBit : State :=
  { State.reset with
    vaux := true, portUp := true, coreUp := true
    regs := [(RegName.MODE.addr 0 0, 4), (RegName.BOOT_STATUS.addr 0 0, 2)]
    agt := [(1, 0x1000002)]
    nq := { nq0 with readyPar := [[]] }
    pt := { State.reset.pt with port := [(0, { ptPort0 with state := 3 })] } }

/-- Its command is AGT_KILL of agent 1. -/
def reservedBitKill : State := { reservedBit with cmd := some ⟨0x12, [1, 0, 0, 0], 0, 0, 0, []⟩ }

/-- Its command is AGT_RELEASE of agent 1, of which a request is in progress. -/
def reservedBitRelease : State :=
  { reservedBit with
    cmd := some ⟨0x11, [1, 0, 0, 0], 0, 0, 0, []⟩
    port := { reservedBit.port with recs := [(0, { rec0 with valid := true, hdr := { HdrZero with agent := 1 } })] } }

/-- What the three commands leave: AGT_KILL, AGT_RELEASE, and a DEAD frame of origin 1 for agent 1. -/
def killed : State := agtKill (freshOut reservedBitKill)

def released : State := agtRelease (freshOut reservedBitRelease)

def deadTold : State := ptDead (freshOut reservedBit) 0 firstFrame ⟨1, 5, 1⟩ 1 3

/-- A state whose registers and integrity are those of `reservedBit` has no injector armed. -/
theorem intact_of_reservedBit {s : State} (hregs : s.regs = reservedBit.regs) (hinteg : s.integ = reservedBit.integ) :
    Intact s := by
  have hcluster : ∀ c, c < 16 → ∀ x, x < 5 → reservedBit.fld Fld.CL_INJ_ARM c x = 0 := by decide +kernel
  rw [Intact, hinteg]
  simp only [fld_congr hregs]
  exact ⟨rfl, rfl, by decide +kernel, fun c x hc hx => hcluster c hc x hx, by decide +kernel, by decide +kernel, by decide +kernel⟩

theorem reservedBit_hears : Hears reservedBit 0 firstFrame := by
  unfold Hears
  decide +kernel

theorem killed_rewritten : ¬ Unrewritten 1 0x1000004 4 (finish killed) := by
  unfold Unrewritten
  decide +kernel

theorem released_rewritten : ¬ Unrewritten 1 0x1000001 1 (finish released) := by
  unfold Unrewritten
  decide +kernel

theorem deadTold_rewritten : ¬ Unrewritten 1 0x1000004 4 (finish deadTold) := by
  unfold Unrewritten
  decide +kernel

/-! ### The refutations -/

/-- Refutes O17: AGT_RELEASE of a LIVE agent writes STATE = 1, and the statement has every other bit of the agent's word kept.
A write of the word clears its reserved bits (R5, R83), so that in `reservedBitRelease` bit 24 is gone. -/
theorem not_agentBindingAndRelease : ¬ Obligations.AgentBindingAndRelease := by
  unfold Obligations.AgentBindingAndRelease
  rintro ⟨-, hrelease⟩
  obtain ⟨hlive, -⟩ := hrelease ⟨0x11, [1, 0, 0, 0], 0, 0, 0, []⟩ reservedBitRelease rfl ⟨rfl, rfl, rfl, by decide +kernel⟩
    (intact_of_reservedBit rfl rfl) (by decide +kernel) rfl rfl
  obtain ⟨u, hexec, -, ⟨hword, -, -⟩, -⟩ := hlive rfl (by decide +kernel)
  have hrun : exec .agtRelease reservedBitRelease = .next (finish released) := run_next agtRelease reservedBitRelease rfl
  have hkept : u.agtW 1 = 0x1000001 := hword
  exact released_rewritten (.of_completes (.inl rfl) hrun hexec hkept (.inl (by decide)))

/-- Refutes O18: AGT_KILL writes STATE = 4, and the statement has every other bit of the agent's word kept. A write of the
word clears its reserved bits (R5, R83), so that in `reservedBitKill` bit 24 is gone. -/
theorem not_agentDeath : ¬ Obligations.AgentDeath := by
  unfold Obligations.AgentDeath
  intro h
  obtain ⟨hkill, -⟩ := h reservedBitKill rfl ⟨rfl, rfl, rfl, by decide +kernel⟩ (intact_of_reservedBit rfl rfl) (by decide +kernel)
  obtain ⟨-, -, -, hdies⟩ := hkill ⟨0x12, [1, 0, 0, 0], 0, 0, 0, []⟩ rfl rfl
  obtain ⟨u, hexec, ⟨-, ⟨hword, -⟩, hdying, -⟩, -⟩ := hdies (by decide +kernel) nofun (by decide +kernel)
  have hrun : exec .agtKill reservedBitKill = .next (finish killed) := run_next agtKill reservedBitKill rfl
  have hkept : u.agtW 1 = 0x1000004 := hword
  exact killed_rewritten (.of_completes (.inr rfl) hrun hexec hkept (.inr (by simp [hdying])))

/-- Refutes O59: a DEAD frame writes STATE = 4, and the statement has every other bit of the agent's word kept. A write of the
word clears its reserved bits (R5, R83), so that in `reservedBit` bit 24 is gone. -/
theorem not_floodedFrames : ¬ Obligations.FloodedFrames := by
  unfold Obligations.FloodedFrames
  intro h
  obtain ⟨-, -, -, hdead⟩ := h 0 firstFrame ⟨1, 5, 1⟩ reservedBit rfl reservedBit_hears
  obtain ⟨-, -, -, -, hdies⟩ := hdead 1 3
  obtain ⟨u, hexec, -, -, hdying, -, -, -, -, -, -, -, -, -, -, hword, -⟩ := hdies (by unfold NewFlood; decide +kernel)
    (by decide +kernel) nofun (by decide +kernel) (by decide +kernel) ⟨rfl, rfl, rfl, by decide +kernel⟩
    (intact_of_reservedBit rfl rfl)
  have hrun : exec (.deadFrame 0 firstFrame ⟨1, 5, 1⟩ 1 3) reservedBit = .next (finish deadTold) :=
    run_next (fun s => ptDead s 0 firstFrame ⟨1, 5, 1⟩ 1 3) reservedBit rfl
  have hkept : u.agtW 1 = 0x1000004 := hword
  exact deadTold_rewritten (.of_completes (.inr rfl) hrun hexec hkept (.inr (by simp [hdying])))

end Sys2Proof.Machine
